-- ==== Sys2Proof/Word.lean ====
section
/-!
DEFINITION. The words the model computes with: bytes, strings of bytes, memory lines and digests.
-/

namespace Sys2Proof

/-- One byte (spec/00_scope.md R23, R24). -/
abbrev Byte := BitVec 8

/-- A string of bytes, lowest address first (R23). -/
abbrev Bytes := List (BitVec 8)

/-- A 32-bit register or mailbox word. -/
abbrev Word32 := BitVec 32

/-- A 64-byte line as a 512-bit little-endian value (R222, R361): byte `i` is bits `8i+7 : 8i`. -/
abbrev Line := BitVec 512

/-- A 16-byte block as the string of its bytes in the order presented to AES. -/
abbrev Block := Bytes

/-- A physical address (R34): 52 bits. -/
abbrev PAddr := BitVec 52

/-- A trust-domain identifier: 0 is the open domain (R1 glossary, R5). -/
abbrev Tdid := BitVec 7

end Sys2Proof
end

