-- ==== Sys2Proof/Syntax.lean ====
section
/-!
DEFINITION. The commands of the block: every row of spec/opcode_table.json as one constructor of `Instr`, with the
operands that come from outside the block.
-/

namespace Sys2Proof

/-- Bytes that a DMA read of a buffer returned, or none when a read completed with ERROR (R602). -/
abbrev Buf := Option Bytes

/-- A cluster, counted from MCC0: island index 3 to 29 less 3 (R17). -/
abbrev Cl := Fin 27

/-- The header of a host command message (R596): its mailbox, CMD_ID and process TAG. -/
structure Hdr where
  mbx : Fin 160
  cmdId : BitVec 16
  tag : BitVec 24
  deriving DecidableEq, Repr

/-- A request on a network link (R670). `data` and `be` cover the LEN bytes from ADDR; `opnd` is an atomic's operand,
CAS with the compare value in bits 63:0 and the swap value in bits 127:64 (R672). `link` is the island whose link the
completion returns on. -/
structure MemReq where
  tid : BitVec 16
  addr : BitVec 52
  form : BitVec 2 := 0
  node : BitVec 16 := 0
  len : Nat
  tdid : Tdid
  tower : Bool := false
  ordered : Bool := false
  posted : Bool := false
  atop : BitVec 4 := 0
  wide : Bool := false
  data : Bytes := []
  be : List Bool := []
  opnd : BitVec 128 := 0
  link : Fin 46 := 0
  deriving DecidableEq, Repr, Inhabited

/-- The operation of a site request (R670 OP). -/
inductive SiteOp where
  | read | write | atomic | msg
  deriving DecidableEq, Repr, Inhabited

/-- A request on a site's device link (R670, R682): the operation, the context index and the request. -/
structure SiteReq where
  op : SiteOp
  ctx : BitVec 8
  /-- It addresses host memory (R267). -/
  host : Bool := false
  q : MemReq
  deriving DecidableEq, Repr, Inhabited

/-- ERR_KIND and STATUS of a device-link response (R671, R677). -/
inductive MemErr where
  | none | corrected | uncorrectable
  deriving DecidableEq, Repr, Inhabited

/-- The third result of a vote (R141). -/
inductive Third where
  | active | spare | neither
  deriving DecidableEq, Repr, Inhabited

/-- An inbound TLP after IDE parsing (R345, R690): stream or none, sub-stream, the TEE bit, the IDE additional data,
ciphertext and tag, and what it asks for when decrypted. -/
structure Tlp where
  sub : BitVec 2 := 0
  tee : Bool := false
  aad : Bytes := []
  body : Bytes := []
  tag : Bytes := []
  write : Bool := false
  completion : Bool := false
  q : MemReq
  deriving DecidableEq, Repr, Inhabited

/-- An IDE_KM message (R341, R342): stream, sub-stream, direction (receive or transmit), key set, key. -/
structure KmMsg where
  stream : BitVec 8
  sub : BitVec 2 := 0
  rx : Bool := true
  kset : Bool := false
  key : Bytes := []
  part : Fin 128 := 0
  deriving DecidableEq, Repr, Inhabited

/-- An SPDM request of a requester (R515): connection 0 is DOE, 1 to 31 are relays; the session it came under, its
SPDM version, parameters and body. -/
structure SpdmMsg where
  conn : Fin 32
  sess : Option (Fin 128) := none
  version : BitVec 8 := 0x13
  p1 : BitVec 8 := 0
  p2 : BitVec 8 := 0
  /-- The reserved byte that follows the command byte of a vendor-defined message (R520). -/
  rsvd : BitVec 8 := 0
  body : Bytes := []
  deriving DecidableEq, Repr, Inhabited

/-- Activities of the last microsecond that the governor counts (R427). -/
structure Activity where
  memBytes : Nat := 0
  linkBytes : Nat := 0
  newtBytes : Nat := 0
  belfryLines : Nat := 0
  testBeats : Nat := 0
  deriving DecidableEq, Repr, Inhabited

/-- A wait that hang detection finds overdue (R617), or the item a FIFO lost (R725). -/
inductive Waiting where
  /-- A line operation of a memory cluster waiting for data. -/
  | op (id : Nat)
  /-- A tag-line or metadata fetch. -/
  | fetch (n : Nat)
  /-- The DRAIN_DONE of an entry (R286). -/
  | drain (e : Fin 8192)
  deriving DecidableEq, Repr, Inhabited

/-- What timer 3 of hang detection finds overdue (R617). -/
inductive CmdWait where
  | command (mbx : Fin 160) (cmdId : BitVec 16)
  | cpe
  | dome
  deriving DecidableEq, Repr, Inhabited

/-- A fault report (R608): class, source island index, unit, and the TDID when it is known. -/
structure FaultRep where
  cls : Fin 24 := 0
  island : Fin 46 := 0
  unit : BitVec 8 := 0
  tdid : Option Tdid := none
  deriving DecidableEq, Repr, Inhabited

/-- An ownership report (R277, R288): kind as SPR_OWNF_ID.KIND, 1 NO_ENTRY to 9 INBOUND_DENIED. -/
structure OwnRep where
  kind : BitVec 4 := 0
  tdid : Tdid := 0
  entry : Fin 8192 := 0
  gran : BitVec 40 := 0
  /-- Site of a site kind, else none. -/
  site : Option (Fin 12) := none
  /-- Source island index. -/
  island : Fin 46 := 0
  deriving DecidableEq, Repr, Inhabited


/-- The commands of the block: one constructor per row of the table of operations and events. -/
inductive Instr where
  /-- STREAM_LOAD (R70): Host command that has Tower read a structure stream front to back into the shadow set and
  validate it, answered at COMMITTED, REJECTED or ABORTED. -/
  | streamLoad (h : Hdr) (addr : BitVec 64) (len : Word32) (buf : Buf) (dt : Nat)
  /-- BOOT_STREAM_LOAD (R735): Tower firmware, once started after reset, loads the boot stream from flash and
  requests the reserved keys. -/
  | bootStreamLoad (stream : Buf) (dt : Nat)
  /-- STREAM_RETRY (R88): Host command that reruns steps 12 to 14 on a VALIDATED shadow set after an ABORT and
  starts PREPARE at once. -/
  | streamRetry (h : Hdr)
  /-- COMMIT_TIME_REACHED (R81): The commit-time comparator fires for a validated stream, or validation ends with
  COMMIT_TIME zero; Spire broadcasts PREPARE and opens the 10 us window. -/
  | commitTimeReached (dt : Nat)
  /-- ISLAND_PREPARE (R80): An island receives PREPARE and either sends REFUSED or enters DRAINING. -/
  | islandPrepare (i : Fin 46)
  /-- BOUNDARY_REACHED (R78): A draining island reaches its boundary, sends PREPARED and holds its ingress. -/
  | boundaryReached (i : Fin 46)
  /-- PREPARED_RECEIVED (R81): Spire receives a PREPARED; on the last one it swaps its own tables and broadcasts
  COMMIT. -/
  | preparedReceived (i : Fin 46)
  /-- REFUSED_RECEIVED (R81): Spire receives REFUSED, or a participant resets while COLLECTING, and broadcasts
  ABORT with status ABORTED. -/
  | refusedReceived (i : Fin 46)
  /-- PREPARE_WINDOW_EXPIRY (R81): The 10 us PREPARE window expires before every PREPARED; Spire broadcasts ABORT
  with REASON PREPARE_TIMEOUT. -/
  | prepareWindowExpiry
  /-- ISLAND_COMMIT (R80): A PREPARED island receives COMMIT, copies shadow to active, applies RWL presets and
  locks, sends COMMITTED and admits work. -/
  | islandCommit (i : Fin 46)
  /-- ISLAND_ABORT (R80): An island in DRAINING or PREPARED receives ABORT, admits work again and returns to RUN.
  -/
  | islandAbort (i : Fin 46)
  /-- COMMITTED_RECEIVED (R81): Spire receives a COMMITTED; on the last it sets STATE COMMITTED and returns to
  IDLE. -/
  | committedReceived (i : Fin 46)
  /-- COMMITTED_TIMEOUT (R83): A participant's COMMITTED has not arrived 10 us after COMMIT; Spire raises a hang
  fault on it and counts it as COMMITTED. -/
  | committedTimeout (i : Fin 46)
  /-- ARCHIVE_COPY (R87): After a commit Tower copies the committed stream into the HBM stream archive and keeps
  each section's digest. -/
  | archiveCopy
  /-- ISLAND_SECTION_LOAD (R86): An island leaving reset or power-down obtains its committed sections, replica,
  records and RWL values from Tower before admitting work. -/
  | islandSectionLoad (i : Fin 46) (archive : Buf)
  /-- LANE_KNOWN_ANSWER_TEST (R137): A lane that powers on runs the BASE known-answer vectors; a failing lane
  becomes FAULTED and a spare takes its socket. -/
  | laneKnownAnswerTest (c : Cl) (sock : Fin 16) (pass : Bool)
  /-- LANE_GROUP_POWER_ON (R742): At the first commit, lanes power on in groups of eight every 2 us, active lanes
  first. -/
  | laneGroupPowerOn
  /-- AUDIT_WINDOW_END (R138): An audit window of 2^AUDIT_WINDOW_LOG2 lclk ends; each spare moves to its next
  audited socket, with the assignment recomputed if spares changed. -/
  | auditWindowEnd (c : Cl)
  /-- LANE_OUTPUT (R106): A lane's data leaves 16 lclk and its tag or verdict 18 lclk after issue; audited outputs
  are compared before release. -/
  | laneOutput (c : Cl) (id : Nat) (equal : Bool)
  /-- LANE_VOTE (R141): The third result of a re-issued item arrives and decides spare faulty, active lane faulty
  or undecided. -/
  | laneVote (c : Cl) (id : Nat) (third : Third)
  /-- LANE_SWAP_ORDER (R143): Spire orders a hitless swap; the lowest healthy spare leaves audit and joins the
  active lane in lockstep in the window of R744. -/
  | laneSwapOrder (c : Cl) (sock : Fin 16)
  /-- LOCKSTEP_COMPLETE (R144): After 64 lclk of lockstep the swap waits for the next transaction boundary. -/
  | lockstepComplete (c : Cl)
  /-- SOCKET_SWITCH (R144): At a transaction boundary the socket multiplexer switches to the spare and the old
  lane is flushed and gated; Spire raises LANE_SWAP_DONE. -/
  | socketSwitch (c : Cl)
  /-- AGEING_READING (R621): A lane ageing monitor reading reaches the BASE limit and Spire orders a swap when a
  healthy spare exists. -/
  | ageingReading (c : Cl) (sock : Fin 16) (v : BitVec 8)
  /-- WEAR_PERIOD (R622): Every 3,600 s Spire compares the most aged active lane with the least aged spare of each
  cluster and orders a swap on a difference of 0x10 or more. -/
  | wearPeriod (dt : Nat)
  /-- SCHEDULE_FILL (R111): A key from Tower or the pair-key cache arrives and is expanded into a key-schedule
  cache entry in 8 lclk, releasing waiting lines. -/
  | scheduleFill (c : Cl) (slot : Nat)
  /-- SCHEDULE_FILL_REFUSED (R464): Tower refuses a schedule fill because the slot is not usable, and the waiting
  request fails closed. -/
  | scheduleFillRefused (c : Cl) (slot : Nat)
  /-- SCHEDULE_INVALIDATE (R112): A slot invalidation reaches a cluster and takes effect between two issues;
  unpinned entries are zeroed within 4 lclk. -/
  | scheduleInvalidate (c : Cl) (slot : Nat)
  /-- CPE_START (R158): A write of a descriptor address to TWR_CPE_DESC starts one control-plane engine operation.
  -/
  | cpeStart (addr : Word32) (desc aad inp aux : Buf)
  /-- CPE_DONE (R159): A control-plane engine operation ends, writes its result or failure output and sets DONE.
  -/
  | cpeDone
  /-- DOME_DERIVE (R446): Tower requests a derivation from the Dome engine, run one at a time in request order. -/
  | domeDerive (kind : BitVec 2) (slot : Fin 4096)
  /-- DOME_DERIVE_DONE (R163): A Dome derivation ends and its output is written into a slot or kept inside Dome.
  -/
  | domeDeriveDone
  /-- DOME_SEAL (R454): Dome seals a LIVE exportable slot's key into a Dome blob. -/
  | domeSeal (slot : Fin 4096) (sealId : Bytes)
  /-- DOME_UNSEAL (R454): Dome unseals a Dome blob into an EMPTY slot whose prepared purpose matches. -/
  | domeUnseal (slot : Fin 4096) (blob : Bytes)
  /-- MCC_WRITE_REQUEST (R193): A write request reaches an MCC: ownership check, optional read-modify-write,
  signature add, encryption, MP write and tag install. -/
  | mccWriteRequest (k : Fin 8) (q : MemReq)
  /-- MCC_READ_REQUEST (R196): A read request reaches an MCC: ownership check, read-hold reservation, data read
  and tag fetch if needed. -/
  | mccReadRequest (k : Fin 8) (q : MemReq)
  /-- MCC_ATOMIC_REQUEST (R197): An atomic reaches an MCC; OPEN atomics read and write plaintext, class C atomics
  run as read-modify-write, invalid ones complete ERROR. -/
  | mccAtomicRequest (k : Fin 8) (q : MemReq)
  /-- MP_DATA_ARRIVAL (R195): A data line returns on MP and waits as ciphertext until its tag word is present,
  then issues to a lane. -/
  | mpDataArrival (k : Fin 8) (id : Nat) (data : Bytes) (err : MemErr)
  /-- TAG_LINE_ARRIVAL (R181): A fetched tag line arrives; invalid words are filled and waiting reads proceed, or
  all fail on an uncorrectable error. -/
  | tagLineArrival (k : Fin 8) (t : Nat) (data : Bytes) (err : MemErr)
  /-- READ_VERDICT (R107): A lane's tag verdict is ready; on match the requested bytes are released, on mismatch
  the read completes ERROR with all-ones fill. -/
  | readVerdict (k : Fin 8) (id : Nat)
  /-- MP_WRITE_ACCEPT (R36): MP accepts a write's last beat; the write completes once its tag word is installed,
  and flush progress is updated. -/
  | mpWriteAccept (k : Fin 8) (id : Nat)
  /-- TAG_FLUSH (R184): Writing 1 to MCC_TAG_FLUSH.FLUSH starts a write-back of every dirty tag word. -/
  | tagFlush (k : Fin 8)
  /-- LINE_INIT (R198): Initialisation writes a region line as zero filler with SECTOR_MAP 0xF and a Tag Hash tag
  in a free lane slot. -/
  | lineInit (k : Fin 10) (e : Fin 8192)
  /-- PCC_READ_REQUEST (R232): A class R or OPEN read reaches a PCC; it fetches data, tag and missing chain and
  checks fence records. -/
  | pccReadRequest (p : Fin 2) (q : MemReq)
  /-- PCC_WRITE_REQUEST (R234): A class R write takes the next minor counter, encrypts after the chain verifies
  and updates the cached counter line. -/
  | pccWriteRequest (p : Fin 2) (q : MemReq)
  /-- METADATA_ARRIVAL (R232): A fetched counter line, tree node or tag line arrives and is verified by Tag Hash-
  only issues before install. -/
  | metadataArrival (p : Fin 2) (off : Nat) (data : Bytes) (err : MemErr)
  /-- NEWT_COPY (R253): Newt reads and verifies a group's lines under the old slot in the copy phase. -/
  | newtCopy (ctx : Fin 4) (group : Nat) (lines : List (Nat × Bytes × Bytes × MemErr))
  /-- NEWT_COMMIT (R254): Newt's first lane issue of a group's re-encrypted lines starts the commit phase and
  holds writes to the group. -/
  | newtCommit (ctx : Fin 4) (group : Nat) (n : Fin 9)
  /-- NEWT_HOLD_TIMEOUT (R256): 144 lclk after the commit phase began, held writes are released and unissued
  copies discarded. -/
  | newtHoldTimeout (ctx : Fin 4) (group : Nat)
  /-- NEWT_GROUP_RETIRE (R258): A group whose lines all have NEWKEY and tags installed retires; Newt advances B
  and sends it to every MCC. -/
  | newtGroupRetire (ctx : Fin 4)
  /-- NEWT_MOVE_COMPLETE (R261): B passes the region's last line; Tower makes the new slot the region's, retires
  the old one and clears the move context. -/
  | newtMoveComplete (ctx : Fin 4)
  /-- SITE_REQUEST (R267): A request from a site reaches its site guard and is stamped with its context's TDID or
  refused. -/
  | siteRequest (i : Fin 12) (q : SiteReq)
  /-- INBOUND_SITE_REQUEST (R269): A request addressed into a site is delivered only when a valid INBOUND context
  carries its TDID. -/
  | inboundSiteRequest (i : Fin 12) (link : Nat) (q : MemReq)
  /-- SITE_COMPLETION (R270): A completion returning to a site passes the guard unchecked, matched by transaction
  identifier. -/
  | siteCompletion (i : Fin 12) (tid : BitVec 16) (ok : Bool) (data : Bytes)
  /-- ROT_UPDATE (R282): A replica applies an entry update (DRAINING, SCRUBBING, LIVE, FREE or attribute change)
  from Tower between two checks. -/
  | rotUpdate (r : Fin 10)
  /-- INFLIGHT_ZERO (R282): A DRAINING entry's in-flight count reaches zero and the replica sends DRAIN_DONE once.
  -/
  | inflightZero (r : Fin 10) (e : Fin 8192)
  /-- DRAIN_DONE_RECEIVED (R283): Tower receives DRAIN_DONE; after the last it retires the slot if needed and
  sends FREE or SCRUBBING with new contents. -/
  | drainDoneReceived (r : Fin 10) (e : Fin 8192)
  /-- IOMMU_DONE (R287): Host command reporting IOMMU invalidation complete; Tower clears STALE_VALID on the
  region's entries. -/
  | iommuDone (h : Hdr) (part region : Word32)
  /-- OWNERSHIP_REPORT (R288): An ownership fault report reaches Spire and either coalesces into an open record or
  opens a record and raises a fault. -/
  | ownershipReport (rep : OwnRep) (dt : Nat)
  /-- OWNF_RECORD_FREE (R290): Writing 1 to SPR_OWNF_ID VALID frees a detail record and acknowledges its fault for
  escalation. -/
  | ownfRecordFree (n : Fin 16)
  /-- GECKO_DECAY (R293): Every 2^DECAY_LOG2 us all Gecko counters of an MCC halve in one lclk. -/
  | geckoDecay (k : Fin 8)
  /-- GECKO_WINDOW_WRITE (R294): A write to MCC_GECKO_WIN sets the window and zeroes its 16 counters. -/
  | geckoWindowWrite (k : Fin 8) (n : Fin 64) (v : Word32)
  /-- FABRIC_SEND (R313): A store or atomic for a fabric address reaches an FCC, is refused or assigned NEXT_SEQ
  and sealed. -/
  | fabricSend (f : Fin 16) (q : MemReq)
  /-- PAIR_KEY_ARRIVAL (R303): A pair key derived by Tower reaches the FCC and waiting packets proceed. -/
  | pairKeyArrival (f : Fin 16) (e : Fin 2048)
  /-- SEND_EPOCH_CHANGE (R305): A send entry in CHANGING has drained its acknowledgements, takes the next epoch's
  key, resets NEXT_SEQ and reopens. -/
  | sendEpochChange (f : Fin 16) (e : Fin 2048)
  /-- PACKET_RECEIVE (R320): A packet arrives on FP and is sorted by the ordered tests into drop, ACK or REPLY
  handling, epoch change, duplicate or hold. -/
  | packetReceive (f : Fin 16) (pkt : Bytes) (buf : BitVec 16)
  /-- RECEIVE_EPOCH_CHANGE (R326): The candidate key for EPOCH + 1 arrives and the held SEQ 0 packet is
  authenticated under it, advancing or leaving the entry. -/
  | receiveEpochChange (f : Fin 16) (e : Fin 2048)
  /-- PACKET_RELEASE (R322): A held packet at EXPECTED is fetched, authenticated and opened by a lane and its
  requests enter the hub. -/
  | packetRelease (f : Fin 16) (e : Fin 2048)
  /-- PACKET_DONE (R327): A released packet's writes complete, its atomic result is recorded or its requests are
  refused, making it done. -/
  | packetDone (f : Fin 16) (e : Fin 2048) (seq : BitVec 48) (ok : Bool)
  /-- ACK_SEND (R328): A receive entry sends an ACK when ACK_SEQ has advanced and a count, interval or idle
  condition holds. -/
  | ackSend (f : Fin 16) (e : Fin 2048)
  /-- ACK_INTERVAL_EXPIRY (R328): ACK_INTERVAL passes since the oldest unacknowledged packet became done,
  triggering an ACK. -/
  | ackIntervalExpiry (f : Fin 16) (e : Fin 2048)
  /-- ATOMIC_RESULT (R332): An atomic's old value or error returns from the memory cluster, is recorded in the
  reply cache and a REPLY is sent. -/
  | atomicResult (f : Fin 16) (e : Fin 2048) (seq : BitVec 48) (ok : Bool) (old : BitVec 64)
  /-- RETRY_TIMEOUT (R318): A stream's oldest unfreed packet waits RETRY_TIMEOUT; every unfreed packet is resent
  in order. -/
  | retryTimeout (f : Fin 16) (e : Fin 2048)
  /-- RETRY_SPAN_EXPIRY (R319): A packet waits RETRY_SPAN since first send; the send entry enters LOST, frees
  handles and fails fences and atomics. -/
  | retrySpanExpiry (f : Fin 16) (e : Fin 2048)
  /-- REPLY_HOLD_EXPIRY (R334): A reply-cache entry's AGE reaches REPLY_HOLD and the entry is freed. -/
  | replyHoldExpiry (f : Fin 16) (n : Fin 8192)
  /-- REPLY_CACHE_AGE_TICK (R334): Every 32 us the AGE of recorded reply-cache entries advances. -/
  | replyCacheAgeTick (f : Fin 16)
  /-- HOST_INBOUND_TLP (R345): An inbound TLP on HP is IDE-checked and decrypted per stream and stamped with TDID
  per TDI state and TEE bit, or dropped. -/
  | hostInboundTlp (ctx : Option (BitVec 8)) (tlp : Tlp)
  /-- HOST_OUTBOUND_REQUEST (R346): An outbound request is sent on its partition's bound stream with TEE set, or
  without IDE for TDID 0, or completes ERROR. -/
  | hostOutboundRequest (q : MemReq)
  /-- IDE_KM_QUERY (R341): IDE_KM QUERY request answered by HCC as responder. -/
  | ideKmQuery (m : KmMsg)
  /-- IDE_KM_KEY_PROG (R342): IDE_KM KEY_PROG places a key into a link-purpose slot of the owning partition. -/
  | ideKmKeyProg (m : KmMsg)
  /-- IDE_KM_K_SET_GO (R341): IDE_KM K_SET_GO activates a key set for a sub-stream and direction. -/
  | ideKmKSetGo (m : KmMsg)
  /-- IDE_KM_K_SET_STOP (R342): IDE_KM K_SET_STOP stops a key set and Tower zeroes its slots. -/
  | ideKmKSetStop (m : KmMsg)
  /-- GET_TDISP_VERSION (R344): TDISP GET_TDISP_VERSION message answered for a partition's TDI. -/
  | getTdispVersion (part : Fin 128)
  /-- GET_TDISP_CAPABILITIES (R344): TDISP GET_TDISP_CAPABILITIES message answered for a partition's TDI. -/
  | getTdispCapabilities (part : Fin 128)
  /-- LOCK_INTERFACE_REQUEST (R345): Binds the TDI to a Secure stream and the partition's lowest TDID, or errors
  for a TDID 0-only partition. -/
  | lockInterfaceRequest (part : Fin 128) (stream : BitVec 8)
  /-- GET_DEVICE_INTERFACE_REPORT (R345): Returns the partition's MMIO ranges and the digest of its standing
  evidence record. -/
  | getDeviceInterfaceReport (part : Fin 128)
  /-- GET_DEVICE_INTERFACE_STATE (R344): Returns the TDI state. -/
  | getDeviceInterfaceState (part : Fin 128)
  /-- START_INTERFACE_REQUEST (R344): Moves a locked TDI to RUN. -/
  | startInterfaceRequest (part : Fin 128) (nonce : Bytes)
  /-- STOP_INTERFACE_REQUEST (R344): Stops the TDI, returning it to CONFIG_UNLOCKED. -/
  | stopInterfaceRequest (part : Fin 128)
  /-- SIG_OPEN (R357): Host command that checks a signature descriptor, sets SIGN on every covering entry and
  answers with handle and index. -/
  | sigOpen (h : Hdr) (addr : BitVec 64) (buf : Buf)
  /-- SIG_CLOSE (R374): Host command that clears SIGN on covering entries and moves the signature to CLOSING
  behind close markers. -/
  | sigClose (h : Hdr) (sig : Word32)
  /-- SIG_FREE (R374): Host command that frees a signature, or defers the free until CLOSED. -/
  | sigFree (h : Hdr) (sig : Word32)
  /-- PARTIAL_READY (R375): A unit's close marker arrives and its partial is ready; after the last the combiner
  starts the merge. -/
  | partialReady (k : Fin 8) (idx : Fin 64)
  /-- MERGE_COMPLETE (R376): The combiner finishes merging the eight partials into the home unit and the signature
  enters CLOSED. -/
  | mergeComplete
  /-- CHECK_SUBMIT (R380): Host command that submits a check descriptor, holding references on its signatures and
  fence. -/
  | checkSubmit (h : Hdr) (addr : BitVec 64) (buf : Buf)
  /-- CHECK_START (R381): A check whose three signatures are CLOSED starts in readiness order on the combiner. -/
  | checkStart
  /-- CHECK_COMPLETE (R387): A check completes; Tower writes its result bytes and signals its fence normally or
  with the verdict error. -/
  | checkComplete
  /-- FAULT_REPORT (R417): A fault report reaches Spire's escalation unit, which coalesces it or chooses its
  level, fences and takes the level's actions. -/
  | faultReport (rep : FaultRep) (dt : Nat)
  /-- CAPTURE_SEALED (R416): Tower reports the capture record sealed and Spire carries out the pending L3 or L4
  reset. -/
  | captureSealed
  /-- CAPTURE_WAIT_EXPIRY (R416): CAPTURE_WAIT_US passes after an L3 or L4 fault with no sealed record, and Spire
  acts at once. -/
  | captureWaitExpiry (dt : Nat)
  /-- CAPTURE_RECORD_WRITE (R626): Tower firmware writes and signs a capture record into the capture ring, writing
  STATE sealed last. -/
  | captureRecordWrite (dt : Nat)
  /-- DOMAIN_STATUS_NOTICE (R631): Tower encodes, signs and writes a domain-status notice to the notice ring and
  MBX2. -/
  | domainStatusNotice
  /-- FAULT_ACK (R419): Writing 1 to a bit of SPR_ESC_PENDING acknowledges that fault class. -/
  | faultAck (c : Fin 24)
  /-- EVENT_DISPATCH (R399): Spire dispatches the next queued event to every enabled state machine, which takes a
  transition, runs its actions and enters NEXT. -/
  | eventDispatch (dt : Nat)
  /-- EVENT_POST (R397): A write to SPR_EVENT_POST queues an event of the code range permitted to the writer. -/
  | eventPost (tower : Bool) (v : Word32)
  /-- FSM_TIMER_EXPIRY (R407): A state machine timer 4 to 31 expires and raises its TIMER event. -/
  | fsmTimerExpiry (n : Fin 32) (dt : Nat)
  /-- SCHEDULE_ARM (R424): A write setting ARMED in SPR_SCHED_HI arms a schedule slot owned by FREEZE_AT or
  FSM_SCHEDULE. -/
  | scheduleArm (n : Fin 8) (hi : Word32)
  /-- SCHEDULE_SLOT_FIRE (R424): Secure time reaches a slot's target; the slot disarms, raises SCHEDULE and, for
  FREEZE_AT, orders a freeze. -/
  | scheduleSlotFire (n : Fin 8) (dt : Nat)
  /-- PPS_EDGE (R422): A rising PPS_IN edge loads a pending seed, or is accepted and slews secure time, or is
  rejected. -/
  | ppsEdge (dt : Nat)
  /-- PPS_MISSED (R423): No edge accepted within 1,001 ms, then each further 1,000 ms; raises PPS_MISSED and may
  clear LOCKED. -/
  | ppsMissed (dt : Nat)
  /-- TIME_SEED (R421): Tower firmware writes SPR_TIME_SEED, setting SEED_PENDING for the next PPS edge. -/
  | timeSeed (v : Word32)
  /-- CURVE_SAMPLE (R412): A curve comparator samples its quantity each PERIOD_US and raises CURVE_ABOVE or
  CURVE_BELOW. -/
  | curveSample (n : Fin 64) (dt : Nat)
  /-- GOVERNOR_TICK (R428): Every 1 us the governor estimates power, updates credit and PEAK_TIME and applies or
  releases throttle stages. -/
  | governorTick (dt : Nat) (act : Activity)
  /-- RELEASE_TIMER_EXPIRY (R431): The GOVERNOR release timer expires after RELEASE_STEP_US and the next throttle
  stage is released. -/
  | releaseTimerExpiry (dt : Nat)
  /-- ISLAND_HANG (R617): Hang timer 0 expiry: an island has not acknowledged a Spire command or table update;
  class 11 is reported. -/
  | islandHang (i : Fin 46)
  /-- TOWER_SERVICE_HANG (R617): Hang timer 1 expiry: a fill, invalidation or replica load from Tower is overdue;
  waiters fail closed, class 13. -/
  | towerServiceHang (i : Fin 46) (slot : Fin 4096)
  /-- MEMORY_HANG (R617): Hang timer 2 expiry: a fetch, memory request, handle or DRAIN_DONE is overdue; waiters
  fail closed and entries are freed. -/
  | memoryHang (i : Fin 46) (w : Waiting)
  /-- COMMAND_HANG (R617): Hang timer 3 expiry: a command not started or an engine operation not ended is
  abandoned. -/
  | commandHang (w : CmdWait)
  /-- LATE_RESPONSE (R620): A response arrives after its wait was failed closed and is discarded and counted. -/
  | lateResponse (i : Fin 46)
  /-- CLOCK_MONITOR_WINDOW (R716): Each 1 us window an island clock monitor checks its count and raises class 21
  or releases the island. -/
  | clockMonitorWindow (i : Fin 46) (good : Bool)
  /-- FIFO_PARITY_ERROR (R725): A FIFO word with bad parity reaches its reader and its item is discarded with a
  class 20 report. -/
  | fifoParityError (i : Fin 46) (w : Option Waiting)
  /-- BAD_PARITY_BEAT (R679): A port beat with bad parity is discarded before any FIFO and raises class 20. -/
  | badParityBeat (p : Fin 39)
  /-- RAIL_UP (R442): The hub rail comes up; Dome decodes fuses, finishes a pending transition, checks or
  generates the Domain Root and becomes READY. -/
  | railUp
  /-- RAIL_DOWN (R736): The hub rail falls; every island stops and Dome moves to VBAT, clearing DEBUG and the
  TRAY_REQ_N latch. -/
  | railDown
  /-- VBAT_APPLY (R731): VBAT rises from below 1.0 V with the rail absent, resetting the VBAT domain. -/
  | vbatApply
  /-- HRESET_FALL (R733): HRESET_N low clamps every port and resets every island except DOM. -/
  | hresetFall
  /-- HRESET_RISE (R735): HRESET_N rises; fuse decode, PLL lock and island reset release begin, and Dome runs
  R442. -/
  | hresetRise
  /-- ROM_LOADER_START (R582): Once PLLs lock and the state is not pending, the ROM loader reads, checks and
  verifies the firmware image and starts it. -/
  | romLoaderStart (image : Buf)
  /-- RECOVERY_WORD (R584): In recovery a word written to MBX0 is taken; after three the ROM loader fetches and
  tries the image and answers. -/
  | recoveryWord (w : Word32) (buf : Buf)
  /-- TAMPER_INPUT (R465): An enabled TAMPER_IN is detected at its active level after the filter and Dome
  zeroises. -/
  | tamperInput (n : Fin 4)
  /-- VBAT_LOW_TIMEOUT (R465): VBAT stays below 1.7 V for 10 us with the rail present, or 10 us after a Domain
  Root write, and Dome zeroises. -/
  | vbatLowTimeout
  /-- NOISE_FAIL (R440): Dome's noise source fails its health tests; NOISE_FAIL is set and no root or mask is
  generated. -/
  | noiseFail
  /-- LATCHED_CLEAR (R470): A Tower write clearing DOM_TAMPER_STATUS.LATCHED releases TAMPER_OUT_N only once a
  fresh Domain Root is READY. -/
  | latchedClear (v : Word32)
  /-- SLOT_EXPIRY (R452): At the first governor tick where secure time reaches a slot's EXPIRY, Tower retires the
  slot. -/
  | slotExpiry (slot : Fin 4096)
  /-- SLOT_INVALIDATION_ACKED (R461): Every cluster has acknowledged a RETIRING slot's invalidation; its key bytes
  are zeroed and it enters DEAD. -/
  | slotInvalidationAcked (slot : Fin 4096)
  /-- BLOB_UNWRAP (R456): Host command that checks a tenant blob, derives BLOB_KEK into staging and unwraps the
  key into an EMPTY slot. -/
  | blobUnwrap (h : Hdr) (wrap : Word32) (addr : BitVec 64) (buf : Buf)
  /-- SLOT_RETIRE (R461): Host command that retires a LIVE slot, refusing fills and sending invalidations. -/
  | slotRetire (h : Hdr) (slot : Word32)
  /-- LC_CHALLENGE (R485): Host command that makes Tower draw a fresh 32-byte nonce into TWR_LC_CHALLENGE. -/
  | lcChallenge (h : Hdr)
  /-- LC_TRANSITION (R487): LC_REQUEST with a TRANSITION token: checks, then digest fuses, INTENT, zeroisation and
  ERASE_ALL, COMMIT fuses and SEALED. -/
  | lcTransition (h : Hdr) (addr : BitVec 64) (token : Buf)
  /-- DEBUG_OPEN (R493): LC_REQUEST with a DEBUG_OPEN token: zeroise and ERASE_ALL, set DEBUG and DEBUG_TAINT,
  fresh root, rederive, open instruments. -/
  | debugOpen (h : Hdr) (addr : BitVec 64) (token : Buf)
  /-- LC_STATUS (R603): Host command returning DOM_LC_STATUS, accepted also in SEALED. -/
  | lcStatus (h : Hdr)
  /-- GET_VERSION (R519): SPDM GET_VERSION request answered by the responder. -/
  | getVersion (m : SpdmMsg)
  /-- GET_CAPABILITIES (R517): SPDM GET_CAPABILITIES request answered with the fixed capability set. -/
  | getCapabilities (m : SpdmMsg)
  /-- NEGOTIATE_ALGORITHMS (R518): SPDM NEGOTIATE_ALGORITHMS request answered with the single offered algorithm
  per category. -/
  | negotiateAlgorithms (m : SpdmMsg)
  /-- GET_DIGESTS (R519): SPDM GET_DIGESTS request for certificate slot 0. -/
  | getDigests (m : SpdmMsg)
  /-- GET_CERTIFICATE (R519): SPDM GET_CERTIFICATE request returning the ECDSA chain of slot 0. -/
  | getCertificate (m : SpdmMsg)
  /-- CHALLENGE (R519): SPDM CHALLENGE request answered with an alias signature. -/
  | challenge (m : SpdmMsg)
  /-- GET_MEASUREMENTS (R506): SPDM GET_MEASUREMENTS request returning the seven measurement blocks, ECDSA-signed.
  -/
  | getMeasurements (m : SpdmMsg)
  /-- KEY_EXCHANGE (R519): SPDM KEY_EXCHANGE with mutual authentication opens a session. -/
  | keyExchange (m : SpdmMsg)
  /-- FINISH (R519): SPDM FINISH completes the session handshake after requester certificate verification. -/
  | finish (m : SpdmMsg)
  /-- HEARTBEAT (R519): SPDM HEARTBEAT keeps a session alive. -/
  | heartbeat (m : SpdmMsg)
  /-- HEARTBEAT_TIMEOUT (R526): A session's heartbeat period lapses; the session ends and its store is zeroed. -/
  | heartbeatTimeout (sess : Fin 128)
  /-- KEY_UPDATE (R519): SPDM KEY_UPDATE updates a session's keys. -/
  | keyUpdate (m : SpdmMsg)
  /-- END_SESSION (R526): SPDM END_SESSION ends a session and zeroes its store. -/
  | endSession (m : SpdmMsg)
  /-- RESPOND_IF_READY (R514): SPDM RESPOND_IF_READY collects a response that was not ready within CT. -/
  | respondIfReady (m : SpdmMsg)
  /-- CHUNK_SEND (R519): SPDM CHUNK_SEND carries a chunk of a large request. -/
  | chunkSend (m : SpdmMsg)
  /-- CHUNK_GET (R519): SPDM CHUNK_GET returns a chunk of a large response. -/
  | chunkGet (m : SpdmMsg)
  /-- SPDM_UNSUPPORTED_REQUEST (R519): Any other SPDM request is answered with ERROR UnsupportedRequest. -/
  | spdmUnsupportedRequest (m : SpdmMsg)
  /-- GET_EVIDENCE (R520): Etnaurn vendor message returning a fresh or standing Gendani Evidence Record of a
  partition. -/
  | getEvidence (m : SpdmMsg)
  /-- GET_MLDSA_CHAIN (R520): Etnaurn vendor message returning bytes of the ML-DSA certificate chain. -/
  | getMldsaChain (m : SpdmMsg)
  /-- KEM_AUGMENT (R521): Etnaurn vendor message that verifies the requester's ML-DSA signature, encapsulates with
  ML-KEM-1024 and rekeys the session. -/
  | kemAugment (m : SpdmMsg)
  /-- DELIVER_KEY (R524): Etnaurn vendor message that checks and fills a partition slot with a Set Key, wrap key
  or fabric root. -/
  | deliverKey (m : SpdmMsg)
  /-- SIGN_COMPLETE (R513): Both signatures of a queued signing request finish and the record or message is
  returned. -/
  | signComplete
  /-- STANDING_RECORD_REGEN (R511): Within 1 ms of a relevant change, Tower regenerates a partition's standing
  evidence record. -/
  | standingRecordRegen (part : Fin 128)
  /-- SITE_POLICY (R528): Host command setting a site's admission policy of root and measurement digests. -/
  | sitePolicy (h : Hdr) (site : Word32) (addr : BitVec 64) (buf : Buf)
  /-- SITE_ADMIT (R529): Host command starting the admission exchange with a site's occupant, or ending it at once
  with NO_POLICY. -/
  | siteAdmit (h : Hdr) (site : Word32)
  /-- ADMISSION_RESPONSE (R529): An occupant's SPDM response arrives and Tower checks it and sends the next
  admission message or admits or fails. -/
  | admissionResponse (site : Fin 12) (msg : Bytes)
  /-- ADMISSION_TIMEOUT (R530): Admission has not finished within TIMEOUT_MS; it fails and the site stays
  UNADMITTED. -/
  | admissionTimeout (site : Fin 12)
  /-- REMEASURE_TIMER (R532): Every REMEASURE_S seconds Tower repeats the signed measurement of an admitted
  occupant. -/
  | remeasureTimer (site : Fin 12)
  /-- SITE_LINK_DOWN (R533): The hub reports a site's link down or occupant reset and Tower evicts the occupant.
  -/
  | siteLinkDown (site : Fin 12)
  /-- SITE_LINK_UP (R533): The hub reports a site's link up and Tower starts admission again. -/
  | siteLinkUp (site : Fin 12)
  /-- SITE_EVICT (R533): Host command that evicts a site's occupant, advancing ADMIT_SEQ and zeroing its contexts.
  -/
  | siteEvict (h : Hdr) (site : Word32)
  /-- SITE_CONTEXT (R265): Host command that writes a Site Context Table entry for an admitted TDID of the
  commanding partition. -/
  | siteContext (h : Hdr) (part sel entry : Word32)
  /-- RELAY_BIND (R515): Host command binding or unbinding a relay connection to a mailbox and buffer. -/
  | relayBind (h : Hdr) (conn mbx : Word32) (addr : BitVec 64)
  /-- SPDM_MSG (R515): Host command passing one SPDM message on a bound relay mailbox and returning the response.
  -/
  | spdmMsg (h : Hdr) (len : Word32) (buf : Buf)
  /-- PART_CREATE (R541): Host command creating a partition from a descriptor, taking its allotments and TDIDs. -/
  | partCreate (h : Hdr) (addr : BitVec 64) (buf : Buf)
  /-- QUIESCE (R544): Host command that refuses the partition's new commands, clears its site contexts and enters
  QUIESCING. -/
  | quiesce (h : Hdr) (part fence value : Word32)
  /-- QUIESCENCE_REACHED (R544): A QUIESCING partition has no command, TDI run, unacknowledged stream or drain
  left; its fence signals and it enters QUIESCED. -/
  | quiescenceReached (part : Fin 128)
  /-- RESUME (R545): Host command that restores a partition's site contexts with current ADMIT_SEQ and returns it
  to ACTIVE. -/
  | resume (h : Hdr) (part : Word32)
  /-- FREEZE (R546): Host command that moves a QUIESCED partition to FROZEN when the freeze conditions hold. -/
  | freeze (h : Hdr) (part : Word32)
  /-- REMOVE (R568): Host command that removes a partition through the ten ordered steps and issues a notice. -/
  | remove (h : Hdr) (part : Word32)
  /-- PROCESS_EXIT (R556): Host command that cancels a TAG's unstarted commands, releases its references and
  signals its shared fences OWNER_GONE. -/
  | processExit (h : Hdr) (part tag : Word32)
  /-- RETAIN (R552): Host command adding one to a (handle, TAG) host reference. -/
  | retain (h : Hdr) (handle : Word32)
  /-- RELEASE (R554): Host command removing one host reference and freeing the object when both counts reach zero.
  -/
  | release (h : Hdr) (handle : Word32)
  /-- REGION_CREATE (R564): Host command creating a region: entries taken, key derived or named, range scrubbed
  and initialised, LIVE and fence signalled. -/
  | regionCreate (h : Hdr) (addr : BitVec 64) (buf : Buf)
  /-- REGION_DESTROY (R566): Host command that destroys a region at once: DEAD, entries drained and freed, slot
  retired. -/
  | regionDestroy (h : Hdr) (region : Word32)
  /-- REGION_CLEAR (R200): Host command crypto-erasing a region by advancing its epoch or replacing its key and
  reinitialising every line. -/
  | regionClear (h : Hdr) (region fence value : Word32)
  /-- REGION_ATTR (R189): Host command changing ELIDE or WRITE_DENY on a live region without a drain. -/
  | regionAttr (h : Hdr) (region attr : Word32)
  /-- FENCE_CREATE (R557): Host command creating a fence object and writing INITIAL to its location. -/
  | fenceCreate (h : Hdr) (kindTdid : Word32) (loc : BitVec 64) (stream : Word32) (initial : BitVec 64)
  /-- FENCE_WRITE_ERROR (R561): A fence write completes with ERROR; it is not retried and the record's LOST bit is
  set. -/
  | fenceWriteError (fence : Fin 16384)
  /-- STREAM_OPEN (R299): Host command opening a send or receive stream entry in an FCC's pair-key cache. -/
  | streamOpen (h : Hdr) (sel peer root : Word32)
  /-- STREAM_CLOSE (R338): Host command closing a stream: send entries retransmit until acknowledged then zero;
  receive entries discard held packets. -/
  | streamClose (h : Hdr) (stream fence value : Word32)
  /-- STREAM_FENCE (R331): Host command arming a fence point at a stream's NEXT_SEQ. -/
  | streamFence (h : Hdr) (stream fence value : Word32)
  /-- STREAM_REKEY (R305): Host command ordering a send stream to change epoch. -/
  | streamRekey (h : Hdr) (stream : Word32)
  /-- EXPORT (R570): Host command sealing a FROZEN partition's metadata into a migration package. -/
  | partExport (h : Hdr) (wrap : Word32) (addr : BitVec 64) (len : Word32) (buf : Buf)
  /-- IMPORT (R572): Host command verifying a migration package and recreating its regions and fences in a FROZEN import
  partition. -/
  | partImport (h : Hdr) (wrap : Word32) (addr place : BitVec 64) (buf placement : Buf)
  /-- MIGRATE_SEND (R573): Host command having Newt read a region and send it as fabric stores followed by a
  stream fence. -/
  | migrateSend (h : Hdr) (region stream : Word32) (dest : BitVec 64) (fence value : Word32)
  /-- UNKNOWN_COMMAND (R603): A command message with an undefined CODE or malformed header is taken and answered
  UNKNOWN or MALFORMED. -/
  | unknownCommand (mbx : Fin 160)
  /-- COMMAND_COLLISION (R598): Tower finds COLLISION_TX on a command mailbox, takes every word and answers
  COLLISION. -/
  | commandCollision (mbx : Fin 160)
  /-- MBX_TX_WRITE (R589): A write to TWR_MBX_TX appends a word with the next sequence value, overwriting the
  newest when full, and wakes Tower. -/
  | mbxTxWrite (mbx : Fin 160) (w : Word32)
  /-- MBX_TAKE (R590): A write to TWR_MBX_TAKE removes COUNT RX words when SEQ matches the oldest. -/
  | mbxTake (mbx : Fin 160) (v : Word32)
  /-- MBX_RX_WRITE (R591): Tower firmware writes a word into RX, raising the RX interrupt and WAKE. -/
  | mbxRxWrite (mbx : Fin 160)
  /-- MBX_TOWER_TAKE (R592): Tower firmware takes TX words; a take that empties TX raises the EMPTY interrupt. -/
  | mbxTowerTake (mbx : Fin 160)
  /-- NOTICE_WRITE (R607): Tower firmware writes a two-word notice on MBX2 without waiting for room. -/
  | noticeWrite
  /-- TOWER_SLEEP (R579): Tower firmware puts the cores to sleep while no mailbox holds a word for Tower. -/
  | towerSleep
  /-- TOWER_WAKE (R579): A wake event brings sleeping cores back within 2 us. -/
  | towerWake
  /-- LOCKSTEP_MISMATCH (R577): Tower's lockstep comparator finds a mismatch, halts both cores and raises class
  12. -/
  | lockstepMismatch
  /-- FIELD_TEST_START (R635): Writing START to FTU_CTRL starts a field test or records a refusal reason. -/
  | fieldTestStart (v : Word32) (header : Buf)
  /-- FIELD_TEST_BEAT (R636): FTU applies one pattern beat: hashes it, scans the stimulus and compares the masked
  response. -/
  | fieldTestBeat (beat : Bytes) (response : Bytes)
  /-- FIELD_TEST_END (R638): The last beat finishes and the test ends PASS, FAIL or INVALID, returning the target
  and trace SRAM. -/
  | fieldTestEnd (flashOk : Bool)
  /-- FIELD_TEST_ABORT (R638): Writing ABORT to FTU_CTRL ends a running or paused test as ABORTED. -/
  | fieldTestAbort
  /-- COUNTER_FLUSH (R641): At least once per microsecond each island sends its accumulated counter increments to
  OBS. -/
  | counterFlush (i : Fin 46)
  /-- FREEZE_TRIGGER (R648): A freeze trigger (OBS_FREEZE write, TRIG_IO, schedule slot) sends freeze markers to
  every island. -/
  | freezeTrigger
  /-- PERIODIC_FREEZE (R647): Secure time reaches a multiple of PERIOD_MS while locked and a freeze is triggered.
  -/
  | periodicFreeze (dt : Nat)
  /-- FREEZE_COMPLETE (R649): The last freeze marker returns, FROZEN is set and a snapshot starts if enabled. -/
  | freezeComplete (i : Fin 46)
  /-- THAW (R651): Writing THAW to OBS_FREEZE releases the frozen bank, after any snapshot in progress. -/
  | thaw
  /-- SNAPSHOT_DONE (R653): A snapshot's last DMA write completes or errors; SEQ advances and AUTO_THAW thaws. -/
  | snapshotDone (ok : Bool)
  /-- TRACE_RECORD (R660): A trace record arrives at OBS, is tested for triggers, filtered and written per the
  trace state. -/
  | traceRecord (i : Fin 46)
  /-- TRACE_TRIGGER (R665): Writing TRIGGER to OBS_TRACE_CTRL triggers the trace when enabled. -/
  | traceTrigger
  /-- TRACE_RELEASE (R665): Writing RELEASE to OBS_TRACE_CTRL empties the capture and returns the trace to
  RECORDING. -/
  | traceRelease
  /-- TRACE_DRAIN (R666): Writing DRAIN to OBS_TRACE_CTRL writes a header and every held record of a frozen
  capture. -/
  | traceDrain
  /-- TRACE_DRAIN_DONE (R666): A trace drain's last DMA write completes, setting DRAINED. -/
  | traceDrainDone (ok : Bool)
  /-- TRIG_IO_EDGE (R711): A counted rising edge on TRIG_IO triggers a freeze or raises event 0x6B per its owner.
  -/
  | trigIoEdge
  /-- TRIG_IO_PULSE_END (R710): The 1 us TRIGGER_OUT pulse on TRIG_IO ends. -/
  | trigIoPulseEnd
  /-- WAKE_PULSE_END (R686): The 32 HCLK WAKE assertion ends. -/
  | wakePulseEnd
  /-- RAMP_WINDOW (R740): Each 250 ns window Spire makes at most one counted step, such as a lane grant or
  lockstep start. -/
  | rampWindow (demands : List (Nat × Nat))
  /-- CAP_HOLD_EXPIRY (R741): Demand has stayed below a cluster's cap for HOLD_US and the cap falls to demand. -/
  | capHoldExpiry (c : Cl)
  /-- LO_REGISTER_READ (R753): A read of a _LO register returns bits 31:0 and latches the _HI half for the
  requester. -/
  | loRegisterRead (tower : Bool) (island : Fin 64) (off : BitVec 20)
  /-- ENTRY_LOW_WORD_READ (R754): A read of a wide entry's lowest word latches the entry's other words for the
  requester. -/
  | entryLowWordRead (tower : Bool) (island : Fin 64) (off : BitVec 20)
  /-- REGISTER_WRITE (R20): A write to a register field with no behaviour of its own, applied per its access code,
  range and lock. -/
  | registerWrite (tower : Bool) (island : Fin 64) (off : BitVec 20) (v : Word32)
  /-- FUSE_PROGRAM_DONE (R487): A life-cycle or digest fuse finishes its 20 us programming, and Dome moves to the
  next fuse or step of the transition, or to SEALED. -/
  | fuseProgramDone
  /-- ISLAND_PLL_LOCK (R735): An island's PLL locks after HRESET_N rises, the island leaves reset, and SPR raises
  RESET_DONE. -/
  | islandPllLock (i : Fin 46)
  /-- VBAT_LOW_CHANGE (R465): VBAT crosses the 1.7 V threshold while the hub rail is present, setting or clearing
  VBAT_LOW and starting or cancelling the 10 us zeroisation timer. -/
  | vbatLowChange (low : Bool)
  /-- NOISE_HEALTH_RESTORED (R440): Dome's noise source passes its health tests again, and DOM_STATUS.NOISE_FAIL
  clears. -/
  | noiseHealthRestored
  /-- PP_DATA_ARRIVAL (R232): A class R or OPEN data line returns on PP and, once its counter chain and tag are
  present, is decrypted and verified or completed as never written. -/
  | ppDataArrival (p : Fin 2) (id : Nat) (data : Bytes) (err : MemErr)
  /-- PP_WRITE_ACCEPT (R236): PP accepts a class R or OPEN write's last beat, and the write completes once its tag
  word is installed. -/
  | ppWriteAccept (p : Fin 2) (id : Nat)
  /-- PCC_ATOMIC_REQUEST (R347): An atomic reaches a PCC and runs as a read-modify-write on class R or OPEN pool
  lines, or completes ERROR when its ATOP is reserved or it is misaligned. -/
  | pccAtomicRequest (p : Fin 2) (q : MemReq)
  deriving DecidableEq, Repr

end Sys2Proof
end

