-- ==== Sys2Proof/Decode.lean ====
section
/-!
DEFINITION. Words of the table of operations and events. The table of this block gives no row any bits: its rows are
commands from outside, not encodings, so no word spells one.
-/

namespace Sys2Proof

/-- The command that a word of `nbits` bits spells by the bits of spec/opcode_table.json: none, since no row has bits. -/
def decodeTableWord (_nbits _w : Nat) : Option Instr := none

end Sys2Proof
end

