-- ==== Sys2Proof/Config.lean ====
section
/-!
DEFINITION. What one block fixes and the spec does not give: ROM digests, fused secrets, the public-key
algorithms the spec takes from standards it does not restate, and the free values of the model. Every
constant here is opaque: it has no body, so no proof can lean on a value of it.
-/

namespace Sys2Proof.Config

/-- Free value `n` of `len` bytes: noise, nonces, initial values, masks, SEAL identifiers (R439, R443, R485, R570). -/
opaque freeBytes : Nat → Nat → Bytes

/-- ROM digest of the Etnaurn public keys that ETNAURN_KEY_INDEX or KEY_INDEX selects (R62, R471, R580). -/
opaque romKeyDigest : Nat → Bytes

/-- ROM digest of the Etnaurn manufacturing key (R68, R484). -/
opaque mfgKeyDigest : Bytes

/-- SHA-384 of the ROM loader, measurement 1 (R506, R508). -/
opaque romLoaderDigest : Bytes

/-- The fused seed (32 bytes) followed by the PUF key (32 bytes) (R434). -/
opaque seedAndPuf : Bytes

/-- ML-DSA-65 verification: public key, context string, message, signature (FIPS 204; R63, R66, R484, R521, R581). -/
opaque mldsaVerify : Bytes → Bytes → Bytes → Bytes → Bool

/-- ECDSA P-384 verification over the SHA-384 of the message: public key, message, signature (FIPS 186-5). -/
opaque ecdsaVerify : Bytes → Bytes → Bytes → Bool

/-- ML-DSA-65 signature: seed, context string, message (R503, R507). -/
opaque mldsaSign : Bytes → Bytes → Bytes → Bytes

/-- ECDSA P-384 signature: private value of R498, message (R503). -/
opaque ecdsaSign : Bytes → Bytes → Bytes

/-- ML-DSA-65 public key of a seed (R498). -/
opaque mldsaPublic : Bytes → Bytes

/-- P-384 public key, uncompressed, of the 64-byte value of R498. -/
opaque ecdsaPublic : Bytes → Bytes

/-- ML-KEM-1024 encapsulation: key and the free randomness; the ciphertext and the 32-byte secret (R521). -/
opaque kemEncaps : Bytes → Bytes → Bytes × Bytes

/-- The ECDH shared secret and the responder's share of a KEY_EXCHANGE (R519): requester share, randomness. -/
opaque ecdhShare : Bytes → Bytes → Bytes × Bytes

/-- Check of an X.509 chain (DER): the digest of its root certificate, the digest of the leaf's
SubjectPublicKeyInfo and the leaf key, or none when the chain does not verify (R529). -/
opaque chainCheck : Bytes → Option (Bytes × Bytes × Bytes)

/-- Check of a requester's certificate chain at FINISH and its P-384 public key (R519, R522). -/
opaque requesterChain : Bytes → Option Bytes

/-- Signature check of an occupant's SPDM response under its leaf key: leaf key, nonce, message (R529). -/
opaque occupantVerify : Bytes → Bytes → Bytes → Bool

/-- The admission policy that a SITE_POLICY buffer encodes (R528): root digests, measurement digests; none when it is
malformed. -/
opaque admissionPolicy : Bytes → Option (List Bytes × List Bytes)

/-- The encoding of the alias certificate that the DeviceID keys issue (R504, R505): algorithm, contents. -/
opaque aliasCertificate : Nat → Bytes → Bytes

/-- The DeviceID certificate in boot flash, empty when the flash holds none (R504). -/
opaque deviceIdCertificate : Nat → Bytes

/-- The bytes of an SPDM message whose contents are given (DMTF SPDM 1.3; R519): code and the contents. -/
opaque spdmEncode : Nat → Bytes → Bytes

/-- A secured message (SPDM; R515): session secret, message number, plaintext. -/
opaque spdmSeal : Bytes → Nat → Bytes → Bytes

/-- Master-Secret of a session (SPDM key schedule; R518): ECDH secret, transcript hash. -/
opaque masterSecret : Bytes → Bytes → Bytes

/-- The DMTF measurement block of an index and its value (R506). -/
opaque measurementBlock : Nat → Bytes → Bytes

/-- The IDE initial value of a stream, sub-stream, direction and counter (PCIe 7.0 IDE; R133). -/
opaque ideIv : Nat → Nat → Bool → Nat → Bytes

/-- The additional data that PCIe 7.0 IDE forms from a TLP (R133). -/
opaque ideAad : Bytes → Bytes

/-- A W96 result whose exponent would exceed 511 (R371): the spec marks its owner OVERFLOW and states no value. -/
opaque w96Over : Int → Int → BitVec 96

/-- A B32 result whose exponent would exceed 511 (R370): the spec states no value. -/
opaque b32Over : Nat → Int → BitVec 32

/-- The header of an outbound request's TLP (R346, R690; PCIe 7.0): the TEE bit and the request without its data. -/
opaque tlpHeader : Bool → MemReq → Bytes

/-- The header of the completion TLP that answers a request (R345; PCIe 7.0): TEE bit, identifier, status, length of its data. -/
opaque cplHeader : Bool → Nat → Nat → Nat → Bytes

/-- The completion status that stands for an ERROR of the hub network; the spec states none. -/
opaque cplError : Nat

/-- The bytes of an IDE_KM response (R341; PCIe 7.0 IDE): object identifier and contents. -/
opaque kmEncode : Nat → Bytes → Bytes

/-- Depth of the ingress FIFO of an island (R719), as a power of two above the least. -/
opaque fifoLog : Nat → Nat

/-- Words before the last of an item in an island FIFO (R723). -/
opaque fifoItem : Instr → Nat

/-- Governor coefficients of the BASE body (R427, R766): static figure in nW. -/
opaque govStatic : Nat

/-- Governor coefficients of the BASE body (R427, R766): consumer index to fJ per unit of activity, finer
than any figure of the spec (R45). -/
opaque govCoeff : Nat → Nat

/-- The code and layout of a TDISP response (R344): message code and contents. -/
opaque tdispEncode : Nat → Bytes → Bytes

/-- The MMIO ranges of a partition that the hub assigns and the interface report lists (R345). -/
opaque mmioRanges : Nat → Bytes

/-- The encoding of the records of a migration package (R571), whose contents alone the spec gives. -/
opaque migrateEncode : List (List Nat) → Bytes

/-- The records of a migration package, none when they do not parse (R572). -/
opaque migrateDecode : Bytes → Option (List (List Nat))

end Sys2Proof.Config
end

