-- ==== Sys2Proof/Machine/Tbl.lean ====
section
/-!
DEFINITION. A table of like things (register files, slot tables, queues by number) held as a sparse list in one
canonical form: keys strictly rising, and no entry equal to the default, which is the entry's reset value.
What an unlisted key reads as is `default`, so equal tables are equal data.
-/

namespace Sys2Proof.Machine

/-- A sparse table; see the file comment for its canonical form `Tbl.wf`. -/
structure Tbl (α : Type) where
  cells : List (Nat × α) := []
  deriving DecidableEq, Repr, Inhabited

/-- The listed cell of a key. -/
def Tbl.find {α : Type} : List (Nat × α) → Nat → Option α
  | [], _ => none
  | (j, v) :: rest, k => if j = k then some v else Tbl.find rest k

/-- Entry `k`: the listed one, or the reset entry. -/
def Tbl.get {α : Type} [Inhabited α] (t : Tbl α) (k : Nat) : α :=
  (Tbl.find t.cells k).getD default

/-- Drop key `k`. -/
def Tbl.eraseCells {α : Type} : List (Nat × α) → Nat → List (Nat × α)
  | [], _ => []
  | (j, v) :: rest, k => if j = k then rest else (j, v) :: Tbl.eraseCells rest k

/-- Put `v` at key `k`, keeping the keys strictly rising. -/
def Tbl.insertCells {α : Type} : List (Nat × α) → Nat → α → List (Nat × α)
  | [], k, v => [(k, v)]
  | (j, w) :: rest, k, v =>
    if k < j then (k, v) :: (j, w) :: rest
    else if j = k then (k, v) :: rest
    else (j, w) :: Tbl.insertCells rest k v

/-- Write entry `k`; writing the reset entry removes the cell. -/
def Tbl.set {α : Type} [Inhabited α] [DecidableEq α] (t : Tbl α) (k : Nat) (v : α) : Tbl α :=
  if v = default then ⟨Tbl.eraseCells t.cells k⟩ else ⟨Tbl.insertCells t.cells k v⟩

/-- Change entry `k` by a function. -/
def Tbl.modify {α : Type} [Inhabited α] [DecidableEq α] (t : Tbl α) (k : Nat) (f : α → α) : Tbl α :=
  t.set k (f (t.get k))

/-- Every key strictly above `b`, rising, with no default entry. -/
def Tbl.wfFrom {α : Type} [Inhabited α] [DecidableEq α] : Option Nat → List (Nat × α) → Bool
  | _, [] => true
  | b, (k, v) :: rest =>
    (match b with | none => true | some j => decide (j < k)) && !decide (v = default) && Tbl.wfFrom (some k) rest

/-- The canonical form of a table. -/
def Tbl.wf {α : Type} [Inhabited α] [DecidableEq α] (t : Tbl α) : Bool := Tbl.wfFrom none t.cells

/-- The table with the given entries written in order over the empty one. -/
def Tbl.ofList {α : Type} [Inhabited α] [DecidableEq α] (l : List (Nat × α)) : Tbl α :=
  l.foldl (fun t p => t.set p.1 p.2) {}

/-- Change every listed entry by a function of its key; unlisted entries stay the reset entry. -/
def Tbl.mapKeys {α : Type} [Inhabited α] [DecidableEq α] (t : Tbl α) (f : Nat → α → α) : Tbl α :=
  ⟨(t.cells.map (fun p => (p.1, f p.1 p.2))).filter (fun p => !decide (p.2 = default))⟩

/-- The keys whose entries are listed and meet a test, in rising order. -/
def Tbl.keysWhere {α : Type} (t : Tbl α) (p : Nat → α → Bool) : List Nat :=
  (t.cells.filter (fun c => p c.1 c.2)).map Prod.fst

/-- How many listed entries meet a test. -/
def Tbl.countWhere {α : Type} (t : Tbl α) (p : Nat → α → Bool) : Nat := (t.keysWhere p).length

/-- The lowest number in `lo, lo+1, …` (`n` tried) that meets a test. -/
def firstFrom : Nat → Nat → (Nat → Bool) → Option Nat
  | _, 0, _ => none
  | lo, n + 1, p => if p lo then some lo else firstFrom (lo + 1) n p

/-- The lowest start of a run of `len` consecutive numbers in `lo … lo+n-1` that all meet a test: walk once,
carrying the start and length of the run so far (R536 "run"). -/
def runFrom : Nat → Nat → Nat → Nat → Nat → (Nat → Bool) → Option Nat
  | _, start, have_, len, 0, _ => if have_ ≥ len then some start else none
  | i, start, have_, len, n + 1, p =>
    if have_ ≥ len then some start
    else if p i then runFrom (i + 1) start (have_ + 1) len n p
    else runFrom (i + 1) (i + 1) 0 len n p

end Sys2Proof.Machine
end

