-- ==== Sys2Proof/Machine/State.lean ====
section
/-!
DEFINITION. The state of the block as plain data: every register, table, queue, counter and mode the spec gives it,
the outcomes that stop a step, and the state after reset. Field defaults are the reset values; where the spec states
none, the assumption log names the value (log entries 2 and 3).
-/

namespace Sys2Proof.Machine

/-- What stops the block: no constructor, because the spec stops it nowhere (every fault is a report, R608). Safe: no
command ends in a fault. -/
inductive Fault where
  deriving DecidableEq, Repr

/-- What the model refuses. -/
inductive Refusal where
  /-- Raised by `exec` alone, for a command whose meaning is not written yet; safe. -/
  | notModelled (mnemonic : String)
  deriving DecidableEq, Repr

/-! ### What leaves the block -/

/-- Where a completion goes: the link a request came from. -/
inductive Link where
  /-- Network link of port `p` (R668). -/
  | net (p : Nat)
  /-- Device link of site port `k`. -/
  | site (k : Nat)
  /-- Requests of the block's own islands: the hub network returns their completions to them. -/
  | own (island : Nat)
  deriving DecidableEq, Repr, Inhabited

/-- One thing the block sends out of its ports, pads or registers, in the order sent. Nothing in the block reads the
list back; it is how a run shows what the block did. -/
inductive PortOut where
  /-- A completion (R671, R678): link, transaction identifier, OK, data bytes. -/
  | done (link : Link) (tid : Nat) (ok : Bool) (data : Bytes)
  /-- A read issued on a device link of MP or PP: island, identifier, address form, byte address. -/
  | memRead (island id form addr : Nat)
  /-- A posted write on a device link of MP or PP: address form, byte address, data and byte enables of one line. -/
  | memWrite (island id form addr : Nat) (data : Bytes) (be : List Bool)
  /-- The posted writes of `Pcc.zeroNodes` on PP of PCC `p` (R245, R246), with one identifier: the nodes of the span of a node
(level, index) from level `low` up to level `high`, all zero, and their tag words. -/
  | zeroNodes (p id level index low high : Nat)
  /-- A request entering the hub network (R670): source island, operation, whether it addresses the host, the request. -/
  | hubReq (island : Nat) (op : SiteOp) (host : Bool) (q : MemReq)
  /-- A request delivered into a site (R269): site, operation, the request. -/
  | siteReq (site : Nat) (op : SiteOp) (q : MemReq)
  /-- An admission or DOE message (R683): island, bytes. -/
  | msg (island : Nat) (data : Bytes)
  /-- Fabric device link TXP (R687): port, KIND, handle, packet. -/
  | txp (port kind handle : Nat) (data : Bytes)
  /-- Fabric device link RXC (R687): port, KIND, buffer. -/
  | rxc (port kind buf : Nat)
  /-- Host device link TXT (R690): STREAM and the TLP. -/
  | txt (stream : Nat) (data : Bytes)
  /-- Interrupt message INT (R686). -/
  | irq (vec : Nat)
  /-- WAKE asserted or released (R686). -/
  | wake (level : Bool)
  /-- A pad changes (R698): name and driven level. -/
  | pad (name : String) (level : Bool)
  /-- A pad is no longer driven (R95, R710). -/
  | padZ (name : String)
  /-- The value a register read returns over CP or Tower's port (R684, R753, R754). -/
  | regRead (offset : Nat) (value : Word32)
  /-- A CP request completed with ERROR (R684). -/
  | cpError (offset : Nat)
  /-- An SPDM response (R515): connection, bytes. -/
  | spdm (conn : Nat) (data : Bytes)
  /-- An IDE_KM or TDISP response (R341, R344). -/
  | kmResp (code : Nat) (data : Bytes)
  /-- What an engine hands to Tower firmware: a name and the bytes (R454). -/
  | twr (what : String) (data : Bytes)
  /-- A fabric handle or message to a hub controller that carries no data: a named order. -/
  | order (what : String) (a b : Nat)
  deriving DecidableEq, Repr, Inhabited

/-! ### Faults and Spire (spec/09_spire_tables.md, spec/15_faults_and_recovery.md) -/

/-- An event (R397). `serial` tells which start of its timer a TIMER event belongs to (R407). -/
structure SpEvent where
  code : BitVec 8 := 0
  arg : BitVec 16 := 0
  island : Fin 46 := 0
  serial : Nat := 0
  deriving DecidableEq, Repr, Inhabited

/-- One state machine (R399): current state and four counters. -/
structure Fsm where
  state : BitVec 5 := 0
  c0 : BitVec 16 := 0
  c1 : BitVec 16 := 0
  c2 : BitVec 16 := 0
  c3 : BitVec 16 := 0
  deriving DecidableEq, Repr, Inhabited

/-- One Spire timer (R93, R402, R407): running, the Spire clock at which it expires, the machine that started it,
and how often it has been started or stopped. -/
structure SpTimer where
  running : Bool := false
  due : Nat := 0
  machine : Nat := 0
  serial : Nat := 0
  deriving DecidableEq, Repr, Inhabited

/-- Escalation state of a class (R417 to R419, SPR_ESC_CLASS). -/
structure EscClass where
  count : BitVec 16 := 0
  pending : Bool := false
  level : BitVec 3 := 7
  deriving DecidableEq, Repr, Inhabited

/-- A fault-log entry: SPR_FAULT_LOG_LO and SPR_FAULT_LOG_HI. -/
structure LogEntry where
  lo : Word32 := 0
  hi : Word32 := 0
  deriving DecidableEq, Repr, Inhabited

/-- A coalescing window (R418): the unit's last report that raised a fault of the class, and when. -/
structure EscWindow where
  cls : Fin 24
  island : Fin 46
  unit : BitVec 8
  since : Nat
  deriving DecidableEq, Repr, Inhabited

/-- An ownership detail record (R288 to R290, SPR_OWNF_*). `site` 15 for kinds without a site. -/
structure OwnfRec where
  valid : Bool := false
  kind : BitVec 4 := 0
  tdid : Tdid := 0
  entry : BitVec 13 := 0
  count : BitVec 16 := 0
  site : BitVec 4 := 15
  clusters : BitVec 10 := 0
  gran : BitVec 40 := 0
  since : Nat := 0
  deriving DecidableEq, Repr, Inhabited

/-- A schedule slot (R424). -/
structure SchedSlot where
  armed : Bool := false
  lo : Word32 := 0
  hi : BitVec 31 := 0
  deriving DecidableEq, Repr, Inhabited

/-- The faults of a level, waiting for a capture record, a reset or a notice (R415, R416, R629). -/
structure FaultAct where
  cls : Fin 24 := 0
  level : BitVec 3 := 0
  island : Fin 46 := 0
  unit : BitVec 8 := 0
  tdid : Option Tdid := none
  /-- Secure time of the fault. -/
  time : BitVec 64 := 0
  /-- Spire clock of the fault. -/
  clock : Nat := 0
  /-- CAPTURE_WAIT_US of the class's escalation entry. -/
  waitUs : Nat := 0
  /-- An L1 reset of TWR, SPR or DOM carried out as L3: the class stays pending at level 3 (R612). -/
  carried : Bool := false
  deriving DecidableEq, Repr, Inhabited

/-- Secure time (R420 to R425) and Spire's schedule slots. -/
structure SecTime where
  counter : BitVec 64 := 0
  locked : Bool := false
  seedPending : Bool := false
  seed : Word32 := 0
  seedRejected : Bool := false
  run : BitVec 4 := 0
  lastError : BitVec 20 := 0
  /-- Spire clock of the last accepted edge (R422). -/
  lastAccepted : Nat := 0
  /-- Spire clock at which the next miss falls due (R423). -/
  missAt : Nat := 0
  /-- Phase error being removed (R422): positive slows the counter, and how many clocks of the 10^9 have passed. -/
  slewError : Int := 0
  slewPos : Nat := 0
  /-- SPR_TIME_CTRL (RWL). -/
  ctrl : Word32 := 0x0004C350
  sched : Tbl SchedSlot := {}
  deriving DecidableEq, Repr, Inhabited

/-- The power governor (R426 to R432). The credit is kept in fJ (nW over 1 µs). -/
structure Governor where
  stages : BitVec 3 := 0
  insufficient : Bool := false
  above : Bool := false
  power : Word32 := 0
  creditFj : Nat := 1500000000000000
  peakUs : Nat := 0
  /-- Stages still to be released one by one, RELEASE_STEP_US apart (R431). -/
  releasing : Bool := false
  deriving DecidableEq, Repr, Inhabited

/-- A control item on its way to Spire (R27): a fault report or an ownership report. -/
inductive SpireItem where
  | fault (r : FaultRep)
  | own (r : OwnRep)
  deriving DecidableEq, Repr

/-- A four-phase handshake (R717): REQ with the item it holds, ACK, and the sender's items that wait behind it. -/
structure Handshake where
  req : Option SpireItem := none
  ack : Bool := false
  wait : List SpireItem := []
  deriving DecidableEq, Repr, Inhabited

/-- Escalation, fault log and the ownership detail records. -/
structure Escal where
  classes : Tbl EscClass := {}
  windows : List EscWindow := []
  /-- Class 6 pending because a fault was raised with no record free (R419). -/
  own2 : Bool := false
  log : Tbl LogEntry := {}
  logNext : BitVec 6 := 0
  logWrapped : Bool := false
  /-- SPR_HANG_CTRL (RWL). -/
  hangCtrl : Word32 := 0x0A0A0A0A
  ownf : Tbl OwnfRec := {}
  ownfLost : Word32 := 0
  /-- When the faults of each class were raised, in the last second (R410, FAULT_RATE). -/
  raised : List (Nat × Nat) := []
  /-- L3 and L4 resets that wait for the capture record (R416). -/
  waiting : List FaultAct := []
  /-- Handshakes of the islands with Spire that carry reports, by island index (R27, R717). -/
  links : Tbl Handshake := {}
  /-- Hang reports made, each by its timer, island and tick: one tick's waits of an island make one report (R619). -/
  hung : List (Nat × Nat × Nat) := []
  deriving DecidableEq, Repr, Inhabited

/-- The swap coordinator (R81): IDLE, COLLECTING or COMMITTING. -/
inductive CoordState where
  | idle | collecting | committing
  deriving DecidableEq, Repr, Inhabited

/-- Spire (island 2). -/
structure Spr where
  queue : List SpEvent := []
  lost : Bool := false
  dropped : BitVec 15 := 0
  fsm : Tbl Fsm := {}
  fsmIrq : BitVec 16 := 0
  timers : Tbl SpTimer := {}
  /-- Curve comparators: true in ABOVE (R412, R413). -/
  curves : Tbl Bool := {}
  /-- Time of each comparator's next sample, its sampling phase (R409, R413). -/
  curveDue : Tbl Nat := {}
  esc : Escal := {}
  time : SecTime := {}
  gov : Governor := {}
  /-- SPR_COMMIT_COUNT. -/
  commitCount : Word32 := 0
  coord : CoordState := .idle
  participants : List Nat := []
  prepared : List Nat := []
  committed : List Nat := []
  /-- REFUSED messages on their way, and the participants that reset while COLLECTING: island and 256 × REASON + SECTION. -/
  refused : List (Nat × Nat) := []
  /-- Islands that COMMIT or ABORT has not yet reached. -/
  commitTo : List Nat := []
  abortTo : List Nat := []
  /-- Map from TDID to the partition that owns it, zero for none (R613). -/
  tdidOwner : Tbl Nat := {}
  /-- Lane swap orders waiting for their lockstep (R145, R147): cluster island index, socket, and whether the old lane
  becomes FAULTED (R148). -/
  swapQueue : List (Nat × Nat × Bool) := []
  /-- The Spire clock of the last happening and how far in its steps Spire is (R394). -/
  clock : Nat := 0
  step : Nat := 0
  /-- Spire clock of the last wear comparison (R622). -/
  wearAt : Nat := 0
  /-- RESET_DONE has been raised since Spire's reset (R397). -/
  resetDone : Bool := false
  deriving DecidableEq, Repr, Inhabited

/-! ### Mailboxes and commands (spec/14_tower_and_mailboxes.md) -/

/-- A mailbox word with its sequence value (R588). -/
structure MbxWord where
  word : Word32 := 0
  seq : BitVec 8 := 0
  deriving DecidableEq, Repr, Inhabited

/-- One mailbox (R586 to R595). -/
structure Mbx where
  queueMode : Bool := true
  tx : List MbxWord := []
  rx : List MbxWord := []
  txSeq : BitVec 8 := 0
  rxSeq : BitVec 8 := 0
  collTx : Bool := false
  collRx : Bool := false
  towerReset : Bool := true
  emptyIrq : Bool := false
  rxIrq : Bool := false
  vector : BitVec 5 := 0
  /-- Responses waiting for room in RX (R597), oldest first. -/
  resp : List (List Word32) := []
  deriving DecidableEq, Repr, Inhabited

/-- A command taken or accepted and not yet complete (R600, R601, R770). -/
structure Cmd where
  mbx : Nat := 0
  code : BitVec 8 := 0
  cmdId : BitVec 16 := 0
  tag : BitVec 24 := 0
  args : List Word32 := []
  /-- Partition that commands, zero for the manager. -/
  part : Nat := 0
  /-- Tower has begun its operation (R771). -/
  started : Bool := false
  /-- Answered at acceptance (answer A); its completion is signalled on the fence below. -/
  answered : Bool := false
  /-- Fence index and value signalled at completion (R600). -/
  fence : Option (Nat × Nat) := none
  /-- Objects it names, as keys of the object records; each holds a block reference (R553). -/
  names : List Nat := []
  /-- The object, entry, site or slot it works on while it is under way, and how far it is. -/
  what : Nat := 0
  stage : Nat := 0
  deriving DecidableEq, Repr, Inhabited

/-- TWR_FW_STATUS and the cores (R576 to R585). -/
structure Firmware where
  recovery : Bool := false
  running : Bool := false
  sleep : Bool := false
  sealed : Bool := false
  halted : Bool := false
  lastStep : BitVec 8 := 0
  svn : Bytes := []
  /-- Words of a recovery attempt taken so far (R584). -/
  words : List Word32 := []
  /-- SHA-384 of the running image (R497, R582). -/
  digest : Bytes := []
  deriving DecidableEq, Repr, Inhabited

/-- A domain-status notice to be issued (R631). -/
structure NoticeReq where
  kind : BitVec 8 := 0
  cls : BitVec 8 := 0xFF
  level : BitVec 8 := 0xFF
  mask : BitVec 128 := 0
  deriving DecidableEq, Repr, Inhabited

/-- Capture ring and notice ring (R628, R632). -/
structure Capture where
  base : BitVec 64 := 0
  count : BitVec 8 := 0
  next : BitVec 2 := 0
  slotPages : BitVec 9 := 0
  /-- Records ordered and not yet sealed, oldest first (R629). -/
  queue : List FaultAct := []
  noticeBase : BitVec 64 := 0
  noticeNo : BitVec 16 := 0
  notices : List NoticeReq := []
  /-- Two-word notices that Tower firmware has still to write on MBX2 (R606). -/
  words : List (Word32 × Word32) := []
  /-- The BLOCK_RESET notice of this reset is still to be issued (R631). -/
  resetNotice : Bool := true
  deriving DecidableEq, Repr, Inhabited

/-! ### Ownership checks and site guards (spec/06_ownership_and_site_guards.md) -/

/-- What Tower sends to a replica (R273, R282). -/
inductive RotMsg where
  | draining | scrubbing (c : BitVec 128) | live (c : BitVec 128) | free
  /-- A change of fields that R274 allows on a LIVE entry. -/
  | fields (c : BitVec 128)
  deriving DecidableEq, Repr, Inhabited

/-- Why an entry is being changed (R283): what follows its drain. -/
inductive DrainKind where
  /-- Destruction: FREE, and the slot retired with its last entry. -/
  | destroy
  /-- Crypto-erase (R200): SCRUBBING with the same owner. -/
  | clear
  deriving DecidableEq, Repr, Inhabited

/-- An ownership change in progress on one entry (R283, R284). -/
structure Drain where
  entry : Nat := 0
  kind : DrainKind := .destroy
  /-- Replicas whose DRAIN_DONE is awaited (cluster island indices). -/
  awaiting : List Nat := []
  /-- Replicas whose acknowledgement of LIVE is awaited. -/
  liveAwait : List Nat := []
  deriving DecidableEq, Repr, Inhabited

/-- The Tower side of the Range Ownership Table and the ten replicas. -/
structure Ownership where
  /-- Master copy (R271). -/
  master : Tbl (BitVec 128) := {}
  /-- Replica entries, key 8192 × (island − 3) + entry. -/
  rep : Tbl (BitVec 128) := {}
  /-- Updates on their way to each replica, in the order sent (R273): replica island, entry, message. -/
  inFlight : List (Nat × Nat × RotMsg) := []
  /-- DRAIN_DONE messages that replicas have sent and Tower has not yet received: replica, entry. -/
  drainDone : List (Nat × Nat) := []
  /-- Replicas that owe a DRAIN_DONE for an entry (count not yet zero). -/
  owes : List (Nat × Nat) := []
  drains : List Drain := []
  /-- Drains that wait for the one before to signal (R284). -/
  waiting : List Drain := []
  deriving DecidableEq, Repr, Inhabited

/-- A site guard (R262 to R270) and Tower's admission record of the site (R528 to R534). `state` 0 ABSENT,
1 UNADMITTED, 2 ADMITTED. -/
structure Sgu where
  state : BitVec 2 := 1
  admitSeq : BitVec 8 := 0
  /-- SGU_ADMIT_STATUS: PHASE 0 IDLE, 1 ADMITTING, 2 REMEASURING. -/
  phase : BitVec 2 := 0
  reason : BitVec 8 := 0
  fails : BitVec 8 := 0
  /-- SGU_ADMIT_CTRL. -/
  ctrl : Word32 := 0x00001388
  /-- Root digests and measurement digests of the policy (R528). -/
  policy : Option (List Bytes × List Bytes) := none
  /-- Step of R529 whose response is awaited, and the nonce in use. -/
  step : Nat := 0
  nonce : Bytes := []
  /-- Certificate chain fetched so far, and the chunks of a long response. -/
  chain : Bytes := []
  chunks : Bytes := []
  /-- Leaf key of the occupant's chain, occupant identifier and M. -/
  leafKey : Bytes := []
  pendingId : Bytes := []
  occupant : Bytes := []
  meas : Bytes := []
  /-- The hub reports the link up (R533). -/
  linkUp : Bool := true
  deriving DecidableEq, Repr, Inhabited

/-- A request from a site that awaits its completion (R270). -/
structure SiteFlight where
  site : Nat := 0
  tid : Nat := 0
  read : Bool := false
  len : Nat := 0
  deriving DecidableEq, Repr, Inhabited

/-! ### Lanes and clusters (spec/03_cipher_lanes.md, spec/18_islands_clocks_power.md) -/

/-- A lane socket and the physical lane in it (R149). `role` 0 ACTIVE, 1 SPARE, 2 FAULTED; `activity` 0 IDLE,
1 AUDITING, 2 LOCKSTEP, 3 OFF. -/
structure Socket where
  lane : BitVec 4 := 0
  role : BitVec 2 := 0
  activity : BitVec 2 := 3
  target : BitVec 4 := 0
  ageing : BitVec 8 := 0
  mismatches : BitVec 8 := 0
  /-- Powered on, and has passed its known-answer test (R137). -/
  powered : Bool := false
  tested : Bool := false
  /-- Held by the field test (R636). -/
  underTest : Bool := false
  /-- Issues since the last sampled one of an audit (R139). -/
  issues : Nat := 0
  deriving DecidableEq, Repr, Inhabited

/-- An expanded key schedule (R109 to R113): the slot (4096 + entry for an FCC pair key), the key material, the region
epoch, whether writes may use it, and the writes not yet added to Tower's record (R207). -/
structure Sched where
  /-- Number of this expansion, from 1 on: a key expanded again is another entry. -/
  id : Nat := 0
  slot : Nat := 0
  key : Bytes := []
  epoch : Nat := 0
  writes : Bool := true
  unreported : Nat := 0
  /-- Invalidated while an item still uses it (R112, R113). -/
  dead : Bool := false
  deriving DecidableEq, Repr, Inhabited

/-- What an item given to a lane will do when its output is released. -/
inductive ItemKind where
  | read (op : Nat) | write (op : Nat)
  /-- A link packet: what leaves the cluster on release (R139 to R141). -/
  | link (outs : List PortOut)
  /-- A TLP that HCC opened on a stream: its payload, none when its tag failed (R343, R345). -/
  | tlp (stream : BitVec 8) (t : Tlp) (body : Option Bytes)
  /-- A data packet sealed by entry `e` of this FCC: it leaves on release. -/
  | seal (e seq : Nat) (outs : List PortOut)
  /-- A packet of this FCC that is authenticated at once on arrival (R320 tests 5 and 8). -/
  | ctrl (pkt : Bytes)
  /-- A released packet of receive entry `e`: its requests may enter the hub network on release. -/
  | packet (e seq : Nat)
  /-- A line that Newt reads for context `ctx` (R253): its plaintext, none when it failed. -/
  | newtCopy (ctx line : Nat) (pt : Option Bytes)
  /-- A line that Newt writes for context `ctx` (R254): the stored line, its tag word and the slot. -/
  | newtWrite (ctx line slot : Nat) (ct : Bytes) (tag : Nat)
  /-- A line read for a MIGRATE_SEND of context `ctx` (R573): its plaintext, none when it failed. -/
  | sendRead (ctx line : Nat) (pt : Option Bytes)
  /-- A line under initialisation (R198): entry, line, slot, stored line and tag word. -/
  | init (entry line slot : Nat) (ct : Bytes) (tag : Nat)
  /-- A line of an overflowing group is verified for operation `op` (R237): its plaintext, none when it failed. -/
  | overflowRead (op line : Nat) (pt : Option Bytes)
  /-- A line of an overflowing group is encrypted (R237). -/
  | overflowWrite (op line : Nat) (ct : Bytes) (tag : Nat)
  /-- A fetched counter line or tree node is verified (R232): its metadata line and the outcome. -/
  | node (off : Nat) (ok : Bool)
  /-- An evicted counter line or tree node is tagged (R235): its metadata line, its bytes and its tag word. -/
  | nodeOut (off : Nat) (data : Bytes) (word : Nat)
  deriving DecidableEq, Repr, Inhabited

/-- An item whose output is withheld until the outputs of two lanes are compared (R139, R141, R143). -/
structure Item where
  id : Nat := 0
  kind : ItemKind := .read 0
  /-- The physical lanes compared: that of the active socket, and the spare. -/
  active : Nat := 0
  spare : Nat := 0
  /-- Issued in lockstep (R143), not sampled by an audit. -/
  lockstep : Bool := false
  /-- Number of the schedule it uses, zero for none (R110). -/
  sched : Nat := 0
  /-- Re-issued on a third lane after a mismatch (R141). -/
  voting : Bool := false
  /-- Physical lane of the re-issue. -/
  third : Option Nat := none
  deriving DecidableEq, Repr, Inhabited

/-- A hitless swap in progress (R143 to R147). -/
structure Swap where
  socket : Nat := 0
  spare : Nat := 0
  lockstepDone : Bool := false
  /-- The old lane becomes FAULTED (a vote), not a spare (R148). -/
  faulty : Bool := false
  /-- A mismatch during lockstep found the active lane faulty: the switch waits out no lockstep (R146). -/
  atOnce : Bool := false
  deriving DecidableEq, Repr, Inhabited

/-- Lane issue logic of a cluster. -/
structure Cluster where
  /-- Key-schedule cache, most recently used first (R110). -/
  sched : List Sched := []
  nextSched : Nat := 1
  /-- Slots whose fill from Tower is awaited (R111); each has its place in the cache reserved. -/
  awaiting : List Nat := []
  items : List Item := []
  nextItem : Nat := 1
  /-- Active socket that takes the next issue. -/
  turn : Nat := 0
  swap : Option Swap := none
  /-- Audit windows since the assignment of R138 was last computed, and the spares it was computed for. -/
  window : Nat := 0
  auditSpares : List Nat := []
  /-- Issue cap and demand in eighths of a lane (R739, SPR_RAMP_CAP). -/
  cap : BitVec 8 := 0
  demand : BitVec 8 := 0
  deriving DecidableEq, Repr, Inhabited

/-! ### Memory clusters (spec/04_memory_protection.md, spec/05_counter_tree_and_rekey.md) -/

/-- Where a line operation stands. -/
inductive Phase where
  /-- At the ingress: nothing issued yet (R43, R191, R194). -/
  | start
  /-- Its read is issued; data, tag word or counters are awaited. -/
  | fetch
  /-- Data, tag and counters are present: waits for the lane issue of the read. -/
  | toDecrypt
  /-- Read output withheld for a comparison (R139). -/
  | cmpRead
  /-- The verdict of its read is ready (R107). -/
  | verdict
  /-- The line to write is known: waits for the lane issue of the write. -/
  | toWrite
  /-- Write output withheld for a comparison. -/
  | cmpWrite
  /-- Its write is issued on the device link and not yet accepted. -/
  | sent
  /-- A class R write held until the counter overflow of its group has ended (R237). -/
  | overflow
  deriving DecidableEq, Repr, Inhabited

/-- What a line operation is. -/
inductive OpKind where
  | rd | wr | at_
  deriving DecidableEq, Repr, Inhabited

/-- One line of a request inside a memory cluster. -/
structure LineOp where
  id : Nat := 0
  req : Nat := 0
  kind : OpKind := .rd
  /-- Physical address bits 51:6. -/
  line : Nat := 0
  /-- First byte inside the line, the bytes, and their byte enables. -/
  off : Nat := 0
  len : Nat := 0
  data : Bytes := []
  be : List Bool := []
  atop : BitVec 4 := 0
  wide : Bool := false
  opnd : Nat := 0
  /-- The Range Ownership Table entry it passed under, and its contents then (R277). -/
  entry : Nat := 0
  ent : BitVec 128 := 0
  phase : Phase := .start
  /-- Data line as it came back (R195), then the verified plaintext or old value. -/
  raw : Option Bytes := none
  plain : Bytes := []
  ok : Bool := true
  /-- Tag word to install with the stored line. -/
  tagw : Nat := 0
  /-- The last device-link issue and the last lane issue are done (R191). -/
  mpDone : Bool := false
  laneDone : Bool := false
  /-- Number of the schedule of its last lane issue (R110). -/
  sched : Nat := 0
  /-- Its data line, or its tag line while it waited, came with an uncorrectable error (R202, R233). -/
  lost : Bool := false
  /-- Tag word of the read, once present (R195). -/
  tagIn : Option Nat := none
  /-- Tag word that the write's own replaced, none when it was not valid. -/
  tagOld : Option Nat := none
  /-- `plain` is the line to write. -/
  merged : Bool := false
  /-- Its lane issue set the NEWKEY bit of its line (R253). -/
  marked : Bool := false
  /-- The signature that takes its line (R352), fixed at its check; and the line has been added to it (R206). -/
  sig : Option Nat := none
  added : Bool := false
  deriving DecidableEq, Repr, Inhabited

/-- A request whose lines are in a memory cluster: it completes when the last of them has. -/
structure MemFlight where
  id : Nat := 0
  link : Link := .net 0
  tid : Nat := 0
  kind : OpKind := .rd
  len : Nat := 0
  posted : Bool := false
  left : Nat := 0
  bad : Bool := false
  /-- Bytes read so far, by line. -/
  parts : List (Nat × Bytes) := []
  entry : Nat := 0
  deriving DecidableEq, Repr, Inhabited

/-- A cached tag line (R178): its number, eight tag words, a valid and a dirty bit per word. -/
structure TagLine where
  line : Nat := 0
  words : List Nat := []
  valid : BitVec 8 := 0
  dirty : BitVec 8 := 0
  deriving DecidableEq, Repr, Inhabited

/-- The requests and line operations of one memory cluster, in arrival order. -/
structure MemUnit where
  ops : List LineOp := []
  reqs : List MemFlight := []
  next : Nat := 1
  deriving DecidableEq, Repr, Inhabited

/-- An HBM memory cluster MCCk (R214 and the tables of 04). ILV.WAY is k at reset: kept as the register word. -/
structure Mcc where
  hbmBase : BitVec 52 := 0
  ilv : Word32 := 0x0000030C
  tagBase : BitVec 48 := 0
  tagLines : Word32 := 0
  badBase : Bool := false
  /-- Tag-line write-backs of a flush not yet accepted (R184). -/
  flushLeft : Nat := 0
  tags : Tbl TagLine := {}
  plru : Tbl Nat := {}
  /-- Tag lines being fetched (R179). -/
  fetching : List Nat := []
  /-- In-flight entries lent to the partner PCC (R42). -/
  lent : Nat := 0
  geckoCtrl : BitVec 5 := 0x1F
  geckoWin : Tbl Word32 := {}
  geckoBase : Tbl Word32 := {}
  geckoCnt : Tbl Word32 := {}
  /-- Initialisation progress: entry and the next line of this MCC's part (R198, R199). -/
  initAt : Tbl Nat := {}
  deriving DecidableEq, Repr, Inhabited

/-- A cached metadata line of a PCC (R227, R228): metadata offset divided by 64; `node` for counter lines and tree nodes,
else a line of tag words; 64 bytes; per-word valid and dirty bits (a node uses bit 0 of `dirty`). -/
structure MetaLine where
  off : Nat := 0
  node : Bool := false
  data : Bytes := []
  valid : BitVec 8 := 0
  dirty : BitVec 8 := 0
  deriving DecidableEq, Repr, Inhabited

/-- A fence record (R224): level and index of the fenced node. -/
structure FenceRec where
  level : Nat := 0
  index : Nat := 0
  deriving DecidableEq, Repr, Inhabited

/-- A root entry (R223). `state` 0 UNINIT, 1 LIVE, 2 FENCED. -/
structure RootEntry where
  ctr : BitVec 64 := 0
  state : BitVec 2 := 0
  fences : List FenceRec := []
  deriving DecidableEq, Repr, Inhabited

/-- A metadata fetch of a PCC: offset / 64, node or tag words, the MCC that lends the in-flight entry, and the line as
fetched (a node waits here until its parent and tag word are there, R232). -/
structure MetaFetch where
  off : Nat := 0
  node : Bool := false
  lender : Nat := 0
  got : Option Bytes := none
  /-- Its tag word, once seen. -/
  word : Option Nat := none
  /-- Its check is in a lane, its output withheld; its check has ended well, and it waits for a way. -/
  inLane : Bool := false
  verified : Bool := false
  deriving DecidableEq, Repr, Inhabited

/-- A group in counter overflow (R237): the counter line's index, the old counters, the line written, and the lines of
the group read so far (none: failed, left untouched). -/
structure Overflow where
  /-- The line written, its region's slot and its owner. -/
  line : Nat := 0
  slot : Nat := 0
  owner : Nat := 0
  group : Nat := 0
  major : Nat := 0
  minors : List Nat := []
  op : Nat := 0
  got : List (Nat × Option Bytes) := []
  /-- Lines given to a lane whose output is withheld. -/
  asked : List Nat := []
  /-- Lines verified: the plaintext, none when the line failed. -/
  plain : List (Nat × Option Bytes) := []
  /-- The counter line is at (MAJOR + 1, 0), and the lines still to be written. -/
  advanced : Bool := false
  left : List Nat := []
  deriving DecidableEq, Repr, Inhabited

/-- A parent whose minor counters have run out (R239): its metadata line, the counters before, and the children still to
be verified under them. -/
structure ParentOverflow where
  off : Nat := 0
  major : Nat := 0
  minors : List Nat := []
  left : List Nat := []
  deriving DecidableEq, Repr, Inhabited

/-- A pool cluster PCCk. -/
structure Pcc where
  poolBase : BitVec 52 := 0
  metaBase : BitVec 48 := 0
  subtrees : BitVec 8 := 0
  root : Tbl RootEntry := {}
  cache : Tbl MetaLine := {}
  plru : Tbl Nat := {}
  fetches : List MetaFetch := []
  /-- Metadata lines whose write-back is not yet accepted (R230). -/
  writing : List Nat := []
  overflows : List Overflow := []
  parents : List ParentOverflow := []
  /-- Tag words made and not yet in the cache, for want of a way: metadata line, word, value. -/
  due : List (Nat × Nat × Nat) := []
  /-- Spans that are being written as zero (R245, R246), not yet accepted on PP: level and index of the top node. -/
  rewriting : List (Nat × Nat) := []
  /-- Fences that Tower has cleared and whose spans are still to be rewritten (R245): root entry and record. -/
  clearing : List (Nat × FenceRec) := []
  /-- Partner MCC that lends the next in-flight entry (R42). -/
  turn : Nat := 0
  initAt : Tbl Nat := {}
  deriving DecidableEq, Repr, Inhabited

/-- A group in motion (R252): address bits 51:9, the move context, NEWKEY bits, the lines copied and verified, the
MCCs in which the commit phase runs, and the lines whose tag word is installed. -/
structure Motion where
  ctx : Nat := 0
  group : Nat := 0
  newkey : BitVec 8 := 0
  copies : List (Nat × Bytes) := []
  commit : List Nat := []
  installed : BitVec 8 := 0
  deriving DecidableEq, Repr, Inhabited

/-- What a MIGRATE_SEND does in a move context (R573): the send stream (2048 × FCC + entry), the destination offset of the
region's first line, the fence and value to signal, the bytes sent so far and those of the granule being read. -/
structure Send where
  stream : Nat := 0
  dest : Nat := 0
  fence : Nat := 0
  value : Nat := 0
  sent : Nat := 0
  buf : Bytes := []
  /-- Lines of the group being read whose plaintext is there. -/
  got : List (Nat × Bytes) := []
  deriving DecidableEq, Repr, Inhabited

/-- A Newt move context (R249, R250, NWT_MOVE_*). `state` 0 IDLE, 1 MOVING, 2 PAUSED. -/
structure Move where
  state : BitVec 2 := 0
  newSlot : BitVec 12 := 0
  oldSlot : BitVec 12 := 0
  /-- Boundary B and front F, in bytes. -/
  bound : Nat := 0
  front : Nat := 0
  /-- Region object moved. -/
  region : Nat := 0
  /-- The context reads the region for a MIGRATE_SEND (R573) instead of re-keying it; B is then the next line's group. -/
  send : Option Send := none
  deriving DecidableEq, Repr, Inhabited

/-- Newt (island 42). -/
structure Nwt where
  moves : Tbl Move := {}
  motion : List Motion := []
  /-- Writes held during a commit phase (R254), oldest first: cluster k, link and the request's fields. -/
  held : List (Nat × Link × MemReq) := []
  /-- Slots whose write budget is exhausted, waiting for a move (R208, R209). -/
  waiting : List Nat := []
  /-- Fresh keys on their way into reserve slots (R208): region object and new slot. -/
  keying : List (Nat × Nat) := []
  deriving DecidableEq, Repr, Inhabited

/-! ### Keys, Dome and the life cycle (spec/10_keys_and_dome.md, spec/11_life_cycle.md) -/

/-- A key slot (R449): its attribute record and 64 bytes of key material. -/
structure Slot where
  attr : BitVec 256 := 0
  key : Bytes := []
  /-- SET_ID of the tenant blob the key was unwrapped from, when that blob named a set (R509). -/
  setId : Bytes := []
  deriving DecidableEq, Repr, Inhabited

/-- A Set Table entry (R459). -/
structure SetEntry where
  setId : Bytes := []
  digest : Bytes := []
  slot : BitVec 16 := 0
  part : BitVec 8 := 0
  inUse : Bool := false
  deriving DecidableEq, Repr, Inhabited

/-- What Dome has been asked to derive (R444, R446). -/
inductive DeriveKind where
  | archive
  | tree (pcc : Nat)
  /-- REGION_KEY into a slot for PURPOSE and TDID. -/
  | region (slot purpose tdid : Nat)
  deriving DecidableEq, Repr, Inhabited

/-- What a running control-plane operation will do at its end (R157, R159): ERROR, the output and where it goes, the tag
and where it goes, the slot that takes the output. -/
structure CpeOut where
  error : Nat := 0
  addr : Nat := 0
  data : Bytes := []
  tagAddr : Nat := 0
  tag : Bytes := []
  slot : Option Nat := none
  deriving DecidableEq, Repr, Inhabited

/-- The control-plane engine (R150 to R159). -/
structure Cpe where
  busy : Bool := false
  done : Bool := false
  error : BitVec 8 := 0
  /-- The running operation's outcome, delivered at CPE_DONE. -/
  out : Option CpeOut := none
  /-- Slots the running operation names (R462). -/
  slots : List Nat := []
  deriving DecidableEq, Repr, Inhabited

/-- Dome's VBAT domain and rail domain (R437 to R443, R465 to R470; registers of 10). -/
structure Dom where
  /-- Share A, the Domain Root XOR the mask, and share B, the mask (R438); empty when the secret area is zero. -/
  shareA : Bytes := []
  shareB : Bytes := []
  /-- Root check value and scramble key (R437, R439). -/
  check : Bytes := []
  scramble : Bytes := []
  /-- 0 NONE, 1 CHECKING, 2 READY, 3 ZEROISED. -/
  rootState : BitVec 2 := 0
  rootFresh : Bool := false
  vbatLow : Bool := false
  /-- VBAT has zeroised since it last fell below 1.7 V (R465). -/
  lowDone : Bool := false
  noiseFail : Bool := false
  bootCount : Word32 := 0
  rootGen : Word32 := 0
  keyGen : BitVec 64 := 0
  rootId : Bytes := []
  streamFloor : Word32 := 0
  tamperLock : Bool := false
  polarity : BitVec 4 := 0
  enable : BitVec 4 := 0
  latched : Bool := false
  zeroCount : BitVec 15 := 0
  cause : BitVec 4 := 0
  inputs : BitVec 4 := 0
  /-- Derivations requested and not yet ended, oldest first (R446). -/
  queue : List DeriveKind := []
  railPresent : Bool := true
  deriving DecidableEq, Repr, Inhabited

/-- A fuse of the life-cycle island (R477, R480). -/
inductive Fuse where
  | row (i : Nat) | digest (i : Nat) | inverse (i : Nat)
  deriving DecidableEq, Repr, Inhabited

/-- A transition under way (R487): target code and the fuses of the present phase still to come; `atRailUp` for R490,
which answers nobody. The request to answer is the LC_REQUEST among the commands under way. -/
structure Transition where
  target : BitVec 4 := 0
  fuses : List Fuse := []
  atRailUp : Bool := false
  /-- A zeroisation has already served as step 3 (R487, and the tamper case). -/
  erased : Bool := false
  deriving DecidableEq, Repr, Inhabited

/-- The life cycle (R472 to R495). The fuse row at reset is that of the TEST device of the worked case. -/
structure LifeCycle where
  otp : Word32 := 0x0F0000FF
  digest : BitVec 384 := 0
  digestInv : BitVec 384 := 0
  /-- Decoded STATE code and pending target (R479). -/
  state : BitVec 4 := 2
  pending : BitVec 4 := 0
  phase : BitVec 3 := 0
  debug : Bool := false
  taint : Bool := false
  challenge : Option Bytes := none
  running : Option Transition := none
  deriving DecidableEq, Repr, Inhabited

/-! ### Fabric and host link (spec/07_fabric_and_host_links.md) -/

/-- A data packet that the port retains (R316 to R319). -/
structure SentPkt where
  seq : Nat := 0
  atomic : Bool := false
  handle : Nat := 0
  /-- It has left on FP (its lane output was released). -/
  sent : Bool := false
  replied : Bool := false
  /-- Who asked, when an answer is due: link and transaction identifier of an atomic. -/
  link : Link := .net 0
  tid : Nat := 0
  wide : Bool := false
  tdid : Nat := 0
  deriving DecidableEq, Repr, Inhabited

/-- A packet held in the reorder window (R320 to R322): its bytes and the port's buffer. -/
structure HeldPkt where
  seq : Nat := 0
  pkt : Bytes := []
  buf : Nat := 0
  deriving DecidableEq, Repr, Inhabited

/-- A released packet that is not yet done or not yet acknowledged (R324, R327): the requests it makes; whether its lane
output is released, its requests have entered the hub network, it is done, and it was refused. -/
structure RelPkt where
  seq : Nat := 0
  atomic : Bool := false
  ordered : Bool := false
  reqs : List PortOut := []
  opened : Bool := false
  entered : Bool := false
  done : Bool := false
  refused : Bool := false
  deriving DecidableEq, Repr, Inhabited

/-- A fence a stream waits for: fence index and value; `err` an error attached (R330). -/
structure StreamFence where
  point : Nat := 0
  fence : Nat := 0
  value : Nat := 0
  err : Bool := false
  deriving DecidableEq, Repr, Inhabited

/-- A pair-key cache entry (R299): STATE 0 CLOSED, 1 OPEN, 2 CHANGING, 3 LOST. -/
structure FccEntry where
  state : BitVec 2 := 0
  /-- A receive entry. -/
  recv : Bool := false
  tdid : BitVec 7 := 0
  peer : BitVec 16 := 0
  epoch : BitVec 8 := 0
  keyValid : Bool := false
  key : Bytes := []
  /-- A pair key has been asked of Tower (R303, R304). -/
  asked : Bool := false
  /-- The fabric root's slot. -/
  root : Nat := 0
  -- send entry
  nextSeq : BitVec 48 := 0
  ackSeq : Nat := 0
  errPending : Bool := false
  armed : Option StreamFence := none
  /-- Fences that Tower queues behind the armed one (R331): fence index, value. -/
  fenceQ : List (Nat × Nat) := []
  kept : List SentPkt := []
  /-- Requests that wait at the ingress (R304, R305, R314). -/
  waiting : List MemReq := []
  closing : Bool := false
  -- receive entry
  expected : BitVec 48 := 0
  ctrlSeq : BitVec 44 := 0
  held : List HeldPkt := []
  rel : List RelPkt := []
  /-- Packets that wait to be authenticated, for a key, a schedule or a lane (R304): the packet and the port's buffer. -/
  waitAuth : List (Bytes × Nat) := []
  /-- ACK_SEQ of the last ACK, packets done since, those done that no ACK covers, and the interval has run out (R328). -/
  lastAck : Nat := 0
  doneSince : Nat := 0
  unackedDone : List Nat := []
  intervalUp : Bool := false
  /-- Refused sequence numbers not yet acknowledged (R329). -/
  refused : List Nat := []
  /-- Spire clocks of the last duplicate's ACK (R325) and of the last report of a failure (R323). -/
  dupAckAt : Option Nat := none
  reportAt : Option Nat := none
  deriving DecidableEq, Repr, Inhabited

/-- A reply-cache entry (R332 to R334). `owed` counts the REPLYs promised and not yet sent. -/
structure ReplyEntry where
  valid : Bool := false
  node : BitVec 16 := 0
  tdid : BitVec 7 := 0
  error : Bool := false
  pending : Bool := false
  age : BitVec 7 := 0
  seqLo : BitVec 31 := 0
  result : BitVec 64 := 0
  /-- OPCODE byte of the atomic, for the REPLY (R309), and its whole sequence number. -/
  opcode : BitVec 8 := 0
  seq : BitVec 48 := 0
  owed : Nat := 0
  deriving DecidableEq, Repr, Inhabited

/-- An FCC: FCC_NODE, FCC_TIMERS, FCC_SPAN, the reply cache and the candidate-key register (R326: the entry that holds
it). -/
structure Fcc where
  node : Word32 := 0
  timers : Word32 := 0x207D0014
  span : Word32 := 0x7D7D07D0
  reply : Tbl ReplyEntry := {}
  candidate : Option Nat := none
  deriving DecidableEq, Repr, Inhabited

/-- An IDE stream context (R341 to R346, HCC_IDE_STATUS): `state` 0 UNUSED, 1 INSECURE, 2 SECURE. -/
structure IdeCtx where
  valid : Bool := false
  state : BitVec 2 := 0
  stream : BitVec 8 := 0
  /-- Partition that owns the stream. -/
  part : Nat := 0
  ksetRx : Bool := false
  ksetTx : Bool := false
  /-- Slot of each programmed key: key 4 × sub-stream + 2 × (receive) + key set; zero when none. -/
  keys : Tbl Nat := {}
  /-- Key sets running: key 4 × sub-stream + 2 × (receive) + key set. -/
  going : List Nat := []
  /-- TLPs so far under each key. -/
  count : Tbl Nat := {}
  deriving DecidableEq, Repr, Inhabited

/-- A TDI (R344, R345): `state` 0 CONFIG_UNLOCKED, 1 CONFIG_LOCKED, 2 RUN, 3 ERROR; the stream it is bound to; the nonce of
the lock. -/
structure Tdi where
  state : BitVec 2 := 0
  stream : Option (BitVec 8) := none
  nonce : Bytes := []
  deriving DecidableEq, Repr, Inhabited

/-- An outbound request that waits for its completion TLP (R343): stream or none, requester. -/
structure HostFlight where
  stream : Option (BitVec 8) := none
  link : Link := .net 0
  tid : Nat := 0
  len : Nat := 0
  deriving DecidableEq, Repr, Inhabited

/-- A non-posted request of the host that is inside the hub (R341, R343): stream or none, TEE bit, identifier. -/
structure HostAsk where
  stream : Option (BitVec 8) := none
  tee : Bool := false
  tid : Nat := 0
  deriving DecidableEq, Repr, Inhabited

/-- A completion that HCC owes the host: stream, TEE bit, identifier, status, data. -/
structure HostReply where
  stream : BitVec 8 := 0
  tee : Bool := false
  tid : Nat := 0
  status : Nat := 0
  data : Bytes := []
  deriving DecidableEq, Repr, Inhabited

/-- The host link (HCC) and the TDIs. -/
structure Hcc where
  ctxs : Tbl IdeCtx := {}
  tdis : Tbl Tdi := {}
  flights : List HostFlight := []
  /-- Requests of the host whose completions the hub network owes. -/
  asks : List HostAsk := []
  /-- Completions that wait for a key schedule or a lane (R111). -/
  waitCpl : List HostReply := []
  /-- Requests and TLPs that wait for a key schedule (R111). -/
  waitOut : List MemReq := []
  waitIn : List (BitVec 8 × Tlp) := []
  deriving DecidableEq, Repr, Inhabited

/-! ### Belfry (spec/08_belfry_checking.md) -/

/-- An accumulator entry (R371): SUM in W96, ABS in B32; zero is 0x200 in both (R369, R370). -/
structure Accum where
  sum : BitVec 96 := 0x200
  abs : Word32 := 0x200
  deriving DecidableEq, Repr, Inhabited

/-- State of a signature (R374). -/
inductive SigState where
  | free | opened | closing | merging | closed
  deriving DecidableEq, Repr, Inhabited

/-- A signature: its descriptor (R355), its state and its partials. -/
structure Sig where
  state : SigState := .free
  part : Nat := 0
  /-- TAG of the creating command; the free command, or the end of that process, lets it go (R374, R548). -/
  tag : Nat := 0
  freeWanted : Bool := false
  kind : Nat := 0
  format : Nat := 0
  mx : Bool := false
  sparse : Bool := false
  tdid : Nat := 0
  base : Nat := 0
  pitch : Nat := 0
  rows : Nat := 0
  cols : Nat := 0
  /-- Index placed in SIGNATURE; its home unit is the index modulo 8 (R372). -/
  index : Nat := 0
  /-- Covering Range Ownership Table entries. -/
  entries : List Nat := []
  /-- Accumulator entries: key 131,072 × unit + k; after the merge, those of unit 8 are the merged vector. -/
  acc : Tbl Accum := {}
  /-- ERR of units 0 to 7, then the merged ERR, in B32. -/
  err : List Word32 := List.replicate 9 0x200
  /-- Flags (R377), the union over the units: bit 0 FAILED, 1 INCOMPLETE, 2 NONFINITE, 3 OVERFLOW. -/
  flags : BitVec 4 := 0
  /-- Units whose partial is ready (R375). -/
  ready : List Nat := []
  /-- While CLOSING: the units whose replica no longer shows SIGN on an entry (R374): unit and entry. -/
  cleared : List (Nat × Nat) := []
  /-- Lines added and ignored, by unit (R371). -/
  added : Tbl Nat := {}
  ignored : Tbl Nat := {}
  deriving DecidableEq, Repr, Inhabited

/-- Work of the combiner (R381): a merge of a signature or a check. -/
inductive BfcWork where
  | merge (h : Nat) | check (n : Nat)
  deriving DecidableEq, Repr, Inhabited

/-- A granule slot of a unit's scale buffer (R365): granule number and the scale lines written so far. -/
structure ScaleSlot where
  granule : Nat := 0
  lines : List (Nat × Bytes) := []
  deriving DecidableEq, Repr, Inhabited

/-- A check descriptor that is outstanding (R379, R380). -/
structure CheckRec where
  used : Bool := false
  part : Nat := 0
  tdid : Nat := 0
  addr : Nat := 0
  curve : Nat := 0
  uncheckedIsError : Bool := false
  a : Nat := 0
  b : Nat := 0
  c : Nat := 0
  fence : Nat := 0
  value : Nat := 0
  /-- Ordered to complete ABORTED (R389). -/
  aborted : Bool := false
  deriving DecidableEq, Repr, Inhabited

/-- The Belfry units and the combiner. -/
structure Belfry where
  sigs : Tbl Sig := {}
  checks : Tbl CheckRec := {}
  /-- Merges and checks in order of readiness (R381), and the one that runs. -/
  ready : List BfcWork := []
  running : Option BfcWork := none
  /-- Scale buffers of units 0 to 7, most recently used slot first (R365). -/
  scales : Tbl (List ScaleSlot) := {}
  deriving DecidableEq, Repr, Inhabited

/-! ### Attestation and admission (spec/12_attestation.md) -/

/-- An SPDM connection (R515 to R519): `version` 0 until negotiated, then 0x12 or 0x13; `stage` 1 after GET_VERSION, 2 after
GET_CAPABILITIES, 3 after NEGOTIATE_ALGORITHMS. -/
structure Conn where
  version : Nat := 0
  stage : Nat := 0
  /-- Mailbox and buffer of a relay connection (R515). -/
  mbx : Option Nat := none
  buf : Nat := 0
  /-- Requests and responses so far, for the signatures that cover them. -/
  transcript : Bytes := []
  /-- A large message collected by CHUNK_SEND, and the rest of one being fetched by CHUNK_GET. -/
  chunkIn : Bytes := []
  chunkOut : Bytes := []
  /-- A response that the requester will collect with RESPOND_IF_READY (R514). -/
  ready : Option Bytes := none
  awaited : Bool := false
  deriving DecidableEq, Repr, Inhabited

/-- An SPDM session (R515 to R526). -/
structure Sess where
  open_ : Bool := false
  conn : Nat := 0
  finished : Bool := false
  augmented : Bool := false
  /-- Master-Secret, then the secret that replaces it (R521 step 5). -/
  secret : Bytes := []
  /-- Transcript hash at FINISH (TH2). -/
  th2 : Bytes := []
  /-- Requester's P-384 public key of its FINISH chain, and the requester key digest (R522). -/
  reqKey : Bytes := []
  keyDigest : Bytes := []
  /-- KEY_UPDATEs, and messages sealed under the present keys. -/
  updates : Nat := 0
  sent : Nat := 0
  deriving DecidableEq, Repr, Inhabited

/-- A signing request (R513, R514): the connection that asked, the code of its response, what the response holds before
the signatures, the payload and its ML-DSA context (empty: ECDSA alone); a record; a standing record names its partition
plus one; a KEM_AUGMENT its session, the secret that replaces Master-Secret and the requester key digest. -/
structure SignReq where
  conn : Nat := 0
  sess : Option Nat := none
  code : Nat := 0
  reply : Bytes := []
  payload : Bytes := []
  context : String := ""
  record : Bool := false
  standing : Nat := 0
  secret : Bytes := []
  keyDigest : Bytes := []
  deriving DecidableEq, Repr, Inhabited

/-- The DICE store (R500 to R503): DeviceID material, the CDIs for DBG 0 and 1, which of them the alias keys use. -/
structure Dice where
  deviceId : Bytes := []
  cdi0 : Bytes := []
  cdi1 : Bytes := []
  aliasDebug : Bool := false
  deriving DecidableEq, Repr, Inhabited

/-- Tower's SPDM responder, signing queue and records. -/
structure Attest where
  dice : Dice := {}
  conns : Tbl Conn := {}
  sess : Tbl Sess := {}
  queue : List SignReq := []
  signed : BitVec 22 := 0
  /-- Standing records (R511), and what each one shows of layout, sites and stream. -/
  standing : Tbl Bytes := {}
  shown : Tbl Bytes := {}
  deriving DecidableEq, Repr, Inhabited

/-! ### Partitions and objects (spec/13_partitions_and_objects.md) -/

/-- State of a partition (R543). -/
inductive PartState where
  | none | active | quiescing | quiesced | frozen | removing
  deriving DecidableEq, Repr, Inhabited

/-- A partition record. -/
structure Part where
  state : PartState := .none
  openDomain : Bool := false
  /-- Created with IMPORT (R543). -/
  importing : Bool := false
  /-- Fenced at L2 since it was last ACTIVE (R614, R631). -/
  fenced : Bool := false
  reserve : Nat := 0
  tdids : BitVec 128 := 0
  /-- Allotments of resources 1 to 14 (R536), in order. -/
  allot : List Nat := []
  /-- First unit of each run: key slots, Range Ownership Table entries, mailboxes, Gecko windows. -/
  slot0 : Nat := 0
  rot0 : Nat := 0
  mbx0 : Nat := 0
  gecko0 : Nat := 0
  keyService : Bytes := []
  occupants : List Bytes := []
  /-- Fence and value of the QUIESCE under way. -/
  quiesce : Option (Nat × Nat) := none
  /-- Site Context Table entries kept for RESUME (R544): key 256 × site + index, contents. -/
  kept : List (Nat × BitVec 64) := []
  /-- Removal step under way (R568). -/
  step : Nat := 0
  /-- MIGRATION_ID of the last package (R570), for the standing record. -/
  migrationId : Bytes := []
  deriving DecidableEq, Repr, Inhabited

/-- What every object record holds (R547, R551): in use, GEN, owning partition, TAG of its creation. The two counts are
the host reference entries and the holders of R548, which the model counts where it needs them. The key of an object is
2^20 × TYPE + INDEX. -/
structure ObjRec where
  used : Bool := false
  gen : BitVec 8 := 0
  part : Nat := 0
  tag : Nat := 0
  deriving DecidableEq, Repr, Inhabited

/-- A host reference entry (R550): object key, TAG and count; `part` is the partition of the object. -/
structure HostRef where
  key : Nat := 0
  part : Nat := 0
  tag : Nat := 0
  count : Nat := 0
  deriving DecidableEq, Repr, Inhabited

/-- Where a region stands. -/
inductive RegionPhase where
  /-- Waits for Dome's derivation of its key (R564 step 2). -/
  | deriving_
  /-- Under initialisation (R564 step 3, R200). -/
  | scrubbing
  /-- LIVE sent, its acknowledgements awaited (R285). -/
  | publishing
  | live
  /-- Destroyed; its entries drain (R565, R566). -/
  | dying
  deriving DecidableEq, Repr, Inhabited

/-- A Region record (R550, R562). -/
structure Region where
  tdid : Nat := 0
  cls : Nat := 0
  attr : Nat := 0
  entries : List Nat := []
  slot : Option Nat := none
  dead : Bool := false
  phase : RegionPhase := .live
  /-- Initialised parts: island index and entry (R199). -/
  done : List (Nat × Nat) := []
  deriving DecidableEq, Repr, Inhabited

/-- A Fence record (R557 to R561). `kind` 0 LOCAL, 1 HOST, 2 FABRIC; `holder` the key of its Region or Stream. -/
structure Fence where
  kind : Nat := 0
  tdid : Nat := 0
  loc : Nat := 0
  node : Nat := 0
  holder : Option Nat := none
  initial : Nat := 0
  /-- Last value written, and whether it was an error. -/
  last : Nat := 0
  errored : Bool := false
  lost : Bool := false
  deriving DecidableEq, Repr, Inhabited

/-- Partitions, objects and their references. -/
structure Parts where
  parts : Tbl Part := {}
  objs : Tbl ObjRec := {}
  refs : List HostRef := []
  regions : Tbl Region := {}
  fences : Tbl Fence := {}
  /-- A fence write has been lost since reset (TWR_OBJ_STATUS.LOST). -/
  fenceLost : Bool := false
  deriving DecidableEq, Repr, Inhabited

/-! ### Structure stream (spec/02_structure_stream.md) -/

/-- A section of a structure stream: its SECTION_ID and ISLAND_MASK from the directory (R57), and its bytes, the
16-byte section header included (R59). -/
structure Section where
  id : Nat := 0
  mask : BitVec 64 := 0
  body : Bytes := []
  deriving DecidableEq, Repr, Inhabited

/-- A stream as Tower keeps it: its header values and its sections. -/
structure StreamSet where
  generation : Word32 := 0
  raiseFloor : Bool := false
  commitTime : BitVec 64 := 0
  baseDigest : Bytes := []
  /-- SHA-384 of the whole stream (R70, R90). -/
  digest : Bytes := []
  sections : List Section := []
  /-- The stream as it was read: what the archive holds after the copy (R87). -/
  bytes : Bytes := []
  deriving DecidableEq, Repr, Inhabited

/-- TWR_STREAM_STATUS, TWR_STREAM_DETAIL and the two sets (R69 to R91). -/
structure Stream where
  /-- 0 IDLE, 1 LOADING, 2 VALIDATED, 3 SWAPPING, 4 COMMITTED, 5 REJECTED, 6 ABORTED. -/
  state : BitVec 4 := 0
  reason : BitVec 8 := 0
  section_ : BitVec 8 := 0
  island : BitVec 6 := 0x3F
  detail : Word32 := 0
  shadow : Option StreamSet := none
  active : Option StreamSet := none
  /-- SHA-384 of each section that the archive holds a copy of (R87); empty before the first copy. -/
  archive : List (Nat × Bytes) := []
  /-- The archive holds the committed stream (R87): cleared by each commit, set by the copy that follows. -/
  copied : Bool := false
  /-- RWL values that Tower writes back after an island reset (R756): island, offset, value. -/
  rwl : List (Nat × Nat × Word32) := []
  /-- TWR_ARCHIVE_BASE (R761, RWL). -/
  base : BitVec 52 := 0
  deriving DecidableEq, Repr, Inhabited

/-! ### Observation and field test (spec/16_observation.md, spec/15_faults_and_recovery.md) -/

/-- A trace record in the trace SRAM (R658): TIME and the other 24 bytes, ISLAND in bits 7:0 on. -/
structure TraceRec where
  time : BitVec 64 := 0
  body : BitVec 192 := 0
  deriving DecidableEq, Repr, Inhabited

/-- State of the trace (R665). -/
inductive TraceState where
  | recording | stopped | post | frozen | lent
  deriving DecidableEq, Repr, Inhabited

/-- OBS: banks, freeze, snapshots and trace (R639 to R667). -/
structure Obs where
  live : Tbl (BitVec 48) := {}
  liveHist : Tbl (BitVec 48) := {}
  froz : Tbl (BitVec 48) := {}
  frozHist : Tbl (BitVec 48) := {}
  /-- OBS_FREEZE_STATUS and OBS_FREEZE_TIME. -/
  frozen : Bool := false
  /-- Islands whose marker has not returned (R648). -/
  markers : List Nat := []
  source : BitVec 3 := 0
  timeLocked : Bool := false
  time : BitVec 64 := 0
  /-- Generation of the bank's selection (R654). -/
  generation : Word32 := 0
  snapCtrl : Word32 := 0
  snapBase : BitVec 64 := 0
  snapBusy : Bool := false
  noChannel : Bool := false
  seq : Word32 := 0
  /-- A THAW that waits for the snapshot's last write. -/
  thawWait : Bool := false
  /-- Secure time of the last periodic instant, or of the last write of OBS_SNAP_CTRL (R647). -/
  lastPeriod : Nat := 0
  trace : TraceState := .recording
  /-- Records held, oldest first. -/
  records : List TraceRec := []
  /-- Records still to come in the post-trigger segment. -/
  postLeft : Nat := 0
  triggerTime : BitVec 64 := 0
  dropped : Bool := false
  overwritten : Bool := false
  draining : Bool := false
  drained : Bool := false
  traceNoChannel : Bool := false
  droppedCount : Word32 := 0
  releaseWait : Bool := false
  traceBase : BitVec 64 := 0
  deriving DecidableEq, Repr, Inhabited

/-- The field-test unit (R634 to R638, FTU registers). `result` 0 NONE, 1 RUNNING, 2 PAUSED, 3 PASS, 4 FAIL, 5 ABORTED,
6 INVALID, 7 REFUSED. -/
structure Ftu where
  unit : BitVec 8 := 0
  island : BitVec 6 := 0
  kind : BitVec 2 := 0
  pattern : Word32 := 0
  result : BitVec 4 := 0
  reason : BitVec 8 := 0
  beatsDone : Word32 := 0
  firstFail : Word32 := 0xFFFFFFFF
  failCount : Word32 := 0
  /-- Target of the running test: kind, island, unit. -/
  target : Option (Nat × Nat × Nat) := none
  /-- The lane under test was FAULTED before the test. -/
  wasFaulted : Bool := false
  header : Bytes := []
  /-- Beats streamed so far, for DATA_DIGEST. -/
  beats : Bytes := []
  /-- Belfry units disabled until reset (R638). -/
  disabled : List Nat := []
  deriving DecidableEq, Repr, Inhabited

/-! ### Islands, power, pads (spec/01_architecture.md, spec/02_structure_stream.md, spec/17, spec/18, spec/19) -/

/-- A counter event in an island's accumulators (R641, R645): event code (256 + n for fixed counter n), TDID (128 when
unknown), format, subcode, increment. -/
structure CountEv where
  code : Nat := 0
  tdid : Nat := 128
  fmt : Nat := 0
  sub : Nat := 0
  n : Nat := 1
  deriving DecidableEq, Repr, Inhabited

/-- Swap state of an island (R80). -/
inductive SwapState where
  | run | draining | prepared
  deriving DecidableEq, Repr, Inhabited

/-- A word of an island FIFO (R719): its payload code, 0 the idle item, the item that the payload of its last word completes,
and the END mark. -/
structure FifoWord where
  code : Nat := 0
  item : Option Instr := none
  last : Bool := false
  deriving DecidableEq, Repr

/-- An island FIFO (R719 to R722): the words it holds, oldest first, and those its writer has still to write; the pointers,
and their Gray-coded copies at the other end; the END marks written, their copy, and the END marks read. -/
structure Fifo where
  words : List FifoWord := []
  wait : List FifoWord := []
  wptr : Nat := 0
  rptr : Nat := 0
  rSeen : Nat := 0
  wSeen : Nat := 0
  ends : Nat := 0
  endsSeen : Nat := 0
  endsRead : Nat := 0
  deriving DecidableEq, Repr, Inhabited

/-- What every island has: reset and power, the swap, its committed and shadow sections, the common registers of 19. -/
structure Isl where
  inReset : Bool := true
  /-- Held in reset by its clock monitor, and the good windows counted since (R716). -/
  clockHeld : Bool := false
  goodWindows : Nat := 0
  swap : SwapState := .run
  /-- The island has obtained its sections, replica and records (R86, R275). -/
  loaded : Bool := false
  /-- The dynamic clamp of its port is released (R697). -/
  clampOff : Bool := false
  /-- RWL fields are locked (R755). -/
  locked : Bool := false
  generation : Word32 := 0
  active : List Section := []
  shadow : List Section := []
  parity : BitVec 16 := 0
  corrected : BitVec 16 := 0
  /-- Accumulated counter increments not yet sent to OBS (R641). -/
  acc : List CountEv := []
  /-- Trace records waiting to be sent (R660). -/
  trace : List (BitVec 192) := []
  /-- Records dropped since the last DROP record (R660). -/
  traceDropped : Nat := 0
  /-- The ingress FIFO: requests that have arrived while the island drains or holds its ingress (R80). -/
  ingress : Fifo := {}
  deriving DecidableEq, Repr, Inhabited

/-- Power, reset and the load-step ramp (R726 to R745). -/
structure Pwr where
  hresetLow : Bool := true
  /-- Dome has run R442 since this reset began (R734). -/
  rootStepsDone : Bool := false
  /-- A fall of the hub rail preceded this reset: R490 and R495 apply (R734). -/
  railFell : Bool := true
  /-- CLAMP_STATIC straps and the READY clamp straps of the 39 ports (R692): integration choices. -/
  clampStatic : BitVec 39 := 0
  clampRdyIn : BitVec 39 := BitVec.allOnes 39
  clampRdyRsp : BitVec 39 := BitVec.allOnes 39
  /-- SPR_RAMP_CTRL.HOLD_US. -/
  holdUs : BitVec 16 := 10
  /-- Cluster (island index) whose grant was last made (R740). -/
  lastGrant : Nat := 0
  /-- Belfry units and field-test tenths waiting to resume (R743). -/
  belfryWait : Nat := 0
  testWait : Nat := 0
  /-- A counted step has been taken in the current 250 ns window (R738). -/
  stepTaken : Bool := false
  /-- Rise of the exempt events of the current window, in 0.05 A (R738). -/
  exempt : Nat := 0
  /-- The first stream has committed since the last block reset (R91). -/
  committed : Bool := false
  deriving DecidableEq, Repr, Inhabited

/-- Pad drivers (R698). -/
structure Pads where
  trayReq : Bool := false
  wake : Bool := false
  trigOut : Bool := false
  /-- OBS drives TRIG_IO: the pad's owner is TRIGGER_OUT and no change of owner is under way (R95, R710). -/
  trigDriven : Bool := false
  /-- FAULT_N as last driven: low while true (R700). -/
  faultN : Bool := false
  deriving DecidableEq, Repr, Inhabited

/-- Reads latched for a requester (R753, R754): CP or Tower's port; island, offset of the latched word, value. -/
structure Latch where
  tower : Bool := false
  island : Nat := 0
  off : Nat := 0
  value : Word32 := 0
  deriving DecidableEq, Repr, Inhabited

/-! ### The whole state -/

/-- The sockets at reset (R29): lane `n` in socket `n`, active ones first; key 16 × (island − 3) + socket. -/
def resetSockets : Tbl Socket :=
  Tbl.ofList ((List.range 27).flatMap (fun c =>
    let n := if c < 8 then 16 else if c < 10 then 5 else if c < 26 then 4 else 5
    let a := if c < 8 then 14 else if c < 10 then 4 else if c < 26 then 3 else 4
    (List.range n).map (fun i =>
      (16 * c + i, { lane := BitVec.ofNat 4 i, role := if i < a then 0 else 1 }))))

/-- The MCCs at reset: MCC_ILV.WAY reads k (R214). -/
def resetMccs : Tbl Mcc :=
  Tbl.ofList ((List.range 8).map (fun k => (k, { ilv := BitVec.ofNat 32 (0x30C + k * 0x10000) })))

/-- The state of the block. -/
structure State where
  /-- Spire clocks since the model began: 1 ns each (R393). -/
  now : Nat := 0
  /-- How many free values have been drawn (the model's own counter: log entry 4). -/
  free : Nat := 0
  /-- Everything the block has sent out of its ports, oldest first (the model's own record). -/
  out : List PortOut := []
  isl : Tbl Isl := {}
  pwr : Pwr := {}
  pads : Pads := {}
  latches : List Latch := []
  spr : Spr := {}
  mbx : Tbl Mbx := {}
  cmds : List Cmd := []
  fw : Firmware := {}
  /-- Tower's firmware RAM (R47, R578): the cells that differ from zero, addresses rising. -/
  ram : List Host.Cell := []
  cap : Capture := {}
  own : Ownership := {}
  sgu : Tbl Sgu := {}
  /-- Site Context Table entries (R264), key 256 × site + index. -/
  sct : Tbl (BitVec 64) := {}
  siteFlights : List SiteFlight := []
  sockets : Tbl Socket := {}
  clusters : Tbl Cluster := {}
  mem : Tbl MemUnit := {}
  mcc : Tbl Mcc := {}
  pcc : Tbl Pcc := {}
  nwt : Nwt := {}
  dom : Dom := {}
  lc : LifeCycle := {}
  slots : Tbl Slot := {}
  sets : Tbl SetEntry := {}
  /-- Slot invalidations sent to clusters and not yet acknowledged (R112, R461): cluster island and slot. -/
  invals : List (Nat × Nat) := []
  /-- Retirements that wait for a control-plane operation (R462). -/
  retireWait : List Nat := []
  cpe : Cpe := {}
  att : Attest := {}
  str : Stream := {}
  obs : Obs := {}
  ftu : Ftu := {}
  fcc : Tbl Fcc := {}
  /-- Pair-key cache entries, key 2048 × FCC + entry. -/
  streams : Tbl FccEntry := {}
  /-- Epochs used since Tower's reset (R308): source node, destination node, TDID, epoch. -/
  epochs : List (Nat × Nat × Nat × Nat) := []
  hcc : Hcc := {}
  bel : Belfry := {}
  prt : Parts := {}
  /-- Commands that wait, first in, first out. -/
  pending : List Instr := []
  deriving DecidableEq, Repr, Inhabited

/-- The block right after reset: VBAT first applied, the hub rail present, HRESET_N low (log entry 2). -/
def State.reset : State :=
  { sockets := resetSockets, mcc := resetMccs, mbx := Tbl.ofList [(0, { queueMode := false })],
    isl := Tbl.ofList [(0, { inReset := false, loaded := true })] }

end Sys2Proof.Machine
end

