-- ==== Sys2Proof/Machine/Links.lean ====
section
/-!
DEFINITION. What crosses between two islands (spec/18_islands_clocks_power.md R717 to R726; spec/01_architecture.md R26, R27):
the four-phase handshake and the island FIFO.
-/

namespace Sys2Proof.Machine

/-! ### Handshakes (R717) -/

/-- The sender raises REQ with the next item held stable, once the phases before it are over. -/
def Handshake.raise (h : Handshake) : Handshake :=
  if h.req.isSome || h.ack then h
  else match h.wait with
    | x :: rest => { h with req := some x, wait := rest }
    | [] => h

/-- An item to send: it waits behind the items before it, one at a time. -/
def Handshake.send (h : Handshake) (x : SpireItem) : Handshake := Handshake.raise { h with wait := h.wait ++ [x] }

/-- The receiver samples REQ, takes the item and raises ACK. -/
def Handshake.take (h : Handshake) : Handshake := if h.req.isSome then { h with ack := true } else h

/-- The sender lowers REQ on seeing ACK. -/
def Handshake.lower (h : Handshake) : Handshake := if h.ack then { h with req := none } else h

/-- The receiver lowers ACK once REQ is low. -/
def Handshake.finish (h : Handshake) : Handshake := if h.req.isNone then { h with ack := false } else h

/-- An item crosses: the four phases, and REQ rises for the next. -/
def Handshake.cross (h : Handshake) : Handshake := h.take.lower.finish.raise

/-- An item is under way: it holds REQ or waits. -/
def Handshake.holds (h : Handshake) (x : SpireItem) : Bool := h.req == some x || h.wait.contains x

/-! ### Island FIFOs (R719 to R726) -/

/-- Depth of the ingress FIFO of an island (R719): a power of two from 4 to 1,024, a constant of the implementation. -/
def fifoDepth (i : Nat) : Nat := 2 ^ (2 + Config.fifoLog i % 9)

/-- Gray code of a count. -/
def gray (n : Nat) : Nat := n ^^^ (n / 2)

/-- The count of a Gray code of at most 16 bits. -/
def ungray (g : Nat) : Nat := (List.range 16).foldl (fun a k => a ^^^ (g / 2 ^ k)) 0

/-- The idle item (R724): one word with an all-zero payload and END. -/
def FifoWord.idle : FifoWord := { code := 0, last := true }

/-- FULL (R720): from the write pointer and the synchronised read pointer. -/
def Fifo.full (d : Nat) (f : Fifo) : Bool := (f.wptr + 2 * d - ungray f.rSeen) % (2 * d) == d

/-- EMPTY (R720): from the read pointer and the synchronised write pointer. -/
def Fifo.empty (f : Fifo) : Bool := gray f.rptr == f.wSeen

/-- The reader's packet count (R722): the synchronised END count less the END marks read. -/
def Fifo.packets (d : Nat) (f : Fifo) : Nat := (ungray f.endsSeen + 2 * d - f.endsRead) % (2 * d)

/-- The pointers and the END count cross through the synchronisers (R719, R722). -/
def Fifo.sync (f : Fifo) : Fifo := { f with wSeen := gray f.wptr, rSeen := gray f.rptr, endsSeen := gray f.ends }

/-- The writer writes its next word while FULL is clear (R721). -/
def Fifo.write (d : Nat) (f : Fifo) : Fifo :=
  match f.wait with
  | w :: rest =>
    if f.full d then f
    else { f with words := f.words ++ [w], wait := rest, wptr := (f.wptr + 1) % (2 * d)
                  ends := if w.last then (f.ends + 1) % (2 * d) else f.ends }
  | [] => f

/-- The writer writes what FULL lets it write. -/
def Fifo.fill (d : Nat) (f : Fifo) : Fifo := f.wait.foldl (fun f _ => f.write d) f

/-- The words of an item (R723): at most as many as the depth, the last with END. The spec gives no word formats; how many
words an item takes is the implementation's. -/
def itemWords (d : Nat) (c : Instr) : List FifoWord :=
  List.replicate (Config.fifoItem c % d) { code := 1, last := false } ++ [{ code := 1, last := true, item := some c }]

/-- An item to write: it waits at the writer while FULL is set, and nothing is dropped (R721, R80). -/
def Fifo.offer (d : Nat) (f : Fifo) (c : Instr) : Fifo := Fifo.fill d { f with wait := f.wait ++ itemWords d c }

/-- The reader reads a word; of an empty FIFO it reads the idle item, and the read pointer stays (R724). -/
def Fifo.read (d : Nat) (f : Fifo) : FifoWord × Fifo :=
  match f.empty, f.words with
  | false, w :: rest =>
    (w, { f with words := rest, rptr := (f.rptr + 1) % (2 * d), endsRead := if w.last then (f.endsRead + 1) % (2 * d) else f.endsRead })
  | _, _ => (FifoWord.idle, f)

/-- The rest of an item, read to its END (R723). -/
def Fifo.readItem (d : Nat) : Nat → Fifo → Option Instr × Fifo
  | 0, f => (none, f)
  | n + 1, f =>
    let (w, g) := f.read d
    if w.last then (w.item, g) else g.readItem d n

/-- The reader takes an item, begun only while its packet count is at least one (R723). -/
def Fifo.take (d : Nat) (f : Fifo) : Option Instr × Fifo := if f.packets d = 0 then (none, f) else f.readItem d d

/-- The reader takes every item, in order, while the writer goes on with those that waited. -/
def Fifo.drain (d : Nat) : Nat → Fifo → List Instr × Fifo
  | 0, f => ([], f)
  | n + 1, f =>
    match (f.fill d).sync.take d with
    | (some c, g) =>
      let (cs, h) := g.sync.drain d n
      (c :: cs, h)
    | (none, g) => ([], g)

/-- The items that a FIFO and its writer hold, oldest first; those of an island that resets or powers off are discarded, a
half-written or half-read one with them (R726). -/
def Fifo.items (f : Fifo) : List Instr := (f.words ++ f.wait).filterMap (·.item)

end Sys2Proof.Machine
end

