-- ==== Sys2Proof/Machine/Bytes.lean ====
section
/-!
DEFINITION. Strings of bytes: slices, numbers in either byte order (R24), padding, exclusive or. Every structure,
descriptor, stream and packet of the spec is read and written through these.
-/

namespace Sys2Proof.Machine

/-- `len` bytes from offset `off`. -/
def Bytes.slice (b : Bytes) (off len : Nat) : Bytes := (b.drop off).take len

/-- Byte `i`, zero past the end. -/
def Bytes.at (b : Bytes) (i : Nat) : Nat := ((b[i]?).getD 0).toNat

/-- A string as a little-endian number (R24). -/
def Bytes.leNat : Bytes → Nat
  | [] => 0
  | x :: xs => x.toNat + 256 * Bytes.leNat xs

/-- A string as a number, most significant byte first (the exceptions of R24). -/
def Bytes.beNat (b : Bytes) : Nat := b.foldl (fun n x => 256 * n + x.toNat) 0

/-- The little-endian field of `len` bytes at offset `off` (R24). -/
def Bytes.le (b : Bytes) (off len : Nat) : Nat := Bytes.leNat (Bytes.slice b off len)

/-- The field of `len` bytes at offset `off`, most significant byte first. -/
def Bytes.be (b : Bytes) (off len : Nat) : Nat := Bytes.beNat (Bytes.slice b off len)

/-- The low `len` bytes of a number, little-endian. -/
def toLe : Nat → Nat → Bytes
  | 0, _ => []
  | n + 1, v => BitVec.ofNat 8 (v % 256) :: toLe n (v / 256)

/-- The low `len` bytes of a number, most significant byte first. -/
def toBe (len v : Nat) : Bytes := (toLe len v).reverse

/-- `n` zero bytes. -/
def zeros (n : Nat) : Bytes := List.replicate n 0

/-- Every byte is zero. -/
def Bytes.allZero (b : Bytes) : Bool := b.all (· == 0)

/-- The `len` bytes at `off` are zero: a reserved field that the block reads (R22). -/
def Bytes.zeroAt (b : Bytes) (off len : Nat) : Bool := Bytes.allZero (Bytes.slice b off len)

/-- Exactly `n` bytes: cut, or filled with zeros. -/
def Bytes.fit (b : Bytes) (n : Nat) : Bytes := (b ++ zeros n).take n

/-- Exclusive or, byte by byte, over the shorter length. -/
def xorB (a b : Bytes) : Bytes := List.zipWith (· ^^^ ·) a b

/-- A string of ASCII characters, one byte each. -/
def ascii (t : String) : Bytes := t.toList.map (fun c => BitVec.ofNat 8 c.toNat)

/-- Cut into pieces of `n` bytes; the last may be short. `fuel` bounds the number of pieces. -/
def chunksOf : Nat → Nat → Bytes → List Bytes
  | 0, _, _ => []
  | f + 1, n, b => if b.isEmpty then [] else b.take n :: chunksOf f n (b.drop n)

/-- The pieces of `n` bytes of a string. -/
def Bytes.chunks (b : Bytes) (n : Nat) : List Bytes := chunksOf (b.length + 1) n b

/-- Add 1 to a big-endian counter of the same length, wrapping. -/
def incBe (b : Bytes) : Bytes := toBe b.length (Bytes.beNat b + 1)

/-- The bit `i` of a number. -/
def bit (v i : Nat) : Bool := v.testBit i

/-- Bits `hi : lo` of a number. -/
def bits (v hi lo : Nat) : Nat := v / 2 ^ lo % 2 ^ (hi + 1 - lo)

/-- Field `hi : lo` of a register, entry or record. -/
def fld {w : Nat} (v : BitVec w) (hi lo : Nat) : Nat := bits v.toNat hi lo

/-- A register with field `hi : lo` replaced. -/
def setFld {w : Nat} (v : BitVec w) (hi lo x : Nat) : BitVec w :=
  let m := BitVec.ofNat w ((2 ^ (hi + 1 - lo) - 1) * 2 ^ lo)
  (v &&& ~~~ m) ||| (BitVec.ofNat w (x * 2 ^ lo) &&& m)

/-- A flag as a bit. -/
def b2n (b : Bool) : Nat := if b then 1 else 0

/-- `n + 1` saturating at a bit vector's largest value. -/
def satInc {w : Nat} (x : BitVec w) : BitVec w := if x = BitVec.allOnes w then x else x + 1

/-- `x + n` saturating at a bit vector's largest value. -/
def satAdd {w : Nat} (x : BitVec w) (n : Nat) : BitVec w := BitVec.ofNat w (min (x.toNat + n) (2 ^ w - 1))

/-- Replace element `i` of a list by a function of it. -/
def listModify {α : Type} (f : α → α) : List α → Nat → List α
  | [], _ => []
  | x :: xs, 0 => f x :: xs
  | x :: xs, n + 1 => x :: listModify f xs n

/-- Change every element that meets a test. -/
def mapWhere {α : Type} (p : α → Bool) (f : α → α) (l : List α) : List α := l.map (fun x => if p x then f x else x)

/-- Change the first element that meets a test. -/
def mapFirst {α : Type} (p : α → Bool) (f : α → α) : List α → List α
  | [] => []
  | x :: xs => if p x then f x :: xs else x :: mapFirst p f xs

/-- Drop the first element that meets a test. -/
def dropFirst {α : Type} (p : α → Bool) : List α → List α
  | [] => []
  | x :: xs => if p x then xs else x :: dropFirst p xs

/-- Strictly ascending, each element below the next. -/
def ascending : List Nat → Bool
  | [] => true
  | [_] => true
  | a :: b :: rest => decide (a < b) && ascending (b :: rest)

/-- No element twice. -/
def distinct : List Nat → Bool
  | [] => true
  | a :: rest => !rest.contains a && distinct rest

end Sys2Proof.Machine
end

