-- ==== Sys2Proof/Machine/Aes.lean ====
section
/-!
DEFINITION. AES-256 (FIPS 197): the one block cipher of the lanes, the control-plane engine and Dome (R102).
PRESUMED from the standard the spec names; log entry 5.
-/

namespace Sys2Proof.Machine.Aes

/-- The S-box of FIPS 197, byte `x` in bits `8x+7 : 8x`. -/
def sboxBits : Nat :=
  0x16BB54B00F2D99416842E6BF0D89A18CDF2855CEE9871E9B948ED9691198F8E19E1DC186B95735610EF6034866B53E708A8BBD4B1F74DDE8C6B4A61C2E2578BA08AE7A65EAF4566CA94ED58D6D37C8E779E4959162ACD3C25C2406490A3A32E0DB0B5EDE14B8EE4688902A22DC4F816073195D643D7EA7C41744975FEC130CCDD2F3FF1021DAB6BCF5389D928F40A351A89F3C507F02F94585334D43FBAAEFD0CF584C4A39BECB6A5BB1FC20ED00D153842FE329B3D63B52A05A6E1B1A2C830975B227EBE28012079A059618C323C7041531D871F1E5A534CCF73F362693FDB7C072A49CAFA2D4ADF04759FA7DC982CA76ABD7FE2B670130C56F6BF27B777C63

/-- The inverse S-box of FIPS 197, byte `x` in bits `8x+7 : 8x`. -/
def invSboxBits : Nat :=
  0x7D0C2155631469E126D677BA7E042B17619953833CBBEBC8B0F52AAE4D3BE0A0EF9CC9939F7AE52D0D4AB519A97F51605FEC8027591012B131C7078833A8DD1FF45ACD78FEC0DB9A2079D2C64B3E56FC1BBE18AA0E62B76F89C5291D711AF1476EDF751CE837F9E28535ADE72274AC9673E6B4F0CECFF297EADC674F4111913A6B8A130103BDAFC1020F3FCA8F1E2CD00645B3B80558E4F70AD3BC8C00ABD890849D8DA75746155EDAB9EDFD5048706C92B6655DCC5CA4D41698688664F6F87225D18B6D49A25B76B224D92866A12E084EC3FA420B954CEE3D23C2A632947B54CBE9DEC444438E3487FF2F9B8239E37CFBD7F3819EA340BF38A53630D56A0952

/-- S-box lookup. -/
def sub (x : Byte) : Byte := BitVec.ofNat 8 (sboxBits >>> (8 * x.toNat))

/-- Inverse S-box lookup. -/
def invSub (x : Byte) : Byte := BitVec.ofNat 8 (invSboxBits >>> (8 * x.toNat))

/-- Multiplication by x in GF(2^8) modulo x^8 + x^4 + x^3 + x + 1. -/
def xtime (x : Byte) : Byte := (x <<< 1) ^^^ (if x.msb then 0x1B#8 else 0#8)

/-- Multiplication by a constant below 16. -/
def mulSmall (k : Nat) (x : Byte) : Byte :=
  let x2 := xtime x
  let x4 := xtime x2
  let x8 := xtime x4
  (if bit k 0 then x else 0) ^^^ (if bit k 1 then x2 else 0) ^^^ (if bit k 2 then x4 else 0) ^^^
    (if bit k 3 then x8 else 0)

/-- One column times a circulant row of constants. -/
def mixColumn (k0 k1 k2 k3 : Nat) (c : Bytes) : Bytes :=
  match c with
  | [a, b, d, e] =>
    [mulSmall k0 a ^^^ mulSmall k1 b ^^^ mulSmall k2 d ^^^ mulSmall k3 e,
     mulSmall k3 a ^^^ mulSmall k0 b ^^^ mulSmall k1 d ^^^ mulSmall k2 e,
     mulSmall k2 a ^^^ mulSmall k3 b ^^^ mulSmall k0 d ^^^ mulSmall k1 e,
     mulSmall k1 a ^^^ mulSmall k2 b ^^^ mulSmall k3 d ^^^ mulSmall k0 e]
  | c => c

/-- Every column of a block. -/
def mixColumns (k0 k1 k2 k3 : Nat) (b : Block) : Block :=
  mixColumn k0 k1 k2 k3 (Bytes.slice b 0 4) ++ mixColumn k0 k1 k2 k3 (Bytes.slice b 4 4) ++
    mixColumn k0 k1 k2 k3 (Bytes.slice b 8 4) ++ mixColumn k0 k1 k2 k3 (Bytes.slice b 12 4)

/-- The bytes of a block picked by a list of positions. -/
def pick (b : Block) (ix : List Nat) : Block := ix.map (fun i => (b[i]?).getD 0)

/-- ShiftRows. -/
def shiftRows (b : Block) : Block := pick b [0, 5, 10, 15, 4, 9, 14, 3, 8, 13, 2, 7, 12, 1, 6, 11]

/-- The inverse of ShiftRows. -/
def invShiftRows (b : Block) : Block := pick b [0, 13, 10, 7, 4, 1, 14, 11, 8, 5, 2, 15, 12, 9, 6, 3]

/-- Key expansion: the words made so far, newest first, and the next index. -/
def expandFrom : Nat → Nat → Byte → List Bytes → List Bytes
  | 0, _, _, ws => ws
  | n + 1, i, rcon, ws =>
    let prev := (ws[0]?).getD []
    let t :=
      if i % 8 = 0 then
        match prev with
        | [a, b, c, d] => [sub b ^^^ rcon, sub c, sub d, sub a]
        | w => w
      else if i % 8 = 4 then prev.map sub
      else prev
    expandFrom n (i + 1) (if i % 8 = 0 then xtime rcon else rcon) (xorB ((ws[7]?).getD []) t :: ws)

/-- The fifteen round keys of a 256-bit key (R109: 240 bytes). -/
def schedule (key : Bytes) : List Block :=
  let ws := expandFrom 52 8 1 (Bytes.chunks (Bytes.fit key 32) 4).reverse
  Bytes.chunks ws.reverse.flatten 16

/-- The middle rounds of the cipher and its last round. -/
def encRounds : List Block → Block → Block
  | [], b => b
  | [k], b => xorB (shiftRows (b.map sub)) k
  | k :: ks, b => encRounds ks (xorB (mixColumns 2 3 1 1 (shiftRows (b.map sub))) k)

/-- The middle rounds of the inverse cipher and its last round. -/
def decRounds : List Block → Block → Block
  | [], b => b
  | [k], b => xorB ((invShiftRows b).map invSub) k
  | k :: ks, b => decRounds ks (mixColumns 14 11 13 9 (xorB ((invShiftRows b).map invSub) k))

/-- AES-256, forward. -/
def enc (key : Bytes) (b : Block) : Block :=
  match schedule key with
  | k0 :: ks => encRounds ks (xorB (Bytes.fit b 16) k0)
  | [] => b

/-- AES-256, inverse. -/
def dec (key : Bytes) (b : Block) : Block :=
  match (schedule key).reverse with
  | k0 :: ks => decRounds ks (xorB (Bytes.fit b 16) k0)
  | [] => b

end Sys2Proof.Machine.Aes
end

