-- ==== Sys2Proof/Machine/Sha.lean ====
section
/-!
DEFINITION. The hash functions of Tower: SHA-384 (FIPS 180-4) and SHA3-384 (FIPS 202). PRESUMED from the standards
the spec names; log entry 5.
-/

namespace Sys2Proof.Machine.Sha

/-- The 80 round constants of SHA-512, constant `i` in bits `64i+63 : 64i`. -/
def roundConstants : Nat :=
  0x6C44198C4A4758175FCB6FAB3AD6FAEC597F299CFC657E2A4CC5D4BECB3E42B6431D67C49C100D4C3C9EBE0A15C9BEBC32CAAB7B40C7249328DB77F523047D841B710B35131C471B113F9804BEF90DAE0A637DC5A2C898A606F067AA72176FBAF57D4F7FEE6ED178EADA7DD6CDE0EB1ED186B8C721C0C207CA273ECEEA26619CC67178F2E372532BBEF9A3F7B2C67915A4506CEBDE82BDE990BEFFFA23631E288CC702081A6439EC84C87814A1F0AB7278A5636F43172F60748F82EE5DEFB2FC682E6FF3D6B2B8A35B9CCA4F7763E3734ED8AA4AE3418ACB391C0CB3C5C95A6334B0BCB5E19B48A82748774CDF8EEB991E376C085141AB5319A4C116B8D2D0C8106AA07032BBD1B8F40E35855771202AD69906245565A910D192E819D6EF5218C76C51A30654BE30C24B8B70D0F89791A81A664BBC423001A2BFE8A14CF1036492722C851482353B81C2C92E47EDAEE6766A0ABB3C77B2A8650A73548BAF63DE53380D139D95B3DF4D2C6DFC5AC42AED2E1B21385C26C92627B70A8546D22FFC142929670A0E6E7006CA6351E003826FD5A79147930AA725C6E00BF33DA88FC2BF597FC7BEEF0EE4B00327C898FB213FA831C66D2DB43210983E5152EE66DFAB76F988DA831153B55CB0A9DCBD41FBD44A7484AA6EA6E4832DE92C6F592B0275240CA1CC77AC9C650FC19DC68B8CD5B5EFBE4786384F25E3E49B69C19EF14AD2C19BF174CF6926949BDC06A725C7123580DEB1FE3B1696B172BE5D74F27B896F550C7DC3D5FFB4E2243185BE4EE4B28C12835B0145706FBED807AA98A3030242AB1C5ED5DA6D8118923F82A4AF194F9B59F111F1B605D0193956C25BF348B538E9B5DBA58189DBBCB5C0FBCFEC4D3B2F7137449123EF65CD428A2F98D728AE22

/-- The initial value of SHA-384, word `i` in bits `64i+63 : 64i`. -/
def initBits : Nat :=
  0x47B5481DBEFA4FA4DB0C2E0D64F98FA78EB44A876858151167332667FFC00B31152FECD8F70E59399159015A3070DD17629A292A367CD507CBBB9D5DC1059ED8

/-- Right rotation of a 64-bit word. -/
def rotr (x : BitVec 64) (n : Nat) : BitVec 64 := x.rotateRight n

/-- Message-schedule words, newest first. -/
def extend : Nat → List (BitVec 64) → List (BitVec 64)
  | 0, ws => ws
  | n + 1, ws =>
    let a := (ws[1]?).getD 0
    let b := (ws[14]?).getD 0
    let s1 := rotr a 19 ^^^ rotr a 61 ^^^ (a >>> 6)
    let s0 := rotr b 1 ^^^ rotr b 8 ^^^ (b >>> 7)
    extend n ((s1 + (ws[6]?).getD 0 + s0 + (ws[15]?).getD 0) :: ws)

/-- The eight working variables. -/
structure Regs where
  a : BitVec 64
  b : BitVec 64
  c : BitVec 64
  d : BitVec 64
  e : BitVec 64
  f : BitVec 64
  g : BitVec 64
  h : BitVec 64

/-- One round. -/
def round (r : Regs) (k w : BitVec 64) : Regs :=
  let t1 := r.h + (rotr r.e 14 ^^^ rotr r.e 18 ^^^ rotr r.e 41) + ((r.e &&& r.f) ^^^ (~~~ r.e &&& r.g)) + k + w
  let t2 := (rotr r.a 28 ^^^ rotr r.a 34 ^^^ rotr r.a 39) + ((r.a &&& r.b) ^^^ (r.a &&& r.c) ^^^ (r.b &&& r.c))
  { a := t1 + t2, b := r.a, c := r.b, d := r.c, e := r.d + t1, f := r.e, g := r.f, h := r.g }

/-- The rounds over the schedule words, with the constants still to come in `ks`. -/
def rounds : List (BitVec 64) → Nat → Regs → Regs
  | [], _, r => r
  | w :: ws, ks, r => rounds ws (ks >>> 64) (round r (BitVec.ofNat 64 ks) w)

/-- Compress one 128-byte block. -/
def compress (r : Regs) (blk : Bytes) : Regs :=
  let ws := ((Bytes.chunks blk 8).map (fun c => BitVec.ofNat 64 (Bytes.beNat c))).reverse
  let o := rounds (extend 64 ws).reverse roundConstants r
  { a := r.a + o.a, b := r.b + o.b, c := r.c + o.c, d := r.d + o.d,
    e := r.e + o.e, f := r.f + o.f, g := r.g + o.g, h := r.h + o.h }

/-- Word `i` of the initial value. -/
def initWord (i : Nat) : BitVec 64 := BitVec.ofNat 64 (initBits >>> (64 * i))

/-- SHA-384 of a string: 48 bytes. -/
def sha384 (m : Bytes) : Bytes :=
  let padLen := (239 - m.length % 128) % 128
  let msg := m ++ [0x80#8] ++ zeros padLen ++ toBe 16 (8 * m.length)
  let r0 : Regs := { a := initWord 0, b := initWord 1, c := initWord 2, d := initWord 3,
                     e := initWord 4, f := initWord 5, g := initWord 6, h := initWord 7 }
  let r := (Bytes.chunks msg 128).foldl compress r0
  ([r.a, r.b, r.c, r.d, r.e, r.f].map (fun w => toBe 8 w.toNat)).flatten

/-- The 24 round constants of Keccak, constant `i` in bits `64i+63 : 64i`. -/
def keccakConstants : Nat :=
  0x8000000080008008000000008000000180000000000080808000000080008081800000008000000A000000000000800A8000000000000080800000000000800280000000000080038000000000008089800000000000008B000000008000808B000000008000000A00000000800080090000000000000088000000000000008A800000000000800980000000800080810000000080000001000000000000808B8000000080008000800000000000808A00000000000080820000000000000001

/-- The rotation of lane `x + 5y`. -/
def keccakRot : List Nat := [0, 1, 62, 28, 27, 36, 44, 6, 55, 20, 3, 10, 43, 25, 39, 41, 45, 15, 21, 8, 18, 2, 61, 56, 14]

/-- Lane `i` of a Keccak state. -/
def lane (a : List (BitVec 64)) (i : Nat) : BitVec 64 := (a[i]?).getD 0

/-- One round of Keccak-f[1600]. -/
def keccakRound (a : List (BitVec 64)) (rc : BitVec 64) : List (BitVec 64) :=
  let c := (List.range 5).map (fun x => lane a x ^^^ lane a (x + 5) ^^^ lane a (x + 10) ^^^ lane a (x + 15) ^^^ lane a (x + 20))
  let d := (List.range 5).map (fun x => lane c ((x + 4) % 5) ^^^ (lane c ((x + 1) % 5)).rotateLeft 1)
  let t := (List.range 25).map (fun i => (lane a i ^^^ lane d (i % 5)).rotateLeft ((keccakRot[i]?).getD 0))
  -- lane (x, y) of t moves to (y, 2x + 3y); position (X, Y) takes x = X + 3Y, y = X
  let b := (List.range 25).map (fun i => lane t (((i % 5) + 3 * (i / 5)) % 5 + 5 * (i % 5)))
  let o := (List.range 25).map (fun i =>
    lane b i ^^^ (~~~ lane b ((i % 5 + 1) % 5 + 5 * (i / 5)) &&& lane b ((i % 5 + 2) % 5 + 5 * (i / 5))))
  match o with
  | x :: xs => (x ^^^ rc) :: xs
  | [] => []

/-- The 24 rounds. -/
def keccakF : Nat → Nat → List (BitVec 64) → List (BitVec 64)
  | 0, _, a => a
  | n + 1, ks, a => keccakF n (ks >>> 64) (keccakRound a (BitVec.ofNat 64 ks))

/-- Absorb one block of the rate. -/
def absorb (a : List (BitVec 64)) (blk : Bytes) : List (BitVec 64) :=
  let ws := (Bytes.chunks (Bytes.fit blk 200) 8).map (fun c => BitVec.ofNat 64 (Bytes.leNat c))
  keccakF 24 keccakConstants (List.zipWith (· ^^^ ·) a ws)

/-- SHA3-384 of a string: 48 bytes (rate 104 bytes). -/
def sha3_384 (m : Bytes) : Bytes :=
  let q := 104 - m.length % 104
  let pad : Bytes := if q = 1 then [0x86#8] else [0x06#8] ++ zeros (q - 2) ++ [0x80#8]
  let a := (Bytes.chunks (m ++ pad) 104).foldl absorb (List.replicate 25 0)
  (((List.range 6).map (fun i => toLe 8 (lane a i).toNat)).flatten).take 48

/-- SHAKE256 of a string, at most 136 bytes of output (rate 136 bytes). -/
def shake256 (m : Bytes) (n : Nat) : Bytes :=
  let q := 136 - m.length % 136
  let pad : Bytes := if q = 1 then [0x9F#8] else [0x1F#8] ++ zeros (q - 2) ++ [0x80#8]
  let a := (Bytes.chunks (m ++ pad) 136).foldl absorb (List.replicate 25 0)
  (((List.range 17).map (fun i => toLe 8 (lane a i).toNat)).flatten).take n

end Sys2Proof.Machine.Sha
end

