-- ==== Sys2Proof/Machine/Modes.lean ====
section
/-!
DEFINITION. The cipher modes of the lanes, the control-plane engine and Dome at byte level: XTS and CTR for memory
lines, the Onrus Tag Hash, GCM and GMAC, CMAC, the KDF and the key wrap with padding (spec/03_cipher_lanes.md R114 to
R134, R151 to R153).
-/

namespace Sys2Proof.Machine

/-- Sector `j` of a line (R115). -/
def sector (line : Bytes) (j : Nat) : Bytes := Bytes.slice line (16 * j) 16

/-- Multiplication by α of an XTS tweak (R117): least significant byte first, 0x87 folded into byte 0. -/
def xtsAlpha (t : Block) : Block :=
  let v := 2 * Bytes.leNat t
  let w := if v ≥ 2 ^ 128 then (v - 2 ^ 128) ^^^ 0x87 else v
  toLe 16 w

/-- The class C tweak value (R116). -/
def classCTweak (epoch tdid lineAddr : Nat) : Nat :=
  (epoch % 2 ^ 32) * 2 ^ 96 + (tdid % 128) * 2 ^ 89 + (lineAddr % 2 ^ 46) * 2 ^ 43

/-- T0 of a class C line (R117), under K2. -/
def xtsT0 (k2 : Bytes) (epoch tdid la : Nat) : Block := Aes.enc k2 (toLe 16 (classCTweak epoch tdid la))

/-- The mask output S of a class C line (R118, R119: byte 0 is the least significant byte). -/
def maskC (k2 : Bytes) (epoch tdid la : Nat) : Nat := Bytes.leNat (Aes.enc k2 (toLe 16 (classCTweak epoch tdid la + 1)))

/-- The class R counter block (R125). -/
def ctrBlock (major minor tdid la dom j : Nat) : Nat :=
  (major % 2 ^ 64) * 2 ^ 64 + (minor % 128) * 2 ^ 57 + (tdid % 128) * 2 ^ 50 + (la % 2 ^ 46) * 16 + dom * 4 + j

/-- The mask output S of a class R line (R126) or a metadata line (R226), most significant byte first (R119). -/
def maskR (kmac : Bytes) (major minor tdid la j : Nat) : Nat :=
  Bytes.beNat (Aes.enc kmac (toBe 16 (ctrBlock major minor tdid la 1 j)))

/-- Multiplication in GF(2^64) modulo x^64 + x^4 + x^3 + x + 1, high bit of `b` first. -/
def gf64Mul (a : Nat) : Nat → Nat → Nat → Nat
  | 0, _, acc => acc
  | n + 1, b, acc =>
    let d := 2 * acc
    let d := if d ≥ 2 ^ 64 then (d - 2 ^ 64) ^^^ 0x1B else d
    gf64Mul a n b (if b.testBit n then d ^^^ a else d)

/-- The Horner steps of the Onrus Tag Hash (R121). -/
def tagHashSteps (h : Nat) : List Nat → Nat → Nat
  | [], acc => acc
  | w :: ws, acc => tagHashSteps h ws (gf64Mul (acc ^^^ w) 64 h 0)

/-- The Onrus Tag Hash of a stored line (R119 to R121): mask output S, stored bytes, sector map, class code. -/
def tagHash (s : Nat) (stored : Bytes) (map cls : Nat) : Nat :=
  let h := (s / 2 ^ 64) ||| 1
  let words := (Bytes.chunks (Bytes.fit stored 64) 8).map Bytes.leNat ++ [map % 16 + 16 * cls]
  let acc := tagHashSteps h words 0
  (map % 16) * 2 ^ 60 + ((acc ^^^ (s % 2 ^ 64)) % 2 ^ 60)

/-- The four XTS sectors of a line from tweak `t` on: an elided sector gives sixteen zero bytes (R104, R122, R123). -/
def xtsSectors (cipher : Block → Block) (map : Nat) (line : Bytes) : Nat → Nat → Block → Bytes
  | 0, _, _ => []
  | n + 1, j, t =>
    (if bit map j then zeros 16 else xorB (cipher (xorB (sector line j) t)) t) ++
      xtsSectors cipher map line n (j + 1) (xtsAlpha t)

/-- XTS-AES-256 encryption of a line and its tag word (R103, R116 to R122): key material K1, K2 of 64 bytes. -/
def xtsEncrypt (key : Bytes) (epoch tdid la map : Nat) (line : Bytes) : Bytes × Nat :=
  let k1 := key.take 32
  let k2 := Bytes.slice key 32 32
  let ct := xtsSectors (Aes.enc k1) map line 4 0 (xtsT0 k2 epoch tdid la)
  (ct, tagHash (maskC k2 epoch tdid la) ct map 1)

/-- XTS-AES-256 decryption of a stored line under its tag word, and the verdict (R107, R123). -/
def xtsDecrypt (key : Bytes) (epoch tdid la tag : Nat) (stored : Bytes) : Bytes × Bool :=
  let k1 := key.take 32
  let k2 := Bytes.slice key 32 32
  let map := tag / 2 ^ 60 % 16
  (xtsSectors (Aes.dec k1) map stored 4 0 (xtsT0 k2 epoch tdid la),
    tagHash (maskC k2 epoch tdid la) stored map 1 == tag)

/-- The map of the all-zero sectors of a line (R187). -/
def zeroMap (line : Bytes) : Nat :=
  b2n (Bytes.allZero (sector line 0)) + 2 * b2n (Bytes.allZero (sector line 1)) +
    4 * b2n (Bytes.allZero (sector line 2)) + 8 * b2n (Bytes.allZero (sector line 3))

/-- The keystream of a class R line (R125, R126). -/
def ctrStream (kenc : Bytes) (major minor tdid la : Nat) : Bytes :=
  ((List.range 4).map (fun j => Aes.enc kenc (toBe 16 (ctrBlock major minor tdid la 0 j)))).flatten

/-- Class R encryption of a line and its tag word (R125, R126, R216: SECTOR_MAP 0). -/
def ctrEncrypt (key : Bytes) (major minor tdid la : Nat) (line : Bytes) : Bytes × Nat :=
  let ct := xorB (Bytes.fit line 64) (ctrStream (key.take 32) major minor tdid la)
  (ct, tagHash (maskR (Bytes.slice key 32 32) major minor tdid la 0) ct 0 2)

/-- Class R decryption of a stored line under its tag word, and the verdict. -/
def ctrDecrypt (key : Bytes) (major minor tdid la tag : Nat) (stored : Bytes) : Bytes × Bool :=
  (xorB (Bytes.fit stored 64) (ctrStream (key.take 32) major minor tdid la),
    tagHash (maskR (Bytes.slice key 32 32) major minor tdid la 0) stored 0 2 == tag)

/-- The tag word of a counter line or tree node (R226): tree key material, the pair of its parent, pool-local address. -/
def nodeTag (key : Bytes) (major minor poolAddr : Nat) (node : Bytes) : Nat :=
  tagHash (maskR (Bytes.slice key 32 32) major minor 0 (poolAddr / 64) 1) node 0 2

/-! ### GCM and GMAC (NIST SP 800-38D; R127 to R134) -/

/-- Multiplication in GF(2^128) of GCM: the first operand's bits from the most significant on. -/
def ghashMul (y : Nat) : Nat → Nat → Nat → Nat
  | 0, _, z => z
  | n + 1, v, z =>
    let z' := if y.testBit n then z ^^^ v else z
    let v' := if v % 2 = 1 then (v / 2) ^^^ (0xE1 * 2 ^ 120) else v / 2
    ghashMul y n v' z'

/-- Absorb 16-byte blocks into GHASH. -/
def ghashBlocks (h : Nat) (acc : Nat) (b : Bytes) : Nat :=
  (Bytes.chunks b 16).foldl (fun a c => ghashMul (a ^^^ Bytes.beNat (Bytes.fit c 16)) 128 h 0) acc

/-- GHASH of additional data and ciphertext with the length block (R128). -/
def ghash (h : Nat) (aad ct : Bytes) : Nat :=
  let a := ghashBlocks h (ghashBlocks h 0 aad) ct
  ghashBlocks h a (toBe 8 (8 * aad.length) ++ toBe 8 (8 * ct.length))

/-- The keystream of counter blocks J0 + i for `n` blocks. -/
def gcmStream (key iv : Bytes) (n : Nat) : Bytes :=
  ((List.range n).map (fun i => Aes.enc key (Bytes.fit iv 12 ++ toBe 4 (i + 2)))).flatten

/-- The 16-byte GCM tag of additional data and ciphertext. -/
def gcmTag (key iv aad ct : Bytes) : Bytes :=
  let h := Bytes.beNat (Aes.enc key (zeros 16))
  xorB (Aes.enc key (Bytes.fit iv 12 ++ toBe 4 1)) (toBe 16 (ghash h aad ct))

/-- AES-256-GCM encryption: ciphertext and 16-byte tag. -/
def gcmEncrypt (key iv aad pt : Bytes) : Bytes × Bytes :=
  let ct := xorB pt (gcmStream key iv ((pt.length + 15) / 16))
  (ct, gcmTag key iv aad ct)

/-- AES-256-GCM decryption: the plaintext, if the tag's leading bytes agree (`tag` of 12 bytes on HCC lanes, R131). -/
def gcmDecrypt (key iv aad ct tag : Bytes) : Option Bytes :=
  if (gcmTag key iv aad ct).take tag.length == tag then some (xorB ct (gcmStream key iv ((ct.length + 15) / 16)))
  else none

/-! ### CMAC, KDF and key wrap (NIST SP 800-38B, SP 800-108, RFC 5649; R151 to R153) -/

/-- Doubling of a CMAC subkey. -/
def cmacDouble (b : Block) : Block :=
  let v := 2 * Bytes.beNat b
  toBe 16 (if v ≥ 2 ^ 128 then (v - 2 ^ 128) ^^^ 0x87 else v)

/-- CBC chaining over the blocks of CMAC, the last one already masked. -/
def cmacChain (key : Bytes) : List Bytes → Block → Block
  | [], c => c
  | m :: ms, c => cmacChain key ms (Aes.enc key (xorB c m))

/-- CMAC-AES-256 of a message: 16 bytes. -/
def cmac (key msg : Bytes) : Bytes :=
  let k1 := cmacDouble (Aes.enc key (zeros 16))
  let k2 := cmacDouble k1
  let n := if msg.isEmpty then 1 else (msg.length + 15) / 16
  let last := msg.drop (16 * (n - 1))
  let lastM := if last.length = 16 then xorB last k1 else xorB (Bytes.fit (last ++ [0x80#8]) 16) k2
  cmacChain key (Bytes.chunks (msg.take (16 * (n - 1))) 16 ++ [lastM]) (zeros 16)

/-- The KDF of R153: label, context, output length in bytes. -/
def kdf (key label ctx : Bytes) (outLen : Nat) : Bytes :=
  (((List.range ((outLen + 15) / 16)).map (fun i =>
    cmac key (toBe 4 (i + 1) ++ label ++ [0#8] ++ ctx ++ toBe 4 (8 * outLen)))).flatten).take outLen

/-- One pass of the key-wrap steps over the semiblocks: step number `t`, chaining value and the semiblocks. -/
def wrapPass (key : Bytes) : Nat → Bytes → List Bytes → List Bytes → Nat × Bytes × List Bytes
  | t, a, [], done => (t, a, done.reverse)
  | t, a, r :: rs, done =>
    let b := Aes.enc key (a ++ r)
    wrapPass key (t + 1) (xorB (b.take 8) (toBe 8 t)) rs (b.drop 8 :: done)

/-- One pass of the unwrap steps, from the last semiblock back. -/
def unwrapPass (key : Bytes) : Nat → Bytes → List Bytes → List Bytes → Nat × Bytes × List Bytes
  | t, a, [], done => (t, a, done)
  | t, a, r :: rs, done =>
    let b := Aes.dec key (xorB a (toBe 8 t) ++ r)
    unwrapPass key (t - 1) (b.take 8) rs (b.drop 8 :: done)

/-- `n` passes of `wrapPass`. -/
def wrapPasses (key : Bytes) : Nat → Nat × Bytes × List Bytes → Nat × Bytes × List Bytes
  | 0, x => x
  | n + 1, (t, a, rs) => wrapPasses key n (wrapPass key t a rs [])

/-- `n` passes of `unwrapPass`. -/
def unwrapPasses (key : Bytes) : Nat → Nat × Bytes × List Bytes → Nat × Bytes × List Bytes
  | 0, x => x
  | n + 1, (t, a, rs) => unwrapPasses key n (unwrapPass key t a rs.reverse [])

/-- AES key wrap with padding (RFC 5649; R152). -/
def keyWrap (key pt : Bytes) : Bytes :=
  let aiv := toBe 4 0xA65959A6 ++ toBe 4 pt.length
  let m := (pt.length + 7) / 8
  let p := Bytes.fit pt (8 * m)
  if m ≤ 1 then Aes.enc key (aiv ++ p)
  else
    let (_, a, rs) := wrapPasses key 6 (1, aiv, Bytes.chunks p 8)
    a ++ rs.flatten

/-- AES key unwrap with padding: the plaintext, or none when the integrity check fails. -/
def keyUnwrap (key ct : Bytes) : Option Bytes :=
  let n := ct.length / 8 - 1
  if ct.length % 8 ≠ 0 ∨ ct.length < 16 then none
  else
    let (a, p) :=
      if n = 1 then
        let b := Aes.dec key ct
        (b.take 8, b.drop 8)
      else
        let (_, a, rs) := unwrapPasses key 6 (6 * n, ct.take 8, Bytes.chunks (ct.drop 8) 8)
        (a, rs.flatten)
    let len := Bytes.be a 4 4
    if Bytes.be a 0 4 = 0xA65959A6 ∧ 8 * (n - 1) < len ∧ len ≤ 8 * n ∧ Bytes.allZero (p.drop len) then some (p.take len)
    else none

end Sys2Proof.Machine
end

