-- ==== Sys2Proof/Machine/Ops.lean ====
section
/-!
DEFINITION. The named operations every family shares: ports and free values, islands and their sections, counters,
events, interrupts and fault reports, time.
-/

namespace Sys2Proof.Machine

/-! ### Island numbers (R17) -/

/-- Island index of MCCk. -/
def mccIx (k : Nat) : Nat := 3 + k
/-- Island index of PCCk. -/
def pccIx (p : Nat) : Nat := 11 + p
/-- Island index of FCCf. -/
def fccIx (f : Nat) : Nat := 13 + f
/-- Island index of SGUi. -/
def sguIx (i : Nat) : Nat := 30 + i

/-- A number as an island index. -/
def asIsland (n : Nat) : Fin 46 := if h : n < 46 then ⟨n, h⟩ else 0

/-- An island is a cluster (R17, R28). -/
def isCluster (i : Nat) : Bool := decide (3 ≤ i ∧ i ≤ 29)

/-- Sockets of a cluster island (R28). -/
def socketCount (i : Nat) : Nat := if i < 11 then 16 else if i < 13 then 5 else if i < 29 then 4 else 5

/-- Active lanes of a cluster island (R28). -/
def activeCount (i : Nat) : Nat := if i < 11 then 14 else if i < 13 then 4 else if i < 29 then 3 else 4

/-- The port of an island, numbered as TWR_PORT_PRESENT numbers it, if it has one (R668). -/
def portOf (i : Nat) : Option Nat :=
  if 3 ≤ i ∧ i ≤ 10 then some (i - 3) else if 11 ≤ i ∧ i ≤ 12 then some (i - 3)
  else if 13 ≤ i ∧ i ≤ 28 then some (i - 3) else if i = 29 then some 26
  else if 30 ≤ i ∧ i ≤ 41 then some (i - 3) else none

/-! ### What leaves, free values, islands -/

/-- Send something out of the block. -/
def State.emit (s : State) (o : PortOut) : State := { s with out := s.out ++ [o] }

/-- `n` bytes of a free value (noise, nonces), and the state whose counter has passed it. -/
def State.draw (s : State) (n : Nat) : Bytes × State := (Config.freeBytes s.free n, { s with free := s.free + 1 })

/-- Change an island's record. -/
def State.onIsl (s : State) (i : Nat) (f : Isl → Isl) : State := { s with isl := s.isl.modify i f }

/-- Change Spire. -/
def State.onSpr (s : State) (f : Spr → Spr) : State := { s with spr := f s.spr }

/-- Change the escalation unit. -/
def State.onEsc (s : State) (f : Escal → Escal) : State := { s with spr := { s.spr with esc := f s.spr.esc } }

/-- Change secure time. -/
def State.onTime (s : State) (f : SecTime → SecTime) : State := { s with spr := { s.spr with time := f s.spr.time } }

/-- Change a cluster's issue logic; `c` is the island index. -/
def State.onCluster (s : State) (c : Nat) (f : Cluster → Cluster) : State := { s with clusters := s.clusters.modify c f }

/-- Change the requests of a memory cluster; `c` is the island index. -/
def State.onMem (s : State) (c : Nat) (f : MemUnit → MemUnit) : State := { s with mem := s.mem.modify c f }

/-- Change MCCk. -/
def State.onMcc (s : State) (k : Nat) (f : Mcc → Mcc) : State := { s with mcc := s.mcc.modify k f }

/-- Change PCCp. -/
def State.onPcc (s : State) (p : Nat) (f : Pcc → Pcc) : State := { s with pcc := s.pcc.modify p f }

/-- Change Dome. -/
def State.onDom (s : State) (f : Dom → Dom) : State := { s with dom := f s.dom }

/-- Change the life cycle. -/
def State.onLc (s : State) (f : LifeCycle → LifeCycle) : State := { s with lc := f s.lc }

/-- Socket `n` of cluster island `c`. -/
def State.socket (s : State) (c n : Nat) : Socket := s.sockets.get (16 * (c - 3) + n)

/-- Change socket `n` of cluster island `c`. -/
def State.onSocket (s : State) (c n : Nat) (f : Socket → Socket) : State :=
  { s with sockets := s.sockets.modify (16 * (c - 3) + n) f }

/-- The port of island `i` is statically clamped (R692, R695). -/
def State.clamped (s : State) (i : Nat) : Bool :=
  match portOf i with
  | some p => s.pwr.clampStatic.getLsbD p
  | none => false

/-- An island runs: out of reset, not statically clamped. -/
def State.live (s : State) (i : Nat) : Bool :=
  let r := s.isl.get i
  !r.inReset && !s.clamped i

/-- A power domain that switches is on (R730, R44): NWT while a context is not IDLE or a group is in motion, BFC while a
signature or check exists, FTU while a field test runs or is paused; any other island unless it is clamped. -/
def State.powered (s : State) (i : Nat) : Bool :=
  match i with
  | 42 => s.nwt.moves.countWhere (fun _ m => m.state != 0) != 0 || !s.nwt.motion.isEmpty
  | 43 => s.bel.sigs.countWhere (fun _ g => g.state != .free) != 0 || s.bel.checks.countWhere (fun _ c => c.used) != 0
  | 45 => s.ftu.target.isSome
  | _ => !s.clamped i

/-- The domain of an island that switches powers on for new work, if it was off (R730): it has retained nothing, and loads its
sections of the committed generation before it admits work (R86). It is an exempt event of its window (R738), and comes at
once (DESIGN CHOICE, log entry 62). -/
def State.powerOn (s : State) (i : Nat) : State :=
  if s.powered i ∨ !s.pwr.committed then s
  else State.onIsl { s with pwr := { s.pwr with exempt := s.pwr.exempt + 1 } } i (fun r =>
    { r with loaded := false, clampOff := false, active := [] })

/-- Every powered lane of island `i` has passed R137 (R697). -/
def State.lanesPassed (s : State) (i : Nat) : Bool :=
  !isCluster i || (List.range 16).all (fun n => let x := s.socket i n; !x.powered || x.tested || x.underTest)

/-- The dynamic clamp of island `i` is released when it has loaded and its powered lanes have passed R137 (R697); it is not
asserted again while the island runs. -/
def State.unclamp (s : State) (i : Nat) : State :=
  if (s.isl.get i).loaded ∧ s.lanesPassed i then s.onIsl i (fun r => { r with clampOff := true }) else s

/-- PRESENT of island `i`'s port (R692, R697): it has loaded, and its dynamic clamp is released. -/
def State.present (s : State) (i : Nat) : Bool := s.live i && (s.isl.get i).loaded && (s.isl.get i).clampOff

/-- Sections are committed and the island has not yet obtained its own (R86, R275). -/
def State.loading (s : State) (i : Nat) : Bool :=
  let r := s.isl.get i
  s.pwr.committed && s.powered i && !r.loaded && r.swap == .run

/-- An island has loaded, and its port waits for its lanes to pass R137 (R697). -/
def State.lanesWait (s : State) (i : Nat) : Bool :=
  let r := s.isl.get i
  s.pwr.committed && r.loaded && (portOf i).isSome && !r.clampOff

/-- An island answers register accesses (R748, R749): out of reset, not clamped, not loading, powered. FTU answers whether or
not a test runs, since START is written there before one does (R635). No island has a number of 46 or above (R18). -/
def State.regUp (s : State) (i : Nat) : Bool :=
  if i = 0 then s.dom.railPresent
  else decide (i < 46) && s.live i && !s.loading i && !s.lanesWait i && (i == 45 || s.powered i)

/-- A request arrives at an island: while the island drains or holds its ingress, the request waits in the FIFO (R80). -/
def State.atIngress (s : State) (i : Nat) (c : Instr) (go : State → State) : State :=
  if (s.isl.get i).swap = .run then go s else s.onIsl i (fun r => { r with ingress := r.ingress.offer (fifoDepth i) c })

/-- OBS drives TRIG_IO low, or lets it go (R95, R710). -/
def State.trigDrive (s : State) (on : Bool) : State :=
  if s.pads.trigDriven = on then s
  else { s.emit (if on then .pad "TRIG_IO" false else .padZ "TRIG_IO") with pads := { s.pads with trigDriven := on, trigOut := false } }

/-! ### Sections -/

/-- The active section of an identifier in an island (R60). -/
def State.sectionOf (s : State) (i id : Nat) : Option Section := (s.isl.get i).active.find? (fun x => x.id == id)

/-- Entries of a section: ENTRY_SIZE bytes each from byte 16 on (R59). -/
def Section.entries (x : Section) : List Bytes :=
  let size := Bytes.le x.body 8 4
  let count := Bytes.le x.body 4 4
  if size = 0 then [] else (Bytes.chunks (x.body.drop 16) size).take count

/-- Entries of the active section of an identifier, none when the stream omits it. -/
def State.entriesOf (s : State) (i id : Nat) : List Bytes := ((s.sectionOf i id).map Section.entries).getD []

/-! ### Counters (R641, R645) -/

/-- Add to an island's accumulators; DOM has none. -/
def State.count (s : State) (i : Nat) (e : CountEv) : State :=
  if i = 0 then s else s.onIsl i (fun r => { r with acc := r.acc ++ [e] })

/-- Count event `code` of island `i` for a TDID. -/
def State.countT (s : State) (i code tdid : Nat) (n : Nat := 1) : State := s.count i { code := code, tdid := tdid, n := n }

/-- Count event `code` of island `i` with a subcode. -/
def State.countS (s : State) (i code sub : Nat) (tdid : Nat := 128) : State :=
  s.count i { code := code, tdid := tdid, sub := sub }

/-- Advance fixed counter `n` (R642), raised by island `i`. -/
def State.countFixed (s : State) (i n : Nat) (k : Nat := 1) : State := s.count i { code := 256 + n, n := k }

/-! ### Trace records (R658 to R660) -/

/-- The 24 bytes of a record after TIME (R658). -/
def traceBody (island kind : Nat) (tdid : Option Nat) (unit a b c : Nat) : BitVec 192 :=
  let t := match tdid with
    | some t => 128 + t % 128
    | none => 0
  BitVec.ofNat 192 (island % 64 + 2 ^ 8 * (kind % 256) + 2 ^ 16 * t + 2 ^ 24 * (unit % 256) + 2 ^ 32 * (a % 2 ^ 32) +
    2 ^ 64 * (b % 2 ^ 64) + 2 ^ 128 * (c % 2 ^ 64))

/-- An island makes a trace record (R659): it joins the island's queue of 16, behind a DROP record when records have been
dropped since the last one, or is itself dropped and counted (R660). -/
def State.note (s : State) (i kind : Nat) (tdid : Option Nat) (unit a b c : Nat) : State :=
  let r := s.isl.get i
  let drop := if r.traceDropped = 0 then [] else [traceBody i 0x0F none 0 r.traceDropped 0 0]
  if r.trace.length + drop.length < 16 then
    s.onIsl i (fun r => { r with trace := r.trace ++ drop ++ [traceBody i kind tdid unit a b c], traceDropped := 0 })
  else (s.onIsl i (fun r => { r with traceDropped := r.traceDropped + 1 })).countFixed i 6

/-! ### Events, interrupts, reports -/

/-- Append an event (R397, R398): a full queue drops it, counts it and sets LOST. -/
def State.raiseEvent (s : State) (code arg : Nat) (island : Nat) (serial : Nat := 0) : State :=
  if s.spr.queue.length ≥ 256 then
    (s.onSpr (fun p => { p with lost := true, dropped := satInc p.dropped })).countFixed 2 10
  else
    s.onSpr (fun p => { p with queue := p.queue ++
      [{ code := BitVec.ofNat 8 code, arg := BitVec.ofNat 16 arg, island := asIsland island, serial := serial }] })

/-- Send an interrupt message (R686). -/
def State.irq (s : State) (vec : Nat) : State := s.emit (.irq vec)

/-- An item for Spire goes to its island's handshake (R27, R717). -/
def State.toSpire (s : State) (i : Nat) (x : SpireItem) : State := s.onEsc (fun e => { e with links := e.links.modify i (fun h => h.send x) })

/-- An item has not yet crossed: another of its island holds the handshake (R717). -/
def State.behind (s : State) (i : Nat) (x : SpireItem) : Bool :=
  let h := s.spr.esc.links.get i
  h.req != some x && h.wait.contains x

/-- An item of island `i` that its handshake holds crosses into Spire. -/
def State.crossed (s : State) (i : Nat) (x : SpireItem) : State :=
  if (s.spr.esc.links.get i).req = some x then s.onEsc (fun e => { e with links := e.links.modify i Handshake.cross }) else s

/-- Send a fault report to Spire (R608, R27). -/
def State.report (s : State) (cls : Fin 24) (island unit : Nat) (tdid : Option Tdid := none) : State :=
  s.toSpire (asIsland island).val (.fault { cls := cls, island := asIsland island, unit := BitVec.ofNat 8 unit, tdid := tdid })

/-- Send an ownership report to Spire (R268, R277). -/
def State.reportOwn (s : State) (r : OwnRep) : State := s.toSpire r.island.val (.own r)

/-! ### Time (R393, R420, R422) -/

/-- Secure nanoseconds that `n` clocks add while `|e|` ns are removed evenly over 10^9 clocks, `pos` of them gone. -/
def slewAdvance (e : Int) (pos n : Nat) : Nat :=
  let upto (p : Nat) : Nat := min p 1000000000 * e.natAbs / 1000000000
  let d := upto (pos + n) - upto pos
  if e > 0 then n - d else n + d

/-- `n` Spire clocks pass: the clock count and secure time advance (R393, R420, R422). Secure time runs while Spire is
out of reset. -/
def State.advance (s : State) (n : Nat) : State :=
  if (s.isl.get 2).inReset then { s with now := s.now + n }
  else
    let t := s.spr.time
    let e := if t.locked then t.slewError else 0
    let c := t.counter + BitVec.ofNat 64 (slewAdvance e t.slewPos n)
    { s with
      now := s.now + n
      spr := { s.spr with time := { t with counter := c, slewPos := min (t.slewPos + n) 1000000000 } } }

/-- Where the steps of R394 stand in a Spire clock: arrivals (steps 1 and 2), comparisons (3), fault reports in ascending
island and unit (4), the governor (5). -/
def stepArrive : Nat := 0
/-- Step 3. -/
def stepCompare : Nat := 2 ^ 40
/-- Step 4. -/
def stepReport (island unit : Nat) : Nat := 2 * 2 ^ 40 + island * 2 ^ 32 + unit
/-- Step 5. -/
def stepGovern : Nat := 3 * 2 ^ 40

/-- A happening at step `k` of R394. Each Spire clock performs its steps in order: one that comes after a later step of this
clock is the next clock's, which settles the meetings of R395. -/
def State.atStep (s : State) (k : Nat) : State :=
  let s := if s.spr.clock = s.now ∧ k < s.spr.step then s.advance 1 else s
  { s with spr := { s.spr with clock := s.now, step := k } }

/-- Whole seconds of secure time. -/
def State.seconds (s : State) : Nat := s.spr.time.counter.toNat / 1000000000

/-! ### Classes of fault (R608 to R610, R414) -/

/-- BASE_LEVEL, CEILING and COALESCE_LOG2 of a class in the A0 BASE release (R608). -/
def baseClass (c : Nat) : Nat × Nat × Nat :=
  match c with
  | 0 => (1, 2, 0) | 1 => (1, 2, 0) | 2 => (1, 2, 0) | 3 => (0, 2, 10) | 4 => (0, 2, 10) | 5 => (0, 2, 0)
  | 6 => (0, 2, 0) | 7 => (0, 1, 10) | 8 => (0, 2, 0) | 9 => (0, 1, 0) | 10 => (0, 2, 0) | 11 => (1, 3, 0)
  | 12 => (3, 4, 0) | 13 => (3, 4, 0) | 14 => (0, 1, 0) | 15 => (0, 1, 20) | 16 => (1, 3, 0) | 17 => (1, 2, 0)
  | 18 => (0, 2, 10) | 19 => (0, 3, 10) | 20 => (1, 3, 0) | 21 => (1, 3, 0) | 22 => (1, 1, 0) | _ => (3, 4, 0)

/-- Default ACTIONS of a class at a level (R610). -/
def baseActions (c level : Nat) : Nat :=
  match level with
  | 0 => 0x01
  | 1 => 0x03
  | 2 => 0x13
  | _ => if c = 12 then 0x17 else 0x1F

/-- What the escalation unit uses for a class (R414): level, ceiling, window, ACTIONS by level, CAPTURE_WAIT_US. -/
structure EscEntry where
  base : Nat
  ceiling : Nat
  coalesce : Nat
  actions : Nat → Nat
  waitUs : Nat

/-- The escalation entry of a class: the active SPIRE_ESCALATION entry, else the BASE default (R414, R609, R610). -/
def State.escEntry (s : State) (c : Nat) : EscEntry :=
  match (s.entriesOf 2 7).find? (fun b => Bytes.at b 0 == c) with
  | some b =>
    { base := Bytes.at b 1, ceiling := Bytes.at b 2, coalesce := Bytes.at b 3,
      actions := fun l => Bytes.at b (4 + l), waitUs := Bytes.le b 10 2 }
  | none =>
    let (b, ce, co) := baseClass c
    { base := b, ceiling := ce, coalesce := co, actions := baseActions c, waitUs := 3000 }

/-- Class `c` is pending (R419): the ownership class while a detail record is VALID or a fault found none free. -/
def State.classPending (s : State) (c : Nat) : Bool :=
  if c = 6 then s.spr.esc.own2 || (s.spr.esc.ownf.countWhere (fun _ r => r.valid) != 0)
  else (s.spr.esc.classes.get c).pending

/-- FAULT_N is low while a pending class's level has FAULT_N among its ACTIONS (R415, R700). -/
def State.faultN (s : State) : Bool :=
  (List.range 24).any (fun c =>
    s.classPending c && bit ((s.escEntry c).actions (s.spr.esc.classes.get c).level.toNat) 2)

/-- Drive FAULT_N again after a change of the pending classes. -/
def State.updateFaultN (s : State) : State :=
  let v := s.faultN
  if v = s.pads.faultN then s else { s.emit (.pad "FAULT_N" (!v)) with pads := { s.pads with faultN := v } }

/-! ### Resources (R92, R93) -/

/-- Owner code of an instance of a resource in the active RESOURCE_OWNERS of an island; the reset owner when no entry
names it. -/
def State.owner (s : State) (i resource inst reset : Nat) : Nat :=
  match (s.entriesOf i 14).find? (fun b => Bytes.le b 0 2 == resource && Bytes.le b 2 2 == inst) with
  | some b => Bytes.at b 4
  | none => reset

end Sys2Proof.Machine
end

