-- ==== Sys2Proof/Machine/Spire.lean ====
section
/-!
DEFINITION. Spire's events, state machines, timers, curve comparators and secure time (spec/09_spire_tables.md).
-/

namespace Sys2Proof.Machine

/-- The sockets of cluster island `c`, by number. -/
def socketNums (c : Nat) : List Nat := List.range (socketCount c)

/-- Healthy spares of a cluster, lowest first: SPARE, tested, not under test; one in lockstep is among them (R138). -/
def State.healthySpares (s : State) (c : Nat) : List Nat :=
  (socketNums c).filter (fun n =>
    let k := s.socket c n
    k.role == 1 && k.powered && k.tested && !k.underTest)

/-- Healthy spares that are not in lockstep: those that audit, and that a swap may take (R138, R143). -/
def State.availableSpares (s : State) (c : Nat) : List Nat :=
  (s.healthySpares c).filter (fun n => (s.socket c n).activity != 2)

/-- Active sockets of a cluster, lowest first. -/
def State.activeSockets (s : State) (c : Nat) : List Nat := (socketNums c).filter (fun n => (s.socket c n).role == 0)

/-- Largest of a list of numbers, zero when empty. -/
def maxOf (l : List Nat) : Nat := l.foldl max 0

/-- The first of some sockets with the highest AGEING (R402, R621). -/
def State.mostAged (s : State) (c : Nat) (l : List Nat) : Option Nat :=
  l.find? (fun n => (s.socket c n).ageing.toNat == maxOf (l.map (fun m => (s.socket c m).ageing.toNat)))

/-- Order a lane swap (R143, R147): it waits in Spire's queue until its lockstep begins. -/
def State.orderSwap (s : State) (c sock : Nat) : State :=
  s.onSpr (fun p => { p with swapQueue := p.swapQueue ++ [(c, sock, false)] })

/-! ### State machines (R399 to R408) -/

/-- Transitions and actions of the active SPIRE_FSM section (R400). -/
def State.fsmTables (s : State) : List Bytes × List Bytes :=
  match s.entriesOf 2 6 with
  | pre :: rest => let n := Bytes.le pre 0 4; (rest.take n, rest.drop n)
  | [] => ([], [])

/-- Owner of Spire timer `n` (R93). -/
def State.timerOwner (s : State) (n : Nat) : Nat := s.owner 2 3 n (if n < 4 then 0x07 else 0)

/-- Counter `i` of a machine. -/
def Fsm.counter (f : Fsm) (i : Nat) : BitVec 16 :=
  if i = 0 then f.c0 else if i = 1 then f.c1 else if i = 2 then f.c2 else f.c3

/-- Write counter `i` of a machine. -/
def Fsm.setCounter (f : Fsm) (i : Nat) (v : BitVec 16) : Fsm :=
  if i = 0 then { f with c0 := v } else if i = 1 then { f with c1 := v } else if i = 2 then { f with c2 := v }
  else { f with c3 := v }

/-- Change machine `m`. -/
def State.onFsm (s : State) (m : Nat) (f : Fsm → Fsm) : State := s.onSpr (fun p => { p with fsm := p.fsm.modify m f })

/-- Change Spire timer `n`. -/
def State.onTimer (s : State) (n : Nat) (f : SpTimer → SpTimer) : State :=
  s.onSpr (fun p => { p with timers := p.timers.modify n f })

/-- A timer that an action names in the clock of its end expires all the same (R395): its event is raised, and R407 discards it
at dispatch. -/
def State.timerMeets (s : State) (n : Nat) : State :=
  let t := s.spr.timers.get n
  if t.running ∧ t.due ≤ s.now then s.raiseEvent (0x40 + n) 0 2 t.serial else s

/-- TIMER_START (R402, R404, R407). -/
def State.timerStart (s : State) (m n b : Nat) : State :=
  if s.timerOwner n = 5 then
    let d := if bit b 31 then 1000 * (b % 2 ^ 31) else b % 2 ^ 31
    (s.timerMeets n).onTimer n (fun t => { running := true, due := s.now + d, machine := m, serial := t.serial + 1 })
  else s

/-- TIMER_STOP (R402, R404, R407). -/
def State.timerStop (s : State) (n : Nat) : State :=
  if s.timerOwner n = 5 then (s.timerMeets n).onTimer n (fun t => { t with running := false, serial := t.serial + 1 }) else s

/-- WEAR_SWAP (R402, R403). -/
def State.wearSwap (s : State) (a b arg : Nat) : State :=
  let c := if a = 0xFFFF then arg % 256 else a
  if !isCluster c then s
  else
    let target := if b % 256 = 0xFF then s.mostAged c (s.activeSockets c) else some (b % 256)
    match target with
    | some n => if (s.activeSockets c).contains n && !(s.healthySpares c).isEmpty then s.orderSwap c n else s
    | none => s

/-- One action of machine `m` while it handles an event with ARG `arg` (R402). -/
def State.fsmAction (s : State) (m arg : Nat) (act : Bytes) : State :=
  let a := Bytes.le act 2 2
  let b := Bytes.le act 4 4
  match Bytes.at act 0 with
  | 0x01 => s.timerStart m a b
  | 0x02 => s.timerStop a
  | 0x03 => s.raiseEvent a (if b = 0xFFFFFFFF then arg else b % 65536) 2
  | 0x04 => s.onFsm m (fun f => f.setCounter a (satAdd (f.counter a) (b % 65536)))
  | 0x05 => s.onFsm m (fun f => f.setCounter a 0)
  | 0x06 =>
    if b % 65536 ≤ ((s.spr.fsm.get m).counter a).toNat then
      -- the spec gives no ARG here: a free value (log entry 4)
      let (v, s) := s.draw 2
      s.raiseEvent (bits b 31 24) (Bytes.leNat v) 2
    else s
  | 0x07 => s.wearSwap a b arg
  | 0x08 =>
    (s.onSpr (fun p => { p with fsmIrq := p.fsmIrq ||| BitVec.ofNat 16 (2 ^ a) })).irq (33 + a)
  | 0x09 => { s with cap := { s.cap with words := s.cap.words ++ [(BitVec.ofNat 32 (0x01000000 + a), BitVec.ofNat 32 b)] } }
  | _ => s

/-- The first transition of machine `m` that takes an event (R401). -/
def State.fsmMatch (s : State) (m code : Nat) : Option Bytes :=
  let st := (s.spr.fsm.get m).state.toNat
  s.fsmTables.1.find? (fun t =>
    Bytes.at t 0 == m && (Bytes.at t 1 == st || Bytes.at t 1 == 0xFF) &&
      (code &&& Bytes.at t 3) == (Bytes.at t 2 &&& Bytes.at t 3))

/-- Machine `m` handles an event: its transition's actions in order, then NEXT (R401). -/
def State.fsmStep (s : State) (code arg : Nat) (m : Nat) : State :=
  match s.fsmMatch m code with
  | none => s
  | some t =>
    let acts := (s.fsmTables.2.drop (Bytes.le t 6 2)).take (Bytes.at t 5)
    let s := acts.foldl (fun s a => s.fsmAction m arg a) s
    if Bytes.at t 4 = 0xFF then s else s.onFsm m (fun f => { f with state := BitVec.ofNat 5 (Bytes.at t 4) })

/-- A queued event is discarded at dispatch: its timer was started or stopped after it expired (R407). -/
def State.staleTimer (s : State) (e : SpEvent) : Bool :=
  decide (0x44 ≤ e.code.toNat ∧ e.code.toNat ≤ 0x5F) &&
    (s.spr.timers.get (e.code.toNat - 0x40)).serial != e.serial

/-- EVENT_DISPATCH (R399): the oldest event goes to every enabled machine, in ascending number. -/
def State.dispatch (s : State) : State :=
  match s.spr.queue with
  | [] => s
  | e :: rest =>
    let s := s.onSpr (fun p => { p with queue := rest })
    if s.staleTimer e then s else (List.range 64).foldl (fun s m => s.fsmStep e.code.toNat e.arg.toNat m) s

/-- EVENT_DISPATCH. -/
def execEventDispatch (dt : Nat) (s : State) : Host.Outcome State Fault Refusal := .next ((s.advance dt).atStep stepArrive).dispatch

/-- EVENT_POST (R397, SPR_EVENT_POST): CP may post 0xC0 to 0xDF, Tower firmware 0xE0 to 0xFF. -/
def State.postEvent (s : State) (tower : Bool) (v : Word32) : State :=
  let code := v.toNat % 256
  let ok := if tower then decide (0xE0 ≤ code) else decide (0xC0 ≤ code ∧ code ≤ 0xDF)
  if ok then (s.raiseEvent code (bits v.toNat 23 8) (if tower then 1 else 2)).note 2 0x0D none 0 (v.toNat % 2 ^ 24) 0 0 else s

/-- EVENT_POST. -/
def execEventPost (tower : Bool) (v : Word32) (s : State) : Host.Outcome State Fault Refusal :=
  .next ((s.atStep stepArrive).postEvent tower v)

/-- A timer 4 to 31 that runs and has reached its end expires and raises its TIMER event (R397, R402, R407); the governor's
own timer is RELEASE_TIMER_EXPIRY's (R431). -/
def State.timerExpire (s : State) (n : Nat) : State :=
  let t := s.spr.timers.get n
  if 4 ≤ n ∧ s.timerOwner n ≠ 6 ∧ t.running ∧ t.due ≤ s.now then
    (s.onTimer n (fun t => { t with running := false })).raiseEvent (0x40 + n) 0 2 t.serial
  else s

/-- FSM_TIMER_EXPIRY (R407). -/
def execFsmTimerExpiry (n : Fin 32) (dt : Nat) (s : State) : Host.Outcome State Fault Refusal :=
  .next (((s.advance dt).atStep stepCompare).timerExpire n.val)

/-! ### Curve comparators (R409 to R413) -/

/-- A 32-bit number of a Spire format in Q32.32 (R411). -/
def toQ32 (fmt v : Nat) : Int :=
  match fmt with
  | 0 => (v : Int) * 2 ^ 32
  | 1 => (v : Int) * 2 ^ 16
  | 2 => (BitVec.ofNat 32 v).toInt * 2 ^ 16
  | _ => (v : Int) * 2 ^ 8

/-- The credit in µJ, to the nearest. -/
def Governor.credit (g : Governor) : Nat := (g.creditFj + 500000000) / 1000000000

/-- The value of a source (R410). `period` in µs. -/
def State.source (s : State) (src inst period : Nat) : Nat :=
  match src with
  | 0x01 => maxOf ((s.activeSockets inst).map (fun n => (s.socket inst n).ageing.toNat))
  | 0x02 => maxOf ((s.activeSockets inst).map (fun n => (s.socket inst n).mismatches.toNat))
  | 0x03 => s.spr.gov.power.toNat
  | 0x04 => s.spr.gov.credit
  | 0x05 => (s.spr.esc.raised.filter (fun r => r.1 == inst && decide (s.now < r.2 + 1000 * period))).length
  | 0x06 => s.seconds % 2 ^ 32
  | 0x07 => (s.healthySpares inst).length
  | _ => 0

/-- Linear interpolation between two breakpoints in Q32.32, rounded toward minus infinity (R412). -/
def lerp (x x0 y0 x1 y1 : Int) : Int := y0 + Int.fdiv ((y1 - y0) * (x - x0)) (x1 - x0)

/-- The threshold over the breakpoints from one on (R412). -/
def curveY (x : Int) : Int → Int → List (Int × Int) → Int
  | _, y0, [] => y0
  | x0, y0, (x1, y1) :: rest => if x ≤ x0 then y0 else if x < x1 then lerp x x0 y0 x1 y1 else curveY x x1 y1 rest

/-- The breakpoints of a curve entry in Q32.32. -/
def curvePoints (e : Bytes) : List (Int × Int) :=
  let f := Bytes.at e 6
  (List.range (Bytes.at e 1)).map (fun i =>
    (toQ32 (f % 16) (Bytes.le e (16 + 8 * i) 4), toQ32 (f / 16) (Bytes.le e (20 + 8 * i) 4)))

/-- The threshold of a curve entry at X (R412). -/
def threshold (e : Bytes) (x : Int) : Int :=
  match curvePoints e with
  | [] => 0
  | (x0, y0) :: rest => curveY x x0 y0 rest

/-- CURVE_SAMPLE (R412, R413): comparator `n` samples at its time, PERIOD_US after the last. -/
def State.curveSample (s : State) (n : Nat) : State :=
  match (s.entriesOf 2 8).find? (fun e => Bytes.at e 0 == n) with
  | none => s
  | some e =>
    let period := Bytes.le e 12 4
    if s.now < s.spr.curveDue.get n then s else
    let s := s.onSpr (fun p => { p with curveDue := p.curveDue.modify n (fun d => d + 1000 * period) })
    let q : Int := (s.source (Bytes.at e 3) (Bytes.at e 2) period : Int) * 2 ^ 32
    let y := threshold e ((s.source (Bytes.at e 5) (Bytes.at e 4) period : Int) * 2 ^ 32)
    let hyst := toQ32 (Bytes.at e 6 / 16) (Bytes.le e 8 4)
    let arg := 256 * n + Bytes.at e 2
    let set (v : Bool) (s : State) : State := s.onSpr (fun p => { p with curves := p.curves.set n v })
    if s.spr.curves.get n then
      if q < y - hyst then (set false s).raiseEvent 0x81 arg 2 else s
    else if q > y then (set true s).raiseEvent 0x80 arg 2 else s

/-- CURVE_SAMPLE. -/
def execCurveSample (n : Fin 64) (dt : Nat) (s : State) : Host.Outcome State Fault Refusal :=
  .next (((s.advance dt).atStep stepCompare).curveSample n.val)

/-! ### Secure time (R420 to R425) -/

/-- MISS_LIMIT and SLEW_MAX of SPR_TIME_CTRL. -/
def SecTime.missLimit (t : SecTime) : Nat := bits t.ctrl.toNat 19 16
/-- Largest accepted phase error, ns. -/
def SecTime.slewMax (t : SecTime) : Nat := bits t.ctrl.toNat 15 0

/-- The phase error of R422: the counter less the nearest whole second. -/
def phaseError (c : BitVec 64) : Int :=
  let r := c.toNat % 1000000000
  if 2 * r < 1000000000 then (r : Int) else (r : Int) - 1000000000

/-- A rejection or a miss (R423): RUN advances, and at MISS_LIMIT the lock is lost. -/
def SecTime.strike (t : SecTime) : SecTime :=
  let r := satInc t.run
  { t with run := r, locked := t.locked && decide (r.toNat < t.missLimit) }

/-- An edge while secure time is LOCKED (R422, R423). -/
def State.ppsLocked (s : State) : State :=
  let t := s.spr.time
  let d := s.now - t.lastAccepted
  let e := phaseError t.counter
  if 999000000 ≤ d ∧ d ≤ 1001000000 ∧ e.natAbs ≤ t.slewMax then
    (s.onTime (fun t => { t with
      slewError := e, slewPos := 0, run := 0, lastError := BitVec.ofInt 20 e, lastAccepted := s.now,
      missAt := s.now + 1001000000 })).raiseEvent 0x68 0 2
  else (s.onTime SecTime.strike).raiseEvent 0x69 0 2

/-- A rising edge of PPS_IN (R421 to R423). -/
def State.ppsEdge (s : State) : State :=
  let t := s.spr.time
  if t.seedPending then
    let v := t.seed.toNat * 1000000000
    if t.counter.toNat ≤ v then
      s.onTime (fun t => { t with
        counter := BitVec.ofNat 64 v, locked := true, seedPending := false, run := 0, slewError := 0, slewPos := 0,
        lastAccepted := s.now, missAt := s.now + 1001000000 })
    else
      let s := s.onTime (fun t => { t with seedPending := false, seedRejected := true })
      if t.locked then s.ppsLocked else s
  else if t.locked then s.ppsLocked else s

/-- PPS_EDGE. -/
def execPpsEdge (dt : Nat) (s : State) : Host.Outcome State Fault Refusal := .next ((s.advance dt).atStep stepArrive).ppsEdge

/-- No edge accepted in time since the last accepted one (R423), locked or not. -/
def State.ppsMissed (s : State) : State :=
  let t := s.spr.time
  if t.missAt ≠ 0 ∧ t.missAt < s.now then
    (s.onTime (fun t => { t.strike with missAt := t.missAt + 1000000000 })).raiseEvent 0x6A 0 2
  else s

/-- PPS_MISSED. -/
def execPpsMissed (dt : Nat) (s : State) : Host.Outcome State Fault Refusal := .next ((s.advance dt).atStep stepCompare).ppsMissed

/-- TIME_SEED (R421): Tower firmware writes SPR_TIME_SEED. -/
def execTimeSeed (v : Word32) (s : State) : Host.Outcome State Fault Refusal :=
  .next ((s.atStep stepArrive).onTime (fun t => { t with seed := v, seedPending := true, seedRejected := false }))

/-- Owner of schedule slot `n` (R93). -/
def State.schedOwner (s : State) (n : Nat) : Nat := s.owner 2 4 n 0

/-- A write of SPR_SCHED_HI (R424, R425): only a slot owned by FREEZE_AT or FSM_SCHEDULE takes it. -/
def State.schedWriteHi (s : State) (n : Nat) (v : Word32) : State :=
  if s.schedOwner n = 8 ∨ s.schedOwner n = 9 then
    s.onTime (fun t => { t with sched := t.sched.modify n (fun x =>
      { x with armed := v.getLsbD 31, hi := v.setWidth 31 }) })
  else s

/-- A write of SPR_SCHED_LO (R425). -/
def State.schedWriteLo (s : State) (n : Nat) (v : Word32) : State :=
  if s.schedOwner n = 8 ∨ s.schedOwner n = 9 then
    s.onTime (fun t => { t with sched := t.sched.modify n (fun x => { x with lo := v }) })
  else s

/-- SCHEDULE_ARM. -/
def execScheduleArm (n : Fin 8) (hi : Word32) (s : State) : Host.Outcome State Fault Refusal :=
  .next ((s.atStep stepArrive).schedWriteHi n.val hi)

/-- Target of a schedule slot (R424). -/
def SchedSlot.target (x : SchedSlot) : Nat := x.hi.toNat * 2 ^ 32 + x.lo.toNat

/-- Slot `n` fires now: it is armed and secure time is at or past its target (R424). -/
def State.schedDue (s : State) (n : Nat) : Bool :=
  let x := s.spr.time.sched.get n
  x.armed && decide (x.target ≤ s.spr.time.counter.toNat)

end Sys2Proof.Machine
end

