-- ==== Sys2Proof/Machine/Slots.lean ====
section
/-!
DEFINITION. Key slots: their attribute records, when a slot may be used, and how it retires (spec/10_keys_and_dome.md
R447 to R464, R207 to R210).
-/

namespace Sys2Proof.Machine

/-- STATE of an attribute record (R449): 0 EMPTY, 1 LIVE, 2 RETIRING, 3 DEAD. -/
def Slot.state (x : Slot) : Nat := fld x.attr 1 0
/-- PURPOSE (R449): 0 CLASS_C, 1 CLASS_R, 2 LINK, 3 WRAP, 4 DERIVE. -/
def Slot.purpose (x : Slot) : Nat := fld x.attr 4 2
/-- WRITE_CLOSED (R210). -/
def Slot.writeClosed (x : Slot) : Bool := x.attr.getLsbD 5
/-- The key may leave the device wrapped (R449 bit 6). -/
def Slot.mayLeave (x : Slot) : Bool := x.attr.getLsbD 6
/-- SET_BOUND (R449). -/
def Slot.setBound (x : Slot) : Bool := x.attr.getLsbD 7
/-- MASTERS (R449), bit 0 MCC. -/
def Slot.masters (x : Slot) : Nat := fld x.attr 14 8
/-- WORLD (R449): bit 0 TOWER, bit 1 HOST. -/
def Slot.world (x : Slot) : Nat := fld x.attr 17 16
/-- LC_MASK (R449). -/
def Slot.lcMask (x : Slot) : Nat := fld x.attr 21 18
/-- SOURCE (R449). -/
def Slot.source (x : Slot) : Nat := fld x.attr 23 22
/-- PARTITION (R449). -/
def Slot.part (x : Slot) : Nat := fld x.attr 30 24
/-- TDID (R449). -/
def Slot.tdid (x : Slot) : Nat := fld x.attr 38 32
/-- SET (R449). -/
def Slot.set (x : Slot) : Nat := fld x.attr 45 40
/-- REGION_EPOCH (R167). -/
def Slot.epoch (x : Slot) : Nat := fld x.attr 95 64
/-- EXPIRY (R452). -/
def Slot.expiry (x : Slot) : Nat := fld x.attr 127 96
/-- WRITES (R207). -/
def Slot.writes (x : Slot) : Nat := fld x.attr 172 128

/-- The fields that a fill prepares while the slot is EMPTY (R451). -/
structure SlotSpec where
  purpose : Nat
  masters : Nat
  world : Nat
  lcMask : Nat
  source : Nat
  part : Nat
  tdid : Nat
  expiry : Nat := 0
  leave : Bool := false
  setBound : Bool := false
  set : Nat := 0
  keyGen : Nat := 0

/-- The attribute record of a LIVE slot with these fields (R449). -/
def SlotSpec.attr (x : SlotSpec) : BitVec 256 :=
  BitVec.ofNat 256 (1 + 4 * x.purpose + 64 * b2n x.leave + 128 * b2n x.setBound + 2 ^ 8 * x.masters + 2 ^ 16 * x.world +
    2 ^ 18 * x.lcMask + 2 ^ 22 * x.source + 2 ^ 24 * x.part + 2 ^ 32 * x.tdid + 2 ^ 40 * x.set + 2 ^ 96 * x.expiry +
    2 ^ 192 * x.keyGen)

/-- Slot `n`. -/
def State.slot (s : State) (n : Nat) : Slot := s.slots.get n

/-- Change slot `n`. -/
def State.onSlot (s : State) (n : Nat) (f : Slot → Slot) : State := { s with slots := s.slots.modify n f }

/-- The bit of a mask that names the decoded life-cycle state (R473). -/
def State.lcBit (s : State) : Nat :=
  match s.lc.state.toNat with
  | 1 => 0 | 2 => 1 | 4 => 2 | _ => 3

/-- A slot's expiry does not bar its use (R450, R452). -/
def State.notExpired (s : State) (x : Slot) : Bool :=
  x.expiry == 0 || (s.spr.time.locked && decide (s.seconds < x.expiry))

/-- A slot may be used by a master of MASTERS bit `m` (R450), whatever the purpose. -/
def State.usable (s : State) (x : Slot) (m : Nat) : Bool :=
  x.state == 1 && bit x.masters m && bit x.lcMask s.lcBit && s.notExpired x

/-- The purpose and MASTERS bit that a schedule fill of a cluster island needs (R450). -/
def fillNeeds (c : Nat) : Nat × Nat := if c ≤ 10 then (0, 0) else if c ≤ 12 then (1, 1) else if c ≤ 28 then (2, 2) else (2, 3)

/-- Tower serves a schedule fill of slot `n` to cluster island `c` (R450). A PCC's tree key is its reserved slot
(R226, R447). -/
def State.fillOk (s : State) (c n : Nat) : Bool :=
  let (p, m) := fillNeeds c
  (s.slot n).purpose == p && s.usable (s.slot n) m

/-- Clusters that hold schedules of a slot: the islands of its MASTERS that are present (R461). -/
def State.slotClusters (s : State) (x : Slot) : List Nat :=
  ((List.range 27).map (· + 3)).filter (fun c =>
    s.live c && (if c ≤ 10 then bit x.masters 0 || bit x.masters 4 else if c ≤ 12 then bit x.masters 1
      else if c ≤ 28 then bit x.masters 2 || x.purpose == 4 else bit x.masters 3))

/-- Send an invalidation of slot `n` to some clusters (R112). -/
def State.invalidate (s : State) (n : Nat) (cs : List Nat) : State :=
  { s with invals := s.invals ++ (cs.filter (fun c => !s.invals.contains (c, n))).map (fun c => (c, n)) }

/-- A LIVE slot begins to retire (R461): fills are refused from now on, and every island of its MASTERS is told. -/
def State.retireSlot (s : State) (n : Nat) : State :=
  let x := s.slot n
  if x.state = 1 then
    if s.cpe.busy && s.cpe.slots.contains n then
      if s.retireWait.contains n then s else { s with retireWait := s.retireWait ++ [n] }
    else
      let s := (s.onSlot n (fun x => { x with attr := setFld x.attr 1 0 2 })).invalidate n (s.slotClusters x)
      s.note 1 5 (some x.tdid) 0 2 n 0
  else s

/-- Every cluster has acknowledged: the key bytes are zeroed and the slot is DEAD; its Set Table entry is free (R460,
R461). -/
def State.slotDead (s : State) (n : Nat) : State :=
  let x := s.slot n
  if x.state = 2 ∧ !s.invals.any (fun p => p.2 == n) then
    let s := s.onSlot n (fun x => { attr := setFld x.attr 1 0 3, key := [] })
    let s := s.note 1 5 (some x.tdid) 0 3 n 0
    if x.setBound then { s with sets := s.sets.set x.set default } else s
  else s

/-- A fill ends (R451, R461): the key bytes are in, and the slot is LIVE with the record that was prepared. -/
def State.fillSlot (s : State) (n : Nat) (attr : BitVec 256) (key : Bytes) : State :=
  let s := s.onSlot n (fun _ => { attr := setFld attr 1 0 1, key := Bytes.fit key 64 })
  let t := (s.slot n).tdid
  (s.countT 1 0x53 t).note 1 5 (some t) 0 1 n 0

/-- An MCC adds its count of line writes to Tower's record of a class C slot (R207): the record's thresholds order a
re-key (R208, R209) and close the slot to writes (R210). -/
def State.addWrites (s : State) (n k : Nat) : State :=
  let w := (s.slot n).writes + k
  let s := s.onSlot n (fun x => { x with attr := setFld x.attr 172 128 (min w (2 ^ 45 - 1)) })
  let s :=
    if w ≥ 2 ^ 44 - 2 ^ 23 ∧ !s.nwt.waiting.contains n ∧ !s.nwt.moves.cells.any (fun m => m.2.send.isNone && m.2.oldSlot.toNat == n) then
      { s with nwt := { s.nwt with waiting := s.nwt.waiting ++ [n] } }
    else s
  if w ≥ 2 ^ 44 + 2 ^ 40 ∧ !(s.slot n).writeClosed then
    (s.onSlot n (fun x => { x with attr := setFld x.attr 5 5 1 })).invalidate n
      ((List.range 8).map mccIx |>.filter s.live)
  else s

end Sys2Proof.Machine
end

