-- ==== Sys2Proof/Machine/Ownership.lean ====
section
/-!
DEFINITION. The Range Ownership Table: its entries, the check, the replicas and the Tower side of the drain protocol
(spec/06_ownership_and_site_guards.md R271 to R287), and the Gecko counters (R291 to R294).
-/

namespace Sys2Proof.Machine

/-- A Range Ownership Table entry (R271). -/
abbrev Entry := BitVec 128

/-- START, the first granule. -/
def Entry.start (e : Entry) : Nat := fld e 39 0
/-- LENGTH in granules. -/
def Entry.length (e : Entry) : Nat := fld e 71 40
/-- OWNER. -/
def Entry.owner (e : Entry) : Nat := fld e 78 72
/-- KEY_SLOT. -/
def Entry.keySlot (e : Entry) : Nat := fld e 91 80
/-- CLASS: 0 OPEN, 1 C, 2 R. -/
def Entry.cls (e : Entry) : Nat := fld e 93 92
/-- STATE: 0 FREE, 1 LIVE, 2 DRAINING, 3 SCRUBBING. -/
def Entry.state (e : Entry) : Nat := fld e 96 94
/-- ELIDE. -/
def Entry.elide (e : Entry) : Bool := e.getLsbD 97
/-- SIGN. -/
def Entry.sign (e : Entry) : Bool := e.getLsbD 98
/-- SIGNATURE. -/
def Entry.signature (e : Entry) : Nat := fld e 104 99
/-- WRITE_DENY. -/
def Entry.writeDeny (e : Entry) : Bool := e.getLsbD 105
/-- GECKO. -/
def Entry.gecko (e : Entry) : Bool := e.getLsbD 106
/-- TOWER. -/
def Entry.tower (e : Entry) : Bool := e.getLsbD 107
/-- STALE_VALID. -/
def Entry.staleValid (e : Entry) : Bool := e.getLsbD 108
/-- PREV_OWNER. -/
def Entry.prevOwner (e : Entry) : Nat := fld e 115 109
/-- PARTITION. -/
def Entry.part (e : Entry) : Nat := fld e 122 116

/-- The new contents of an entry (R283): a crypto-erase leaves the record of the owner before; any other change of an entry
that is not FREE records its owner, for stale accesses when the new owner is another. -/
def Entry.changed (old new : Entry) (erase : Bool) : Entry :=
  if old.state = 0 then new
  else if erase then setFld (setFld new 115 109 old.prevOwner) 108 108 (b2n old.staleValid)
  else setFld (setFld new 115 109 old.owner) 108 108 (b2n (new.owner != old.owner))

/-- A granule lies in an entry's range. -/
def Entry.contains (e : Entry) (g : Nat) : Bool := decide (e.start ≤ g ∧ g < e.start + e.length)

/-- The ten replicas: MCC0 to MCC7, PCC0 and PCC1, by island index. -/
def replicaIslands : List Nat := (List.range 10).map (· + 3)

/-- Entry `e` of the replica of island `i`. -/
def State.repEntry (s : State) (i e : Nat) : Entry := s.own.rep.get (8192 * (i - 3) + e)

/-- Write entry `e` of the replica of island `i`. -/
def State.setRep (s : State) (i e : Nat) (v : Entry) : State :=
  { s with own := { s.own with rep := s.own.rep.set (8192 * (i - 3) + e) v } }

/-- The entry that is not FREE and contains a granule (R272, R277 test 2). -/
def State.findEntry (s : State) (i g : Nat) : Option (Nat × Entry) :=
  ((s.own.rep.cells.find? (fun c =>
    c.1 / 8192 == i - 3 && Entry.state c.2 != 0 && Entry.contains c.2 g)).map (fun c => (c.1 % 8192, c.2)))

/-- The outcome of a check (R277): an entry and its contents, or the kind of failure and the entry concerned. Kinds as
SPR_OWNF_ID.KIND, 0x0A DRAINING and 0x0B STALE. -/
inductive Check where
  | pass (e : Nat) (ent : Entry)
  | fail (kind : Nat) (e : Nat)
  deriving DecidableEq, Repr

/-- The ordered tests of R277 at the replica of island `i`, for a read or a write. -/
def State.ownCheck (s : State) (i : Nat) (addr len tdid : Nat) (tower write : Bool) : Check :=
  if addr % 4096 + len > 4096 then .fail 5 0
  else match s.findEntry i (addr / 4096) with
    | none => .fail 1 0
    | some (e, ent) =>
      if ent.tower != tower then .fail 4 e
      else if ent.state ≠ 1 then .fail 10 e
      else if tdid ≠ ent.owner ∧ ent.staleValid ∧ tdid = ent.prevOwner then .fail 11 e
      else if tdid ≠ ent.owner then .fail 2 e
      else if write ∧ ent.writeDeny then .fail 3 e
      else .pass e ent

/-- A failed check is counted (R277, R645) and, but for DRAINING and STALE, reported to Spire. -/
def State.checkFailed (s : State) (i kind e : Nat) (addr tdid : Nat) : State :=
  let s := s.countS i 0x09 kind tdid
  let s := s.note i 2 (some tdid) 0 kind (addr / 4096) e
  if kind = 10 ∨ kind = 11 then s
  else s.reportOwn { kind := BitVec.ofNat 4 kind, tdid := BitVec.ofNat 7 tdid, entry := Fin.ofNat 8192 e,
                     gran := BitVec.ofNat 40 (addr / 4096), site := none, island := asIsland i }

/-! ### Replicas (R273, R281, R282) -/

/-- A held write of Newt's commit phase lies in an entry (R254, R281). -/
def heldIn (ent : Entry) (h : Nat × Link × MemReq) : Bool := ent.contains (h.2.2.addr.toNat / 4096)

/-- The in-flight count of an entry at a replica (R281): the requests that passed under it and have not completed, and
the writes held for Newt. -/
def State.inflight (s : State) (i e : Nat) : Nat :=
  ((s.mem.get i).reqs.filter (fun r => r.entry == e)).length +
    (s.nwt.held.filter (fun h => h.1 + 3 == i && heldIn (s.repEntry i e) h)).length

/-- The replica has finished a drain: DRAIN_DONE goes to Tower, once (R282). -/
def State.drainIfIdle (s : State) (i e : Nat) : State :=
  if s.own.owes.contains (i, e) ∧ s.inflight i e = 0 then
    { s with own := { s.own with owes := s.own.owes.erase (i, e), drainDone := s.own.drainDone ++ [(i, e)] } }
  else s

/-- A replica applies one update (R282). -/
def State.repApply (s : State) (i e : Nat) (m : RotMsg) : State :=
  let old := s.repEntry i e
  match m with
  | .draining =>
    if old.state = 1 then
      let s := s.setRep i e (setFld old 96 94 2)
      State.drainIfIdle { s with own := { s.own with owes := s.own.owes ++ [(i, e)] } } i e
    else s
  | .scrubbing c => if old.state = 0 ∨ old.state = 2 then s.setRep i e c else s
  | .live c =>
    if old.state = 2 ∨ old.state = 3 ∨ (old.state = 0 ∧ Entry.cls c = 0 ∧ Entry.tower c) then s.setRep i e c else s
  | .fields c => if old.state = 1 then s.setRep i e c else s
  | .free => if old.state = 2 ∨ old.state = 3 then s.setRep i e 0 else s

/-- The replicas Tower sends to: islands present, not clamped and powered (R273). -/
def State.replicas (s : State) : List Nat := replicaIslands.filter s.present

/-- Tower sends an update of entry `e` to every replica (R273). -/
def State.rotSend (s : State) (e : Nat) (m : RotMsg) : State :=
  { s with own := { s.own with inFlight := s.own.inFlight ++ s.replicas.map (fun i => (i, e, m)) } }

/-- The replica of island `i` shows SIGN with an index on an entry that passes checks. -/
def State.signsAt (s : State) (i e idx : Nat) : Bool :=
  let x := s.repEntry i e
  x.state == 1 && x.sign && x.signature == idx

/-- The close marker of a CLOSING signature follows the replica's change of its entries (R374): those that no longer show
SIGN at MCCk. -/
def State.sigCleared (s : State) (k : Nat) : State :=
  let f (_ : Nat) (g : Sig) : Sig :=
    if g.state = .closing then
      { g with cleared := g.cleared ++ (g.entries.filter (fun e => !s.signsAt (mccIx k) e g.index && !g.cleared.contains (k, e))).map (fun e => (k, e)) }
    else g
  { s with bel := { s.bel with sigs := s.bel.sigs.mapKeys f } }

/-- The oldest update on its way to the replica of island `i`. -/
def State.nextUpdate (s : State) (i : Nat) : Option (Nat × RotMsg) :=
  (s.own.inFlight.find? (fun u => u.1 == i)).map (fun u => u.2)

/-- The replica of island `i` applies the oldest update on its way to it (R273). -/
def State.rotUpdate (s : State) (i : Nat) : State :=
  match s.nextUpdate i with
  | none => s
  | some (e, m) =>
    let s := { s with own := { s.own with inFlight := dropFirst (fun u => u.1 == i) s.own.inFlight } }
    let s := s.repApply i e m
    let s := if i ≤ 10 then s.sigCleared (i - 3) else s
    match m with
    | .live _ =>
      { s with own := { s.own with drains := s.own.drains.map (fun d =>
          if d.entry == e then { d with liveAwait := d.liveAwait.erase i } else d) } }
    | _ => s

/-- INFLIGHT_ZERO (R282): a DRAINING entry's count has reached zero. -/
def execInflightZero (r : Fin 10) (e : Fin 8192) (s : State) : Host.Outcome State Fault Refusal :=
  .next (s.drainIfIdle (r.val + 3) e.val)

/-! ### The Tower side -/

/-- The master copy of entry `e`. -/
def State.master (s : State) (e : Nat) : Entry := s.own.master.get e

/-- Write the master copy of entry `e`. -/
def State.setMaster (s : State) (e : Nat) (v : Entry) : State := { s with own := { s.own with master := s.own.master.set e v } }

/-- Tower writes new contents and sends them as LIVE, SCRUBBING or a change of fields (R273, R274). -/
def State.rotPublish (s : State) (e : Nat) (v : Entry) (m : RotMsg) : State := (s.setMaster e v).rotSend e m

/-- Change fields of a LIVE entry that R274 lets change without a drain. -/
def State.rotFields (s : State) (e : Nat) (f : Entry → Entry) : State :=
  let v := f (s.master e)
  s.rotPublish e v (.fields v)

/-- Begin a drain of entry `e` (R283). -/
def State.drainStart (s : State) (e : Nat) (kind : DrainKind) : State :=
  let d : Drain := { entry := e, kind := kind, awaiting := s.replicas }
  (State.rotSend { s with own := { s.own with drains := s.own.drains ++ [d] } } e .draining).setMaster e
    (setFld (s.master e) 96 94 2)

/-- Two granule ranges meet. -/
def rangesMeet (a alen b blen : Nat) : Bool := decide (a < b + blen ∧ b < a + alen)

/-- A range meets an entry that is not FREE (R272). -/
def State.rangeTaken (s : State) (start len : Nat) : Bool :=
  s.own.master.cells.any (fun c => Entry.state c.2 != 0 && rangesMeet start len (Entry.start c.2) (Entry.length c.2))

/-! ### Where an address lies (R165, R172, R214, R215) -/

/-- The stack-select bits of an address are MCCk's own (MCC_ILV.WAY; R172, R214). -/
def Mcc.selects (m : Mcc) (a : Nat) : Bool :=
  let w := fld m.ilv 9 8
  w == 0 || (a - m.hbmBase.toNat) / 2 ^ fld m.ilv 4 0 % 2 ^ w == fld m.ilv 18 16

/-- The bases of the HBM clusters and of the pools. -/
def State.bases (s : State) : List Nat :=
  (List.range 8).map (fun k => (s.mcc.get k).hbmBase.toNat) ++ (List.range 2).map (fun p => (s.pcc.get p).poolBase.toNat)

/-- Where the part of the address space that begins at base `b` ends: at the next base above it. -/
def State.partEnd (s : State) (b : Nat) : Nat := (s.bases.filter (fun x => decide (b < x))).foldl min (2 ^ 52)

/-- The greatest base at or below an address. -/
def State.baseOf (s : State) (a : Nat) : Option Nat :=
  let l := s.bases.filter (fun b => decide (b ≤ a))
  if l.isEmpty then none else some (maxOf l)

/-- The MCC of an address on an HBM port: the greatest base at or below the address is that of an HBM cluster (HBM before
the pool where bases are equal; the spec leaves the map to the integrator: log entry 40). -/
def State.hbmPort (s : State) (a : Nat) : Option Nat :=
  match s.baseOf a with
  | some b => (List.range 8).find? (fun k => (s.mcc.get k).hbmBase.toNat == b && (s.mcc.get k).selects a)
  | none => none

/-- The pool port of an address: the greatest base at or below it is a pool's, and no HBM cluster's. -/
def State.poolPort (s : State) (a : Nat) : Option Nat :=
  match s.baseOf a with
  | some b =>
    if (List.range 8).any (fun k => (s.mcc.get k).hbmBase.toNat == b) then none
    else (List.range 2).find? (fun p => (s.pcc.get p).poolBase.toNat == b)
  | none => none

/-- The bytes of a range of granules from base `b` to the next base: first and end. -/
def State.partOf (s : State) (b start len : Nat) : Nat × Nat := (max (4096 * start) b, min (4096 * (start + len)) (s.partEnd b))

/-- The lowest line at or above `l` that MCCk carries; `l` lies at or above its base. -/
def Mcc.nextLine (m : Mcc) (l : Nat) : Nat :=
  let g := fld m.ilv 4 0
  let w := 2 ^ fld m.ilv 9 8
  let q := (64 * l - m.hbmBase.toNat) / 2 ^ g
  let d := (fld m.ilv 18 16 + w - q % w) % w
  if w = 1 ∨ d = 0 then l else (m.hbmBase.toNat + (q + d) * 2 ^ g) / 64

/-- The highest line at or below `l` that MCCk carries; `l` lies at or above its base. -/
def Mcc.lastLine (m : Mcc) (l : Nat) : Option Nat :=
  let g := fld m.ilv 4 0
  let w := 2 ^ fld m.ilv 9 8
  let q := (64 * l - m.hbmBase.toNat) / 2 ^ g
  let d := (q % w + w - fld m.ilv 18 16) % w
  if w = 1 ∨ d = 0 then some l
  else if q < d then none
  else some ((m.hbmBase.toNat + (q - d + 1) * 2 ^ g) / 64 - 1)

/-- The lines of a range of granules that MCCk may carry: first line and end, by its base and its interleave; empty when
first is not below end. -/
def State.mccPart (s : State) (k start len : Nat) : Nat × Nat :=
  let m := s.mcc.get k
  let (lo, hi) := s.partOf m.hbmBase.toNat start len
  (m.nextLine (lo / 64), hi / 64)

/-- MCCs that carry some line of a range of granules. -/
def State.rangeMccs (s : State) (start len : Nat) : List Nat :=
  (List.range 8).filter (fun k =>
    let x := s.mccPart k start len
    decide (x.1 < x.2) && s.hbmPort (64 * x.1) == some k)

/-- PCCs that carry some line of a range of granules. -/
def State.rangePccs (s : State) (start len : Nat) : List Nat :=
  (List.range 2).filter (fun p =>
    let x := s.partOf (s.pcc.get p).poolBase.toNat start len
    decide (x.1 < x.2) && s.poolPort x.1 == some p)

/-! ### Gecko (R291 to R294) -/

/-- One line access to a granule of entry `e` at MCCk (R292): every enabled window of the entry counts it. -/
def Mcc.geckoCount (m : Mcc) (e : Nat) (ent : Entry) (g : Nat) : Mcc :=
  let hits := (m.geckoWin.cells.filter (fun w => w.2.getLsbD 31 && fld w.2 12 0 == e)).filterMap (fun w =>
    let base := (m.geckoBase.get w.1).toNat
    let o := g - ent.start
    if base ≤ o ∧ (o - base) / 2 ^ fld w.2 20 16 < 16 then some (16 * w.1 + (o - base) / 2 ^ fld w.2 20 16) else none)
  { m with geckoCnt := hits.foldl (fun t b => t.modify b satInc) m.geckoCnt }

/-- GECKO_DECAY (R293): every counter of the MCC halves, unless DECAY_LOG2 is 31. -/
def execGeckoDecay (k : Fin 8) (s : State) : Host.Outcome State Fault Refusal :=
  .next (s.onMcc k.val (fun m =>
    if m.geckoCtrl = 31 then m else { m with geckoCnt := m.geckoCnt.mapKeys (fun _ c => c / 2) }))

/-- A write of MCC_GECKO_WIN (R294, R751): the window is set and its counters zeroed; a SHIFT above 28 leaves SHIFT as it
was. -/
def Mcc.geckoWrite (m : Mcc) (n : Nat) (v : Word32) : Mcc :=
  let shift := if fld v 20 16 > 28 then m.geckoWin.get n &&& 0x001F0000 else v &&& 0x001F0000
  { m with
    geckoWin := m.geckoWin.set n ((v &&& 0x80001FFF) ||| shift)
    geckoCnt := (List.range 16).foldl (fun t b => t.set (16 * n + b) 0) m.geckoCnt }

/-- GECKO_WINDOW_WRITE (R294). -/
def execGeckoWindowWrite (k : Fin 8) (n : Fin 64) (v : Word32) (s : State) : Host.Outcome State Fault Refusal :=
  .next (if s.regUp (mccIx k.val) then s.onMcc k.val (fun m => m.geckoWrite n.val v) else s)

end Sys2Proof.Machine
end

