-- ==== Sys2Proof/Machine/Lanes.lean ====
section
/-!
DEFINITION. Lane issue, key-schedule caches, the rotating audit, the vote and the hitless swap
(spec/03_cipher_lanes.md R106 to R149, spec/18_islands_clocks_power.md R739, R742, R744).
-/

namespace Sys2Proof.Machine

/-! ### Key-schedule cache (R109 to R113) -/

/-- The live schedule of a slot in a cluster. -/
def Cluster.find (c : Cluster) (slot : Nat) : Option Sched := c.sched.find? (fun x => x.slot == slot && !x.dead)

/-- Use of a schedule: it becomes the most recently used. -/
def Cluster.touch (c : Cluster) (slot : Nat) : Cluster :=
  match c.find slot with
  | some x => { c with sched := x :: dropFirst (fun y => y.slot == slot && !y.dead) c.sched }
  | none => c

/-- Cache entries a schedule takes (R109): two for a memory key, one for a link key. -/
def schedWidth (island : Nat) : Nat := if island ≤ 12 then 2 else 1

/-- A line operation whose lane issue is made and whose output is not yet released. -/
def LineOp.inLane (o : LineOp) : Bool :=
  match o.phase with
  | .cmpRead => true | .verdict => true | .cmpWrite => true
  | _ => false

/-- A schedule is pinned (R110): an item or a line operation issued under it has not left its lane. -/
def State.schedPinned (s : State) (c id : Nat) : Bool :=
  (s.clusters.get c).items.any (fun x => x.sched == id) || (s.mem.get c).ops.any (fun o => o.inLane && o.sched == id)

/-- The writes a schedule has not yet reported go to Tower's record (R207). -/
def State.reportWrites (s : State) (c id : Nat) : State :=
  match (s.clusters.get c).sched.find? (fun x => x.id == id) with
  | some x =>
    if x.unreported = 0 then s
    else (s.onCluster c (fun y => { y with sched := mapWhere (fun z => z.id == id) (fun z => { z with unreported := 0 }) y.sched })).addWrites
      x.slot x.unreported
  | none => s

/-- Invalidated schedules leave once nothing uses them (R113); an invalidation of which the last one has left is
acknowledged (R463). -/
def State.reapSchedules (s : State) (c : Nat) : State :=
  let l := (s.clusters.get c).sched
  let gone := l.filter (fun z => z.dead && !s.schedPinned c z.id)
  if gone.isEmpty then s
  else
    let rest := l.filter (fun z => !(z.dead && !s.schedPinned c z.id))
    let acked (n : Nat) : Bool := gone.any (fun z => z.slot == n) && !rest.any (fun z => z.dead && z.slot == n)
    { s.onCluster c (fun y => { y with sched := rest }) with invals := s.invals.filter (fun p => !(p.1 == c && acked p.2)) }

/-- A place in the schedule cache (R110): a free one, or that of the least recently used entry that is not pinned. `false`
when every entry is pinned (R111). -/
def State.schedRoom (s : State) (c : Nat) : State × Bool :=
  let s := s.reapSchedules c
  let x := s.clusters.get c
  if (x.sched.length + x.awaiting.length + 1) * schedWidth c ≤ 64 then (s, true)
  else match (x.sched.filter (fun z => !s.schedPinned c z.id)).getLast? with
    | some v => ((s.reportWrites c v.id).onCluster c (fun y => { y with sched := y.sched.filter (fun z => z.id != v.id) }), true)
    | none => (s, false)

/-- Ask Tower for a schedule, once and with a place for it (R111). -/
def State.wantSchedule (s : State) (c slot : Nat) : State :=
  if (s.clusters.get c).awaiting.contains slot then s
  else match s.schedRoom c with
    | (s, true) => (s.onCluster c (fun x => { x with awaiting := x.awaiting ++ [slot] })).countT c 0x08 128
    | (s, false) => s

/-- Put an expanded schedule first into a cluster's cache. -/
def Cluster.addSched (y : Cluster) (x : Sched) : Cluster :=
  { y with sched := { x with id := y.nextSched } :: y.sched, nextSched := y.nextSched + 1 }

/-- Tower's answer to a fill: the key is expanded into the place kept for it (R111, R167). -/
def State.installSchedule (s : State) (c slot : Nat) : State :=
  let x := s.slot slot
  s.onCluster c (fun y => ({ y with awaiting := y.awaiting.erase slot }).addSched
    { slot := slot, key := x.key, epoch := x.epoch, writes := !x.writeClosed })

/-- SCHEDULE_INVALIDATE (R112, R113, R463): the schedule of a slot is overwritten, its writes are reported (R207), and
the cluster acknowledges; one that is pinned stays, dead, until it is released. -/
def State.invalidateSchedule (s : State) (c slot : Nat) : State :=
  let ids := ((s.clusters.get c).sched.filter (fun z => z.slot == slot)).map (·.id)
  let s := ids.foldl (fun s id => s.reportWrites c id) s
  let s := s.onCluster c (fun y => { y with sched := mapWhere (fun z => z.slot == slot) (fun z => { z with dead := true }) y.sched })
  if ids.isEmpty then { s with invals := s.invals.erase (c, slot) } else s.reapSchedules c

/-! ### Issue (R138, R139, R143, R739) -/

/-- SAMPLE_LOG2 of a cluster (R135, R136). -/
def State.sampleLog2 (s : State) (c : Nat) : Nat :=
  match (s.entriesOf c 3).find? (fun e => Bytes.at e 0 == c) with
  | some e => Bytes.at e 1
  | none => 4

/-- Active sockets whose lane may take an issue. -/
def State.issueSockets (s : State) (c : Nat) : List Nat :=
  (s.activeSockets c).filter (fun n => let k := s.socket c n; k.powered && k.tested && !k.underTest)

/-- The cluster has a lane and a cap for an issue (R739, R740). -/
def State.laneReady (s : State) (c : Nat) : Bool :=
  (s.clusters.get c).cap != 0 && !(s.issueSockets c).isEmpty && (s.isl.get c).swap == .run

/-- The socket that takes the next issue: the ready sockets take turns (the choice is the model's: log entry 6). -/
def State.nextSocket (s : State) (c : Nat) : Nat :=
  let l := s.issueSockets c
  let t := (s.clusters.get c).turn
  match l.find? (fun n => decide (t ≤ n)) with
  | some n => n
  | none => (l[0]?).getD 0

/-- The spare socket that runs the same issue for comparison: the lockstep spare (R143), or the auditing spare when this
issue is a sampled one (R139); `true` for lockstep. -/
def State.comparedWith (s : State) (c n : Nat) : Option (Nat × Bool) :=
  match (s.clusters.get c).swap.filter (fun w => w.socket == n) with
  | some w => some (w.spare, true)
  | none =>
    match (socketNums c).find? (fun k => (s.socket c k).activity == 1 && (s.socket c k).target.toNat == n) with
    | some k => if (s.socket c n).issues + 1 ≥ 2 ^ s.sampleLog2 c then some (k, false) else none
    | none => none

/-- The physical lane in a socket. -/
def State.laneIn (s : State) (c n : Nat) : Nat := (s.socket c n).lane.toNat

/-- Give an item to a lane, under the schedule of number `sched`. `true` when its output is withheld for a comparison
(R139, R143). -/
def State.issue (s : State) (c : Nat) (kind : ItemKind) (sched : Nat) : State × Bool :=
  let n := s.nextSocket c
  match s.comparedWith c n with
  | some (k, lock) =>
    let x : Item := { kind := kind, active := s.laneIn c n, spare := s.laneIn c k, lockstep := lock, sched := sched }
    let s := s.onSocket c n (fun x => { x with issues := 0 })
    (s.onCluster c (fun y => { y with items := y.items ++ [{ x with id := y.nextItem }], nextItem := y.nextItem + 1, turn := n + 1 }), true)
  | none =>
    let s := s.onSocket c n (fun x => { x with issues := (x.issues + 1) % 2 ^ s.sampleLog2 c })
    (s.onCluster c (fun x => { x with turn := n + 1 }), false)

/-- Give an item to a lane and, unless its output is withheld, go on with its effect. -/
def State.issueThen (s : State) (c : Nat) (kind : ItemKind) (sched : Nat) (go : State → State) : State :=
  match s.issue c kind sched with
  | (s, true) => s
  | (s, false) => go s

/-- A lane and a schedule for a slot at cluster `c` are ready: the schedule. A missing one is asked for (R111). -/
def State.readySched (s : State) (c slot : Nat) : State × Option Sched :=
  match (s.clusters.get c).find slot with
  | some x => if s.laneReady c then (s.onCluster c (fun y => y.touch slot), some x) else (s, none)
  | none => (s.wantSchedule c slot, none)

/-- The physical line whose later items wait behind an item (R141): that of an item no line operation stands for. -/
def ItemKind.line : ItemKind → Option Nat
  | .newtCopy _ l _ => some l
  | .newtWrite _ l _ _ _ => some l
  | .sendRead _ l _ => some l
  | .init _ l _ _ _ => some l
  | .overflowRead _ l _ => some l
  | .overflowWrite _ l _ _ => some l
  | _ => none

/-- An item of cluster `c` on a line, not one of a line operation, is withheld. -/
def State.lineInLane (s : State) (c line : Nat) : Bool := (s.clusters.get c).items.any (fun x => x.kind.line == some line)

/-! ### Faulted lanes, audit, swap (R137 to R148) -/

/-- A socket's lane becomes FAULTED and is powered off (R137, R141). -/
def State.faultLane (s : State) (c n : Nat) : State :=
  let s := s.onSocket c n (fun x => { x with role := 2, activity := 3, powered := false, tested := false })
  s.note c 0x0A none 0 3 n (s.socket c n).lane.toNat

/-- Exchange the physical lanes of two sockets, with what belongs to the lane (R144, R149). -/
def State.exchangeLanes (s : State) (c a b : Nat) : State :=
  let x := s.socket c a
  let y := s.socket c b
  let s := s.onSocket c a (fun k => { k with lane := y.lane, ageing := y.ageing, mismatches := y.mismatches, powered := y.powered, tested := y.tested, underTest := y.underTest, issues := 0 })
  s.onSocket c b (fun k => { k with lane := x.lane, ageing := x.ageing, mismatches := x.mismatches, powered := x.powered, tested := x.tested, underTest := x.underTest, issues := 0 })

/-- An active lane is lost with no healthy spare (R31, R623): class 2 with the socket as its unit. -/
def State.laneLost (s : State) (c n : Nat) : State := (s.faultLane c n).report 2 c n

/-- Sockets whose lane may take an active socket at power-on, lowest first (R137): spares that are not FAULTED, powered on
or not; a lane that has not passed its own test passes it before it carries traffic. -/
def State.freshSpares (s : State) (c : Nat) : List Nat :=
  (socketNums c).filter (fun n => let k := s.socket c n; k.role == 1 && !k.underTest && k.activity != 2)

/-- LANE_KNOWN_ANSWER_TEST (R137): a lane that fails is FAULTED, and in an active socket the lowest healthy spare takes
its place at once; with none, R31. -/
def State.knownAnswer (s : State) (c n : Nat) (pass : Bool) : State :=
  if n ≥ socketCount c ∨ !(s.socket c n).powered then s
  else if pass then s.onSocket c n (fun x => { x with tested := true, activity := if x.tested then x.activity else 0 })
  else
    let wasActive := (s.socket c n).role == 0
    let s := s.report 1 c n
    if !wasActive then s.faultLane c n
    else match (s.freshSpares c).head? with
      | some k =>
        ((s.exchangeLanes c n k).faultLane c k).onSocket c n (fun x => { x with activity := if x.tested then 0 else 3 })
      | none => s.laneLost c n

/-- The lanes that are still to power on, in the order of R742: active ones first, then spares. -/
def State.unpowered (s : State) : List (Nat × Nat) :=
  let all := ((List.range 27).map (· + 3)).flatMap (fun c => (socketNums c).map (fun n => (c, n)))
  let ok := all.filter (fun p => let k := s.socket p.1 p.2; !k.powered && k.role != 2 && !k.underTest && s.live p.1)
  ok.filter (fun p => (s.socket p.1 p.2).role == 0) ++ ok.filter (fun p => (s.socket p.1 p.2).role == 1)

/-- LANE_GROUP_POWER_ON (R738, R742): the next group of up to eight lanes powers on, after the first commit; a group rises by
0.20 A, and waits for a window whose exempt events leave room for it within 0.25 A. -/
def State.groupPowerOn (s : State) : State :=
  if s.pwr.committed ∧ s.pwr.exempt ≤ 1 then
    (s.unpowered.take 8).foldl (fun s p => s.onSocket p.1 p.2 (fun x => { x with powered := true }))
      { s with pwr := { s.pwr with exempt := s.pwr.exempt + 4 } }
  else s

/-- LANE_GROUP_POWER_ON. -/
def execLaneGroupPowerOn (s : State) : Host.Outcome State Fault Refusal := .next s.groupPowerOn

/-- Active sockets that spare number `k` of `n` audits (R138). -/
def auditTargets (actives : List Nat) (k n : Nat) : List Nat :=
  (actives.zipIdx.filter (fun p => p.2 % n == k)).map Prod.fst

/-- AUDIT_WINDOW_END (R138, R140): each available spare moves to its next audited socket; the assignment starts again
when the available spares have changed. -/
def State.auditWindow (s : State) (c : Nat) : State :=
  let spares := s.availableSpares c
  let actives := s.activeSockets c
  let x := s.clusters.get c
  let w := if x.auditSpares = spares then x.window + 1 else 0
  let s := s.onCluster c (fun x => { x with window := w, auditSpares := spares })
  spares.zipIdx.foldl (fun s p =>
    let ts := auditTargets actives p.2 spares.length
    match ts[w % ts.length]? with
    | some t => s.onSocket c p.1 (fun k => { k with activity := 1, target := BitVec.ofNat 4 t })
    | none => s.onSocket c p.1 (fun k => { k with activity := 0 })) s

/-- AUDIT_WINDOW_END. -/
def execAuditWindowEnd (c : Cl) (s : State) : Host.Outcome State Fault Refusal := .next (s.auditWindow (c.val + 3))

/-- Orders for failed lanes that no swap can carry out any more (R31): with no swap under way and no healthy spare left, the
lane is lost. -/
def State.ordersLost (s : State) (c : Nat) : State :=
  if (s.clusters.get c).swap.isSome ∨ !(s.healthySpares c).isEmpty then s
  else
    let mine (o : Nat × Nat × Bool) : Bool := o.1 == c && o.2.2
    let lost := (s.spr.swapQueue.filter mine).map (·.2.1)
    lost.foldl (fun s n => s.laneLost c n) (s.onSpr (fun p => { p with swapQueue := p.swapQueue.filter (fun o => !mine o) }))

/-- Begin lockstep for an order (R143, R744): in a window with no other counted step, in a cluster with no swap, and not
during a structure stream swap (R85). LOCKSTEP is shown on the spare; the active socket's ACTIVITY stays IDLE (DESIGN CHOICE,
log entry 81). -/
def State.swapBegin (s : State) (c n : Nat) (faulty : Bool) : Option State :=
  if s.pwr.stepTaken ∨ s.spr.coord ≠ .idle ∨ (s.clusters.get c).swap.isSome ∨ !(s.activeSockets c).contains n then none
  else match (s.availableSpares c).head? with
    | none => none
    | some k =>
      let s := s.onCluster c (fun x => { x with swap := some { socket := n, spare := k, faulty := faulty } })
      let s := s.onSocket c k (fun x => { x with activity := 2 })
      some { s with pwr := { s.pwr with stepTaken := true } }

/-- A swap order reaches the cluster (R143 to R147): lockstep begins now, or the order waits in Spire's queue. -/
def State.swapOrder (s : State) (c n : Nat) : State :=
  let waiting := s.spr.swapQueue.find? (fun o => o.1 == c && o.2.1 == n)
  let faulty := (waiting.map (fun o => o.2.2)).getD false
  let first := s.spr.swapQueue.find? (fun o => o.1 == c)
  let mayStart := match first with
    | some o => o.2.1 == n
    | none => true
  match (if mayStart then s.swapBegin c n faulty else none) with
  | some t => t.onSpr (fun p => { p with swapQueue := dropFirst (fun o => o.1 == c && o.2.1 == n) p.swapQueue })
  | none => if waiting.isSome ∨ !(s.activeSockets c).contains n then s else s.orderSwap c n

/-- LANE_SWAP_ORDER. -/
def execLaneSwapOrder (c : Cl) (sock : Fin 16) (s : State) : Host.Outcome State Fault Refusal :=
  .next (s.swapOrder (c.val + 3) sock.val)

/-- LOCKSTEP_COMPLETE (R144): 64 lclk of lockstep have passed. -/
def execLockstepComplete (c : Cl) (s : State) : Host.Outcome State Fault Refusal :=
  .next (s.onCluster (c.val + 3) (fun x => { x with swap := x.swap.map (fun w => { w with lockstepDone := true }) }))

/-- SOCKET_SWITCH (R144, R146, R148): after lockstep, or at once for a lane that lockstep has shown to be faulty, the socket takes the spare's lane;
the old lane becomes a spare, FAULTED, or the target of the field test that asked for it (R636), and Spire raises
LANE_SWAP_DONE. -/
def State.socketSwitch (s : State) (c : Nat) : State :=
  match (s.clusters.get c).swap with
  | some w =>
    if w.lockstepDone ∨ w.atOnce then
      let s := s.exchangeLanes c w.socket w.spare
      let s := s.note c 0x0A none 0 1 w.socket (s.socket c w.socket).lane.toNat
      let s := s.onCluster c (fun x => { x with swap := none })
      let s := s.onSocket c w.socket (fun x => { x with activity := 0 })
      let tested := s.ftu.target == some (1, c, (s.socket c w.spare).lane.toNat)
      let s := s.onSocket c w.spare (fun x => { x with underTest := x.underTest || tested })
      let s := if w.faulty then s.faultLane c w.spare else s.onSocket c w.spare (fun x => { x with activity := 0 })
      (s.raiseEvent 0x88 (256 * c + w.socket) 2).ordersLost c
    else s
  | none => s

/-- AGEING_READING (R621): a reading at or past the BASE limit 0xC0 orders a swap when a healthy spare exists. -/
def State.ageing (s : State) (c n : Nat) (v : BitVec 8) : State :=
  if n ≥ socketCount c then s
  else
    let s := s.onSocket c n (fun x => { x with ageing := v })
    if v.toNat ≥ 0xC0 ∧ (s.activeSockets c).contains n ∧ !(s.healthySpares c).isEmpty ∧
        !s.spr.swapQueue.any (fun o => o.1 == c && o.2.1 == n) ∧ (s.clusters.get c).swap.all (fun w => w.socket != n) then
      s.orderSwap c n
    else s

/-- AGEING_READING. -/
def execAgeingReading (c : Cl) (sock : Fin 16) (v : BitVec 8) (s : State) : Host.Outcome State Fault Refusal :=
  .next (s.ageing (c.val + 3) sock.val v)

/-- The healthy spare with the lowest AGEING. -/
def State.leastAgedSpare (s : State) (c : Nat) : Option Nat :=
  let l := s.healthySpares c
  l.find? (fun n => l.all (fun m => decide ((s.socket c n).ageing.toNat ≤ (s.socket c m).ageing.toNat)))

/-- The wear comparison of one cluster (R622). -/
def State.wearCluster (s : State) (c : Nat) : State :=
  match s.mostAged c (s.activeSockets c), s.leastAgedSpare c with
  | some a, some k =>
    if (s.socket c a).ageing.toNat ≥ (s.socket c k).ageing.toNat + 0x10 then s.orderSwap c a else s
  | _, _ => s

/-- WEAR_PERIOD (R622): every 3,600 s of Spire's clock. -/
def State.wearPeriod (s : State) : State :=
  if s.spr.wearAt + 3600000000000 ≤ s.now then
    ((List.range 27).map (· + 3)).foldl State.wearCluster (s.onSpr (fun p => { p with wearAt := s.now }))
  else s

/-- WEAR_PERIOD. -/
def execWearPeriod (dt : Nat) (s : State) : Host.Outcome State Fault Refusal := .next (s.advance dt).wearPeriod

/-! ### Comparison and vote (R141, R142, R146) -/

/-- What a comparison or a vote decides about a withheld item. -/
inductive Verdict where
  | release | discard | wait
  deriving DecidableEq, Repr

/-- Item `id` of a cluster. -/
def State.item (s : State) (c id : Nat) : Option Item := (s.clusters.get c).items.find? (fun x => x.id == id)

/-- Take item `id` out of the cluster. -/
def State.dropItem (s : State) (c id : Nat) : State :=
  (s.onCluster c (fun x => { x with items := x.items.filter (fun y => y.id != id) })).reapSchedules c

/-- The socket that holds a physical lane. -/
def State.laneSocket (s : State) (c lane : Nat) : Option Nat := (socketNums c).find? (fun n => (s.socket c n).lane.toNat == lane)

/-- The lane for the re-issue (R141, R142): the lowest other active lane, else the lowest healthy spare not compared. -/
def State.thirdLane (s : State) (c : Nat) (x : Item) : Option Nat :=
  let other (n : Nat) : Bool := s.laneIn c n != x.active && s.laneIn c n != x.spare
  (((s.issueSockets c).find? other).or ((s.healthySpares c).find? other)).map (s.laneIn c)

/-- The active lane in socket `n` of a compared pair is to be replaced (R141, R146): a running swap of its socket makes it
FAULTED, and switches without waiting when lockstep found the fault; else a swap is ordered, or the order that waits for the
socket becomes one for a faulty lane; with no spare left the lane is lost (R31). -/
def State.replaceActive (s : State) (c n : Nat) (lockstep : Bool) : State :=
  let mine (o : Nat × Nat × Bool) : Bool := o.1 == c && o.2.1 == n
  match (s.clusters.get c).swap.filter (fun w => w.socket == n) with
  | some _ =>
    s.onCluster c (fun x => { x with swap := x.swap.map (fun w => { w with faulty := true, atOnce := w.atOnce || lockstep }) })
  | none =>
    let merge (q : List (Nat × Nat × Bool)) : List (Nat × Nat × Bool) :=
      if q.any mine then mapWhere mine (fun o => (o.1, o.2.1, true)) q else q ++ [(c, n, true)]
    (s.onSpr (fun p => { p with swapQueue := merge p.swapQueue })).ordersLost c

/-- A spare of a compared pair is faulty (R141, R146): a lockstep with it starts again with the next spare. -/
def State.spareFaulty (s : State) (c n : Nat) : State :=
  let s := s.faultLane c n
  match (s.clusters.get c).swap.filter (fun w => w.spare == n) with
  | some w =>
    let mine (o : Nat × Nat × Bool) : Bool := o.1 == c && o.2.1 == w.socket
    ((s.onCluster c (fun x => { x with swap := none })).onSpr (fun p => { p with
      swapQueue := (c, w.socket, w.faulty || (p.swapQueue.filter mine).any (·.2.2)) :: p.swapQueue.filter (fun o => !mine o) })).ordersLost c
  | none => s.ordersLost c

/-- A compared lane is found faulty: it is replaced if it stands in an active socket, and FAULTED at once if a swap has made
it a spare since. -/
def State.laneFaulty (s : State) (c lane : Nat) (lockstep : Bool) : State :=
  match s.laneSocket c lane with
  | some n =>
    if (s.socket c n).role = 0 then s.replaceActive c n lockstep else if (s.socket c n).role = 1 then s.spareFaulty c n else s
  | none => s

/-- The lane fault of a verdict (R141), with the lane's socket as its unit. -/
def State.laneReport (s : State) (c lane : Nat) : State := s.report 0 c ((s.laneSocket c lane).getD lane)

/-- The vote is undecided: both lanes become FAULTED and the active one is replaced (R141). -/
def State.undecided (s : State) (c : Nat) (x : Item) : State :=
  (((s.laneReport c x.active).laneFaulty c x.spare x.lockstep).laneFaulty c x.active x.lockstep)

/-- Count a mismatch of a lane on its socket (R149). -/
def State.mismatch (s : State) (c lane : Nat) : State :=
  match s.laneSocket c lane with
  | some n => s.onSocket c n (fun k => { k with mismatches := satInc k.mismatches })
  | none => s

/-- The comparison of a withheld item (R139, R141): equal outputs are released; a mismatch is counted on both sockets and
the item is issued again on a third lane, or is undecided when there is none. -/
def State.compare (s : State) (c id : Nat) (equal : Bool) : State × Verdict :=
  match s.item c id with
  | none => (s, .wait)
  | some x =>
    if x.voting then (s, .wait)
    else if equal then (s, .release)
    else
      let s := ((s.mismatch c x.active).mismatch c x.spare).countT c 0x0F 128
      match s.thirdLane c x with
      | some n =>
        (s.onCluster c (fun y => { y with items := mapWhere (fun z => z.id == id) (fun z => { z with voting := true, third := some n }) y.items }), .wait)
      | none => (s.undecided c x, .discard)

/-- The third result (R141). -/
def State.vote (s : State) (c id : Nat) (third : Third) : State × Verdict :=
  match s.item c id with
  | none => (s, .wait)
  | some x =>
    if !x.voting then (s, .wait)
    else
    let s := s.note c 0x0A none 0 2 ((s.laneSocket c x.active).getD 0) x.active
    match third with
      | .active => ((s.laneReport c x.spare).laneFaulty c x.spare x.lockstep, .release)
      | .spare => ((s.laneReport c x.active).laneFaulty c x.active x.lockstep, .release)
      | .neither => (s.undecided c x, .discard)

end Sys2Proof.Machine
end

