-- ==== Sys2Proof/Machine/Mailbox.lean ====
section
/-!
DEFINITION. Mailboxes and the transport of command messages (spec/14_tower_and_mailboxes.md R586 to R607, R768): words
and sequence values, takes and interrupts, the acceptance of a message, responses and notices.
-/

namespace Sys2Proof.Machine

/-! ### Words (R588 to R592) -/

/-- Words a direction holds (R588). -/
def Mbx.room (m : Mbx) : Nat := if m.queueMode then 8 else 1

/-- A write into a direction (R588, R589): the words, the sequence value given, and whether the newest word was replaced. -/
def pushWord (room : Nat) (l : List MbxWord) (seq : BitVec 8) (w : Word32) : List MbxWord × BitVec 8 × Bool :=
  let x : MbxWord := { word := w, seq := seq + 1 }
  if l.length < room then (l ++ [x], seq + 1, false) else (l.dropLast ++ [x], seq + 1, true)

/-- Change mailbox `n`. -/
def State.onMbx (s : State) (n : Nat) (f : Mbx → Mbx) : State := { s with mbx := s.mbx.modify n f }

/-- A host-directed wake event: WAKE is asserted, or its time starts again (R591, R686). -/
def State.hostWake (s : State) : State :=
  if s.pads.wake then s else { s.emit (.wake true) with pads := { s.pads with wake := true } }

/-- Tower writes a word in the RX direction of mailbox `n` (R589, R591). -/
def State.rxPush (s : State) (n : Nat) (w : Word32) : State :=
  let m := s.mbx.get n
  let (l, q, hit) := pushWord m.room m.rx m.rxSeq w
  let s := s.onMbx n (fun m => { m with rx := l, rxSeq := q, collRx := m.collRx || hit })
  (if m.rxIrq then s.irq m.vector.toNat else s).hostWake

/-- The EMPTY interrupt, when a take by Tower has left TX empty (R592). -/
def State.emptyIrq (s : State) (n : Nat) : State :=
  let m := s.mbx.get n
  if m.tx.isEmpty && m.emptyIrq then s.irq m.vector.toNat else s

/-- Tower takes the `k` oldest TX words (R592). -/
def State.txTake (s : State) (n k : Nat) : State :=
  if (s.mbx.get n).tx.isEmpty then s else (s.onMbx n (fun m => { m with tx := m.tx.drop k })).emptyIrq n

/-- MBX_TX_WRITE (R588, R589). -/
def State.mbxTxWrite (s : State) (n : Nat) (w : Word32) : State :=
  if !s.live 1 then s
  else
    let m := s.mbx.get n
    let (l, q, hit) := pushWord m.room m.tx m.txSeq w
    s.onMbx n (fun m => { m with tx := l, txSeq := q, collTx := m.collTx || hit })

/-- MBX_TX_WRITE. -/
def execMbxTxWrite (mbx : Fin 160) (w : Word32) (s : State) : Host.Outcome State Fault Refusal := .next (s.mbxTxWrite mbx.val w)

/-- MBX_TAKE (R590): the COUNT oldest RX words go when SEQ is the oldest word's. -/
def State.mbxTake (s : State) (n : Nat) (v : Word32) : State :=
  let m := s.mbx.get n
  let count := fld v 11 8
  match m.rx.head? with
  | some x =>
    if s.live 1 ∧ x.seq.toNat = fld v 7 0 ∧ 1 ≤ count ∧ count ≤ m.rx.length then s.onMbx n (fun m => { m with rx := m.rx.drop count })
    else s
  | none => s

/-- MBX_TAKE. -/
def execMbxTake (mbx : Fin 160) (v : Word32) (s : State) : Host.Outcome State Fault Refusal := .next (s.mbxTake mbx.val v)

/-- Tower firmware runs: started, not halted by the comparator, the island out of reset (R577, R582). -/
def State.fwUp (s : State) : Bool := s.fw.running && !s.fw.halted && s.live 1

/-- MBX_RX_WRITE (R591, R597): the next word of the oldest response goes into RX; a response begins only when RX has room
for the whole of it. -/
def State.mbxRxWrite (s : State) (n : Nat) : State :=
  let m := s.mbx.get n
  match m.resp with
  | (w :: ws) :: rest =>
    if (s.fwUp || s.fw.recovery) && decide (m.rx.length + ws.length < m.room) then
      (s.rxPush n w).onMbx n (fun m => { m with resp := if ws.isEmpty then rest else ws :: rest })
    else s
  | _ => s

/-- MBX_RX_WRITE. -/
def execMbxRxWrite (mbx : Fin 160) (s : State) : Host.Outcome State Fault Refusal := .next (s.mbxRxWrite mbx.val)

/-! ### Messages (R596 to R601, R768) -/

/-- A response (R597): STATUS, ARGS, CMD_ID and up to two result words; it waits until RX has room. -/
def State.respond (s : State) (n status cmdId : Nat) (words : List Word32) : State :=
  let w0 := BitVec.ofNat 32 (status * 2 ^ 24 + words.length * 2 ^ 21 + cmdId)
  s.onMbx n (fun m => { m with resp := m.resp ++ [w0 :: words] })

/-- Arguments of each command CODE (R603); none for an undefined one. -/
def commandArgs (code : Nat) : Option Nat :=
  match code with
  | 0x01 => some 3 | 0x02 => some 0 | 0x03 => some 0 | 0x04 => some 2 | 0x05 => some 0 | 0x06 => some 2
  | 0x07 => some 3 | 0x08 => some 1 | 0x09 => some 1 | 0x0A => some 1 | 0x0B => some 2 | 0x0C => some 3
  | 0x0D => some 1 | 0x0E => some 1 | 0x0F => some 3 | 0x10 => some 2 | 0x11 => some 4 | 0x18 => some 1
  | 0x20 => some 2 | 0x21 => some 1 | 0x22 => some 3 | 0x23 => some 2 | 0x24 => some 6 | 0x25 => some 3
  | 0x26 => some 1 | 0x27 => some 3 | 0x28 => some 3 | 0x29 => some 3 | 0x2A => some 1 | 0x2B => some 2
  | 0x2C => some 1 | 0x2D => some 1 | 0x2E => some 2 | 0x30 => some 1 | 0x31 => some 1 | 0x32 => some 4
  | 0x33 => some 5 | 0x34 => some 6 | _ => none

/-- Commands answered at acceptance (answer A of R603). -/
def answerA (code : Nat) : Bool := [0x07, 0x20, 0x22, 0x28, 0x29, 0x2E, 0x34].contains code

/-- Partition whose allotment holds mailbox `n`, zero for none (R599). -/
def State.mbxPart (s : State) (n : Nat) : Nat :=
  if n < 32 then 0
  else ((s.prt.parts.cells.find? (fun c =>
    c.2.state != .none && decide (c.2.mbx0 ≤ n ∧ n < c.2.mbx0 + (c.2.allot[4]?).getD 0))).map Prod.fst).getD 0

/-- A relay connection is bound to mailbox `n` (R515). -/
def State.relayOf (s : State) (n : Nat) : Option Nat :=
  (s.att.conns.cells.find? (fun c => c.2.mbx == some n)).map Prod.fst

/-- Commands of a partition (0: the manager) accepted and not yet complete (R601). -/
def State.heldCommands (s : State) (p : Nat) : Nat := (s.cmds.filter (fun c => c.part == p)).length

/-- Why a message with a sound header is not accepted, from its mailbox, CODE and TAG (R488, R599, R601). -/
def State.refusal (s : State) (n code tag : Nat) : Option Nat :=
  let p := s.mbxPart n
  if n = 0 ∨ n = 2 then some 3
  else if n = 1 ∧ tag ≠ 0 then some 3
  else if n ≠ 1 ∧ code ≤ 0x11 then some 3
  else if code = 0x18 ∧ (s.relayOf n).isNone then some 3
  else if 3 ≤ n ∧ n ≤ 31 ∧ (code ≠ 0x18 ∨ (s.relayOf n).isNone) then some 3
  else if 32 ≤ n ∧ p = 0 ∧ code ≠ 0x18 then some 3
  else if s.fw.sealed ∧ code ≠ 0x05 then some 7
  else if s.heldCommands p ≥ 64 then some 5
  else none

/-- A command is accepted, and counted (R600, R645, R770). -/
def State.countCommand (s : State) (code : Nat) : State := s.countS 1 0x50 code

/-- A command with answer C is accepted when its message is taken (R770); one with answer A once it has passed its checks
(R600). -/
def State.acceptC (s : State) (code : Nat) : State := if answerA code then s else s.countCommand code

/-- The trace record of a command's answer (R659). -/
def State.noteCommand (s : State) (c : Cmd) (status : Nat) : State :=
  s.note 1 9 none 0 (256 * c.code.toNat + status) (2 ^ 16 * c.part + c.cmdId.toNat) c.tag.toNat

/-- Answer a command that ends now with a STATUS and result words. -/
def State.answer (s : State) (c : Cmd) (status : Nat) (words : List Word32 := []) : State :=
  (s.respond c.mbx status c.cmdId.toNat words).noteCommand c status

/-- Keep a command under way: started; with answer A it has been answered. -/
def State.hold (s : State) (c : Cmd) : State := { s with cmds := s.cmds ++ [{ c with started := true }] }

/-- The words of a message (R596). -/
def messageWords (h : Hdr) (code : Nat) (args : List Word32) : List Word32 :=
  BitVec.ofNat 32 (code * 2 ^ 24 + args.length * 2 ^ 21 + h.cmdId.toNat) :: BitVec.ofNat 32 h.tag.toNat :: args

/-- A command message reaches Tower (R596, R599 to R601): the one that a take has queued, or one taken now. The
commands of the list named here wait in a mailbox's order. While TWR drains or holds its ingress it begins none: a queued
one stays queued, and a new one waits in its mailbox (R80). -/
def State.commandRaw (s : State) (h : Hdr) (code : Nat) (args : List Word32) (body : State → Cmd → State) : State :=
  if !s.fwUp then s
  else if (s.isl.get 1).swap ≠ .run then
    if s.cmds.any (fun c => !c.started && c.mbx == h.mbx.val && c.code.toNat == code && c.cmdId == h.cmdId && c.tag == h.tag) then s
    else (messageWords h code args).foldl (fun s w => s.mbxTxWrite h.mbx.val w) s
  else
    let n := h.mbx.val
    let s := { s with fw := { s.fw with sleep := false } }
    match s.cmds.find? (fun c => !c.started && c.mbx == n && c.code.toNat == code && c.cmdId == h.cmdId && c.tag == h.tag) with
    | some c =>
      let same (x : Cmd) : Bool := !x.started && x.mbx == n && x.code.toNat == code && x.cmdId == h.cmdId && x.tag == h.tag
      body { s with cmds := dropFirst same s.cmds } { c with started := true, args := args }
    | none =>
      match s.refusal n code h.tag.toNat with
      | some st => s.respond n st h.cmdId.toNat []
      | none =>
        body (s.acceptC code) { mbx := n, code := BitVec.ofNat 8 code, cmdId := h.cmdId, tag := h.tag, args := args,
                                part := s.mbxPart n, started := true }

/-- What Tower finds at the head of a mailbox's TX (R596): words to take, and the STATUS of a message that is refused. -/
def Mbx.head (m : Mbx) : Option (Nat × Option Nat) :=
  match m.tx with
  | [] => none
  | x :: rest =>
    let code := fld x.word 31 24
    let args := fld x.word 23 21
    if !m.queueMode then some (1, some 1)
    else if args = 7 then some (1, some 1)
    else if m.tx.length < 2 + args then none
    else match commandArgs code with
      | none => some (2 + args, some 2)
      | some k =>
        let w1 := ((rest[0]?).map (·.word)).getD 0
        if k ≠ args ∨ fld x.word 20 16 ≠ 0 ∨ fld w1 31 24 ≠ 0 then some (2 + args, some 1) else some (2 + args, none)

/-- COMMAND_COLLISION (R598): every word present is taken, the flag cleared, and COLLISION answered. -/
def State.commandCollision (s : State) (n : Nat) : State :=
  let m := s.mbx.get n
  if s.fwUp ∧ m.collTx ∧ n ≠ 0 ∧ n ≠ 2 then
    (((s.onMbx n (fun m => { m with collTx := false, tx := [] })).respond n 0x0A 0xFFFF [])).emptyIrq n
  else s

/-- COMMAND_COLLISION. -/
def execCommandCollision (mbx : Fin 160) (s : State) : Host.Outcome State Fault Refusal := .next (s.commandCollision mbx.val)

/-- UNKNOWN_COMMAND (R596, R603): a message with an undefined CODE or a malformed header is taken and answered. -/
def State.unknownCommand (s : State) (n : Nat) : State :=
  let m := s.mbx.get n
  if s.fwUp ∧ n ≠ 0 ∧ n ≠ 2 ∧ !m.collTx then
    match m.head with
    | some (k, some st) => (s.txTake n k).respond n st (fld ((m.tx.head?).getD {}).word 15 0) []
    | _ => s
  else s

/-- UNKNOWN_COMMAND. -/
def execUnknownCommand (mbx : Fin 160) (s : State) : Host.Outcome State Fault Refusal := .next (s.unknownCommand mbx.val)

/-- The arguments of a command that are handles (R603). -/
def handleArgs (code : Nat) (args : List Word32) : List Word32 :=
  let pick (l : List Nat) : List Word32 := l.filterMap (fun i => args[i]?)
  match code with
  | 0x07 => pick [1] | 0x10 => pick [1] | 0x21 => pick [0] | 0x22 => pick [0, 1] | 0x23 => pick [0] | 0x24 => pick [3]
  | 0x25 => pick [0] | 0x26 => pick [0] | 0x27 => pick [2] | 0x28 => pick [0, 1] | 0x29 => pick [0, 1] | 0x2A => pick [0]
  | 0x30 => pick [0] | 0x31 => pick [0] | 0x32 => pick [0] | 0x33 => pick [0] | 0x34 => pick [0, 1, 4] | _ => []

/-- The objects that a queued command names, by live handles (R547, R553). -/
def State.namedKeys (s : State) (code : Nat) (args : List Word32) : List Nat :=
  ((handleArgs code args).filter (fun w =>
    let o := s.prt.objs.get (2 ^ 20 * fld w 31 28 + fld w 19 0)
    o.used && o.gen.toNat == fld w 27 20)).map (fun w => 2 ^ 20 * fld w 31 28 + fld w 19 0)

/-- A whole message is taken and queued, or refused (R596, R599 to R601). -/
def State.takeMessage (s : State) (n k : Nat) : State :=
  let ws := ((s.mbx.get n).tx.take k).map (·.word)
  let w0 := (ws[0]?).getD 0
  let tag := fld ((ws[1]?).getD 0) 23 0
  let code := fld w0 31 24
  let s := s.txTake n k
  match s.refusal n code tag with
  | some st => s.respond n st (fld w0 15 0) []
  | none => State.acceptC { s with cmds := s.cmds ++ [{ mbx := n, code := BitVec.ofNat 8 code, cmdId := BitVec.ofNat 16 (fld w0 15 0),
                                                        tag := BitVec.ofNat 24 tag, args := ws.drop 2, part := s.mbxPart n,
                                                        names := s.namedKeys code (ws.drop 2) }] } code

/-- MBX_TOWER_TAKE (R592, R596, R598, R599): the next message of a mailbox. Words on MBX2 are discarded; MBX0 belongs to
the ROM loader. -/
def State.mbxTowerTake (s : State) (n : Nat) : State :=
  let m := s.mbx.get n
  if !s.fwUp ∨ s.fw.sleep ∨ n = 0 ∨ (s.isl.get 1).swap ≠ .run then s
  else if n = 2 then s.txTake n 8
  else if m.collTx then s.commandCollision n
  else match m.head with
    | some (_, some _) => s.unknownCommand n
    | some (k, none) => s.takeMessage n k
    | none => s

/-- MBX_TOWER_TAKE. -/
def execMbxTowerTake (mbx : Fin 160) (s : State) : Host.Outcome State Fault Refusal := .next (s.mbxTowerTake mbx.val)

/-! ### Notices (R606, R607) -/

/-- A two-word notice is written on MBX2 without waiting for room. -/
def State.noticeWords (s : State) (w0 w1 : Word32) : State := (s.rxPush 2 w0).rxPush 2 w1

/-- A notice that Tower firmware will write. -/
def State.notice (s : State) (kind code value : Nat) : State :=
  { s with cap := { s.cap with words := s.cap.words ++ [(BitVec.ofNat 32 (kind * 2 ^ 24 + code % 2 ^ 16), BitVec.ofNat 32 value)] } }

/-- NOTICE_WRITE (R607): the oldest notice that waits goes to MBX2. -/
def State.noticeWrite (s : State) : State :=
  match s.cap.words with
  | (a, b) :: rest => if s.fwUp then State.noticeWords { s with cap := { s.cap with words := rest } } a b else s
  | [] => s

/-- NOTICE_WRITE. -/
def execNoticeWrite (s : State) : Host.Outcome State Fault Refusal := .next s.noticeWrite

/-! ### The cores (R576 to R579) -/

/-- TOWER_SLEEP (R579): while no mailbox holds a word for Tower. -/
def State.towerSleep (s : State) : State :=
  if s.fwUp ∧ s.mbx.cells.all (fun c => c.2.tx.isEmpty) then { s with fw := { s.fw with sleep := true } } else s

/-- TOWER_SLEEP. -/
def execTowerSleep (s : State) : Host.Outcome State Fault Refusal := .next s.towerSleep

/-- TOWER_WAKE (R579, R591): a word for Tower has woken the cores. -/
def State.towerWake (s : State) : State :=
  if s.mbx.cells.any (fun c => !c.2.tx.isEmpty) then { s with fw := { s.fw with sleep := false } } else s

/-- TOWER_WAKE. -/
def execTowerWake (s : State) : Host.Outcome State Fault Refusal := .next s.towerWake

/-- LOCKSTEP_MISMATCH (R577): both cores halt, and class 12 is reported. -/
def State.lockstepMismatch (s : State) : State :=
  if s.fwUp then State.report { s with fw := { s.fw with halted := true } } 12 1 0 else s

/-- LOCKSTEP_MISMATCH. -/
def execLockstepMismatch (s : State) : Host.Outcome State Fault Refusal := .next s.lockstepMismatch

end Sys2Proof.Machine
end

