-- ==== Sys2Proof/Machine/Objects.lean ====
section
/-!
DEFINITION. Objects, handles and their counts, fences and their signals, and the life of a command
(spec/13_partitions_and_objects.md R543 to R561, spec/14_tower_and_mailboxes.md R599 to R602).
-/

namespace Sys2Proof.Machine

/-! ### Object records (R547 to R552) -/

/-- The key of an object: TYPE and INDEX (R547). -/
def objKey (type index : Nat) : Nat := 2 ^ 20 * type + index

/-- Change partitions and objects. -/
def State.onPrt (s : State) (f : Parts → Parts) : State := { s with prt := f s.prt }

/-- The record of an object. -/
def State.obj (s : State) (key : Nat) : ObjRec := s.prt.objs.get key

/-- Partition `p`. -/
def State.part (s : State) (p : Nat) : Part := s.prt.parts.get p

/-- Change partition `p`. -/
def State.onPart (s : State) (p : Nat) (f : Part → Part) : State := s.onPrt (fun q => { q with parts := q.parts.modify p f })

/-- Region record `r`. -/
def State.region (s : State) (r : Nat) : Region := s.prt.regions.get r

/-- The region record that stands for the stream archive while its entry is set up (R760); no object has this index. -/
def archiveRegion : Nat := 8192

/-- Change region record `r`. -/
def State.onRegion (s : State) (r : Nat) (f : Region → Region) : State := s.onPrt (fun q => { q with regions := q.regions.modify r f })

/-- Fence record `f`. -/
def State.fence (s : State) (f : Nat) : Fence := s.prt.fences.get f

/-- Change fence record `f`. -/
def State.onFence (s : State) (n : Nat) (f : Fence → Fence) : State := s.onPrt (fun q => { q with fences := q.fences.modify n f })

/-- The handle of an object (R547). -/
def State.handle (s : State) (key : Nat) : Word32 :=
  BitVec.ofNat 32 (key / 2 ^ 20 * 2 ^ 28 + (s.obj key).gen.toNat * 2 ^ 20 + key % 2 ^ 20)

/-- INDEX values of each TYPE (R548). -/
def indexCount (type : Nat) : Nat :=
  match type with
  | 2 => 128 | 3 => 8192 | 4 => 4096 | 5 => 32768 | 6 => 16384 | 7 => 1024 | _ => 0

/-- The host references of an object (HREF, R551). -/
def State.href (s : State) (key : Nat) : Nat := ((s.prt.refs.filter (fun r => r.key == key)).map (·.count)).sum

/-- Add one host reference of (object, TAG) (R552). -/
def State.addRef (s : State) (key part tag : Nat) : State :=
  let more (r : HostRef) : HostRef := { r with count := r.count + 1 }
  let mine (r : HostRef) : Bool := r.key == key && r.tag == tag
  let refs := s.prt.refs
  s.onPrt (fun q => { q with refs := if refs.any mine then mapFirst mine more refs else refs ++ [⟨key, part, tag, 1⟩] })

/-- Take one host reference of (object, TAG) away (R552). -/
def State.dropRef (s : State) (key tag : Nat) : State :=
  let less (r : HostRef) : HostRef := { r with count := r.count - 1 }
  let mine (r : HostRef) : Bool := r.key == key && r.tag == tag
  s.onPrt (fun q => { q with refs := (mapFirst mine less q.refs).filter (fun r => r.count != 0) })

/-- Make an object (R551), with one host reference under `tag` when `host`. -/
def State.newObj (s : State) (key part tag : Nat) (host : Bool) : State :=
  let s := s.onPrt (fun q => { q with objs := q.objs.modify key (fun o => { o with used := true, part := part, tag := tag }) })
  if host then s.addRef key part tag else s

/-- Free an object's record: its GEN advances (R547) and its host references go. -/
def State.endObj (s : State) (key : Nat) : State :=
  s.onPrt (fun q => { q with
    objs := q.objs.modify key (fun o => { used := false, gen := o.gen + 1 })
    refs := q.refs.filter (fun r => r.key != key) })

/-- The lowest INDEX of a TYPE that is not in use. -/
def State.freeIndex (s : State) (type : Nat) : Option Nat :=
  firstFrom 0 (indexCount type) (fun i => !(s.obj (objKey type i)).used)

/-- Objects of a TYPE that a partition has. -/
def State.objCount (s : State) (type p : Nat) : Nat :=
  s.prt.objs.countWhere (fun k o => k / 2 ^ 20 == type && o.used && o.part == p)

/-- The allotment of resource `r` (1 to 14) of a partition (R536, R537). -/
def State.allot (s : State) (p r : Nat) : Nat := ((s.part p).allot[r - 1]?).getD 0

/-- TDID `t` is owned by partition `p`. -/
def State.ownsTdid (s : State) (p t : Nat) : Bool := (s.part p).state != .none && (s.part p).tdids.getLsbD t

/-- The partition that owns TDID `t`, zero for none. -/
def State.tdidPart (s : State) (t : Nat) : Nat :=
  ((s.prt.parts.cells.find? (fun c => c.2.state != .none && c.2.tdids.getLsbD t)).map Prod.fst).getD 0

/-- The lowest TDID of a partition (R345, R602). -/
def State.lowestTdid (s : State) (p : Nat) : Nat := (firstFrom 0 128 (fun t => (s.part p).tdids.getLsbD t)).getD 0

/-! ### Naming (R547, R566, R599, R768) -/

/-- The object a command names: its INDEX, or the STATUS that refuses it. -/
def State.named (s : State) (c : Cmd) (type : Nat) (h : Word32) : Except Nat Nat :=
  let i := fld h 19 0
  let o := s.obj (objKey type i)
  if fld h 31 28 ≠ type ∨ indexCount type ≤ i then .error 1
  else if !o.used ∨ o.gen.toNat ≠ fld h 27 20 then .error 4
  else if c.part ≠ 0 ∧ o.part ≠ c.part then .error 3
  else .ok i

/-- The region a command other than RELEASE names (R566). -/
def State.namedRegion (s : State) (c : Cmd) (h : Word32) : Except Nat Nat :=
  match s.named c 3 h with
  | .ok i => if (s.region i).dead then .error 7 else .ok i
  | .error e => .error e

/-- The fence a command names. -/
def State.namedFence (s : State) (c : Cmd) (h : Word32) : Except Nat Nat := s.named c 6 h

/-- The partition a command acts for: the commanding one, or for the manager the owner of what it names. -/
def State.actsFor (s : State) (c : Cmd) (key : Nat) : Nat := if c.part = 0 then (s.obj key).part else c.part

/-- A command CODE is permitted in the state of the partition it acts for (R543, R544, R546, R566, R568). -/
def State.gate (s : State) (p code : Nat) : Bool :=
  let quiet := [0x08, 0x09, 0x0A, 0x0B, 0x10, 0x21, 0x31]
  match (s.part p).state with
  | .active => true
  | .quiescing => quiet.contains code
  | .quiesced => quiet.contains code
  | .frozen => quiet.contains code || [0x27, 0x28, 0x29, 0x32, 0x33, 0x34].contains code
  | _ => false

/-- The gate as a refusal: STATE. -/
def State.gated (s : State) (p code : Nat) : Except Nat Unit := if s.gate p code then .ok () else .error 7

/-- Tower reads a buffer over HP by its command DMA engine (R602). -/
def State.dmaRead (s : State) (tdid addr len : Nat) : State :=
  s.emit (.hubReq 1 .read true { tid := 0, addr := BitVec.ofNat 52 addr, len := len, tdid := BitVec.ofNat 7 tdid, link := 1 })

/-- Tower writes bytes over HP (R602). -/
def State.dmaWrite (s : State) (tdid addr : Nat) (data : Bytes) : State :=
  s.emit (.hubReq 1 .write true { tid := 0, addr := BitVec.ofNat 52 addr, len := data.length, tdid := BitVec.ofNat 7 tdid,
                                  data := data, be := List.replicate data.length true, link := 1 })

/-! ### Fences (R557 to R561, R567) -/

/-- The value an error signal writes (R557). -/
def errorValue (code v : Nat) : Nat := 2 ^ 63 + code % 128 * 2 ^ 56 + v % 2 ^ 48

/-- The write of 8 bytes to a fence's location (R557, R559): the hub carries it to a cluster, to HCC or to an FCC. -/
def State.fenceWrite (s : State) (x : Fence) (v : Nat) : State :=
  s.emit (.hubReq 1 .write (x.kind == 1)
    { tid := 0, addr := BitVec.ofNat 52 x.loc, form := if x.kind = 2 then 3 else 0, node := BitVec.ofNat 16 x.node, len := 8
      tdid := BitVec.ofNat 7 x.tdid, data := toLe 8 v, be := List.replicate 8 true, link := 1 })

/-- A fence write is lost (R561, R567). -/
def State.fenceLost (s : State) (f : Nat) : State :=
  ((s.onFence f (fun x => { x with lost := true })).onPrt (fun q => { q with fenceLost := true })).countFixed 1 8

/-- The location of a fence lies in a DEAD region (R567). -/
def State.fenceDead (s : State) (x : Fence) : Bool :=
  match x.holder with
  | some k => k / 2 ^ 20 == 3 && (s.region (k % 2 ^ 20)).dead
  | none => false

/-- Signal a fence normally or with an error code (R557 to R560, R567). -/
def State.signal (s : State) (f v : Nat) (err : Option Nat) : State :=
  let x := s.fence f
  if !(s.obj (objKey 6 f)).used ∨ x.errored then s
  else if s.fenceDead x then s.fenceLost f
  else
    let value := match err with
      | some e => errorValue e v
      | none => v
    let s := s.onFence f (fun x => { x with last := if err.isSome then x.last else v, errored := err.isSome })
    let s := (s.fenceWrite x value).countT 1 0x52 x.tdid
    s.note 1 6 (some x.tdid) 0 (err.getD 0) (s.handle (objKey 6 f)).toNat v

/-- FENCE_WRITE_ERROR (R561): a fence write has completed with ERROR. -/
def execFenceWriteError (fence : Fin 16384) (s : State) : Host.Outcome State Fault Refusal :=
  .next (if (s.obj (objKey 6 fence.val)).used then s.fenceLost fence.val else s)

/-! ### Block references and freeing (R548, R553 to R555, R565) -/

/-- A slot serves the fabric root of its TDID (R436, R449): a LIVE DERIVE slot that a session delivered. -/
def Slot.fabricRoot (x : Slot) : Bool := x.state == 1 && x.purpose == 4

/-- Commands accepted and not complete that name an object (R553). -/
def State.cmdHolds (s : State) (key : Nat) : Nat := s.cmds.countP (fun c => c.names.contains key)

/-- The block references on an object (BREF): the holders of R548, and the queued commands of R553. A slot is also held
while an entry that is not FREE names it, so that it retires where R283 says (log entry 20). -/
def State.bref (s : State) (key : Nat) : Nat :=
  let i := key % 2 ^ 20
  let q := s.prt
  let held := match key / 2 ^ 20 with
    | 2 => q.regions.countWhere (fun r x => (s.obj (objKey 3 r)).used && x.tdid == i) +
        s.slots.countWhere (fun n x => (s.obj (objKey 4 n)).used && x.tdid == i) +
        s.streams.countWhere (fun n x => (s.obj (objKey 5 n)).used && x.tdid.toNat == i) +
        q.fences.countWhere (fun n x => (s.obj (objKey 6 n)).used && x.tdid == i)
    | 3 => q.fences.countWhere (fun n x => (s.obj (objKey 6 n)).used && x.holder == some key)
    | 4 => q.regions.countWhere (fun r x => (s.obj (objKey 3 r)).used && x.slot == some i) +
        s.streams.countWhere (fun n x => (s.obj (objKey 5 n)).used && x.root == i) +
        b2n (s.slot i).fabricRoot + s.nwt.keying.countP (fun k => k.2 == i) +
        s.nwt.moves.countWhere (fun _ m => m.state != 0 && m.send.isNone && m.newSlot.toNat == i) +
        s.own.master.countWhere (fun _ e => Entry.state e != 0 && Entry.cls e != 0 && Entry.keySlot e == i)
    | 5 => q.fences.countWhere (fun n x => (s.obj (objKey 6 n)).used && x.holder == some key)
    | 6 => s.bel.checks.countWhere (fun _ x => x.used && x.fence == i) +
        s.streams.countWhere (fun _ x => (x.armed.any (fun a => a.fence == i)) || x.fenceQ.any (fun a => a.1 == i))
    | _ => s.bel.checks.countWhere (fun _ x => x.used && (x.a == i || x.b == i || x.c == i))
  held + s.cmdHolds key

/-- A slot in DEAD that no object names any more returns to EMPTY (R461, R555). -/
def State.slotEmpty (s : State) (n : Nat) : State :=
  if (s.slot n).state = 3 ∧ !(s.obj (objKey 4 n)).used then s.onSlot n (fun _ => default) else s

/-- A drain of an entry that has SIGN set marks its signature INCOMPLETE (R378): the open signature of its index. -/
def State.signedDrain (s : State) (e : Nat) : State :=
  let ent := s.master e
  if ent.sign then
    match s.bel.sigs.cells.find? (fun c => c.2.state == .opened && c.2.index == ent.signature) with
    | some (h, _) => { s with bel := { s.bel with sigs := s.bel.sigs.modify h (fun g => { g with flags := g.flags ||| 2 }) } }
    | none => s
  else s

/-- The region that holds entry `e`. -/
def State.regionOf (s : State) (e : Nat) : Option Nat :=
  (s.prt.regions.cells.find? (fun c => c.2.entries.contains e)).map Prod.fst

/-- A Newt re-key covers a region, or its key is on its way (R260, R546). -/
def State.moveCovers (s : State) (r : Nat) : Bool :=
  s.nwt.moves.cells.any (fun c => c.2.state != 0 && c.2.region == r) || s.nwt.keying.any (fun k => k.1 == r)

/-- A drain of entry `e` waits for the drain before it (R284). -/
def State.drainWaits (s : State) (e : Nat) : Bool := s.own.drains.any (fun d => d.entry == e)

/-- Tower begins the drain of an entry (R283, R378, R659), or notes that it waits. -/
def State.drain (s : State) (e : Nat) (kind : DrainKind) : State :=
  if s.drainWaits e then
    { s with own := { s.own with waiting := s.own.waiting ++ [{ entry := e, kind := kind, awaiting := [] }] } }
  else
    let s := s.signedDrain e
    let s := s.note 1 4 (some (s.master e).owner) 0 2 (s.master e).start e
    s.drainStart e kind

/-- The next drain that waits for entry `e` begins (R284). -/
def State.nextDrain (s : State) (e : Nat) : State :=
  match s.own.waiting.find? (fun d => d.entry == e) with
  | some d => State.drain { s with own := { s.own with waiting := dropFirst (fun d => d.entry == e) s.own.waiting } } e d.kind
  | none => s

/-- The drains of the oldest REGION_CLEAR that waits on region `r` have begun. -/
def State.clearStarted (s : State) (r : Nat) : State :=
  { s with cmds := mapFirst (fun c => c.started && c.code == 0x22 && c.what == r && c.stage == 1) (fun c => { c with stage := 0 }) s.cmds }

/-- A region's entries are destroyed under R283 (R565, R566). -/
def State.destroyEntries (s : State) (r : Nat) : State :=
  (s.region r).entries.foldl (fun s e => if (s.master e).state = 0 then s else s.drain e .destroy) s

/-- Free an object (R554, R555, R565): a region's entries are destroyed unless it is already DEAD; a LIVE slot retires. -/
def State.freeObj (s : State) (key : Nat) : State :=
  let i := key % 2 ^ 20
  match key / 2 ^ 20 with
  | 3 =>
    let s := if (s.region i).dead then s else s.destroyEntries i
    (s.endObj key).onPrt (fun q => { q with regions := q.regions.set i default })
  | 4 => ((s.endObj key).retireSlot i).slotEmpty i
  | 5 => s.endObj key
  | 6 => (s.endObj key).onPrt (fun q => { q with fences := q.fences.set i default })
  | _ => s

/-- Objects whose counts are both zero, in the order of their keys (R554): trust domains and checks are freed elsewhere,
and a stream once it is CLOSED. -/
def State.freeable (s : State) : List Nat :=
  s.prt.objs.keysWhere (fun k o => o.used && (k / 2 ^ 20 == 3 || k / 2 ^ 20 == 4 || k / 2 ^ 20 == 6 ||
    (k / 2 ^ 20 == 5 && (s.streams.get (k % 2 ^ 20)).state == 0)) && s.href k == 0 && s.bref k == 0)

/-- Free whatever R554 frees; each released object is tested again (a chain of holders is at most five long). -/
def State.reap (s : State) : State :=
  (List.range 6).foldl (fun s _ => s.freeable.foldl State.freeObj s) s

/-- A command under way completes (R600, R601, R770): its fence is signalled when it was answered at acceptance, else its
response goes out; its block references end. -/
def State.complete (s : State) (c : Cmd) (status : Nat) (words : List Word32) (err : Option Nat) : State :=
  let s := if c.answered then
      match c.fence with
      | some (f, v) => s.signal f v err
      | none => s
    else (s.respond c.mbx status c.cmdId.toNat words).noteCommand c status
  s.reap

/-- Complete the commands of the list that meet a test. -/
def State.completeWhere (s : State) (p : Cmd → Bool) (status : Nat) (words : List Word32) (err : Option Nat) : State :=
  let cs := s.cmds.filter p
  cs.foldl (fun s c => s.complete c status words err) { s with cmds := s.cmds.filter (fun c => !p c) }

/-- Accept a command with answer A (R600): it is answered now, and its operation goes on. -/
def State.acceptA (s : State) (c : Cmd) (words : List Word32) : State :=
  (((s.countCommand c.code.toNat).respond c.mbx 0 c.cmdId.toNat words).noteCommand c 0).hold { c with answered := true }

/-- A command message reaches Tower, as `commandRaw`; when it had been queued, its block references end with it (R553,
R554). -/
def State.command (s : State) (h : Hdr) (code : Nat) (args : List Word32) (body : State → Cmd → State) : State :=
  let t := s.commandRaw h code args body
  if s.cmds.any (fun c => !c.started && !c.names.isEmpty) then t.reap else t

/-- The command a message becomes when Tower begins it, and the state in which its operation runs: the one that a take
has queued, or one taken now; none when firmware does not run, TWR does not admit work or the message is refused (R577,
R80, R599, R601, R771). -/
def State.arrival (s : State) (h : Hdr) (code : Nat) (args : List Word32) : Option (State × Cmd) :=
  let same (x : Cmd) : Bool :=
    !x.started && x.mbx == h.mbx.val && x.code.toNat == code && x.cmdId == h.cmdId && x.tag == h.tag
  let t := { s with fw := { s.fw with sleep := false } }
  if !s.fwUp ∨ (s.isl.get 1).swap ≠ .run then none
  else match s.cmds.find? same with
    | some c => some ({ t with cmds := dropFirst same s.cmds }, { c with started := true, args := args })
    | none =>
      if (s.refusal h.mbx.val code h.tag.toNat).isSome then none
      else some (t.acceptC code, { mbx := h.mbx.val, code := BitVec.ofNat 8 code, cmdId := h.cmdId, tag := h.tag, args := args,
                                   part := s.mbxPart h.mbx.val, started := true })

/-- What follows a message's operation: while a queued command of `s` names objects, whatever R554 frees goes (R553). -/
def State.thenReap (s t : State) : State := if s.cmds.any (fun c => !c.started && !c.names.isEmpty) then t.reap else t

/-- A command's outcome from checks: the STATUS that refuses it, with a reason word for REFUSED, or its effect. -/
def State.outcome (s : State) (c : Cmd) (r : Except (Nat × List Word32) State) : State :=
  match r with
  | .ok t => t
  | .error (st, ws) => s.answer c st ws

/-- A refusal without a reason word, as `outcome` takes it. -/
def refuse {α : Type} (x : Except Nat α) : Except (Nat × List Word32) α :=
  match x with
  | .ok a => .ok a
  | .error st => .error (st, [])

/-- A condition that refuses a command with a STATUS. -/
def must (ok : Bool) (status : Nat) : Except (Nat × List Word32) Unit := if ok then .ok () else .error (status, [])

/-- A condition that refuses a command with REFUSED and a reason word (R768). -/
def mustReason (ok : Bool) (reason : Nat) : Except (Nat × List Word32) Unit :=
  if ok then .ok () else .error (8, [BitVec.ofNat 32 reason])

end Sys2Proof.Machine
end

