-- ==== Sys2Proof/Machine/IdeStream.lean ====
section
/-!
DEFINITION. The IDE streams of the host link: contexts, keys, counters, sealed and opened TLPs, the completions that the
block's islands return, and those that HCC sends to the host (spec/07_fabric_and_host_links.md R341 to R343,
spec/03_cipher_lanes.md R127 to R133, spec/17_ports_and_pads.md R690).
-/

namespace Sys2Proof.Machine

/-! ### Contexts -/

/-- Island index of HCC. -/
def hccIx : Nat := 29

/-- Change HCC. -/
def State.onHcc (s : State) (f : Hcc → Hcc) : State := { s with hcc := f s.hcc }

/-- The context of a stream. -/
def State.ideCtx (s : State) (sid : BitVec 8) : Option Nat :=
  (s.hcc.ctxs.cells.find? (fun c => c.2.valid && c.2.stream == sid)).map Prod.fst

/-- Change context `n`. -/
def State.onCtx (s : State) (n : Nat) (f : IdeCtx → IdeCtx) : State := s.onHcc (fun h => { h with ctxs := h.ctxs.modify n f })

/-- The key of a sub-stream, direction and key set. -/
def keyIx (sub : BitVec 2) (rx kset : Bool) : Nat := 4 * sub.toNat + 2 * b2n rx + b2n kset

/-- The TDI of partition `p`. -/
def State.tdi (s : State) (p : Nat) : Tdi := s.hcc.tdis.get p

/-- Change the TDI of partition `p`. -/
def State.onTdi (s : State) (p : Nat) (f : Tdi → Tdi) : State := s.onHcc (fun h => { h with tdis := h.tdis.modify p f })

/-- The partition whose TDI is bound to a stream. -/
def State.boundPart (s : State) (sid : BitVec 8) : Option Nat :=
  (s.hcc.tdis.cells.find? (fun c => c.2.stream == some sid)).map Prod.fst

/-- The TDID a TDI is bound to: the partition's lowest from 1 to 127 (R345). -/
def State.boundTdid (s : State) (p : Nat) : Nat := (firstFrom 1 127 (fun t => (s.part p).tdids.getLsbD t)).getD 0

/-- 64-byte units of a payload (R645). -/
def dataUnits (n : Nat) : Nat := (n + 63) / 64

/-- The link that the completion of an outbound request returns on. -/
def hostLink (q : MemReq) : Link := if q.link = 0 then .net hccIx else .own q.link.val

/-- An outbound request completes with ERROR (R343, R346). -/
def State.refuseHost (s : State) (q : MemReq) : State :=
  if q.posted then s
  else s.emit (.done (hostLink q) q.tid.toNat false (if q.atop = 0 ∧ q.be.isEmpty then List.replicate q.len 0xFF else []))

/-! ### Leaving Secure (R342, R343) -/

/-- A key that a stream no longer uses: its slot is zeroed (R342), and the host reference of its fill ends (R548). -/
def State.ideDrop (s : State) (k : Nat) : State := State.reap ((s.retireSlot k).dropRef (objKey 4 k) 0)

/-- A stream leaves Secure: its keys' slots are zeroed, every request that waits on it completes with ERROR, what it owes
the host is dropped, and every TDI bound to it enters ERROR. -/
def State.streamInsecure (s : State) (n : Nat) : State :=
  let x := s.hcc.ctxs.get n
  let waits (q : MemReq) : Bool := q.tdid ≠ 0 && (s.tdi (s.tdidPart q.tdid.toNat)).stream == some x.stream
  let mine := s.hcc.flights.filter (fun f => f.stream == some x.stream)
  let held := s.hcc.waitOut.filter waits
  let s := (x.keys.cells.map Prod.snd).foldl (fun s k => s.ideDrop k) s
  let s := mine.foldl (fun s f => s.emit (.done f.link f.tid false (List.replicate f.len 0xFF))) s
  let s := held.foldl (fun s q => s.refuseHost q) s
  s.onHcc (fun h => { h with
    ctxs := h.ctxs.modify n (fun x => { x with state := 1, keys := {}, going := [], count := {} })
    flights := h.flights.filter (fun f => f.stream != some x.stream)
    asks := h.asks.filter (fun f => f.stream != some x.stream)
    waitCpl := h.waitCpl.filter (fun w => w.stream != x.stream)
    waitOut := h.waitOut.filter (fun q => !waits q)
    waitIn := h.waitIn.filter (fun w => w.1 != x.stream)
    tdis := h.tdis.mapKeys (fun _ t => if t.stream == some x.stream then { t with state := 3 } else t) })

/-- An integrity failure or a counter that would wrap (R343): class 10, with the context as its unit. -/
def State.ideFailed (s : State) (n : Nat) : State :=
  let t := (s.boundPart (s.hcc.ctxs.get n).stream).map (fun p => BitVec.ofNat 7 (s.boundTdid p))
  (s.streamInsecure n).report 10 hccIx n t

/-! ### Keys of TLPs (R111, R127, R131, R133) -/

/-- What HCC finds when it needs the key of a sub-stream. -/
inductive KeyState where
  | ready (z : Sched)
  | wait
  | missing
  deriving DecidableEq, Repr

/-- The running key set of a sub-stream and direction: the one named by the context's bit when both run. -/
def IdeCtx.runningSet (x : IdeCtx) (sub : BitVec 2) (rx : Bool) : Option Bool :=
  let active := if rx then x.ksetRx else x.ksetTx
  if x.going.contains (keyIx sub rx active) then some active
  else if x.going.contains (keyIx sub rx !active) then some !active
  else none

/-- A TLP of a stream and direction is withheld in the lanes: those behind it wait, so that they leave in counter order. -/
def State.tlpHeld (s : State) (sid : BitVec 8) (rx : Bool) : Bool :=
  (s.clusters.get hccIx).items.any (fun x => match x.kind with
    | .tlp v _ _ => rx && v == sid
    | .link outs => !rx && outs.any (fun o => match o with | .txt v _ => v == sid.toNat | _ => false)
    | _ => false)

/-- The schedule of a sub-stream's key with a lane: ready, awaited (R111), or no key runs. -/
def State.ideKey (s : State) (n : Nat) (sub : BitVec 2) (rx : Bool) : State × KeyState :=
  let x := s.hcc.ctxs.get n
  match x.runningSet sub rx with
  | none => (s, .missing)
  | some k =>
    if s.tlpHeld x.stream rx then (s, .wait)
    else match s.readySched hccIx (x.keys.get (keyIx sub rx k)) with
      | (s, some z) => (s, .ready z)
      | (s, none) => (s, .wait)

/-- The counter of a sub-stream and direction, by the running key set. -/
def IdeCtx.counter (x : IdeCtx) (sub : BitVec 2) (rx : Bool) : Nat :=
  x.count.get (keyIx sub rx ((x.runningSet sub rx).getD false))

/-- Advance that counter. -/
def State.ideCounted (s : State) (n : Nat) (sub : BitVec 2) (rx : Bool) : State :=
  s.onCtx n (fun x => { x with count := x.count.modify (keyIx sub rx ((x.runningSet sub rx).getD false)) (· + 1) })

/-- A lane takes a packet with this additional data and payload (R127). -/
def laneTakes (aad body : Bytes) : Bool := decide (aad.length ≤ 32) && decide (body.length ≤ 4096)

/-- An outbound TLP under IDE: header, ciphertext, 12-byte tag (R131, R133). -/
def ideSeal (key : Bytes) (sid : BitVec 8) (sub : BitVec 2) (ctr : Nat) (hdr body : Bytes) : Bytes :=
  let (ct, tag) := gcmEncrypt key (Config.ideIv sid.toNat sub.toNat false ctr) (Config.ideAad hdr) body
  hdr ++ ct ++ tag.take 12

/-- The payload of an inbound TLP whose 12-byte tag matches. -/
def ideOpen (key : Bytes) (sid : BitVec 8) (ctr : Nat) (t : Tlp) : Option Bytes :=
  let iv := Config.ideIv sid.toNat t.sub.toNat true ctr
  let aad := Config.ideAad t.aad
  if (gcmTag key iv aad t.body).take 12 = t.tag then
    some (xorB t.body (gcmStream key iv t.body.length))
  else none

/-- A TLP leaves for the host: without IDE as it is; on a stream through a lane, under schedule number `sched`. -/
def State.tlpOut (s : State) (sid : Option (BitVec 8)) (sched : Nat) (tlp : Bytes) : State :=
  match sid with
  | none => s.emit (.txt 256 tlp)
  | some v => s.issueThen hccIx (.link [.txt v.toNat tlp]) sched (fun s => s.emit (.txt v.toNat tlp))

/-- A TLP of context `n` is sealed, counted (R645) and sent. -/
def State.tlpSend (s : State) (n : Nat) (sub : BitVec 2) (z : Sched) (tdid : Nat) (hdr body : Bytes) : State :=
  let x := s.hcc.ctxs.get n
  let s := ((s.countS hccIx 0x40 1).countT hccIx 0x01 tdid (dataUnits body.length)).ideCounted n sub false
  s.tlpOut (some x.stream) z.id (ideSeal (z.key.take 32) x.stream sub (x.counter sub false) hdr body)

/-! ### Completions (R341, R343, R345) -/

/-- HCC answers a request that the host sent on a stream: under the stream's completion sub-stream, or not at all when the
stream is no longer Secure. -/
def State.hostReply (s : State) (r : HostReply) : State :=
  match s.ideCtx r.stream with
  | none => s
  | some n =>
    let x := s.hcc.ctxs.get n
    let hdr := Config.cplHeader r.tee r.tid r.status r.data.length
    let tdid := (s.boundPart r.stream).elim 0 (fun p => s.boundTdid p)
    if x.state ≠ 2 then s
    else if x.counter 2 false ≥ 2 ^ 64 - 1 then s.ideFailed n
    else if !laneTakes (Config.ideAad hdr) r.data then s
    else match s.ideKey n 2 false with
      | (s, .wait) => s.onHcc (fun h => { h with waitCpl := h.waitCpl ++ [r] })
      | (s, .missing) => s
      | (s, .ready z) => s.tlpSend n 2 z tdid hdr r.data

/-- The hub network answers a request of the host: HCC sends the completion TLP, with the TEE bit of the request. -/
def State.hostComplete (s : State) (tid : Nat) (ok : Bool) (data : Bytes) : State :=
  let mine (a : HostAsk) : Bool := a.tid == tid
  let status := if ok then 0 else Config.cplError
  match s.hcc.asks.find? mine with
  | none => s
  | some a =>
    let s := s.onHcc (fun h => { h with asks := dropFirst mine h.asks })
    match a.stream with
    | none => s.emit (.txt 256 (Config.cplHeader a.tee tid status data.length ++ data))
    | some v => s.hostReply { stream := v, tee := a.tee, tid := tid, status := status, data := data }

/-- The network link a request came over. -/
def reqFrom (q : MemReq) (c : Nat) : Link := if q.link = 0 then .net c else .own q.link.val

/-- A completion leaves an island on its network link (R671, R678); the hub network returns it to the requester. -/
def State.done (s : State) (link : Link) (tid : Nat) (ok : Bool) (data : Bytes) : State :=
  let s := s.emit (.done link tid ok data)
  if link = .own hccIx then s.hostComplete tid ok data else s

end Sys2Proof.Machine
end

