-- ==== Sys2Proof/Machine/Fabric.lean ====
section
/-!
DEFINITION. The fabric cipher clusters: streams, pair keys and epochs, packets, sending, receiving, acknowledgements,
fences, atomics and the reply cache (spec/07_fabric_and_host_links.md R296 to R340).
-/

namespace Sys2Proof.Machine

/-! ### Entries, keys, packets (R296 to R312) -/

/-- The key of entry `e` of FCC `f`. -/
def streamKey (f e : Nat) : Nat := 2048 * f + e

/-- Entry `e` of FCC `f`. -/
def State.entry (s : State) (f e : Nat) : FccEntry := s.streams.get (streamKey f e)

/-- Change entry `e` of FCC `f`. -/
def State.onEntry (s : State) (f e : Nat) (g : FccEntry → FccEntry) : State :=
  { s with streams := s.streams.modify (streamKey f e) g }

/-- FCC `f`. -/
def State.onFcc (s : State) (f : Nat) (g : Fcc → Fcc) : State := { s with fcc := s.fcc.modify f g }

/-- The node of FCC `f`, if assigned (R296). -/
def State.fccNode (s : State) (f : Nat) : Option Nat :=
  let v := (s.fcc.get f).node
  if v.getLsbD 31 then some (fld v 15 0) else none

/-- Entries of FCC `f` that meet a test, in rising order. -/
def State.entriesWhere (s : State) (f : Nat) (p : FccEntry → Bool) : List Nat :=
  (s.streams.keysWhere (fun k x => k / 2048 == f && p x)).map (· % 2048)

/-- The life-cycle code and debug flag that end every derivation context (R302, R444). -/
def State.lcContext (s : State) : Bytes := [BitVec.ofNat 8 s.lc.state.toNat, BitVec.ofNat 8 (b2n s.lc.debug)]

/-- The pair key of a stream under a root slot's key (R302). -/
def State.pairKey (s : State) (root src dst tdid epoch : Nat) : Bytes :=
  kdf ((s.slot root).key.take 32) (ascii "ONRUS-FABRIC-PAIR")
    (toBe 2 src ++ toBe 2 dst ++ [BitVec.ofNat 8 tdid, BitVec.ofNat 8 epoch] ++ s.lcContext) 32

/-- Tower may derive from a fabric root (R450): DERIVE, for the control-plane engine and Tower firmware. -/
def State.rootUsable (s : State) (root : Nat) : Bool :=
  let x := s.slot root
  x.purpose == 4 && bit x.world 0 && s.usable x 5

/-- The two nodes of a stream in its own direction: source, destination. -/
def State.streamNodes (s : State) (f : Nat) (x : FccEntry) : Nat × Nat :=
  let me := (s.fccNode f).getD 0
  if x.recv then (x.peer.toNat, me) else (me, x.peer.toNat)

/-- The security header (R309). -/
def packHeader (type flags src dst tdid epoch seq opcode arg len : Nat) : Bytes :=
  [BitVec.ofNat 8 (16 + type), BitVec.ofNat 8 flags] ++ toBe 2 src ++ toBe 2 dst ++ [BitVec.ofNat 8 tdid, BitVec.ofNat 8 epoch] ++
    toBe 6 seq ++ [BitVec.ofNat 8 opcode, 0] ++ toBe 6 arg ++ toBe 2 len

/-- The fabric IV of a header (R132). -/
def fabricIv (h : Bytes) : Bytes := Bytes.slice h 2 5 ++ [0] ++ Bytes.slice h 8 6

/-- A sealed packet (R131, R134, R312): header, ciphertext, tag. -/
def sealPacket (key hdr payload : Bytes) : Bytes :=
  let (ct, tag) := gcmEncrypt key (fabricIv hdr) hdr payload
  hdr ++ ct ++ tag

/-- The payload of a packet that authenticates under a key. -/
def openPacket (key pkt : Bytes) : Option Bytes :=
  let hdr := pkt.take 24
  let n := pkt.length - 40
  gcmDecrypt key (fabricIv hdr) hdr (Bytes.slice pkt 24 n) (pkt.drop (24 + n))

/-- TYPE of a packet. -/
def pktType (p : Bytes) : Nat := Bytes.at p 0 % 16
/-- FLAGS bit `i` of a packet. -/
def pktFlag (p : Bytes) (i : Nat) : Bool := bit (Bytes.at p 1) i
/-- SRC_NODE. -/
def pktSrc (p : Bytes) : Nat := Bytes.be p 2 2
/-- DST_NODE. -/
def pktDst (p : Bytes) : Nat := Bytes.be p 4 2
/-- TDID. -/
def pktTdid (p : Bytes) : Nat := Bytes.at p 6
/-- KEY_EPOCH. -/
def pktEpoch (p : Bytes) : Nat := Bytes.at p 7
/-- SEQ. -/
def pktSeq (p : Bytes) : Nat := Bytes.be p 8 6
/-- OPCODE. -/
def pktOp (p : Bytes) : Nat := Bytes.at p 14
/-- ARG. -/
def pktArg (p : Bytes) : Nat := Bytes.be p 16 6
/-- LENGTH. -/
def pktLen (p : Bytes) : Nat := Bytes.be p 22 2

/-- Payload bytes of an atomic or of its REPLY: 4 or 8, and twice that for CAS operands (R310). -/
def atomicLen (op : Nat) (operands : Bool) : Nat := (if bit op 0 then 8 else 4) * (if operands ∧ op / 16 = 6 then 2 else 1)

/-- Test 1 of R320: the packet is well formed under R309 and R310. -/
def pktWellFormed (p : Bytes) : Bool :=
  let t := pktType p
  let op := pktOp p
  let opOk := decide (1 ≤ op / 16 ∧ op / 16 ≤ 6) && op / 2 % 8 == 0
  p.length == 40 + pktLen p && Bytes.at p 0 / 16 == 1 && Bytes.at p 15 == 0 && Bytes.at p 6 / 128 == 0 &&
  (match t with
   | 1 => Bytes.at p 1 / 2 == 0 && op == 0 && decide (1 ≤ pktLen p ∧ pktLen p ≤ 4096)
   | 2 => Bytes.at p 1 / 2 == 0 && opOk && pktLen p == atomicLen op true
   | 3 => Bytes.at p 1 / 4 == 0 && op == 0 && pktLen p == 0 && pktSeq p / 2 ^ 44 == 0
   | 4 => Bytes.at p 1 / 4 == 0 && opOk && pktSeq p / 2 ^ 44 == 0 &&
       pktLen p == (if pktFlag p 0 || pktFlag p 1 then 0 else atomicLen op false)
   | _ => false)

/-- The retention handles in use at FCC `f` (R316, R688). -/
def State.handlesUsed (s : State) (f : Nat) : List Nat :=
  let out (o : PortOut) : Option Nat := match o with | .txp _ _ h _ => some h | _ => none
  let withheld (x : Item) : List Nat := match x.kind with | .link outs => outs.filterMap out | _ => []
  ((s.entriesWhere f (fun _ => true)).map (fun e => (s.entry f e).kept.map (·.handle))).flatten ++
    (s.clusters.get (fccIx f)).items.flatMap withheld

/-- The lowest handle not in use. -/
def State.freeHandle (s : State) (f : Nat) : Option Nat :=
  let used := s.handlesUsed f
  firstFrom 0 65536 (fun h => !used.contains h)

/-- A lane and the schedule of an entry's key are ready: the schedule's number. A missing schedule comes from the FCC's own
pair-key cache (R111), if the schedule cache has room (R110). -/
def State.fabricReady (s : State) (f e : Nat) : State × Option Nat :=
  let c := fccIx f
  let slot := 4096 + e
  if !(s.entry f e).keyValid || !s.laneReady c then (s, none)
  else match (s.clusters.get c).find slot with
    | some x => (s.onCluster c (fun y => y.touch slot), some x.id)
    | none => match s.schedRoom c with
      | (s, false) => (s, none)
      | (s, true) =>
        let id := (s.clusters.get c).nextSched
        ((s.countT c 0x08 128).onCluster c (fun y => y.addSched { slot := slot, key := (s.entry f e).key }), some id)

/-- The schedule of an entry goes when its key does, once nothing in a lane uses it (R113). -/
def State.dropSchedule (s : State) (f e : Nat) : State :=
  let c := fccIx f
  (s.onCluster c (fun x => { x with sched := mapWhere (fun z => z.slot == 4096 + e) (fun z => { z with dead := true }) x.sched })).reapSchedules c

/-- A trace record of a stream's state (R659). -/
def State.noteStream (s : State) (f e : Nat) : State :=
  let x := s.entry f e
  s.note (fccIx f) 7 (some x.tdid.toNat) 0 (256 * x.state.toNat + x.epoch.toNat) x.peer.toNat
    (if x.recv then x.expected.toNat else x.nextSeq.toNat)

/-! ### Control packets (R310, R328, R332) -/

/-- A receive entry sends an ACK or a REPLY: sealed under the forward stream's key with the next CTRL_SEQ (R307, R310); it
needs no retention, so its handle is freed at once. `false`: it cannot be sealed now, for want of a CTRL_SEQ, a handle, a
schedule or a lane. -/
def State.sendControl (s : State) (f e type flags opcode arg : Nat) (payload : Bytes) : State × Bool :=
  let c := fccIx f
  let x := s.entry f e
  if x.ctrlSeq.toNat ≥ 2 ^ 44 - 1 then (s, false)
  else match s.freeHandle f with
    | none => (s, false)
    | some h => match s.fabricReady f e with
      | (s, none) => (s, false)
      | (s, some id) =>
        let me := (s.fccNode f).getD 0
        let hdr := packHeader type flags me x.peer.toNat x.tdid.toNat x.epoch.toNat x.ctrlSeq.toNat opcode arg payload.length
        let outs := [PortOut.txp f 0 h (sealPacket x.key hdr payload), PortOut.txp f 2 h []]
        let s := s.onEntry f e (fun x => { x with ctrlSeq := x.ctrlSeq + 1 })
        let s := s.count c { code := 0x30, tdid := x.tdid.toNat, sub := type }
        let s := if payload.isEmpty then s else s.countT c 0x01 x.tdid.toNat (dataUnits payload.length)
        (s.issueThen c (.link outs) id (fun s => outs.foldl State.emit s), true)

/-- ACK_SEQ of a receive entry (R327). -/
def FccEntry.ackPoint (x : FccEntry) : Nat := x.rel.foldl (fun m r => min m r.seq) x.expected.toNat

/-- Send an ACK (R307, R328, R329), if it can be sealed now. -/
def State.sendAck (s : State) (f e : Nat) : State :=
  let x := s.entry f e
  let a := x.ackPoint
  let err := x.refused.any (fun q => decide (q < a))
  match s.sendControl f e 3 (b2n err + 2 * b2n (decide (x.ctrlSeq.toNat ≥ 2 ^ 44 - 2 ^ 20))) 0 a [] with
  | (s, true) =>
    s.onEntry f e (fun x => { x with
      lastAck := a, doneSince := 0, intervalUp := false, refused := x.refused.filter (fun q => decide (a ≤ q))
      unackedDone := x.unackedDone.filter (fun q => decide (a ≤ q)) })
  | (s, false) => s

/-- An ACK is due (R328). -/
def State.ackDue (s : State) (f e : Nat) : Bool :=
  let x := s.entry f e
  let count := fld (s.fcc.get f).timers 31 24
  x.recv && x.state != 0 && decide (x.lastAck < x.ackPoint) &&
    (decide (count ≤ x.doneSince) || x.intervalUp || (x.held.isEmpty && x.rel.isEmpty))

/-- Send the ACK of a receive entry if one is due. -/
def State.ackIfDue (s : State) (f e : Nat) : State := if s.ackDue f e then s.sendAck f e else s

/-- ACK_SEND (R328). -/
def execAckSend (f : Fin 16) (e : Fin 2048) (s : State) : Host.Outcome State Fault Refusal := .next (s.ackIfDue f.val e.val)

/-- ACK_INTERVAL_EXPIRY (R328): ACK_INTERVAL has passed since the oldest done packet that no ACK covers. -/
def State.ackInterval (s : State) (f e : Nat) : State :=
  let x := s.entry f e
  if x.recv ∧ x.state ≠ 0 ∧ x.unackedDone ≠ [] then (s.onEntry f e (fun x => { x with intervalUp := true })).ackIfDue f e else s

/-- ACK_INTERVAL_EXPIRY. -/
def execAckIntervalExpiry (f : Fin 16) (e : Fin 2048) (s : State) : Host.Outcome State Fault Refusal :=
  .next (s.ackInterval f.val e.val)

/-! ### Fences of a stream (R330, R331) -/

/-- A stream's fence ends: the command it belongs to completes, and its fence is signalled. -/
def State.streamFenceEnd (s : State) (key : Nat) (f v : Nat) (err : Option Nat) : State :=
  let mine (c : Cmd) : Bool := c.started && c.answered && c.fence == some (f, v) && c.what == key && (c.code == 0x29 || c.code == 0x34)
  match s.cmds.find? mine with
  | some c => State.complete { s with cmds := dropFirst mine s.cmds } c 0 [] err
  | none => s.signal f v err

/-- The armed fence of a send entry is reached (R331). -/
def FccEntry.reached (x : FccEntry) (a : StreamFence) : Bool :=
  decide (a.point ≤ x.ackSeq) && x.kept.all (fun p => !(p.atomic && !p.replied && decide (p.seq < a.point)))

/-- Arm the next fence that Tower has queued, at NEXT_SEQ (R331); it takes a pending error (R330). -/
def State.armNext (s : State) (f e : Nat) : State :=
  let x := s.entry f e
  match x.armed, x.fenceQ with
  | none, (fe, v) :: rest =>
    s.onEntry f e (fun x => { x with armed := some { point := x.nextSeq.toNat, fence := fe, value := v, err := x.errPending }, errPending := false, fenceQ := rest })
  | _, _ => s

/-- Report the armed fence when it is reached, then the next ones, as far as they go. -/
def State.fenceCheck (s : State) (f e : Nat) : State :=
  let one (s : State) : State :=
    match (s.entry f e).armed with
    | some a =>
      if (s.entry f e).reached a then
        State.streamFenceEnd (s.onEntry f e (fun x => { x with armed := none })) (streamKey f e) a.fence a.value
          (if a.err then some 0x13 else none)
      else s
    | none => s
  (List.range ((s.entry f e).fenceQ.length + 1)).foldl (fun s _ => one (s.armNext f e)) s

/-- Every fence of a stream fails with LINK_LOST (R319, R331). -/
def State.fencesFail (s : State) (f e : Nat) : State :=
  let x := s.entry f e
  let fs := (x.armed.map (fun a => (a.fence, a.value))).toList ++ x.fenceQ
  let s := s.onEntry f e (fun x => { x with armed := none, fenceQ := [] })
  fs.foldl (fun s a => s.streamFenceEnd (streamKey f e) a.1 a.2 (some 0x12)) s

/-! ### Completions at a sending FCC -/

/-- The link that a request's completion returns on. -/
def sendLink (f : Nat) (q : MemReq) : Link := if q.link = 0 then .net (fccIx f) else .own q.link.val

/-- Refuse a request at an FCC with ERROR (R301, R313, R338). -/
def State.refuseSend (s : State) (f : Nat) (q : MemReq) : State :=
  if q.posted then s
  else
    let read := q.atop = 0 ∧ q.be.isEmpty
    s.done (sendLink f q) q.tid.toNat false (if read then List.replicate q.len 0xFF else if q.atop = 0 then [] else List.replicate 8 0xFF)

/-- Complete a waiting atomic (R337). -/
def State.atomicDone (s : State) (p : SentPkt) (ok : Bool) (data : Bytes) : State := s.done p.link p.tid ok data

/-- Every handle of a stream is freed, its atomics complete with ERROR, its waiting requests are refused, its fences fail
(R319). -/
def State.failStream (s : State) (f e : Nat) : State :=
  let x := s.entry f e
  let s := x.kept.foldl (fun s p => s.emit (.txp f 2 p.handle [])) s
  let s := x.kept.foldl (fun s p => if p.atomic && !p.replied then s.atomicDone p false (List.replicate 8 0xFF) else s) s
  let s := x.waiting.foldl (fun s q => s.refuseSend f q) s
  (s.onEntry f e (fun x => { x with kept := [], waiting := [] })).fencesFail f e

/-- Tower is asked for the key of an entry, once (R304). -/
def State.askKey (s : State) (f e : Nat) : State := s.onEntry f e (fun x => { x with asked := true })

/-- The next stream whose epoch change waits for the candidate register takes it, and Tower is asked for its key (R304,
R326). -/
def State.nextCandidate (s : State) (f : Nat) : State :=
  let next := (s.entriesWhere f (fun x => x.recv && x.state != 0 && x.held.any (fun h => pktEpoch h.pkt == x.epoch.toNat + 1))).head?
  let s := s.onFcc f (fun y => { y with candidate := next })
  match next with
  | some e => s.askKey f e
  | none => s

/-- Every receive buffer of a stream's held packets is discarded, and its reply-cache entries are freed (R334, R339). -/
def State.dropReceive (s : State) (f e : Nat) : State :=
  let x := s.entry f e
  let s := x.held.foldl (fun s p => s.emit (.rxc f 1 p.buf)) s
  let s := s.onEntry f e (fun x => { x with held := [] })
  let s := s.onFcc f (fun y => { y with
    reply := y.reply.mapKeys (fun _ r => if r.valid && r.node == x.peer && r.tdid == x.tdid then default else r) })
  if (s.fcc.get f).candidate = some e then s.nextCandidate f else s

/-- The STREAM_CLOSE commands of a stream complete. -/
def State.closeDone (s : State) (f e : Nat) (err : Option Nat) : State :=
  s.completeWhere (fun c => c.started && c.code == 0x28 && c.what == streamKey f e) 0 [] err

/-- A fabric root that waits for its streams retires once the last of them has closed (R340). -/
def State.retireRoots (s : State) : State :=
  let ready := s.retireWait.filter (fun n =>
    (s.slot n).purpose == 4 && !(s.streams.cells.any (fun c => c.2.root == n && c.2.state != 0)))
  ready.foldl (fun s n => s.retireSlot n) { s with retireWait := s.retireWait.filter (fun n => !ready.contains n) }

/-- An entry becomes CLOSED: its key bytes are zeroed (R338, R339). -/
def State.entryClosed (s : State) (f e : Nat) (err : Option Nat) : State :=
  let s := (s.entry f e).waitAuth.foldl (fun s p => s.emit (.rxc f 1 p.2)) s
  let s := (s.dropSchedule f e).onEntry f e (fun _ => default)
  (((s.noteStream f e).closeDone f e err).retireRoots).reap

/-- A send entry enters LOST (R306, R319), or CLOSED when it was closing (R338). -/
def State.streamLost (s : State) (f e : Nat) : State :=
  let x := s.entry f e
  let s := s.failStream f e
  let s := s.report 9 (fccIx f) 0 (some x.tdid)
  if x.closing then s.entryClosed f e (some 0x12)
  else (s.onEntry f e (fun x => { x with state := 3 })).noteStream f e

/-- Close a stream (R338, R339): a receive entry at once; a send entry when nothing is retained. -/
def State.closeStream (s : State) (f e : Nat) : State :=
  let x := s.entry f e
  if x.state = 0 then s.closeDone f e none
  else if x.recv then (s.dropReceive f e).entryClosed f e none
  else
    let s := x.waiting.foldl (fun s q => s.refuseSend f q) s
    let s := s.onEntry f e (fun x => { x with closing := true, waiting := [] })
    if x.kept.isEmpty then ((s.fenceCheck f e).fencesFail f e).entryClosed f e none else s

/-- Zero the pair-key cache of FCC `f` (R469, R612): every stream fails and closes. -/
def State.fccErase (s : State) (f : Nat) : State :=
  let es := s.entriesWhere f (fun x => x.state != 0)
  let one (s : State) (e : Nat) : State := ((s.failStream f e).dropReceive f e).entryClosed f e (some 0x12)
  (es.foldl one s).onFcc f (fun y => { y with candidate := none, reply := {} })

/-! ### Sending (R304 to R316) -/

/-- UNACKED (R299). -/
def FccEntry.unacked (x : FccEntry) : Nat := x.nextSeq.toNat - x.ackSeq

/-- A send entry begins to change epoch (R305, R306). -/
def State.startChange (s : State) (f e : Nat) : State :=
  let x := s.entry f e
  if x.state ≠ 1 then s
  else if x.epoch = 255 then s.streamLost f e
  else (s.onEntry f e (fun x => { x with state := 2, asked := true })).noteStream f e

/-- Payload, TYPE and OPCODE of a request (R309, R310). -/
def sendBody (q : MemReq) : Nat × Nat × Bytes :=
  if q.atop = 0 then (1, 0, Bytes.fit q.data q.len)
  else
    let w := if q.wide then 8 else 4
    let v := q.opnd.toNat
    (2, 16 * q.atop.toNat + b2n q.wide, if q.atop = 6 then toLe w v ++ toLe w (v / 2 ^ 64) else toLe w v)

/-- A sealed packet leaves the lane on FP (R313, R316). -/
def State.sealOut (s : State) (f e seq : Nat) (outs : List PortOut) : State :=
  let mark (z : FccEntry) : FccEntry := { z with kept := mapWhere (fun k => k.seq == seq) (fun k => { k with sent := true }) z.kept }
  if (s.entry f e).kept.any (fun k => k.seq == seq && !k.sent) then (outs.foldl State.emit s).onEntry f e mark else s

/-- Seal a request under schedule `id` and hand the packet to the port with retention handle `h` (R313, R316): it leaves when
the lane's output is released. A store that is not posted completes when it is sealed (log entry 30). -/
def State.sealRequest (s : State) (f e : Nat) (q : MemReq) (h id : Nat) : State :=
  let c := fccIx f
  let x := s.entry f e
  let (type, op, body) := sendBody q
  let (src, dst) := s.streamNodes f x
  let seq := x.nextSeq.toNat
  let hdr := packHeader type (b2n q.ordered) src dst x.tdid.toNat x.epoch.toNat seq op (q.addr.toNat % 2 ^ 48) body.length
  let outs := [PortOut.txp f 0 h (sealPacket x.key hdr body)]
  let p : SentPkt := { seq := seq, atomic := type == 2, handle := h, link := sendLink f q, tid := q.tid.toNat, wide := q.wide, tdid := x.tdid.toNat }
  let s := s.onEntry f e (fun x => { x with nextSeq := x.nextSeq + 1, kept := x.kept ++ [p] })
  let s := (s.count c { code := 0x30, tdid := x.tdid.toNat, sub := type }).countT c 0x01 x.tdid.toNat (dataUnits body.length)
  let s := s.issueThen c (.seal e seq outs) id (fun s => s.sealOut f e seq outs)
  let s := if type = 1 ∧ !q.posted then s.done (sendLink f q) q.tid.toNat true [] else s
  if seq + 1 ≥ 2 ^ 48 - 2 ^ 16 then s.startChange f e else s

/-- A request may be sealed now (R304, R305, R314): its stream is open with fewer than 256 packets unacknowledged, and none of
them is still withheld in a lane, behind which it would leave FP out of sequence. -/
def State.maySend (s : State) (f e : Nat) : Bool :=
  let x := s.entry f e
  x.state == 1 && x.keyValid && decide (x.unacked < 256) && x.kept.all (·.sent) && s.laneReady (fccIx f)

/-- Send the oldest waiting request of a stream, if it can go. -/
def State.sendOne (s : State) (f e : Nat) : State :=
  match (s.entry f e).waiting, s.freeHandle f with
  | q :: rest, some h =>
    if s.maySend f e then match s.fabricReady f e with
      | (s, some id) => (s.onEntry f e (fun x => { x with waiting := rest })).sealRequest f e q h id
      | (s, none) => s
    else s
  | _, _ => s

/-- Send the waiting requests of a stream as far as they go (R314). -/
def State.sendWaiting (s : State) (f e : Nat) : State :=
  (List.range (s.entry f e).waiting.length).foldl (fun s _ => s.sendOne f e) s

/-- The send entry for a destination and a TDID (R313). -/
def State.sendEntry (s : State) (f node tdid : Nat) : Option Nat :=
  (s.entriesWhere f (fun x => !x.recv && (x.state == 1 || x.state == 2) && x.peer.toNat == node && x.tdid.toNat == tdid)).head?

/-- FABRIC_SEND (R301, R304, R313, R314, R683). -/
def State.fabricSend (s : State) (f : Nat) (q : MemReq) : State :=
  if !s.live (fccIx f) then s
  else if q.form ≠ 3 then (s.report 20 (fccIx f) 0 (some q.tdid)).refuseSend f q
  else if q.atop = 0 ∧ q.be.isEmpty then s.refuseSend f q
  else
    let w := if q.wide then 8 else 4
    let len := if q.atop = 0 then q.len else w
    let bad := decide (q.addr.toNat % 4096 + len > 4096) || (q.atop != 0 && (q.addr.toNat % w != 0 || decide (6 < q.atop.toNat)))
    match s.sendEntry f q.node.toNat q.tdid.toNat with
    | none => s.refuseSend f q
    | some e =>
      if bad ∨ (s.entry f e).closing ∨ (s.fccNode f).isNone then s.refuseSend f q
      else
        let s := s.onEntry f e (fun x => { x with waiting := x.waiting ++ [q] })
        let s := if (s.entry f e).keyValid then s else s.askKey f e
        s.sendWaiting f e

/-- FABRIC_SEND. -/
def execFabricSend (f : Fin 16) (q : MemReq) (s : State) : Host.Outcome State Fault Refusal := 
  .next (s.atIngress (fccIx f.val) (.fabricSend f q) (fun s => s.fabricSend f.val q))

/-- RETRY_TIMEOUT (R318): every unfreed packet of the stream is resent in sequence order. -/
def State.retryTimeout (s : State) (f e : Nat) : State :=
  let x := s.entry f e
  (x.kept.filter (·.sent)).foldl (fun s p => (s.emit (.txp f 1 p.handle [])).countT (fccIx f) 0x32 x.tdid.toNat) s

/-- RETRY_TIMEOUT. -/
def execRetryTimeout (f : Fin 16) (e : Fin 2048) (s : State) : Host.Outcome State Fault Refusal := .next (s.retryTimeout f.val e.val)

/-! ### Acknowledgements and replies at the source (R317, R330, R337) -/

/-- Free the handles of packets that are acknowledged and, for atomics, answered (R317). -/
def State.freeKept (s : State) (f e : Nat) : State :=
  let x := s.entry f e
  let gone (p : SentPkt) : Bool := decide (p.seq < x.ackSeq) && (!p.atomic || p.replied)
  let s := (x.kept.filter gone).foldl (fun s p => s.emit (.txp f 2 p.handle [])) s
  s.onEntry f e (fun x => { x with kept := x.kept.filter (fun p => !gone p) })

/-- After an ACK or a REPLY: handles, fences, a close that can end, waiting requests. -/
def State.sendProgress (s : State) (f e : Nat) : State :=
  let s := (s.freeKept f e).fenceCheck f e
  let x := s.entry f e
  if x.closing ∧ x.kept.isEmpty then (s.fencesFail f e).entryClosed f e none else s.sendWaiting f e

/-- A send entry takes an ACK (R305, R330). -/
def State.ackReceived (s : State) (f e : Nat) (p : Bytes) : State :=
  let x := s.entry f e
  let a := pktArg p
  if a < x.ackSeq ∨ x.nextSeq.toNat < a then s
  else
    let hit := pktFlag p 0 && (x.armed.any (fun w => decide (x.ackSeq < w.point)))
    let s := s.onEntry f e (fun x => { x with
      ackSeq := a
      armed := x.armed.map (fun w => if hit then { w with err := true } else w)
      errPending := x.errPending || (pktFlag p 0 && !hit) })
    let s := if pktFlag p 1 then s.startChange f e else s
    s.sendProgress f e

/-- A REPLY completes its waiting atomic (R337). -/
def State.replyReceived (s : State) (f e : Nat) (p body : Bytes) : State :=
  let ref := pktArg p
  match (s.entry f e).kept.find? (fun k => k.atomic && !k.replied && k.seq == ref) with
  | some k =>
    let ok := !pktFlag p 0 && !pktFlag p 1
    let s := s.atomicDone k ok (if ok then Bytes.fit body 8 else List.replicate 8 0xFF)
    (s.onEntry f e (fun x => { x with kept := mapWhere (fun z => z.seq == ref) (fun z => { z with replied := true }) x.kept })).sendProgress f e
  | none => s

/-! ### Receiving (R320 to R334) -/

/-- Drop a packet: its buffer is discarded, and the drop is counted (R320). -/
def State.dropPacket (s : State) (f buf why : Nat) : State := (s.emit (.rxc f 1 buf)).countS (fccIx f) 0x33 why

/-- An authentication failure (R323): counted, and reported at most once per stream and millisecond. -/
def State.authFailed (s : State) (f e : Nat) : State :=
  let c := fccIx f
  let x := s.entry f e
  let s := (s.countS c 0x33 3).countT c 0x05 x.tdid.toNat
  let due := match x.reportAt with
    | some t => decide (t + 1000000 ≤ s.now)
    | none => true
  if due then (s.report 8 c 0 (some x.tdid)).onEntry f e (fun x => { x with reportAt := some s.now }) else s

/-- Reorder descriptors in use (R321). -/
def State.descriptors (s : State) (f : Nat) : Nat :=
  ((s.entriesWhere f (fun x => x.recv)).map (fun e => (s.entry f e).held.length + (s.entry f e).rel.length)).sum

/-- The reply-cache entry that a duplicate matches (R333). -/
def State.replyMatch (s : State) (f src tdid seq : Nat) : Option Nat :=
  ((s.fcc.get f).reply.keysWhere (fun _ r => r.valid && r.node.toNat == src && r.tdid.toNat == tdid && r.seqLo.toNat == seq % 2 ^ 31)).head?

/-- A REPLY made from a reply-cache entry (R332). -/
def State.replyFrom (s : State) (f e n : Nat) : State × Bool :=
  let r := (s.fcc.get f).reply.get n
  s.sendControl f e 4 (b2n r.error) r.opcode.toNat r.seq.toNat (if r.error then [] else toLe (atomicLen r.opcode.toNat false) r.result.toNat)

/-- Send one REPLY that entry `n` owes, if it can be sealed now. -/
def State.payReply (s : State) (f e n : Nat) : State :=
  match s.replyFrom f e n with
  | (s, true) => s.onFcc f (fun y => { y with reply := y.reply.modify n (fun r => { r with owed := r.owed - 1 }) })
  | (s, false) => s

/-- Send the REPLYs that the recorded reply-cache entries of a stream owe, as far as they can be sealed now (R332). -/
def State.payReplies (s : State) (f e : Nat) : State :=
  let x := s.entry f e
  let ns := (s.fcc.get f).reply.keysWhere (fun _ r => r.valid && !r.pending && r.owed != 0 && r.node == x.peer && r.tdid == x.tdid)
  ns.foldl (fun s n => (List.range ((s.fcc.get f).reply.get n).owed).foldl (fun s _ => s.payReply f e n) s) s

/-- One more REPLY is promised from a reply-cache entry (R332). -/
def State.oweReply (s : State) (f n : Nat) : State :=
  s.onFcc f (fun y => { y with reply := y.reply.modify n (fun r => { r with owed := r.owed + 1 }) })

/-- A duplicate that has authenticated (R325, R332): a REPLY for a match is sent now, or when the value is recorded. -/
def State.duplicate (s : State) (f e : Nat) (p : Bytes) : State :=
  let c := fccIx f
  let x := s.entry f e
  let s := s.countT c 0x34 x.tdid.toNat
  if pktType p = 1 then
    let gap := 4 * fld (s.fcc.get f).timers 23 16
    let due := match x.dupAckAt with
      | some t => decide (t + gap ≤ s.now)
      | none => true
    if due then (s.sendAck f e).onEntry f e (fun x => { x with dupAckAt := some s.now }) else s
  else match s.replyMatch f (pktSrc p) (pktTdid p) (pktSeq p) with
    | some n => ((s.oweReply f n).countT c 0x36 x.tdid.toNat).payReplies f e
    | none => match s.sendControl f e 4 2 (pktOp p) (pktSeq p) [] with
      | (s, true) => s.countT c 0x37 x.tdid.toNat
      | (s, false) => s

/-- The entry that a packet belongs to (R320 test 3). -/
def State.packetEntry (s : State) (f : Nat) (p : Bytes) : Option Nat :=
  let recv := decide (pktType p ≤ 2)
  (s.entriesWhere f (fun x => x.recv == recv && (x.state == 1 || x.state == 2) && x.peer.toNat == pktSrc p && x.tdid.toNat == pktTdid p)).head?

/-- A packet that is authenticated at once has its verdict (R320 tests 5 and 8). -/
def State.packetAct (s : State) (f : Nat) (p : Bytes) : State :=
  let c := fccIx f
  match s.packetEntry f p with
  | none => s
  | some e =>
    let x := s.entry f e
    match openPacket x.key p with
    | none => s.authFailed f e
    | some body =>
      let s := s.countT c 0x04 x.tdid.toNat
      let s := if body.isEmpty then s else s.countT c 0x02 x.tdid.toNat (dataUnits body.length)
      match pktType p with
      | 3 => (s.count c { code := 0x31, tdid := x.tdid.toNat, sub := 3 }).ackReceived f e p
      | 4 => (s.count c { code := 0x31, tdid := x.tdid.toNat, sub := 4 }).replyReceived f e p body
      | _ => s.duplicate f e p

/-- Authenticate a packet: its buffer is fetched, and a lane gives the verdict, now or when a comparison releases it (R139). A
packet that needs the key waits for it (R304), as one does that finds no schedule or lane. -/
def State.authNow (s : State) (f e : Nat) (p : Bytes) (buf : Nat) : State :=
  match s.fabricReady f e with
  | (s, some id) => (s.emit (.rxc f 0 buf)).issueThen (fccIx f) (.ctrl p) id (fun s => s.packetAct f p)
  | (s, none) =>
    let s := s.onEntry f e (fun x => { x with waitAuth := x.waitAuth ++ [(p, buf)] })
    if (s.entry f e).keyValid then s else s.askKey f e

/-- The packets of a stream that wait to be authenticated try again, in their order. -/
def State.authWaiting (s : State) (f e : Nat) : State :=
  (s.entry f e).waitAuth.foldl (fun s p => s.authNow f e p.1 p.2) (s.onEntry f e (fun x => { x with waitAuth := [] }))

/-- Tower derives a pair key with the control-plane engine into a staging slot, from which it is sent (R303, R447): the lowest
EMPTY one of slots 16 to 31, else slot 16, which is emptied first (DESIGN CHOICE, log entry 88). -/
def State.stageKey (s : State) (tdid : Nat) (key : Bytes) : State :=
  let n := (firstFrom 16 16 (fun n => (s.slot n).state == 0)).getD 16
  let attr := ({ purpose := 2, masters := 4, world := 1, lcMask := 2 ^ s.lcBit, source := 0, part := 0, tdid := tdid } : SlotSpec).attr
  (s.onSlot n (fun _ => default)).fillSlot n attr key

/-- PAIR_KEY_ARRIVAL (R303, R304): Tower's answer; the engine runs one operation at a time (R150). A refused derivation fails
the waiting requests closed, and drops the packets that wait (R464). -/
def State.pairKeyArrival (s : State) (f e : Nat) : State :=
  let x := s.entry f e
  if !x.asked ∨ x.keyValid ∨ x.state = 0 ∨ x.state = 3 then s
  else if !s.rootUsable x.root then
    let s := x.waiting.foldl (fun s q => s.refuseSend f q) (s.report 7 (fccIx f) 0 (some x.tdid))
    let s := x.waitAuth.foldl (fun s p => s.dropPacket f p.2 3) s
    s.onEntry f e (fun x => { x with asked := false, waiting := [], waitAuth := [] })
  else if s.cpe.busy then s
  else
    let (src, dst) := s.streamNodes f x
    let k := s.pairKey x.root src dst x.tdid.toNat x.epoch.toNat
    (((s.stageKey x.tdid.toNat k).onEntry f e (fun x => { x with asked := false, keyValid := true, key := k })).sendWaiting f e).authWaiting f e

/-- PAIR_KEY_ARRIVAL. -/
def execPairKeyArrival (f : Fin 16) (e : Fin 2048) (s : State) : Host.Outcome State Fault Refusal := .next (s.pairKeyArrival f.val e.val)

/-- SEND_EPOCH_CHANGE (R303, R305, R308): a CHANGING entry with nothing outstanding takes the next epoch's key and reopens. -/
def State.sendEpochChange (s : State) (f e : Nat) : State :=
  let x := s.entry f e
  if !x.recv ∧ x.state = 2 ∧ x.unacked = 0 ∧ x.kept.isEmpty ∧ s.rootUsable x.root ∧ !s.cpe.busy then
    let (src, dst) := s.streamNodes f x
    let k := s.pairKey x.root src dst x.tdid.toNat (x.epoch.toNat + 1)
    let s := ((s.fenceCheck f e).dropSchedule f e).stageKey x.tdid.toNat k
    let s := s.onEntry f e (fun x => { x with epoch := x.epoch + 1, key := k, keyValid := true, asked := false, nextSeq := 0, ackSeq := 0, state := 1 })
    let s := { s with epochs := s.epochs ++ [(src, dst, x.tdid.toNat, x.epoch.toNat + 1)] }
    ((s.countT (fccIx f) 0x38 x.tdid.toNat).noteStream f e).sendWaiting f e
  else s

/-- SEND_EPOCH_CHANGE. -/
def execSendEpochChange (f : Fin 16) (e : Fin 2048) (s : State) : Host.Outcome State Fault Refusal := .next (s.sendEpochChange f.val e.val)

/-- The epoch change of a receive entry begins (R321, R326): its packet takes a descriptor, of which 16 are kept back, and is held;
Tower is asked for the candidate key once the register is free. -/
def State.holdCandidate (s : State) (f e : Nat) (p : Bytes) (buf : Nat) : State :=
  if s.descriptors f ≥ 240 then s.dropPacket f buf 7
  else
    let s := s.onEntry f e (fun x => { x with held := x.held ++ [{ seq := 0, pkt := p, buf := buf }] })
    if (s.fcc.get f).candidate.isNone then s.nextCandidate f else s

/-- PACKET_RECEIVE: the tests of R320 in their order. Test 6 takes a packet with SEQ 0 under the next epoch when nothing released
is outstanding: the receiver knows the old epoch's last sequence number by no other sign, and a genuine source has had every
packet acknowledged (DEDUCED, log entry 89). -/
def State.packetReceive (s : State) (f : Nat) (p : Bytes) (buf : Nat) : State :=
  if !s.live (fccIx f) then s
  else match s.fccNode f with
  | none => s.emit (.rxc f 1 buf)
  | some me =>
    if !pktWellFormed p then s.dropPacket f buf 1
    else if pktDst p ≠ me then s.dropPacket f buf 2
    else match s.packetEntry f p with
      | none => s.dropPacket f buf 3
      | some e =>
        let x := s.entry f e
        let ep := x.epoch.toNat
        let seq := pktSeq p
        if pktType p ≥ 3 then (if pktEpoch p ≠ ep then s.dropPacket f buf 4 else s.authNow f e p buf)
        else if pktEpoch p = ep + 1 ∧ seq = 0 ∧ x.rel.isEmpty then
          (if x.held.any (fun h => pktEpoch h.pkt == ep + 1) then s.dropPacket f buf 6 else s.holdCandidate f e p buf)
        else if pktEpoch p ≠ ep then s.dropPacket f buf 4
        else if seq < x.expected.toNat then s.authNow f e p buf
        else if seq ≥ x.expected.toNat + 256 then s.dropPacket f buf 5
        else if x.held.any (fun h => h.seq == seq && pktEpoch h.pkt == ep) then s.dropPacket f buf 6
        else if s.descriptors f ≥ (if seq = x.expected.toNat then 256 else 240) then s.dropPacket f buf 7
        else
          let s := s.onEntry f e (fun x => { x with held := x.held ++ [{ seq := seq, pkt := p, buf := buf }] })
          if x.keyValid then s else s.askKey f e

/-- The hub request of one 64-byte line of a released store (R324). -/
def storeReq (c tdid seq addr : Nat) (ordered : Bool) (data : Bytes) : PortOut :=
  .hubReq c .write false { tid := BitVec.ofNat 16 seq, addr := BitVec.ofNat 52 addr, len := data.length, tdid := BitVec.ofNat 7 tdid
                           ordered := ordered, data := data, be := List.replicate data.length true, link := asIsland c }

/-- The requests of a released packet (R297, R324): writes of at most one line, in ascending address, or one atomic. -/
def releasedReqs (c : Nat) (p body : Bytes) : List PortOut :=
  let addr := pktArg p
  if pktType p = 1 then
    let lines := (List.range ((addr % 64 + body.length + 63) / 64)).map (fun i => addr / 64 + i)
    lines.map (fun l =>
      let lo := max addr (64 * l)
      let hi := min (addr + body.length) (64 * l + 64)
      storeReq c (pktTdid p) (pktSeq p) lo (pktFlag p 0) (Bytes.slice body (lo - addr) (hi - lo)))
  else
    let op := pktOp p
    let w := if bit op 0 then 8 else 4
    let opnd := Bytes.le body 0 w + 2 ^ 64 * Bytes.le body w w
    [.hubReq c .atomic false { tid := BitVec.ofNat 16 (pktSeq p), addr := BitVec.ofNat 52 addr, len := w, tdid := BitVec.ofNat 7 (pktTdid p)
                               ordered := pktFlag p 0, atop := BitVec.ofNat 4 (op / 16), wide := bit op 0, opnd := BitVec.ofNat 128 opnd
                               link := asIsland c }]

/-- The first released packet whose requests may enter the hub now (R324). -/
def nextToEnter : List RelPkt → Bool → Option RelPkt
  | [], _ => none
  | r :: rest, earlierDone =>
    if r.entered then nextToEnter rest (earlierDone && r.done)
    else if r.opened && (earlierDone || !r.ordered) then some r else none

/-- Let released requests enter the hub network in order (R324). -/
def State.enterReleased (s : State) (f e : Nat) : State :=
  let one (s : State) : State :=
    match nextToEnter (s.entry f e).rel true with
    | some r =>
      let s := r.reqs.foldl State.emit s
      let s := if r.atomic then s.countT (fccIx f) 0x35 (s.entry f e).tdid.toNat else s
      s.onEntry f e (fun x => { x with rel := mapWhere (fun z => z.seq == r.seq) (fun z => { z with entered := true }) x.rel })
    | none => s
  (List.range (s.entry f e).rel.length).foldl (fun s _ => one s) s

/-- A released packet's output leaves its lane: its requests may enter the hub network. -/
def State.packetOpened (s : State) (f e seq : Nat) : State :=
  (s.onEntry f e (fun x => { x with rel := mapWhere (fun z => z.seq == seq) (fun z => { z with opened := true }) x.rel })).enterReleased f e

/-- A packet that passes under schedule `id` is released (R322, R332): EXPECTED advances, an atomic reserves its reply-cache
entry. -/
def State.releasePacket (s : State) (f e : Nat) (p body : Bytes) (id : Nat) : State :=
  let c := fccIx f
  let x := s.entry f e
  let seq := pktSeq p
  let s := (s.countT c 0x04 x.tdid.toNat).count c { code := 0x31, tdid := x.tdid.toNat, sub := pktType p }
  let s := s.countT c 0x02 x.tdid.toNat (dataUnits body.length)
  let entry : ReplyEntry := { valid := true, node := BitVec.ofNat 16 (pktSrc p), tdid := x.tdid, pending := true
                              seqLo := BitVec.ofNat 31 seq, opcode := BitVec.ofNat 8 (pktOp p), seq := BitVec.ofNat 48 seq }
  let s := if pktType p = 2 then
      match firstFrom 0 8192 (fun n => !((s.fcc.get f).reply.get n).valid) with
      | some n => s.onFcc f (fun y => { y with reply := y.reply.set n entry })
      | none => s
    else s
  let r : RelPkt := { seq := seq, atomic := pktType p == 2, ordered := pktFlag p 0, reqs := releasedReqs c p body }
  let s := s.onEntry f e (fun x => { x with expected := BitVec.ofNat 48 (seq + 1), rel := x.rel ++ [r] })
  s.issueThen c (.packet e seq) id (fun s => s.packetOpened f e seq)

/-- Every reply-cache entry is in use (R336). -/
def State.replyFull (s : State) (f : Nat) : Bool := decide (8192 ≤ (s.fcc.get f).reply.countWhere (fun _ r => r.valid))

/-- PACKET_RELEASE (R322, R336): the held packet at EXPECTED is fetched, authenticated and opened. -/
def State.packetRelease (s : State) (f e : Nat) : State :=
  let x := s.entry f e
  match x.held.find? (fun h => h.seq == x.expected.toNat && pktEpoch h.pkt == x.epoch.toNat) with
  | none => s
  | some h =>
    if !x.recv ∨ pktType h.pkt = 2 ∧ s.replyFull f then s
    else match s.fabricReady f e with
      | (s, none) => s
      | (s, some id) =>
        let s := (s.emit (.rxc f 0 h.buf)).onEntry f e (fun x => { x with held := dropFirst (fun z => z == h) x.held })
        match openPacket x.key h.pkt with
        | none => s.authFailed f e
        | some body => s.releasePacket f e h.pkt body id

/-- PACKET_RELEASE. -/
def execPacketRelease (f : Fin 16) (e : Fin 2048) (s : State) : Host.Outcome State Fault Refusal := .next (s.packetRelease f.val e.val)

/-- A released packet is done (R327 to R329): its descriptor is free, and what waited for it may enter. -/
def State.packetFinished (s : State) (f e seq : Nat) (ok : Bool) : State :=
  let g (x : FccEntry) : FccEntry :=
    { x with rel := x.rel.filter (fun r => r.seq != seq), doneSince := x.doneSince + 1, unackedDone := x.unackedDone ++ [seq]
             refused := if ok then x.refused else x.refused ++ [seq] }
  ((s.onEntry f e g).enterReleased f e).ackIfDue f e

/-- PACKET_DONE (R327): every write of a released store has completed, or was refused. -/
def State.packetDone (s : State) (f e seq : Nat) (ok : Bool) : State :=
  if (s.entry f e).rel.any (fun r => r.seq == seq && r.entered && !r.atomic) then s.packetFinished f e seq ok else s

/-- PACKET_DONE. -/
def execPacketDone (f : Fin 16) (e : Fin 2048) (seq : BitVec 48) (ok : Bool) (s : State) : Host.Outcome State Fault Refusal :=
  .next (s.packetDone f.val e.val seq.toNat ok)

/-- ATOMIC_RESULT (R332): the old value or the error is recorded, the REPLY leaves, one more for each duplicate. -/
def State.atomicResult (s : State) (f e seq : Nat) (ok : Bool) (old : BitVec 64) : State :=
  let x := s.entry f e
  if x.rel.any (fun r => r.seq == seq && r.entered && r.atomic) then
    match s.replyMatch f x.peer.toNat x.tdid.toNat seq with
    | some n =>
      let s := s.onFcc f (fun y => { y with reply := y.reply.modify n (fun r =>
        { r with pending := false, error := !ok, result := if ok then old else 0, age := 0, owed := r.owed + 1 }) })
      (s.payReplies f e).packetFinished f e seq ok
    | none => s.packetFinished f e seq ok
  else s

/-- ATOMIC_RESULT. -/
def execAtomicResult (f : Fin 16) (e : Fin 2048) (seq : BitVec 48) (ok : Bool) (old : BitVec 64) (s : State) :
    Host.Outcome State Fault Refusal := .next (s.atomicResult f.val e.val seq.toNat ok old)

/-- A packet of the new epoch has authenticated under the candidate key (R326, R334): the candidate is the entry's key, and
what the old epoch left is gone. -/
def State.epochTaken (s : State) (f e : Nat) (k : Bytes) : State :=
  let x := s.entry f e
  let old (h : HeldPkt) : Bool := pktEpoch h.pkt == x.epoch.toNat
  let s := (x.held.filter old).foldl (fun s h => s.emit (.rxc f 1 h.buf)) s
  let s := s.onFcc f (fun y => { y with reply := y.reply.mapKeys (fun _ r => if r.valid && r.node == x.peer && r.tdid == x.tdid then default else r) })
  let s := (s.dropSchedule f e).onEntry f e (fun x => { x with
    key := k, keyValid := true, asked := false, epoch := x.epoch + 1, expected := 0, ctrlSeq := 0, lastAck := 0, doneSince := 0
    unackedDone := [], intervalUp := false, refused := [], held := x.held.filter (fun h => !old h) })
  (s.countT (fccIx f) 0x38 x.tdid.toNat).noteStream f e

/-- RECEIVE_EPOCH_CHANGE (R303, R326, R334, R336): the candidate key arrives, and the held packet is authenticated under it. One
that passes is released, or stays held at EXPECTED while it is an ATOMIC with no reply-cache entry free, or no lane takes it. -/
def State.receiveEpochChange (s : State) (f e : Nat) : State :=
  let x := s.entry f e
  match x.held.find? (fun h => pktEpoch h.pkt == x.epoch.toNat + 1) with
  | none => s
  | some h =>
    if (s.fcc.get f).candidate ≠ some e ∨ !s.rootUsable x.root ∨ s.cpe.busy ∨ !s.laneReady (fccIx f) then s
    else
      let (src, dst) := s.streamNodes f x
      let k := s.pairKey x.root src dst x.tdid.toNat (x.epoch.toNat + 1)
      let s := s.stageKey x.tdid.toNat k
      match openPacket k h.pkt with
      | none =>
        let s := (s.emit (.rxc f 0 h.buf)).onEntry f e (fun x => { x with asked := false, held := dropFirst (fun z => z == h) x.held })
        (s.authFailed f e).nextCandidate f
      | some _ => ((s.epochTaken f e k).packetRelease f e).nextCandidate f

/-- RECEIVE_EPOCH_CHANGE. -/
def execReceiveEpochChange (f : Fin 16) (e : Fin 2048) (s : State) : Host.Outcome State Fault Refusal :=
  .next (s.receiveEpochChange f.val e.val)

/-- REPLY_HOLD_EXPIRY (R334). -/
def execReplyHoldExpiry (f : Fin 16) (n : Fin 8192) (s : State) : Host.Outcome State Fault Refusal :=
  let y := s.fcc.get f.val
  let r := y.reply.get n.val
  .next (if r.valid ∧ !r.pending ∧ fld y.span 31 24 ≤ r.age.toNat then s.onFcc f.val (fun y => { y with reply := y.reply.set n.val default }) else s)

/-- REPLY_CACHE_AGE_TICK (R334): AGE counts from the moment a value is recorded. -/
def execReplyCacheAgeTick (f : Fin 16) (s : State) : Host.Outcome State Fault Refusal :=
  .next (s.onFcc f.val (fun y => { y with reply := y.reply.mapKeys (fun _ r => if r.valid && !r.pending then { r with age := satInc r.age } else r) }))

/-! ### Stream commands (R299, R305, R308, R331, R338 to R340, R604) -/

/-- The stream a command names: FCC and entry. -/
def State.namedStream (s : State) (c : Cmd) (h : Word32) : Except Nat (Nat × Nat) :=
  match s.named c 5 h with
  | .ok i => .ok (i / 2048, i % 2048)
  | .error st => .error st

/-- A reason word for a refusal whose code the spec does not give: a free value (log entry 4). -/
def State.freeReason (s : State) (c : Cmd) : State :=
  let (b, s) := s.draw 4
  s.answer c 8 [BitVec.ofNat 32 (Bytes.leNat b)]

/-- An open at an epoch that R308 forbids: at or below one used for the triple since Tower's reset. -/
def State.epochUsed (s : State) (src dst tdid epoch : Nat) : Bool :=
  s.epochs.any (fun u => u.1 == src && u.2.1 == dst && u.2.2.1 == tdid && decide (epoch ≤ u.2.2.2))

/-- Open an entry (R299). -/
def State.openEntry (s : State) (c : Cmd) (f e : Nat) (recv : Bool) (tdid epoch peer root : Nat) : State :=
  let key := objKey 5 (streamKey f e)
  let p := s.tdidPart tdid
  let s := s.newObj key p c.tag.toNat true
  let s := s.onEntry f e (fun _ => { state := 1, recv := recv, tdid := BitVec.ofNat 7 tdid, peer := BitVec.ofNat 16 peer
                                     epoch := BitVec.ofNat 8 epoch, root := root })
  let s := if recv then s else { s with epochs := s.epochs ++ [((s.fccNode f).getD 0, peer, tdid, epoch)] }
  (s.noteStream f e).answer c 0 [s.handle key]

/-- STREAM_OPEN (R299, R308, R604). -/
def State.streamOpen (s : State) (sel peer root : Word32) (c : Cmd) : State :=
  let f := fld sel 3 0
  let recv := sel.getLsbD 4
  let tdid := fld sel 14 8
  let epoch := fld sel 23 16
  let p := s.tdidPart tdid
  if fld sel 7 5 ≠ 0 ∨ sel.getLsbD 15 ∨ fld sel 31 24 ≠ 0 ∨ fld peer 31 16 ≠ 0 then s.answer c 1
  else if p = 0 ∨ (c.part ≠ 0 ∧ c.part ≠ p) then s.answer c 3
  else match s.named c 4 root with
    | .error st => s.answer c st
    | .ok n =>
      let x := s.slot n
      if !s.gate p 0x27 then s.answer c 7
      else if !(x.fabricRoot && x.tdid == tdid) ∨ (s.fccNode f).isNone ∨ !s.live (fccIx f) then s.freeReason c
      else if !recv && s.epochUsed ((s.fccNode f).getD 0) (fld peer 15 0) tdid epoch then s.freeReason c
      else if s.objCount 5 p ≥ s.allot p 7 then s.answer c 6
      else match firstFrom 0 2048 (fun e => (s.entry f e).state == 0 && !(s.obj (objKey 5 (streamKey f e))).used) with
        | none => s.answer c 6
        | some e => s.openEntry c f e recv tdid epoch (fld peer 15 0) n

/-- STREAM_OPEN. -/
def execStreamOpen (h : Hdr) (sel peer root : Word32) (s : State) : Host.Outcome State Fault Refusal :=
  .next (s.command h 0x27 [sel, peer, root] (fun s c => s.streamOpen sel peer root c))

/-- The stream and the fence that a command with answer A names, checked. -/
def State.streamAndFence (s : State) (c : Cmd) (stream fence : Word32) (code : Nat) : Except Nat (Nat × Nat × Nat) :=
  match s.namedStream c stream, s.namedFence c fence with
  | .error st, _ => .error st
  | _, .error st => .error st
  | .ok (f, e), .ok fe => if s.gate (s.actsFor c (objKey 5 (streamKey f e))) code then .ok (f, e, fe) else .error 7

/-- The command as it is kept under way: its fence, what it works on, and the objects it names. -/
def Cmd.onStream (c : Cmd) (f e fe : Nat) (v : Word32) : Cmd :=
  { c with fence := some (fe, v.toNat), what := streamKey f e, names := [objKey 5 (streamKey f e), objKey 6 fe] }

/-- STREAM_CLOSE (R338, R339). -/
def execStreamClose (h : Hdr) (stream fence value : Word32) (s : State) : Host.Outcome State Fault Refusal :=
  .next (s.command h 0x28 [stream, fence, value] (fun s c =>
    match s.streamAndFence c stream fence 0x28 with
    | .error st => s.answer c st
    | .ok (f, e, fe) => (s.acceptA (c.onStream f e fe value) []).closeStream f e))

/-- STREAM_FENCE (R330, R331). -/
def execStreamFence (h : Hdr) (stream fence value : Word32) (s : State) : Host.Outcome State Fault Refusal :=
  .next (s.command h 0x29 [stream, fence, value] (fun s c =>
    match s.streamAndFence c stream fence 0x29 with
    | .error st => s.answer c st
    | .ok (f, e, fe) =>
      let x := s.entry f e
      if x.recv then s.freeReason c
      else
        let s := s.acceptA (c.onStream f e fe value) []
        if x.state = 0 ∨ x.state = 3 then s.streamFenceEnd (streamKey f e) fe value.toNat (some 0x12)
        else (s.onEntry f e (fun x => { x with fenceQ := x.fenceQ ++ [(fe, value.toNat)] })).fenceCheck f e))

/-- STREAM_REKEY (R305). -/
def execStreamRekey (h : Hdr) (stream : Word32) (s : State) : Host.Outcome State Fault Refusal :=
  .next (s.command h 0x2A [stream] (fun s c =>
    match s.namedStream c stream with
    | .error st => s.answer c st
    | .ok (f, e) =>
      if !s.gate (s.actsFor c (objKey 5 (streamKey f e))) 0x2A then s.answer c 7
      else if (s.entry f e).recv ∨ (s.entry f e).state ≠ 1 then s.freeReason c
      else (s.startChange f e).answer c 0))

/-- Retire a slot (R340, R461): a fabric root only after every stream derived from it has closed. -/
def State.retireAny (s : State) (n : Nat) : State :=
  if (s.slot n).fabricRoot && s.streams.cells.any (fun c => c.2.root == n && c.2.state != 0) then
    let s := { s with retireWait := if s.retireWait.contains n then s.retireWait else s.retireWait ++ [n] }
    let ks := s.streams.keysWhere (fun _ x => x.root == n && x.state != 0)
    ks.foldl (fun s k => s.closeStream (k / 2048) (k % 2048)) s
  else s.retireSlot n

end Sys2Proof.Machine
end

