-- ==== Sys2Proof/Machine/Ram.lean ====
section
/-!
DEFINITION. Tower's firmware RAM (spec/14_tower_and_mailboxes.md R578, R582; R47): 262,144 bytes held as the cells that
differ from zero, addresses strictly rising. An unlisted byte reads as zero (log entry 8).
-/

namespace Sys2Proof.Machine

/-- Bytes of the firmware RAM (R578). -/
def ramSize : Nat := 262144

/-- The byte at an address of a list of cells. -/
def Ram.read : List Host.Cell → Nat → Byte
  | [], _ => 0
  | (a, v) :: rest, x => if a = x then v else Ram.read rest x

/-- Drop the cell of an address. -/
def Ram.erase : List Host.Cell → Nat → List Host.Cell
  | [], _ => []
  | (a, v) :: rest, x => if a = x then rest else (a, v) :: Ram.erase rest x

/-- Put a cell in its place. -/
def Ram.insert : List Host.Cell → Nat → Byte → List Host.Cell
  | [], x, v => [(x, v)]
  | (a, w) :: rest, x, v =>
    if x < a then (x, v) :: (a, w) :: rest
    else if a = x then (x, v) :: rest
    else (a, w) :: Ram.insert rest x v

/-- `len` bytes from an address upward. -/
def Ram.bytes (m : List Host.Cell) (x len : Nat) : Bytes := (List.range len).map (fun k => Ram.read m (x + k))

/-- Write a byte: zero removes the cell, so that equal memories are equal data. -/
def Ram.write (m : List Host.Cell) (x : Nat) (v : Byte) : List Host.Cell :=
  if v = 0 then Ram.erase m x else Ram.insert m x v

/-- Every address above `b`, rising, with no cell of zero. -/
def Ram.wfFrom : Option Nat → List Host.Cell → Bool
  | _, [] => true
  | b, (a, v) :: rest =>
    (match b with | none => true | some j => decide (j < a)) && !decide (v = 0) && Ram.wfFrom (some a) rest

/-- The canonical form. -/
def Memory.wf (m : List Host.Cell) : Bool := Ram.wfFrom none m

/-- Write bytes from an address upward. -/
def Ram.writeBytes (m : List Host.Cell) : Nat → Bytes → List Host.Cell
  | _, [] => m
  | x, v :: vs => Ram.writeBytes (Ram.write m x v) (x + 1) vs

/-- The cells of a string laid at an address, in canonical form. -/
def Ram.ofBytes : Nat → Bytes → List Host.Cell
  | _, [] => []
  | x, v :: vs => if v = 0 then Ram.ofBytes (x + 1) vs else (x, v) :: Ram.ofBytes (x + 1) vs

/-- `len` bytes from an address lie in the firmware RAM. -/
def inRam (addr len : Nat) : Bool := decide (addr + len ≤ ramSize)

end Sys2Proof.Machine
end

