-- ==== Sys2Proof/Machine/Dome.lean ====
section
/-!
DEFINITION. Dome: the Domain Root, rail-up, derivations, blobs, zeroisation and ERASE_ALL, and the retirement of slots
(spec/10_keys_and_dome.md R434 to R470, spec/11_life_cycle.md R472 to R480).
-/

namespace Sys2Proof.Machine

/-! ### The fuse row (R477 to R480) -/

/-- Group `g` of the row reads as blown (R478): 0 INTENT1, 1 COMMIT1, 2 INTENT2, 3 COMMIT2, 4 INTENT3, 5 COMMIT3,
6 SEED_DONE. -/
def groupBlown (otp : Word32) (g : Nat) : Bool := fld otp (4 * g + 3) (4 * g) != 0

/-- The decoded STATE (R479). -/
def decodeState (otp : Word32) : Nat :=
  if groupBlown otp 5 then 8 else if groupBlown otp 3 then 4 else if groupBlown otp 1 then 2 else 1

/-- The pending target, zero when the row is not pending (R479). -/
def decodePending (otp : Word32) : Nat :=
  let st := decodeState otp
  if groupBlown otp 4 ∧ st < 8 then 8
  else if groupBlown otp 2 ∧ st < 4 then 4
  else if groupBlown otp 0 ∧ st < 2 then 2
  else 0

/-- The row is sensed and decoded (R479, R735). -/
def State.decodeRow (s : State) : State :=
  s.onLc (fun l => { l with state := BitVec.ofNat 4 (decodeState l.otp), pending := BitVec.ofNat 4 (decodePending l.otp) })

/-- OPKEY_DIGEST is valid (R480). -/
def LifeCycle.digestValid (l : LifeCycle) : Bool := l.digestInv == ~~~ l.digest

/-- The states in which no Domain Root exists: BLANK and END_OF_LIFE (R474). -/
def LifeCycle.rootless (l : LifeCycle) : Bool := l.state == 1 || l.state == 8

/-- Tower and Dome are SEALED (R488). -/
def LifeCycle.sealed (l : LifeCycle) : Bool := l.phase == 5

/-! ### The Domain Root (R437 to R446) -/

/-- The secret area holds a Domain Root. -/
def Dom.hasRoot (d : Dom) : Bool := !d.shareA.isEmpty

/-- The Domain Root: the two shares recombined (R438). -/
def Dom.root (d : Dom) : Bytes := xorB d.shareA d.shareB

/-- The CMAC key of a Domain Root (R444). -/
def rootKey (root : Bytes) : Bytes := xorB (root.take 32) (Bytes.slice root 32 32)

/-- A derivation from a Domain Root (R153, R444). -/
def State.fromRoot (s : State) (root : Bytes) (label : String) (ctx : Bytes) (n : Nat) : Bytes :=
  kdf (rootKey root) (ascii label) (ctx ++ s.lcContext) n

/-- The root check value (R442 step 2). -/
def State.rootCheck (s : State) (root : Bytes) : Bytes := (s.fromRoot root "ONRUS-ROOT-CHECK" [] 32).take 16

/-- The shares under a fresh mask and scramble key (R439). -/
def State.mask (s : State) (root : Bytes) : State :=
  let (m, s) := s.draw 64
  let (k, s) := s.draw 16
  s.onDom (fun d => { d with shareA := xorB root m, shareB := m, scramble := k })

/-- A Domain Root is generated (R442 step 3, R443). -/
def State.newRoot (s : State) : State :=
  let (noise, s) := s.draw 126
  let root := kdf (zeros 32) (ascii "ONRUS-ROOT-GEN") (noise ++ s.lcContext) 64
  (s.mask root).onDom (fun d => { d with check := s.rootCheck root, rootGen := satInc d.rootGen, rootFresh := true })

/-- Steps 4 and 5 of R442. -/
def State.rootReady (s : State) : State :=
  let root := s.dom.root
  (s.mask root).onDom (fun d => { d with rootId := (s.fromRoot root "ONRUS-ROOT-ID" [] 32).take 16, rootState := 2 })

/-- Dome holds nothing (R466): shares, check value and scramble key are zero. -/
def Dom.empty (d : Dom) : Dom := { d with shareA := [], shareB := [], check := [], scramble := [] }

/-- R442, with the root check taken as failed when `fail` (R495). In BLANK and END_OF_LIFE the secret area stays zero
(R474); while the noise source fails its tests, ROOT_STATE stays NONE (R440). -/
def State.rootSteps (s : State) (fail : Bool) : State :=
  let s := s.onDom (fun d => { d with bootCount := satInc d.bootCount, rootFresh := false, rootState := 0 })
  if s.lc.rootless then s.onDom Dom.empty
  else if s.dom.noiseFail then s
  else
    let good := s.dom.hasRoot && !fail && (s.dom.check == s.rootCheck s.dom.root)
    let s := if good then s else s.newRoot
    (if fail then s.onLc (fun l => { l with taint := false }) else s).rootReady

/-! ### Derivations into slots (R444 to R446) -/

/-- Dome may perform derivations (R442, R474, R488). -/
def State.domeReady (s : State) : Bool := s.dom.railPresent && s.dom.rootState == 2 && !s.lc.rootless && !s.lc.sealed

/-- The derivation at the head of the queue starts: KEY_GEN advances before each REGION_KEY (R446). -/
def State.deriveBegins (s : State) : State :=
  match s.dom.queue with
  | .region .. :: _ => s.onDom (fun d => { d with keyGen := satInc d.keyGen })
  | _ => s

/-- Tower requests a derivation (R446). -/
def State.deriveQueue (s : State) (k : DeriveKind) : State :=
  let idle := s.dom.queue.isEmpty
  let s := s.onDom (fun d => { d with queue := d.queue ++ [k] })
  if idle then s.deriveBegins else s

/-- After rail-up, Tower requests the three reserved keys (R446). -/
def State.reservedKeys (s : State) : State :=
  if s.domeReady then ((s.deriveQueue .archive).deriveQueue (.tree 0)).deriveQueue (.tree 1) else s

/-- The slot that a derivation fills. -/
def DeriveKind.slot : DeriveKind → Nat
  | .archive => 0
  | .tree p => 1 + p
  | .region n _ _ => n

/-- The key of a derivation (R444). -/
def State.derivedKey (s : State) (k : DeriveKind) : Bytes :=
  let root := s.dom.root
  match k with
  | .archive => s.fromRoot root "ONRUS-ARCHIVE-KEY" (toBe 4 s.dom.bootCount.toNat) 64
  | .tree p => s.fromRoot root "ONRUS-TREE-KEY" (toBe 4 s.dom.bootCount.toNat ++ [BitVec.ofNat 8 p]) 64
  | .region n purpose tdid =>
    s.fromRoot root "ONRUS-REGION-KEY"
      (toBe 8 s.dom.keyGen.toNat ++ toBe 2 n ++ [BitVec.ofNat 8 purpose, BitVec.ofNat 8 tdid]) 64

/-- The bit of the decoded life-cycle state in an LC_MASK (R473). -/
def State.lcMaskBit (s : State) : Nat := 2 ^ s.lcBit

/-- MASTERS of a key from its PURPOSE (R457): MCC and NWT, PCC, HCC, CPE, CPE. -/
def purposeMasters (purpose : Nat) : Nat :=
  match purpose with
  | 0 => 0x11 | 1 => 0x02 | 2 => 0x08 | _ => 0x20

/-- WORLD of a key from its PURPOSE (R457). -/
def purposeWorld (purpose : Nat) : Nat := if purpose = 4 then 1 else 2

/-- Key bytes of a PURPOSE (R455). -/
def purposeLen (purpose : Nat) : Nat := if purpose ≤ 1 then 64 else 32

/-- The attribute record of a derived key (R447, R449, R451): the reserved slots' own, or the one prepared for a region
key, with its KEY_GEN. -/
def State.derivedAttr (s : State) (k : DeriveKind) : BitVec 256 :=
  match k with
  | .archive => ({ purpose := 0, masters := 1, world := 1, lcMask := s.lcMaskBit, source := 0, part := 0, tdid := 0 } : SlotSpec).attr
  | .tree _ => ({ purpose := 1, masters := 2, world := 1, lcMask := s.lcMaskBit, source := 0, part := 0, tdid := 0 } : SlotSpec).attr
  | .region n _ _ => setFld (s.slot n).attr 255 192 s.dom.keyGen.toNat

/-- A slot of a partition that has been filled has a Key Slot object (R548, R551), here with no host reference. -/
def State.slotObject (s : State) (n tag : Nat) (host : Bool) : State :=
  let p := (s.slot n).part
  if p = 0 ∨ (s.obj (objKey 4 n)).used then s else s.newObj (objKey 4 n) p tag host

/-- The derivation at the head of the queue ends, and its slot becomes LIVE (R163, R451). -/
def State.deriveEnd (s : State) : State :=
  match s.dom.queue with
  | [] => s
  | k :: rest =>
    let s :=
      if (s.slot k.slot).state = 0 then (s.fillSlot k.slot (s.derivedAttr k) (s.derivedKey k)).slotObject k.slot 0 false else s
    (s.onDom (fun d => { d with queue := rest })).deriveBegins

/-- What an IMPORT under way still waits for, after region `r` is done with: its answer when that was the last. -/
def State.importStep (s : State) (r : Nat) (lost : Bool) : State :=
  let k := objKey 3 r
  let mine (c : Cmd) : Bool := c.started && c.code == 0x33 && c.names.contains k
  let step (c : Cmd) : Cmd := { c with names := c.names.erase k, stage := if lost then 1 else c.stage }
  let s := { s with cmds := mapWhere mine step s.cmds }
  let isOver (c : Cmd) : Bool := c.started && c.code == 0x33 && c.names.all (fun n => n / 2 ^ 20 != 3)
  let (b, s) := s.draw 4
  (s.completeWhere (fun c => isOver c && c.stage == 0) 0 [] none).completeWhere isOver 8 [BitVec.ofNat 32 (Bytes.leNat b)] none

/-- The creation or crypto-erase of region `r` ends: its command completes, with an error when the region is lost or DEAD
(R564, R566). A crypto-erase that waits behind it (R284, `stage` 1) does not complete with it. -/
def State.regionDone (s : State) (r : Nat) (err : Option Nat) : State :=
  let s := s.completeWhere (fun c => c.started && (c.code == 0x20 || c.code == 0x22 && c.stage == 0) && c.what == r) 0 [] err
  if s.cmds.any (fun c => c.started && c.code == 0x33 && c.names.contains (objKey 3 r)) then s.importStep r err.isSome else s

/-- A region's entries return to the partition's run at once: FREE in every copy, with no drain left. -/
def State.freeEntries (s : State) (r : Nat) : State :=
  let es := (s.region r).entries
  let s := es.foldl (fun s e => (s.rotSend e .free).setMaster e 0) s
  let s := { s with own := { s.own with
    drains := s.own.drains.filter (fun d => !es.contains d.entry), waiting := s.own.waiting.filter (fun d => !es.contains d.entry) } }
  s.onRegion r (fun x => { x with entries := [], done := [] })

/-- A region whose key is lost before its initialisation has ended (R564): its entries return, it enters DEAD, and its
fence is signalled with SLOT_DEAD. -/
def State.regionLost (s : State) (r : Nat) : State :=
  let s := (s.freeEntries r).onRegion r (fun x => { x with dead := true, phase := .dying, slot := none })
  let s := (s.regionDone r (some 0x11)).completeWhere (fun c => c.started && c.code == 0x22 && c.what == r) 0 [] (some 0x11)
  (s.completeWhere (fun c => c.started && c.code == 0x21 && c.what == r) 0 [] none).reap

/-- A derivation ends without its key: a region that waits for it is lost; a re-key that waits for it does not begin. -/
def State.deriveLost (s : State) (k : DeriveKind) : State :=
  match k with
  | .region n _ _ =>
    let rs := s.prt.regions.keysWhere (fun _ x => x.phase == .deriving_ && x.slot == some n)
    rs.foldl State.regionLost { s with nwt := { s.nwt with keying := s.nwt.keying.filter (fun y => y.2 != n) } }
  | _ => s

/-- Every derivation stops (R461 table, R716). -/
def State.deriveStop (s : State) : State :=
  let q := s.dom.queue
  q.foldl State.deriveLost (s.onDom (fun d => { d with queue := [] }))

/-- DOME_DERIVE (R446): kind 0 the archive key, 1 the tree key of slot 1 or 2, 2 a region key into an EMPTY slot whose
record Tower has prepared. -/
def State.domeDerive (s : State) (kind slot : Nat) : State :=
  if !s.domeReady ∨ (s.slot slot).state ≠ 0 ∨ s.dom.queue.any (fun k => k.slot == slot) then s
  else match kind with
    | 0 => if slot = 0 then s.deriveQueue .archive else s
    | 1 => if slot = 1 ∨ slot = 2 then s.deriveQueue (.tree (slot - 1)) else s
    | 2 => if 32 ≤ slot then s.deriveQueue (.region slot (s.slot slot).purpose (s.slot slot).tdid) else s
    | _ => s

/-- DOME_DERIVE. -/
def execDomeDerive (kind : BitVec 2) (slot : Fin 4096) (s : State) : Host.Outcome State Fault Refusal :=
  .next (s.domeDerive kind.toNat slot.val)

/-! ### Dome blobs (R453, R454) -/

/-- The SEAL_KEY of a SEAL_ID (R444). -/
def State.sealKey (s : State) (id : Bytes) : Bytes := s.fromRoot s.dom.root "ONRUS-SEAL" (Bytes.fit id 16) 32

/-- A Dome blob of slot `n` (R453). -/
def State.domeBlob (s : State) (n : Nat) (id : Bytes) : Bytes :=
  let x := s.slot n
  let len := purposeLen x.purpose
  [0x55, 0x42, 0x56, 0x42] ++ toLe 2 1 ++ toLe 2 (len + 8) ++ Bytes.fit id 16 ++ [BitVec.ofNat 8 x.purpose] ++ s.lcContext ++
    zeros 5 ++ keyWrap (s.sealKey id) (x.key.take len)

/-- DOME_SEAL (R454): a LIVE slot with EXPORT set, usable in this life-cycle state; the blob goes to Tower firmware. -/
def State.domeSeal (s : State) (n : Nat) (id : Bytes) : State :=
  let x := s.slot n
  if s.domeReady ∧ x.state = 1 ∧ x.mayLeave ∧ !x.setBound ∧ bit x.lcMask s.lcBit ∧ s.notExpired x then
    s.emit (.twr "DOME_SEAL" (s.domeBlob n id))
  else s

/-- DOME_SEAL. -/
def execDomeSeal (slot : Fin 4096) (sealId : Bytes) (s : State) : Host.Outcome State Fault Refusal := .next (s.domeSeal slot.val sealId)

/-- The key of a Dome blob that unseals here and now, for a PURPOSE (R453, R454). -/
def State.domeOpen (s : State) (purpose : Nat) (b : Bytes) : Option Bytes :=
  let n := Bytes.le b 6 2
  if b.take 4 == [0x55, 0x42, 0x56, 0x42] && Bytes.le b 4 2 == 1 && n == purposeLen purpose + 8 && b.length == 32 + n &&
      Bytes.at b 24 == purpose && Bytes.zeroAt b 27 5 then
    match keyUnwrap (s.sealKey (Bytes.slice b 8 16)) (b.drop 32) with
    | some k => if k.length = n - 8 then some k else none
    | none => none
  else none

/-- DOME_UNSEAL (R454): into an EMPTY slot whose prepared record has the blob's PURPOSE. -/
def State.domeUnseal (s : State) (n : Nat) (b : Bytes) : State :=
  let x := s.slot n
  if !s.domeReady ∨ x.state ≠ 0 ∨ s.dom.queue.any (fun k => k.slot == n) then s
  else match s.domeOpen x.purpose b with
    | some k => ((s.fillSlot n x.attr k).slotObject n 0 true).emit (.twr "DOME_UNSEAL" [1])
    | none => s.emit (.twr "DOME_UNSEAL" [0])

/-- DOME_UNSEAL. -/
def execDomeUnseal (slot : Fin 4096) (blob : Bytes) (s : State) : Host.Outcome State Fault Refusal := .next (s.domeUnseal slot.val blob)

/-! ### Zeroisation and ERASE_ALL (R465 to R470) -/

/-- A class 17 report of Dome, which reports through Tower while the rail is present (R608). -/
def State.domeReport (s : State) : State := if s.dom.railPresent && s.live 2 then s.report 17 0 0 else s

/-- ERASE_ALL in the rest of the block (R469, R461, R526): slots, schedule and pair-key caches, the Set Table, sessions. A
running control-plane operation ends with ERROR BUS. -/
def State.eraseAll (s : State) : State :=
  let bus (o : CpeOut) : CpeOut := { o with error := 7, slot := none, data := [], tag := [] }
  let s := (List.range 16).foldl (fun s f => s.fccErase f) s
  { s with
    slots := {}, sets := {}, invals := [], retireWait := []
    nwt := { s.nwt with waiting := [] }
    cpe := { s.cpe with out := s.cpe.out.map bus, slots := [] }
    att := { s.att with sess := {} }
    clusters := s.clusters.mapKeys (fun _ c => { c with sched := [] }) }

/-- Zeroisation (R465 to R470) with a CAUSE and the active inputs: the secret area, the scramble key and the engine are
zero, LATCHED and CAUSE are written, TAMPER_OUT_N is asserted; then ERASE_ALL while the rail is present. -/
def State.zeroise (s : State) (cause inputs : Nat) : State :=
  let s := s.deriveStop
  let was := s.dom.latched
  let s := s.onDom (fun d => { d.empty with
    rootState := if s.lc.rootless then 0 else 3
    latched := true, zeroCount := satInc d.zeroCount, cause := BitVec.ofNat 4 cause, inputs := BitVec.ofNat 4 inputs })
  let s := if was then s else s.emit (.pad "TAMPER_OUT_N" false)
  if s.dom.railPresent then s.domeReport.eraseAll else s

/-- LATCHED_CLEAR (R470): Tower's write of a one, once a Domain Root generated since is READY. -/
def State.latchedClear (s : State) (v : Word32) : State :=
  if v.getLsbD 31 ∧ s.dom.latched ∧ s.dom.rootState = 2 then
    (s.onDom (fun d => { d with latched := false })).emit (.pad "TAMPER_OUT_N" true)
  else s

/-- LATCHED_CLEAR. -/
def execLatchedClear (v : Word32) (s : State) : Host.Outcome State Fault Refusal := .next (s.latchedClear v)

/-- NOISE_FAIL (R440, R608). -/
def execNoiseFail (s : State) : Host.Outcome State Fault Refusal :=
  .next (State.domeReport (s.onDom (fun d => { d with noiseFail := true })))

/-- NOISE_HEALTH_RESTORED (R440). -/
def execNoiseHealthRestored (s : State) : Host.Outcome State Fault Refusal := .next (s.onDom (fun d => { d with noiseFail := false }))

/-- VBAT_LOW_CHANGE (R465, R608): while the hub rail is present. -/
def State.vbatLowChange (s : State) (low : Bool) : State :=
  if !s.dom.railPresent ∨ s.dom.vbatLow = low then s
  else
    let s := s.onDom (fun d => { d with vbatLow := low, lowDone := false })
    if low then s.domeReport else s

/-- VBAT_LOW_CHANGE. -/
def execVbatLowChange (low : Bool) (s : State) : Host.Outcome State Fault Refusal := .next (s.vbatLowChange low)

/-! ### Retirement (R452, R461, R462) -/

/-- SLOT_EXPIRY (R452, R606): a LIVE slot whose EXPIRY secure time has reached retires, and a notice says so. -/
def State.slotExpiry (s : State) (n : Nat) : State :=
  let x := s.slot n
  if x.state = 1 ∧ x.expiry ≠ 0 ∧ s.spr.time.locked ∧ x.expiry ≤ s.seconds then (s.retireAny n).notice 4 x.part n else s

/-- SLOT_EXPIRY. -/
def execSlotExpiry (slot : Fin 4096) (s : State) : Host.Outcome State Fault Refusal := .next (s.slotExpiry slot.val)

/-- SLOT_RETIRE (R461, R768). -/
def execSlotRetire (h : Hdr) (slot : Word32) (s : State) : Host.Outcome State Fault Refusal :=
  .next (s.command h 0x26 [slot] (fun s c =>
    match s.named c 4 slot with
    | .error st => s.answer c st
    | .ok n =>
      if !s.gate (s.actsFor c (objKey 4 n)) 0x26 then s.answer c 7
      else if (s.slot n).state = 1 then (s.retireAny n).answer c 0
      else s.answer c 0))

end Sys2Proof.Machine
end

