-- ==== Sys2Proof/Machine/Cpe.lean ====
section
/-!
DEFINITION. The control-plane engine of Tower (spec/03_cipher_lanes.md R150 to R159; spec/10_keys_and_dome.md R450, R451,
R462). An operation's outcome is computed when it starts and delivered when it ends.
-/

namespace Sys2Proof.Machine

/-- A descriptor (R154). -/
structure CpeDesc where
  op : Nat
  flags : Nat
  key : Nat
  dest : Nat
  outLen : Nat
  aadAddr : Nat
  aadLen : Nat
  inAddr : Nat
  inLen : Nat
  outAddr : Nat
  auxAddr : Nat

/-- The fields of a descriptor's 32 bytes (R154). -/
def CpeDesc.ofBytes (b : Bytes) : CpeDesc :=
  { op := Bytes.at b 0, flags := Bytes.at b 1, key := Bytes.le b 2 2, dest := Bytes.le b 4 2, outLen := Bytes.le b 6 2
    aadAddr := Bytes.le b 8 4, aadLen := Bytes.le b 12 4, inAddr := Bytes.le b 16 4, inLen := Bytes.le b 20 4
    outAddr := Bytes.le b 24 4, auxAddr := Bytes.le b 28 4 }

/-- INVERSE (R154). -/
def CpeDesc.inverse (d : CpeDesc) : Bool := bit d.flags 0

/-- OUT_TO_SLOT (R154). -/
def CpeDesc.toSlot (d : CpeDesc) : Bool := bit d.flags 1

/-- MALFORMED (R151, R154, R156, R158): an undefined opcode, a reserved field, an option that the opcode has not. DESIGN
CHOICE (log entry 97): the spec names no code for INVERSE with KDF or for a slot number of 4096 and above; both are
MALFORMED here. -/
def CpeDesc.malformed (d : CpeDesc) : Bool :=
  !(decide (1 ≤ d.op ∧ d.op ≤ 5)) || decide (4 ≤ d.flags) || decide (4096 ≤ d.key) || decide (4096 ≤ d.dest) ||
  (d.op == 3 && d.inverse) || (d.toSlot && !(d.op == 3 || (d.op == 1 && d.inverse))) || (!d.toSlot && d.dest != 0) ||
  (d.toSlot && d.outAddr != 0) || (d.op != 3 && d.outLen != 0) || ((d.op == 1 || d.op == 3) && d.auxAddr != 0)

/-- LENGTH (R151). -/
def CpeDesc.badLength (d : CpeDesc) : Bool :=
  match d.op with
  | 1 => if d.inverse then d.inLen % 8 != 0 || decide (d.inLen < 16 ∨ 4104 < d.inLen) else decide (d.inLen < 1 ∨ 4096 < d.inLen)
  | 2 => decide (16777215 < d.inLen)
  | 3 => decide (d.inLen < 1 ∨ 64 < d.inLen ∨ 128 < d.aadLen) || !(d.outLen == 32 || d.outLen == 64)
  | 4 => decide (65535 < d.aadLen ∨ 16777215 < d.inLen)
  | _ => decide (65535 < d.aadLen) || d.inLen != 0

/-- Label of the blob-key derivation (R444). -/
def blobKekLabel : Bytes := ascii "ONRUS-BLOB-KEK"

/-- Label of the pair-key derivation (R444). -/
def pairLabel : Bytes := ascii "ONRUS-FABRIC-PAIR"

/-- The opcode is permitted to the PURPOSE of the key slot (R450). -/
def cpeKeyOk (purpose op : Nat) (label : Bytes) : Bool :=
  match op with
  | 1 => purpose == 3
  | 2 => purpose == 4
  | 3 => (purpose == 3 && label == blobKekLabel) || (purpose == 4 && label == pairLabel)
  | _ => purpose == 2

/-- A control-plane destination of this PURPOSE takes the output (R450): the slot's number, the opcode, the label. -/
def cpeDestOk (n purpose op : Nat) (label : Bytes) : Bool :=
  let staging := decide (16 ≤ n ∧ n ≤ 31)
  if op = 1 then decide (purpose ≤ 4)
  else if label == pairLabel then purpose == 2
  else purpose == 3 || (purpose == 2 && staging)

/-- Bytes that a destination of this PURPOSE takes. -/
def cpeDestLen (purpose op outLen : Nat) : Nat := if op = 1 then purposeLen purpose else outLen

/-- What Tower firmware has stored at an address of its RAM before an operation (R150): firmware's own stores are no row of
the table, so the command that uses the bytes brings them (log entry 96). -/
def State.placed (s : State) (addr : Nat) (b : Buf) : State :=
  match b with
  | some x => if inRam addr x.length then { s with ram := Ram.writeBytes s.ram addr x } else s
  | none => s

/-- The bytes at an address of the descriptor, none when the bus fails: they do not lie in Tower RAM (R150, R154). -/
def State.cpeInput (s : State) (addr len : Nat) : Option Bytes :=
  if len = 0 then some [] else if inRam addr len then some (Ram.bytes s.ram addr len) else none

/-- The output of an operation with its key, inputs and the bytes at AUX_ADDR: data, tag, or the failure (R151 to R153,
R157). -/
def cpeCompute (d : CpeDesc) (k aad inp aux : Bytes) : Nat × Bytes × Bytes :=
  let iv := aux.take 12
  let tag := Bytes.slice aux 12 16
  match d.op with
  | 1 =>
    if d.inverse then
      match keyUnwrap (k.take 32) inp with
      | some p => (0, p, [])
      | none => (5, [], [])
    else (0, keyWrap (k.take 32) inp, [])
  | 2 =>
    let t := cmac (k.take 32) inp
    if d.inverse then (if t = aux.take 16 then (0, [], []) else (5, [], [])) else (0, [], t)
  | 3 => (0, kdf (k.take 32) inp aad d.outLen, [])
  | _ =>
    if d.inverse then
      match gcmDecrypt (k.take 32) iv aad inp tag with
      | some p => (0, p, [])
      | none => (5, zeros d.inLen, [])
    else
      let (ct, t) := gcmEncrypt (k.take 32) iv aad inp
      (0, ct, t)

/-- Bytes of AUX_ADDR that an operation reads (R154). -/
def CpeDesc.auxLen (d : CpeDesc) : Nat :=
  match d.op with
  | 2 => if d.inverse then 16 else 0
  | 4 => if d.inverse then 28 else 12
  | 5 => if d.inverse then 28 else 12
  | _ => 0

/-- Where the tag goes: AUX_ADDR for CMAC, 12 bytes on for GCM and GMAC. -/
def CpeDesc.tagAddr (d : CpeDesc) : Nat := if d.op = 2 then d.auxAddr else d.auxAddr + 12

/-- An operation's outcome on its inputs, once the slot checks of R155 have passed. DESIGN CHOICE (log entry 98): the spec
names no code for an unwrapped key whose length the destination's PURPOSE does not take; it is LENGTH here. -/
def State.cpeRun (s : State) (d : CpeDesc) : CpeOut :=
  let key := s.slot d.key
  let dst := s.slot d.dest
  match s.cpeInput d.inAddr d.inLen, s.cpeInput d.aadAddr d.aadLen, s.cpeInput d.auxAddr d.auxLen with
  | some i, some a, some x =>
    if !cpeKeyOk key.purpose d.op i ∨ (d.toSlot ∧ !cpeDestOk d.dest dst.purpose d.op i) then { error := 3 }
    else
      let (e, data, tag) := cpeCompute d key.key a i x
      if e = 0 ∧ d.toSlot ∧ data.length ≠ cpeDestLen dst.purpose d.op d.outLen then { error := 2 }
      else if !d.toSlot ∧ !inRam d.outAddr data.length ∨ !tag.isEmpty ∧ !inRam d.tagAddr tag.length then { error := 7 }
      else { error := e, addr := d.outAddr, data := data, tagAddr := d.tagAddr, tag := tag
             slot := if e = 0 ∧ d.toSlot then some d.dest else none }
  | _, _, _ => { error := 7 }

/-- The descriptor at an address of Tower RAM (R150, R154), none when the bus fails. -/
def State.cpeDesc (s : State) (addr : Nat) : Option CpeDesc := (s.cpeInput addr 32).map CpeDesc.ofBytes

/-- The outcome of the descriptor at an address: the first of the errors of R158 in the order MALFORMED, LENGTH, SLOT_EMPTY, SLOT_DENIED,
DEST_OCCUPIED, BUS (log entry 21). -/
def State.cpeOutcome (s : State) (addr : Nat) : CpeOut × List Nat :=
  match s.cpeDesc addr with
  | none => ({ error := 7 }, [])
  | some d =>
    let key := s.slot d.key
    let dst := s.slot d.dest
    -- before the label is known, a KDF may be any of the two that R450 allows
    let label := if d.op = 3 then (if key.purpose = 3 then blobKekLabel else pairLabel) else []
    if d.malformed then ({ error := 1 }, [])
    else if d.badLength then ({ error := 2 }, [])
    else if key.state = 0 then ({ error := 4 }, [])
    else if !(bit key.world 0 && s.usable key 5 && cpeKeyOk key.purpose d.op label) then ({ error := 3 }, [])
    else if d.toSlot ∧ dst.state ≠ 0 then ({ error := 6 }, [])
    else if d.toSlot ∧ !cpeDestOk d.dest dst.purpose d.op label then ({ error := 3 }, [])
    else (s.cpeRun d, d.key :: (if d.toSlot then [d.dest] else []))

/-- Tower RAM as an operation finds it: the descriptor, and what it points to, as firmware has stored them. -/
def State.cpePlaced (s : State) (addr : Nat) (desc aad inp aux : Buf) : State :=
  let s := s.placed addr desc
  match s.cpeDesc addr with
  | some d => ((s.placed d.aadAddr aad).placed d.inAddr inp).placed d.auxAddr aux
  | none => s

/-- CPE_START (R150, R158): ignored while BUSY. -/
def State.cpeStart (s : State) (addr : Nat) (desc aad inp aux : Buf) : State :=
  if s.cpe.busy then s
  else
    let s := s.cpePlaced addr desc aad inp aux
    let (o, slots) := s.cpeOutcome addr
    { s with cpe := { s.cpe with busy := true, error := 0, out := some o, slots := slots } }

/-- CPE_START. -/
def execCpeStart (addr : Word32) (desc aad inp aux : Buf) (s : State) : Host.Outcome State Fault Refusal :=
  .next (s.cpeStart addr.toNat desc aad inp aux)

/-- Retirements that waited for the control-plane engine begin (R462). -/
def State.retireWaiting (s : State) : State :=
  let ready := s.retireWait.filter (fun n => (s.slot n).purpose != 4)
  ready.foldl (fun s n => s.retireSlot n) { s with retireWait := s.retireWait.filter (fun n => !ready.contains n) }

/-- The outcome is written (R156, R157, R159): to memory, or into the destination slot when it is still EMPTY. -/
def State.cpeDeliver (s : State) (o : CpeOut) : State :=
  match o.slot with
  | some n =>
    if (s.slot n).state = 0 then (s.fillSlot n (s.slot n).attr o.data).slotObject n 0 true
    else { s with cpe := { s.cpe with error := 6 } }
  | none => { s with ram := Ram.writeBytes (Ram.writeBytes s.ram o.addr o.data) o.tagAddr o.tag }

/-- CPE_DONE (R157 to R159). -/
def State.cpeDone (s : State) : State :=
  match s.cpe.out with
  | none => s
  | some o =>
    let s := { s with cpe := { s.cpe with busy := false, done := true, error := BitVec.ofNat 8 o.error, out := none, slots := [] } }
    (s.cpeDeliver o).retireWaiting.retireRoots

end Sys2Proof.Machine
end

