-- ==== Sys2Proof/Machine/Reset.lean ====
section
/-!
DEFINITION. Block resets, the hub rail and VBAT, and what Dome does at the end of a reset (spec/18_islands_clocks_power.md
R731 to R736; spec/10_keys_and_dome.md R442; spec/11_life_cycle.md R479, R490, R492, R494, R495).
-/

namespace Sys2Proof.Machine

/-- Commit groups that take the row to `target` (R482, R487 step 4, R490), in ascending order, blown ones skipped. -/
def commitFuses (otp : Word32) (target : Nat) : List Fuse :=
  let groups := [(1, 2), (3, 4), (5, 8)].filter (fun g => decide (decodeState otp < g.2 ∧ g.2 ≤ target) && !groupBlown otp g.1)
  (groups.map (fun g => (List.range 4).map (fun i => Fuse.row (4 * g.1 + i)))).flatten

/-- R490: a row that decodes as pending at a rail-up. -/
def State.finishPending (s : State) : State :=
  let s := s.zeroise 3 0
  s.onLc (fun l => { l with
    phase := 4, running := some { target := l.pending, fuses := commitFuses l.otp l.pending.toNat, atRailUp := true, erased := true } })

/-- Debug at rail-up (R492). -/
def LifeCycle.railDebug (l : LifeCycle) : LifeCycle := { l with debug := l.rootless }

/-- What Dome does at the end of a block reset (R734, R735): after a fall of the rail it decodes the row; then R490 when the
row is pending, else R442 with R495. A transition under way, or SEALED, leaves only the count (R488; log entry 22). -/
def State.domeStart (s : State) : State :=
  let fell := s.pwr.railFell
  let s := if fell then s.decodeRow.onLc (fun l => { l.railDebug with phase := 0, running := none }) else s
  let s := { s with pwr := { s.pwr with railFell := false, rootStepsDone := true } }
  if fell && s.lc.pending != 0 then s.finishPending
  else if s.lc.running.isSome || s.lc.sealed then s.onDom (fun d => { d with bootCount := satInc d.bootCount })
  else s.rootSteps (fell && s.lc.taint)

/-- A block reset (R731, R594, R615): every island except DOM is as at reset; what lies in Dome and in its rail domain
stays. -/
def State.blockReset (s : State) : State :=
  let s := if s.pads.faultN then s.emit (.pad "FAULT_N" true) else s
  let s := if s.pads.wake then s.emit (.wake false) else s
  let s := s.trigDrive false
  { State.reset with
    now := s.now, free := s.free, out := s.out, pending := s.pending
    dom := { s.dom with queue := [] }
    lc := { s.lc with challenge := none }
    fw := { sealed := s.lc.sealed }
    pads := { trayReq := s.pads.trayReq }
    pwr := { hresetLow := s.pwr.hresetLow, railFell := s.pwr.railFell, clampStatic := s.pwr.clampStatic
             clampRdyIn := s.pwr.clampRdyIn, clampRdyRsp := s.pwr.clampRdyRsp } }

/-- A block reset that HRESET_N does not hold ends at once, and Dome runs its steps (R615, R734). -/
def State.chipReset (s : State) : State :=
  let s := s.blockReset
  if s.pwr.hresetLow || !s.dom.railPresent then s else s.domeStart

/-- HRESET_FALL (R733). -/
def execHresetFall (s : State) : Host.Outcome State Fault Refusal :=
  .next (State.blockReset { s with pwr := { s.pwr with hresetLow := true } })

/-- HRESET_RISE (R735): islands may leave reset as their PLLs lock; Dome runs its steps unless the rail's rise has. -/
def State.hresetRise (s : State) : State :=
  if !s.dom.railPresent ∨ !s.pwr.hresetLow then s
  else
    let s := { s with pwr := { s.pwr with hresetLow := false } }
    if s.pwr.rootStepsDone then s else s.domeStart

/-- HRESET_RISE. -/
def execHresetRise (s : State) : Host.Outcome State Fault Refusal := .next s.hresetRise

/-- RAIL_DOWN (R736, R494, R616): every island stops, Dome moves to VBAT, DEBUG and the TRAY_REQ_N latch clear. -/
def State.railDown (s : State) : State :=
  let s := if s.pads.trayReq then s.emit (.pad "TRAY_REQ_N" true) else s
  let s := State.blockReset { s with pwr := { s.pwr with hresetLow := true, railFell := true }, pads := { s.pads with trayReq := false } }
  (s.onLc (fun l => { l with debug := false, phase := 0, running := none })).onDom
    (fun d => { d with railPresent := false, rootState := 0, vbatLow := false, lowDone := false })

/-- RAIL_DOWN. -/
def execRailDown (s : State) : Host.Outcome State Fault Refusal := .next s.railDown

/-- RAIL_UP (R442, R490, R731): a block reset, and Dome's steps. -/
def State.railUp (s : State) : State :=
  if s.dom.railPresent ∧ !s.pwr.railFell then s
  else State.domeStart (State.blockReset { s.onDom (fun d => { d with railPresent := true }) with pwr := { s.pwr with railFell := true } })

/-- RAIL_UP. -/
def execRailUp (s : State) : Host.Outcome State Fault Refusal := .next s.railUp

/-- VBAT_APPLY (R731, R441): the VBAT domain is as at reset. -/
def State.vbatApply (s : State) : State :=
  if s.dom.railPresent then s else { s with dom := { railPresent := false }, lc := { s.lc with taint := false } }

/-- VBAT_APPLY. -/
def execVbatApply (s : State) : Host.Outcome State Fault Refusal := .next s.vbatApply

end Sys2Proof.Machine
end

