-- ==== Sys2Proof/Machine/LifeCycle.lean ====
section
/-!
DEFINITION. Life-cycle requests, transitions, debug, tamper and low VBAT (spec/11_life_cycle.md R472 to R495;
spec/10_keys_and_dome.md R465), and the DICE values they touch (spec/12_attestation.md R497 to R502).
-/

namespace Sys2Proof.Machine

/-! ### DICE (R497 to R502) -/

/-- The Unique Device Secret (R434). -/
def deviceSecret : Bytes := Sha.sha3_384 Config.seedAndPuf

/-- The CDI of a firmware image for a debug flag (R497). -/
def State.cdi (s : State) (digest svn : Bytes) (dbg : Bool) : Bytes :=
  Sha.sha3_384 (ascii "ONRUS-DICE-CDI" ++ deviceSecret ++ digest ++ svn ++ [BitVec.ofNat 8 s.lc.state.toNat, BitVec.ofNat 8 (b2n dbg)])

/-- The DICE store after step 5 of R582 (R500): empty in BLANK (R475). -/
def State.diceStore (s : State) (digest svn : Bytes) : Dice :=
  if s.lc.state = 1 then {}
  else { deviceId := Sha.shake256 (ascii "ONRUS-DICE-DEVICEID" ++ deviceSecret) 96
         cdi0 := if s.lc.debug then [] else s.cdi digest svn false
         cdi1 := s.cdi digest svn true
         aliasDebug := s.lc.debug }

/-- The two public keys of 96 bytes of material (R498), ML-DSA then P-384. -/
def materialKeys (m : Bytes) : Bytes := Config.mldsaPublic (m.take 32) ++ Config.ecdsaPublic (Bytes.slice m 32 64)

/-- DEVICE_ID (R499). -/
def State.deviceId (s : State) : Bytes := Sha.sha384 (materialKeys s.att.dice.deviceId)

/-- The alias material in use (R497, R502). -/
def Dice.aliasMaterial (d : Dice) : Bytes := Sha.shake256 (ascii "ONRUS-DICE-ALIAS" ++ (if d.aliasDebug then d.cdi1 else d.cdi0)) 96

/-- An ML-DSA-65 signature of the alias key (R503). -/
def State.aliasMldsa (s : State) (context : String) (m : Bytes) : Bytes :=
  Bytes.fit (Config.mldsaSign (s.att.dice.aliasMaterial.take 32) (ascii context) m) 3309

/-- An ECDSA P-384 signature of the alias key (R503). -/
def State.aliasEcdsa (s : State) (m : Bytes) : Bytes :=
  Bytes.fit (Config.ecdsaSign (Bytes.slice s.att.dice.aliasMaterial 32 64) m) 96

/-- Every session ends, and its session store is zeroed (R502, R526). -/
def State.endSessions (s : State) : State := { s with att := { s.att with sess := {} } }

/-! ### Tokens (R483 to R486) -/

/-- A token's bytes are laid out as R483 says. -/
def tokenFormed (t : Bytes) : Bool :=
  let kind := Bytes.at t 6
  let register := kind == 1 && Bytes.at t 7 == 4
  t.length == 5608 && t.take 4 == [0x4F, 0x4E, 0x4C, 0x54] && Bytes.le t 4 2 == 1 && (kind == 1 || kind == 2) &&
  (kind == 1 || Bytes.at t 7 == 0) && Bytes.zeroAt t 136 8 && Bytes.zeroAt t 2193 7 && Bytes.zeroAt t 5509 3 &&
  (register || Bytes.zeroAt t 88 48)

/-- A digest as the fuse field holds it: byte `i` in bits `8i+7 : 8i` (R480, DOM_OPKEY_DIGESTn). -/
def digestBits (b : Bytes) : BitVec 384 := BitVec.ofNat 384 (Bytes.leNat b)

/-- The registered operator key digest as bytes (R480). -/
def LifeCycle.operator (l : LifeCycle) : Bytes := toLe 48 l.digest.toNat

/-- The key digest that must have signed an authorisation in the present state (R472, R482, R484), none when no key may. -/
def LifeCycle.signer (l : LifeCycle) : Option Bytes :=
  match l.state.toNat with
  | 1 => some Config.mfgKeyDigest
  | 2 => some Config.mfgKeyDigest
  | 4 => if l.digestValid then some l.operator else none
  | _ => none

/-- The signatures of a token verify under the signer's keys (R67, R484). -/
def State.tokenSigned (s : State) (t : Bytes) : Bool :=
  let pk := Bytes.slice t 144 1952
  let ec := Bytes.slice t 2096 97
  let m := t.take 2200
  (s.lc.signer == some (Sha.sha384 (pk ++ ec))) && Config.mldsaVerify pk (ascii "ONRUS-LC-AUTH") m (Bytes.slice t 2200 3309) &&
    Config.ecdsaVerify ec m (Bytes.slice t 5512 96)

/-- The transitions that exist (R482). -/
def transitionOk (cur next : Nat) : Bool := [(1, 2), (1, 8), (2, 4), (2, 8), (4, 8)].contains (cur, next)

/-- A stream load or swap is in progress (R69). -/
def Stream.busy (x : Stream) : Bool := x.state == 1 || x.state == 2 || x.state == 3

/-- R486 apart from the token itself: busy, refused, or neither. -/
def State.lcBusy (s : State) : Option Nat :=
  if s.str.busy then some 5
  else if s.lc.running.isSome || s.lc.pending != 0 || s.prt.parts.countWhere (fun _ p => p.state != .none) != 0 ||
      s.dom.rootState == 1 then some 8
  else none

/-- Why a token whose signatures verify is still refused (R481, R486). -/
def State.tokenRefused (s : State) (t : Bytes) : Bool :=
  let target := Bytes.at t 7
  let d := digestBits (Bytes.slice t 88 48)
  Bytes.slice t 40 48 != s.deviceId ||
  (Bytes.at t 6 == 1 &&
    (!transitionOk s.lc.state.toNat target ||
      (s.lc.state == 1 && target == 2 && !groupBlown s.lc.otp 6) ||
      (target == 4 && (s.lc.digest &&& ~~~ d != 0 || s.lc.digestInv &&& d != 0))))

/-! ### Transitions (R487 to R490) -/

/-- Fuses of the digest and of its inverse that a token's digest still calls for (R487 step 1). -/
def digestFuses (l : LifeCycle) (d : BitVec 384) : List Fuse :=
  let ns := List.range 384
  (ns.filter (fun i => d.getLsbD i && !l.digest.getLsbD i)).map Fuse.digest ++
    (ns.filter (fun i => !d.getLsbD i && !l.digestInv.getLsbD i)).map Fuse.inverse

/-- The INTENT group of a target (R482). -/
def intentFuses (target : Nat) : List Fuse :=
  (List.range 4).map (fun i => Fuse.row ((if target = 2 then 0 else if target = 4 then 8 else 16) + i))

/-- One fuse is blown. -/
def LifeCycle.blow (l : LifeCycle) : Fuse → LifeCycle
  | .row i => { l with otp := l.otp ||| BitVec.ofNat 32 (2 ^ i) }
  | .digest i => { l with digest := l.digest ||| BitVec.ofNat 384 (2 ^ i) }
  | .inverse i => { l with digestInv := l.digestInv ||| BitVec.ofNat 384 (2 ^ i) }

/-- A transition enters a phase with the fuses it has to blow. -/
def LifeCycle.enter (l : LifeCycle) (phase : BitVec 3) (fuses : List Fuse) : LifeCycle :=
  { l with phase := phase, running := l.running.map (fun t => { t with fuses := fuses }) }

/-- The commit groups are blown (R487 step 5, R490): SEALED, and the request is answered; or, at a rail-up, the row is
decoded again and R442 runs under the new state. -/
def State.transitionEnds (s : State) (t : Transition) : State :=
  if t.atRailUp then
    let s := (s.onLc (fun l => { l with running := none, phase := 0 })).decodeRow.onLc LifeCycle.railDebug
    s.rootSteps s.lc.taint
  else
    let s := s.onLc (fun l => { l with running := none, phase := 5 })
    State.completeWhere { s with fw := { s.fw with sealed := true } } (fun c => c.started && c.code == 0x04) 0 [] none

/-- Step 3 of R487, unless a zeroisation has served as it, and the fuses of step 4. -/
def State.transitionErase (s : State) (t : Transition) : State :=
  let s := if t.erased then s else (s.onLc (fun l => { l with phase := 3 })).zeroise 3 0
  s.onLc (fun l => l.enter 4 (commitFuses l.otp t.target.toNat))

/-- The next steps of a transition whose present step has no fuse left to blow; at most four lie ahead. -/
def State.transitionGo : Nat → State → State
  | 0, s => s
  | n + 1, s =>
    match s.lc.running with
    | none => s
    | some t =>
      if !t.fuses.isEmpty then s
      else match s.lc.phase.toNat with
        | 1 => State.transitionGo n (s.onLc (fun l => l.enter 2 (intentFuses t.target.toNat)))
        | 2 => State.transitionGo n (s.transitionErase t)
        | _ => s.transitionEnds t

/-- FUSE_PROGRAM_DONE (R487, R490): one fuse of 20 µs. -/
def State.fuseDone (s : State) : State :=
  match s.lc.running with
  | some t =>
    match t.fuses with
    | f :: rest =>
      State.transitionGo 4 (s.onLc (fun l => { l.blow f with running := some { t with fuses := rest } }))
    | [] => s
  | none => s

/-- FUSE_PROGRAM_DONE. -/
def execFuseProgramDone (s : State) : Host.Outcome State Fault Refusal :=
  .next (if s.dom.railPresent then s.fuseDone else s)

/-- An accepted transition begins (R487). -/
def State.transitionStart (s : State) (c : Cmd) (t : Bytes) : State :=
  let target := Bytes.at t 7
  let fuses := if target = 4 then digestFuses s.lc (digestBits (Bytes.slice t 88 48)) else []
  State.transitionGo 4 ((s.hold c).onLc (fun l => { l with
    phase := if target = 4 then 1 else 2
    running := some { target := BitVec.ofNat 4 target, fuses := if target = 4 then fuses else intentFuses target } }))

/-- Debug opens (R493, R502), in its five steps. -/
def State.debugStart (s : State) (c : Cmd) : State :=
  let s := (s.zeroise 3 0).onLc (fun l => { l with debug := true, taint := true })
  let s := State.endSessions { s with att := { s.att with dice := { s.att.dice with aliasDebug := true, cdi0 := [] } } }
  let s := if s.dom.noiseFail then s.onDom (fun d => { d with rootState := 0 }) else s.newRoot.rootReady
  s.reservedKeys.answer c 0

/-- LC_REQUEST (R483 to R487, R493): the order of the checks is the model's (log entry 23). -/
def State.lcRequest (s : State) (c : Cmd) (token : Buf) : State :=
  match token with
  | none => s.answer c 9
  | some t =>
    if !tokenFormed t then s.answer c 1
    else match s.lcBusy with
      | some 5 => s.answer c 5
      | some _ => s.freeReason c
      | none =>
        if s.lc.challenge ≠ some (Bytes.slice t 8 32) then s.freeReason c
        else
          let s := s.onLc (fun l => { l with challenge := none })
          if Bytes.at t 6 = 2 ∧ s.lc.debug then s.answer c 1
          else if !s.tokenSigned t ∨ s.tokenRefused t then s.freeReason c
          else if Bytes.at t 6 = 2 then s.debugStart c
          else s.transitionStart c t

/-- The read of a manager command's buffer (R602). -/
def State.readToken (s : State) (addr : BitVec 64) : State := s.dmaRead 0 addr.toNat 5608

/-- The two argument words of a 64-bit address. -/
def addrWords (a : BitVec 64) : List Word32 := [BitVec.ofNat 32 a.toNat, BitVec.ofNat 32 (a.toNat / 2 ^ 32)]

/-- LC_TRANSITION: LC_REQUEST; the token's KIND says which. -/
def execLcTransition (h : Hdr) (addr : BitVec 64) (token : Buf) (s : State) : Host.Outcome State Fault Refusal :=
  .next (s.command h 0x04 (addrWords addr) (fun s c => (s.readToken addr).lcRequest c token))

/-- DEBUG_OPEN: LC_REQUEST; the token's KIND says which. -/
def execDebugOpen (h : Hdr) (addr : BitVec 64) (token : Buf) (s : State) : Host.Outcome State Fault Refusal :=
  .next (s.command h 0x04 (addrWords addr) (fun s c => (s.readToken addr).lcRequest c token))

/-- LC_CHALLENGE (R485). -/
def execLcChallenge (h : Hdr) (s : State) : Host.Outcome State Fault Refusal :=
  .next (s.command h 0x03 [] (fun s c =>
    let (n, s) := s.draw 32
    (s.onLc (fun l => { l with challenge := some n })).answer c 0))

/-- DOM_LC_STATUS. -/
def LifeCycle.statusWord (l : LifeCycle) : Word32 :=
  BitVec.ofNat 32 (2 ^ 15 * b2n l.taint + 2 ^ 14 * b2n l.debug + 2 ^ 13 * b2n l.digestValid + 2 ^ 12 * b2n (groupBlown l.otp 6) +
    2 ^ 8 * l.pending.toNat + 2 ^ 4 * l.phase.toNat + l.state.toNat)

/-- LC_STATUS (R488, R603). -/
def execLcStatus (h : Hdr) (s : State) : Host.Outcome State Fault Refusal :=
  .next (s.command h 0x05 [] (fun s c => s.answer c 0 [s.lc.statusWord]))

/-! ### Tamper and low VBAT (R465, meeting cases of R487) -/

/-- A zeroisation that did not come from the transition under way: before step 2 it ends the request, later it serves as
step 3. -/
def State.tamper (s : State) (cause inputs : Nat) : State :=
  let s := s.zeroise cause inputs
  match s.lc.running with
  | none => s
  | some t =>
    if s.lc.phase = 1 then
      let (b, s) := s.draw 4
      (s.onLc (fun l => { l with running := none, phase := 0 })).completeWhere (fun c => c.started && c.code == 0x04) 8
        [BitVec.ofNat 32 (Bytes.leNat b)] none
    else s.onLc (fun l => { l with running := some { t with erased := true } })

/-- TAMPER_INPUT (R465): an enabled input at its active level. -/
def execTamperInput (n : Fin 4) (s : State) : Host.Outcome State Fault Refusal :=
  .next (if s.dom.enable.getLsbD n.val then s.tamper 1 (2 ^ n.val) else s)

/-- VBAT_LOW_TIMEOUT (R465): the first zeroisation of a low VBAT, or one more after a Domain Root was written. -/
def State.vbatTimeout (s : State) : State :=
  if s.dom.vbatLow ∧ s.dom.railPresent ∧ (!s.dom.lowDone ∨ s.dom.hasRoot) then
    (s.tamper 2 0).onDom (fun d => { d with lowDone := true })
  else s

/-- VBAT_LOW_TIMEOUT. -/
def execVbatLowTimeout (s : State) : Host.Outcome State Fault Refusal := .next s.vbatTimeout

end Sys2Proof.Machine
end

