-- ==== Sys2Proof/Machine/Boot.lean ====
section
/-!
DEFINITION. The ROM loader and recovery (spec/14_tower_and_mailboxes.md R580 to R585; spec/12_attestation.md R500), and the
release of islands from reset (spec/18_islands_clocks_power.md R735).
-/

namespace Sys2Proof.Machine

/-- BODY_SIZE of an image (R580). -/
def imageBody (b : Bytes) : Nat := Bytes.le b 12 4

/-- Steps 2 to 4 of R582 on an image: the step that fails, zero for none. -/
def imageFailure (b : Bytes) : Nat :=
  let n := imageBody b
  let pk := Bytes.slice b (64 + n) 1952
  let ec := Bytes.slice b (2016 + n) 97
  let m := b.take (2176 + n)
  if b.take 4 ≠ [0x4F, 0x4E, 0x46, 0x57] ∨ Bytes.le b 4 2 ≠ 1 ∨ n % 64 ≠ 0 ∨ 163840 < n ∨ b.length ≠ 5584 + n ∨
      n ≤ Bytes.le b 16 4 ∨ !Bytes.zeroAt b 20 44 ∨ !Bytes.zeroAt b (2113 + n) 63 ∨ !Bytes.zeroAt b (5485 + n) 3 then 2
  else if 3 < Bytes.le b 6 2 ∨ Config.romKeyDigest (Bytes.le b 6 2) ≠ Sha.sha384 (pk ++ ec) then 3
  else if !(Config.mldsaVerify pk (ascii "ONRUS-FW") m (Bytes.slice b (2176 + n) 3309) &&
      Config.ecdsaVerify ec m (Bytes.slice b (5488 + n) 96)) then 4
  else 0

/-- Step of R582 at which an attempt on an image fails; a read that fails is step 1. -/
def bufFailure (b : Buf) : Nat :=
  match b with
  | none => 1
  | some x => imageFailure x

/-- Steps 5 and 6 of R582: the DICE store, the firmware RAM, and the cores started. -/
def State.startImage (s : State) (b : Bytes) : State :=
  let digest := Sha.sha384 b
  let svn := Bytes.slice b 8 4
  { s with
    att := { s.att with dice := s.diceStore digest svn }
    ram := Ram.ofBytes 0 (Bytes.slice b 64 (imageBody b))
    fw := { s.fw with running := true, recovery := false, svn := svn, digest := digest, words := [] } }

/-- One attempt on an image (R582, R583): it starts, or the loader waits in recovery. -/
def State.tryImage (s : State) (b : Buf) : State :=
  let f := bufFailure b
  if f = 0 then s.startImage (b.getD []) else { s with fw := { s.fw with recovery := true, lastStep := BitVec.ofNat 8 f, words := [] } }

/-- The ROM loader may run (R490, R582, R735): Tower is out of reset, the decoded state is not pending. -/
def State.romReady (s : State) : Bool := s.live 1 && s.pwr.rootStepsDone && s.lc.pending == 0 && s.lc.running.isNone

/-- ROM_LOADER_START (R582). -/
def State.romStart (s : State) (image : Buf) : State :=
  if s.romReady ∧ !s.fw.running ∧ !s.fw.recovery then s.tryImage image else s

/-- ROM_LOADER_START. -/
def execRomLoaderStart (image : Buf) (s : State) : Host.Outcome State Fault Refusal := .next (s.romStart image)

/-- RECOVERY_WORD (R584, R585): each word is taken as it arrives, the one that MBX0 holds or one written now; after three the
buffer is read and tried, and MBX0 answers. -/
def State.recoveryWord (s : State) (w : Word32) (buf : Buf) : State :=
  if !s.fw.recovery ∨ !s.live 1 then s
  else
    let s := if (s.mbx.get 0).tx.isEmpty then s.mbxTxWrite 0 w else s
    let w := (((s.mbx.get 0).tx.head?).getD {}).word
    let s := s.txTake 0 1
    let ws := s.fw.words ++ [w]
    if ws.length < 3 then { s with fw := { s.fw with words := ws } }
    else
      let lo := (ws[0]?).getD 0
      let hi := (ws[1]?).getD 0
      let s := (s.dmaRead 0 (lo.toNat + 2 ^ 32 * hi.toNat) w.toNat).tryImage buf
      s.rxPush 0 (BitVec.ofNat 32 (bufFailure buf))

/-- RECOVERY_WORD. -/
def execRecoveryWord (w : Word32) (buf : Buf) (s : State) : Host.Outcome State Fault Refusal := .next (s.recoveryWord w buf)

/-- ISLAND_PLL_LOCK (R735): the island leaves reset; SPR raises RESET_DONE once. DOM, SPR, TWR and OBS need no load to be
in service. -/
def State.pllLock (s : State) (i : Nat) : State :=
  let r := s.isl.get i
  if s.pwr.hresetLow ∨ !s.dom.railPresent ∨ !r.inReset ∨ r.clockHeld ∨ s.clamped i then s
  else
    let s := s.onIsl i (fun r => { r with inReset := false, loaded := r.loaded || ((i == 1 || i == 2 || i == 44) && !s.pwr.committed) })
    if i = 2 ∧ !s.spr.resetDone then State.raiseEvent (s.onSpr (fun p => { p with resetDone := true })) 0x02 0 2 else s

/-- ISLAND_PLL_LOCK. -/
def execIslandPllLock (i : Fin 46) (s : State) : Host.Outcome State Fault Refusal := .next (s.pllLock i.val)

end Sys2Proof.Machine
end

