-- ==== Sys2Proof/Machine/HostLink.lean ====
section
/-!
DEFINITION. The host link: the traffic of HP, IDE_KM and TDISP (spec/07_fabric_and_host_links.md R341 to R346,
spec/17_ports_and_pads.md R690).
-/

namespace Sys2Proof.Machine

/-! ### Slots of a partition (R536, R538) -/

/-- A slot that a fill may take: EMPTY, and not set aside for a fill under way. -/
def State.slotFree (s : State) (n : Nat) : Bool :=
  (s.slot n).state == 0 && !(s.obj (objKey 4 n)).used && !s.dom.queue.any (fun k => k.slot == n)

/-- The EMPTY slots of a partition's run, rising. -/
def State.emptySlots (s : State) (p : Nat) : List Nat :=
  ((List.range (s.allot p 2)).map (· + (s.part p).slot0)).filter s.slotFree

/-- The slot a fill takes: the lowest EMPTY one, when RESERVE_SLOTS stay EMPTY after it (R525, R538). -/
def State.slotForFill (s : State) (p : Nat) : Option Nat :=
  let l := s.emptySlots p
  if l.length ≥ (s.part p).reserve + 1 then l.head? else none

/-! ### Outbound requests (R346) -/

/-- Data of an outbound request: what a write carries, or an atomic's operand. -/
def hostBody (q : MemReq) : Bytes := if q.atop = 0 then (if q.be.isEmpty then [] else Bytes.fit q.data q.len) else toLe 16 q.opnd.toNat

/-- Header of an outbound request's TLP: everything the request says but its data. -/
def hostHeader (q : MemReq) : Bytes := Config.tlpHeader (q.tdid != 0) { q with data := [], opnd := 0 }

/-- A non-posted request is remembered until its completion TLP comes. -/
def State.hostFlight (s : State) (q : MemReq) (sid : Option (BitVec 8)) : State :=
  let fl : HostFlight := { stream := sid, link := hostLink q, tid := q.tid.toNat, len := if q.be.isEmpty then q.len else 0 }
  if q.posted then s else s.onHcc (fun h => { h with flights := h.flights ++ [fl] })

/-- HOST_OUTBOUND_REQUEST: TDID 0 leaves without IDE; any other TDID on the stream of its partition's TDI in RUN, with TEE
set; else ERROR. -/
def State.hostOutbound (s : State) (q : MemReq) : State :=
  if !s.present hccIx then s
  else if q.tdid = 0 then (s.hostFlight q none).tlpOut none 0 (hostHeader q ++ hostBody q)
  else
    let t := s.tdi (s.tdidPart q.tdid.toNat)
    match (if t.state = 2 then t.stream else none) with
    | none => s.refuseHost q
    | some sid =>
      match s.ideCtx sid with
      | none => s.refuseHost q
      | some n =>
        let x := s.hcc.ctxs.get n
        let sub : BitVec 2 := if q.posted then 0 else 1
        if x.state ≠ 2 ∨ !laneTakes (Config.ideAad (hostHeader q)) (hostBody q) then s.refuseHost q
        else if x.counter sub false ≥ 2 ^ 64 - 1 then (s.ideFailed n).refuseHost q
        else match s.ideKey n sub false with
          | (s, .wait) => s.onHcc (fun h => { h with waitOut := h.waitOut ++ [q] })
          | (s, .missing) => s.refuseHost q
          | (s, .ready z) => (s.hostFlight q (some sid)).tlpSend n sub z q.tdid.toNat (hostHeader q) (hostBody q)

/-! ### Inbound TLPs (R38, R39, R343, R345) -/

/-- A completion TLP ends the outbound request it answers. -/
def State.hostCompletion (s : State) (sid : Option (BitVec 8)) (t : Tlp) (body : Bytes) : State :=
  let mine (f : HostFlight) : Bool := f.stream == sid && f.tid == t.q.tid.toNat && f.link == hostLink t.q
  match s.hcc.flights.find? mine with
  | some f => (s.onHcc (fun h => { h with flights := dropFirst mine h.flights })).done f.link f.tid true (Bytes.fit body f.len)
  | none => s

/-- A request enters the hub network with its TDID (R38); it never carries the Tower mark (R278), and its completion comes
back to HCC. -/
def State.hostEnter (s : State) (sid : Option (BitVec 8)) (t : Tlp) (body : Bytes) (tdid : Nat) : State :=
  let op := if t.q.atop ≠ 0 then SiteOp.atomic else if t.write then .write else .read
  let q := { t.q with tdid := BitVec.ofNat 7 tdid, data := if t.write then body else t.q.data, tower := false, link := asIsland hccIx }
  let ask : HostAsk := { stream := sid, tee := t.tee, tid := q.tid.toNat }
  let s := if q.posted then s else s.onHcc (fun h => { h with asks := h.asks ++ [ask] })
  s.emit (.hubReq hccIx op false q)

/-- An inbound request on a Secure stream, stamped by the state of the TDI bound to it (R345, R39). -/
def State.hostStamp (s : State) (sid : BitVec 8) (t : Tlp) (body : Bytes) : State :=
  match s.boundPart sid with
  | none => s.hostEnter (some sid) t body 0
  | some p =>
    if !t.tee then s.hostEnter (some sid) t body 0
    else if (s.tdi p).state = 2 then s.hostEnter (some sid) t body (s.boundTdid p)
    else if t.q.posted then s
    else s.hostReply { stream := sid, tee := true, tid := t.q.tid.toNat, status := 1 }

/-- A TLP that a lane opened: counted and taken, or its stream fails (R343). -/
def State.tlpOpened (s : State) (sid : BitVec 8) (t : Tlp) (body : Option Bytes) : State :=
  match s.ideCtx sid with
  | none => s
  | some n =>
    let tdid := (s.boundPart sid).elim 0 (fun p => s.boundTdid p)
    if (s.hcc.ctxs.get n).state ≠ 2 then s
    else match body with
      | none => (s.countT hccIx 0x05 tdid).ideFailed n
      | some b =>
        let s := ((s.countS hccIx 0x40 2).countT hccIx 0x04 tdid).countT hccIx 0x02 tdid (dataUnits b.length)
        let s := s.ideCounted n t.sub true
        if t.completion then s.hostCompletion (some sid) t b else s.hostStamp sid t b

/-- A TLP that an undecided vote discards has used its counter value (R141). -/
def State.tlpDiscarded (s : State) (sid : BitVec 8) (t : Tlp) : State :=
  match s.ideCtx sid with
  | none => s
  | some n => s.ideCounted n t.sub true

/-- An inbound TLP of a stream: checked and opened under its key, or dropped. -/
def State.hostInStream (s : State) (sid : BitVec 8) (t : Tlp) : State :=
  match s.ideCtx sid with
  | none => s
  | some n =>
    let x := s.hcc.ctxs.get n
    if x.state ≠ 2 then s
    else if x.counter t.sub true ≥ 2 ^ 64 - 1 ∨ !laneTakes (Config.ideAad t.aad) t.body then s.ideFailed n
    else match s.ideKey n t.sub true with
      | (s, .wait) => s.onHcc (fun h => { h with waitIn := h.waitIn ++ [(sid, t)] })
      | (s, .missing) => s.ideFailed n
      | (s, .ready z) =>
        let body := ideOpen (z.key.take 32) sid (x.counter t.sub true) t
        s.issueThen hccIx (.tlp sid t body) z.id (fun s => s.tlpOpened sid t body)

/-- HOST_INBOUND_TLP: a TLP without IDE carries TDID 0. -/
def State.hostInbound (s : State) (sid : Option (BitVec 8)) (t : Tlp) : State :=
  if !s.present hccIx then s
  else match sid with
    | some v => s.hostInStream v t
    | none => if t.completion then s.hostCompletion none t t.body else s.hostEnter none t t.body 0

/-- Everything that waited for a schedule or a lane of HCC tries again, in order (R111). -/
def State.hccRetry (s : State) : State :=
  let cpls := s.hcc.waitCpl
  let outs := s.hcc.waitOut
  let ins := s.hcc.waitIn
  let s := s.onHcc (fun h => { h with waitCpl := [], waitOut := [], waitIn := [] })
  let s := cpls.foldl (fun s r => s.hostReply r) s
  let s := outs.foldl (fun s q => s.hostOutbound q) s
  ins.foldl (fun s w => s.hostInStream w.1 w.2) s

/-- HOST_OUTBOUND_REQUEST: what waits goes first. -/
def execHostOutboundRequest (q : MemReq) (s : State) : Host.Outcome State Fault Refusal := 
  .next (s.atIngress hccIx (.hostOutboundRequest q) (fun s => s.hccRetry.hostOutbound q))

/-- HOST_INBOUND_TLP. -/
def execHostInboundTlp (ctx : Option (BitVec 8)) (tlp : Tlp) (s : State) : Host.Outcome State Fault Refusal :=
  .next (s.atIngress hccIx (.hostInboundTlp ctx tlp) (fun s => s.hccRetry.hostInbound ctx tlp))

/-- A schedule fill of HCC is refused (R464): what waited for the slot fails closed. -/
def State.hccFail (s : State) (slot : Nat) : State :=
  let uses := (s.hcc.ctxs.cells.filter (fun c => c.2.keys.cells.any (fun k => k.2 == slot))).map Prod.fst
  let sids := uses.map (fun n => (s.hcc.ctxs.get n).stream)
  let waits (q : MemReq) : Bool := match (s.tdi (s.tdidPart q.tdid.toNat)).stream with
    | some v => sids.contains v
    | none => false
  let held := s.hcc.waitOut.filter waits
  let s := s.onHcc (fun h => { h with
    waitCpl := h.waitCpl.filter (fun r => !sids.contains r.stream)
    waitOut := h.waitOut.filter (fun q => !waits q), waitIn := h.waitIn.filter (fun w => !sids.contains w.1) })
  held.foldl (fun s q => s.refuseHost q) s

/-! ### IDE_KM (R341, R342) -/

/-- Tower answers an IDE_KM request (the codes are those of PCIe 7.0 IDE). -/
def State.kmAnswer (s : State) (code : Nat) (data : Bytes) : State := s.emit (.kmResp code (Config.kmEncode code data))

/-- What an IDE_KM message names: stream, sub-stream, direction, key set. -/
def kmEcho (m : KmMsg) : Bytes := [m.stream, BitVec.ofNat 8 (keyIx m.sub m.rx m.kset)]

/-- Tower and HCC can serve key management. -/
def State.kmUp (s : State) : Bool := s.fwUp && s.live hccIx

/-- IDE_KM_QUERY. -/
def execIdeKmQuery (m : KmMsg) (s : State) : Host.Outcome State Fault Refusal :=
  .next (if s.kmUp then s.kmAnswer 1 (kmEcho m) else s)

/-- The context that KEY_PROG uses: the stream's, or the lowest unused of 64. -/
def State.ctxFor (s : State) (sid : BitVec 8) : Option Nat :=
  match s.ideCtx sid with
  | some n => some n
  | none => firstFrom 0 64 (fun n => !(s.hcc.ctxs.get n).valid)

/-- The attribute record of a key that KEY_PROG programs (R342, R449). -/
def State.ideAttr (s : State) (p : Nat) : BitVec 256 :=
  SlotSpec.attr { purpose := 2, masters := 8, world := 1, lcMask := 2 ^ s.lcBit, source := 3, part := p, tdid := s.boundTdid p }

/-- KEY_PROG (R342): the key enters a slot of the partition that owns the stream; a key it replaces retires. -/
def State.keyProg (s : State) (m : KmMsg) : State :=
  if !s.kmUp then s
  else
    let p := m.part.val
    match s.ctxFor m.stream, s.slotForFill p with
    | some n, some slot =>
      let x := s.hcc.ctxs.get n
      let ix := keyIx m.sub m.rx m.kset
      if (s.part p).state = .none ∨ m.sub = 3 ∨ m.key.length ≠ 32 ∨ (x.valid ∧ x.part ≠ p) ∨ x.going.contains ix then
        s.kmAnswer 3 ((kmEcho m) ++ [4])
      else
        let s := if x.keys.get ix = 0 then s else s.ideDrop (x.keys.get ix)
        let s := (s.fillSlot slot (s.ideAttr p) m.key).slotObject slot 0 true
        let s := s.onCtx n (fun x => { x with
          valid := true, stream := m.stream, part := p, state := if x.state = 0 then 1 else x.state
          keys := x.keys.set ix slot, count := x.count.set ix 0 })
        s.kmAnswer 3 ((kmEcho m) ++ [0])
    | _, _ => s.kmAnswer 3 ((kmEcho m) ++ [4])

/-- IDE_KM_KEY_PROG. -/
def execIdeKmKeyProg (m : KmMsg) (s : State) : Host.Outcome State Fault Refusal := .next (s.keyProg m)

/-- Every sub-stream runs in both directions: the stream is Secure. -/
def IdeCtx.allGo (x : IdeCtx) : Bool :=
  [0, 1, 2].all (fun sub => [true, false].all (fun rx => (x.runningSet (BitVec.ofNat 2 sub) rx).isSome))

/-- K_SET_GO (R341): a programmed key set runs; the stream is Secure once all six sub-streams run. -/
def State.kSetGo (s : State) (m : KmMsg) : State :=
  if !s.kmUp then s
  else match s.ideCtx m.stream with
    | none => s
    | some n =>
      let ix := keyIx m.sub m.rx m.kset
      let go (x : IdeCtx) : IdeCtx :=
        let x := { x with
          going := x.going.filter (fun g => g != keyIx m.sub m.rx !m.kset && g != ix) ++ [ix]
          ksetRx := if m.rx then m.kset else x.ksetRx, ksetTx := if m.rx then x.ksetTx else m.kset }
        if x.allGo then { x with state := 2 } else x
      if (s.hcc.ctxs.get n).keys.get ix = 0 then s else (s.onCtx n go).kmAnswer 6 (kmEcho m)

/-- IDE_KM_K_SET_GO. -/
def execIdeKmKSetGo (m : KmMsg) (s : State) : Host.Outcome State Fault Refusal := .next (s.kSetGo m)

/-- A context with no key left is unused. -/
def State.ctxTidy (s : State) (n : Nat) : State :=
  s.onCtx n (fun x => if x.keys.cells.isEmpty then default else x)

/-- K_SET_STOP (R342, R343): the key set's slot is zeroed; a running set takes the stream out of Secure. -/
def State.kSetStop (s : State) (m : KmMsg) : State :=
  if !s.kmUp then s
  else match s.ideCtx m.stream with
    | none => s
    | some n =>
      let ix := keyIx m.sub m.rx m.kset
      let x := s.hcc.ctxs.get n
      let s := if x.keys.get ix = 0 then s else s.ideDrop (x.keys.get ix)
      let s := s.onCtx n (fun x => { x with keys := x.keys.set ix 0, count := x.count.set ix 0, going := x.going.filter (· != ix) })
      let s := if x.state = 2 ∧ x.going.contains ix then s.streamInsecure n else s
      (s.ctxTidy n).kmAnswer 6 (kmEcho m)

/-- IDE_KM_K_SET_STOP. -/
def execIdeKmKSetStop (m : KmMsg) (s : State) : Host.Outcome State Fault Refusal := .next (s.kSetStop m)

/-! ### TDISP (R344, R345) -/

/-- Tower answers a TDISP message (the codes are those of PCIe TDISP; 0x7F is TDISP_ERROR). -/
def State.tdispAnswer (s : State) (code : Nat) (data : Bytes) : State := s.emit (.kmResp code (Config.tdispEncode code data))

/-- A TDISP message for partition `p`: answered when Tower runs, with TDISP_ERROR when there is no such partition. -/
def State.tdisp (s : State) (p : Nat) (body : State) : State :=
  if !s.fwUp then s
  else if (s.part p).state = .none then s.tdispAnswer 0x7F (toLe 4 0x101)
  else body

/-- GET_TDISP_VERSION. -/
def execGetTdispVersion (part : Fin 128) (s : State) : Host.Outcome State Fault Refusal :=
  .next (s.tdisp part.val (s.tdispAnswer 1 [1, 0x10]))

/-- GET_TDISP_CAPABILITIES. -/
def execGetTdispCapabilities (part : Fin 128) (s : State) : Host.Outcome State Fault Refusal :=
  .next (s.tdisp part.val (s.tdispAnswer 2 []))

/-- LOCK_INTERFACE_REQUEST (R345): binds the TDI to a Secure stream of its partition. -/
def State.lockInterface (s : State) (p : Nat) (sid : BitVec 8) : State :=
  let secure := match s.ideCtx sid with
    | some n => (s.hcc.ctxs.get n).state == 2 && (s.hcc.ctxs.get n).part == p
    | none => false
  if s.boundTdid p = 0 ∨ (s.tdi p).state ≠ 0 ∨ !secure ∨ (s.boundPart sid).isSome then s.tdispAnswer 0x7F (toLe 4 4)
  else
    let (nonce, s) := s.draw 32
    (s.onTdi p (fun _ => { state := 1, stream := some sid, nonce := nonce })).tdispAnswer 3 nonce

/-- LOCK_INTERFACE_REQUEST. -/
def execLockInterfaceRequest (part : Fin 128) (stream : BitVec 8) (s : State) : Host.Outcome State Fault Refusal :=
  .next (s.tdisp part.val (s.lockInterface part.val stream))

/-- GET_DEVICE_INTERFACE_REPORT (R345): the MMIO ranges and the digest of the standing record. -/
def execGetDeviceInterfaceReport (part : Fin 128) (s : State) : Host.Outcome State Fault Refusal :=
  .next (s.tdisp part.val (s.tdispAnswer 4 (Config.mmioRanges part.val ++ Sha.sha384 (s.att.standing.get part.val))))

/-- GET_DEVICE_INTERFACE_STATE. -/
def execGetDeviceInterfaceState (part : Fin 128) (s : State) : Host.Outcome State Fault Refusal :=
  .next (s.tdisp part.val (s.tdispAnswer 5 [BitVec.ofNat 8 (s.tdi part.val).state.toNat]))

/-- START_INTERFACE_REQUEST: a locked TDI enters RUN on the nonce of its lock. -/
def State.startInterface (s : State) (p : Nat) (nonce : Bytes) : State :=
  let t := s.tdi p
  if t.state = 1 ∧ t.nonce = nonce then (s.onTdi p (fun t => { t with state := 2, nonce := [] })).tdispAnswer 6 []
  else s.tdispAnswer 0x7F (toLe 4 (if t.state = 1 then 0x102 else 4))

/-- START_INTERFACE_REQUEST. -/
def execStartInterfaceRequest (part : Fin 128) (nonce : Bytes) (s : State) : Host.Outcome State Fault Refusal :=
  .next (s.tdisp part.val (s.startInterface part.val nonce))

/-- The TDI of a partition returns to CONFIG_UNLOCKED (R344, R568). -/
def State.tdiUnlock (s : State) (p : Nat) : State := s.onTdi p (fun _ => {})

/-- STOP_INTERFACE_REQUEST. -/
def execStopInterfaceRequest (part : Fin 128) (s : State) : Host.Outcome State Fault Refusal :=
  .next (s.tdisp part.val ((s.tdiUnlock part.val).tdispAnswer 7 []))

/-- The IDE streams of a partition end: its key slots are zeroed and its contexts unused (R342, R568). -/
def State.ideTeardown (s : State) (p : Nat) : State :=
  (s.hcc.ctxs.keysWhere (fun _ x => x.valid && x.part == p)).foldl (fun s n =>
    (s.streamInsecure n).onCtx n (fun _ => default)) s

end Sys2Proof.Machine
end

