-- ==== Sys2Proof/Machine/Belfry.lean ====
section
/-!
DEFINITION. The arithmetic of Belfry and its units: W96 and B32 values, element formats and layouts, adding a written line
to a signature, merging partials and deciding a check (spec/08_belfry_checking.md R352 to R391).
-/

namespace Sys2Proof.Machine

/-! ### Numbers (R369 to R371). An exact number is a pair (m, e) for m × 2^e. -/

/-- SIG and EXP of a W96 value (R369). -/
def w96Parts (v : BitVec 96) : Int × Int := ((v.extractLsb' 10 86).toInt, (v.extractLsb' 0 10).toInt)

/-- A W96 value of SIG and EXP. -/
def w96Pack (sig exp : Int) : BitVec 96 := BitVec.ofInt 86 sig ++ BitVec.ofInt 10 exp

/-- M and E of a B32 value (R370). -/
def b32Parts (v : Word32) : Nat × Int := ((v.extractLsb' 10 22).toNat, (v.extractLsb' 0 10).toInt)

/-- A B32 value of M and E. -/
def b32Pack (m : Nat) (e : Int) : Word32 := BitVec.ofNat 22 m ++ BitVec.ofInt 10 e

/-- Zero in W96 and in B32. -/
def w96Zero : BitVec 96 := 0x200

/-- A W96 result: the value, its EXP, whether it was rounded, and whether its EXP exceeds 511. -/
structure W96Res where
  value : BitVec 96
  exp : Int := 0
  inexact : Bool := false
  isOver : Bool := false

/-- Round an exact number once to W96, to nearest with ties to even (R371). -/
def w96Round (m e : Int) : W96Res :=
  if m = 0 then { value := w96Zero, exp := -512 }
  else
    let a := m.natAbs
    let sh0 : Int := (Nat.log2 a : Int) - 83
    let sh := if e + sh0 < -512 then -512 - e else sh0
    let exp := e + sh
    let q := if sh ≤ 0 then a * 2 ^ sh.natAbs else a / 2 ^ sh.natAbs
    let r := if sh ≤ 0 then 0 else a % 2 ^ sh.natAbs
    let half := 2 ^ (sh.natAbs - 1)
    let q := if sh > 0 ∧ (r > half ∨ (r = half ∧ q % 2 = 1)) then q + 1 else q
    let (q, exp) := if q = 2 ^ 84 then (2 ^ 83, exp + 1) else (q, exp)
    let sg : Int := if m < 0 then -(q : Int) else q
    { value := if exp > 511 then Config.w96Over m e else w96Pack sg exp, exp := exp, inexact := r != 0, isOver := decide (exp > 511) }

/-- Sum of two exact numbers. -/
def exactAdd (a b : Int × Int) : Int × Int :=
  let e := min a.2 b.2
  (a.1 * 2 ^ (a.2 - e).toNat + b.1 * 2 ^ (b.2 - e).toNat, e)

/-- Round an exact number that is not negative to B32, upward (R370). -/
def b32Round (m : Nat) (e : Int) : Word32 :=
  if m = 0 then 0x200
  else
    let sh0 : Int := (Nat.log2 m : Int) - 21
    let sh := if e + sh0 < -512 then -512 - e else sh0
    let exp := e + sh
    let q := if sh ≤ 0 then m * 2 ^ sh.natAbs else (m + 2 ^ sh.natAbs - 1) / 2 ^ sh.natAbs
    let q := max q (2 ^ 21)
    let (q, exp) := if q = 2 ^ 22 then (2 ^ 21, exp + 1) else (q, exp)
    if exp > 511 then Config.b32Over m e else b32Pack q exp

/-- The exact value of a B32 value. -/
def b32Exact (v : Word32) : Int × Int := ((b32Parts v).1, (b32Parts v).2)

/-- B32 addition. -/
def b32Add (a b : Word32) : Word32 :=
  let s := exactAdd (b32Exact a) (b32Exact b)
  b32Round s.1.natAbs s.2

/-- B32 multiplication. -/
def b32Mul (a b : Word32) : Word32 :=
  b32Round ((b32Parts a).1 * (b32Parts b).1) ((b32Parts a).2 + (b32Parts b).2)

/-- The magnitude of an exact number in B32. -/
def b32Abs (v : Int × Int) : Word32 := b32Round v.1.natAbs v.2

/-- A running W96 value with the error bound and overflow of its owner (R371). -/
structure Run where
  value : BitVec 96 := w96Zero
  err : Word32 := 0x200
  isOver : Bool := false

/-- One W96 result of exact parts, charged to its owner. -/
def Run.take (r : Run) (m e : Int) : Run :=
  let x := w96Round m e
  { value := x.value
    err := if x.inexact then b32Add r.err (b32Round 1 (x.exp - 1)) else r.err
    isOver := r.isOver || x.isOver }

/-- Add an exact number to a running W96 value. -/
def Run.add (r : Run) (v : Int × Int) : Run :=
  let s := exactAdd (w96Parts r.value) v
  r.take s.1 s.2

/-- Add the product of two W96 values: the product is rounded, then the sum. -/
def Run.addProduct (r : Run) (a b : BitVec 96) : Run :=
  let (x, ex) := w96Parts a
  let (y, ey) := w96Parts b
  let p := ({ r with value := w96Zero } : Run).take (x * y) (ex + ey)
  ({ p with value := r.value } : Run).add (w96Parts p.value)

/-! ### Formats and layouts (R361 to R368) -/

/-- A format table entry (R366, R367): `kind` 1 UINT, 2 SINT, 3 FLOAT; `mx` 0 no, 1 yes, 2 only with MX. -/
structure Format where
  kind : Nat
  w : Nat
  exp : Nat := 0
  bias : Nat := 0
  specials : Nat := 0
  scale : Int := 0
  mx : Nat := 0

/-- The built-in formats (R366). -/
def builtInFormat (i : Nat) : Option Format :=
  match i with
  | 0 => some { kind := 2, w := 8 }
  | 1 => some { kind := 1, w := 8 }
  | 2 => some { kind := 3, w := 32, exp := 8, bias := 127, specials := 3 }
  | 3 => some { kind := 3, w := 16, exp := 5, bias := 15, specials := 3 }
  | 4 => some { kind := 3, w := 16, exp := 8, bias := 127, specials := 3 }
  | 5 => some { kind := 3, w := 8, exp := 4, bias := 7, specials := 4, mx := 1 }
  | 6 => some { kind := 3, w := 8, exp := 5, bias := 15, specials := 3, mx := 1 }
  | 7 => some { kind := 3, w := 6, exp := 3, bias := 3, mx := 1 }
  | 8 => some { kind := 3, w := 6, exp := 2, bias := 1, mx := 1 }
  | 9 => some { kind := 3, w := 4, exp := 2, bias := 1, mx := 1 }
  | 10 => some { kind := 2, w := 8, scale := -6, mx := 2 }
  | _ => none

/-- A NUMERIC_FORMATS entry as a format (R367). -/
def formatOf (e : Bytes) : Format :=
  { kind := Bytes.at e 1, w := Bytes.at e 2, exp := Bytes.at e 3, bias := Bytes.at e 4, specials := Bytes.at e 5,
    scale := (BitVec.ofNat 8 (Bytes.at e 6)).toInt, mx := Bytes.at e 7 % 2 }

/-- Entry `n` of the format table in an island (R366). -/
def State.format (s : State) (i n : Nat) : Option Format :=
  match builtInFormat n with
  | some f => some f
  | none => ((s.entriesOf i 10).find? (fun e => Bytes.at e 0 == n)).map formatOf

/-- The value of an element's bits (R368): none for an infinite value or NaN. -/
def Format.decode (f : Format) (x : Nat) : Option (Int × Int) :=
  if f.kind = 1 then some (x, f.scale)
  else if f.kind = 2 then some ((BitVec.ofNat f.w x).toInt, f.scale)
  else
    let m := f.w - 1 - f.exp
    let e := x / 2 ^ m % 2 ^ f.exp
    let fr := x % 2 ^ m
    let neg := x.testBit (f.w - 1)
    let top := e == 2 ^ f.exp - 1
    let isInf := bit f.specials 0 && top && fr == 0
    let isNan := (bit f.specials 1 && top && fr != 0) || (bit f.specials 2 && top && fr == 2 ^ m - 1)
    if isInf || isNan then none
    else
      let mag : Int := if e = 0 then fr else 2 ^ m + fr
      let ex : Int := (if e = 0 then 1 else (e : Int)) - f.bias - m
      some (if neg then -mag else mag, ex + f.scale)

/-- Positions a line holds (R361, R362). -/
def lineD (w : Nat) (sparse : Bool) : Nat := if sparse then 4 * (512 / (2 * w + 4)) else 512 / w

/-- Scale lines of a granule (R363). -/
def scaleLines (d : Nat) : Nat := (firstFrom 1 63 (fun s => decide ((64 - s) * d / 32 ≤ 64 * s))).getD 63

/-- Positions of a granule (R363). -/
def granuleP (d : Nat) : Nat := 32 * ((64 - scaleLines d) * d / 32)

/-- Row span in bytes (R355). -/
def Sig.rowSpan (g : Sig) (w : Nat) : Nat :=
  let d := lineD w g.sparse
  if g.mx then (g.cols + granuleP d - 1) / granuleP d * 4096 else (g.cols + d - 1) / d * 64

/-- End of the tensor span (R355). -/
def Sig.spanEnd (g : Sig) (w : Nat) : Nat := g.base + (g.rows - 1) * g.pitch + g.rowSpan w

/-- Vector length of a signature. -/
def Sig.vlen (g : Sig) : Nat := if g.kind = 0 then 1 else if g.kind = 1 then g.rows else g.cols

/-- Mark a flag (R377). -/
def Sig.mark (g : Sig) (i : Nat) : Sig := { g with flags := g.flags ||| BitVec.ofNat 4 (2 ^ i) }

/-- Add one element at entry `k` of a unit's partial (R358, R371). -/
def Sig.addValue (g : Sig) (unit k : Nat) (v : Int × Int) : Sig :=
  let key := 131072 * unit + k
  let a := g.acc.get key
  let r := ({ value := a.sum, err := (g.err[unit]?).getD 0x200, isOver := false } : Run).add v
  let abs := exactAdd (b32Exact a.abs) (v.1.natAbs, v.2)
  let g := { g with acc := g.acc.set key { sum := r.value, abs := b32Round abs.1.natAbs abs.2 }, err := g.err.set unit r.err }
  if r.isOver then g.mark 3 else g

/-- What position `i` of a line holds: `some none` an unstored sparse position, `none` a group that is refused (R361,
R362). -/
def positionBits (w : Nat) (sparse : Bool) (line : Nat) (i : Nat) : Option (Option Nat) :=
  if sparse then
    let groups := 512 / (2 * w + 4)
    let g := i / 4
    let ix := line / 2 ^ (2 * w * groups + 4 * g) % 16
    let p0 := ix % 4
    let p1 := ix / 4
    if p0 ≥ p1 then none
    else if i % 4 = p0 then some (some (line / 2 ^ (w * (2 * g)) % 2 ^ w))
    else if i % 4 = p1 then some (some (line / 2 ^ (w * (2 * g + 1)) % 2 ^ w))
    else some none
  else some (some (line / 2 ^ (w * i) % 2 ^ w))

/-- Bytes that position `i` of a dense line touches are all enabled, or none is (R359). -/
def positionEnabled (w i : Nat) (be : List Bool) : Bool × Bool :=
  let bs := (be.drop (w * i / 8)).take ((w * i + w - 1) / 8 - w * i / 8 + 1)
  (bs.all (fun b => b), bs.any (fun b => b))

/-- One position of a line: its column, its scale (2^scale), its bits (R358 to R360, R368). The result counts an ignored
position or an added element. -/
def Sig.addPosition (g : Sig) (f : Format) (unit row col : Nat) (scale : Option Int) (bits : Option (Option Nat)) :
    Sig × Nat × Nat :=
  if col ≥ g.cols then (g, 0, 1)
  else
    let k := if g.kind = 1 then row else if g.kind = 2 then col else 0
    match bits, scale with
    | none, _ => (g.mark 1, 0, 0)
    | _, none => (g.mark 2, 0, 0)
    | some none, some _ => (g.addValue unit k (0, 0), 1, 0)
    | some (some x), some sc => match f.decode x with
      | some (m, e) => (g.addValue unit k (m, e + sc), 1, 0)
      | none => (g.mark 2, 0, 0)

/-- Add the positions of a line from column `c0` on (R358); `last` bounds the positions of an MX granule. -/
def Sig.addPositions (g : Sig) (f : Format) (unit row c0 n : Nat) (be : List Bool) (full : Bool) (line : Nat)
    (last : Nat) (scaleOf : Nat → Option Int) : Sig × Nat × Nat :=
  (List.range n).foldl (fun (acc : Sig × Nat × Nat) i =>
    if i ≥ last then acc
    else
      let (g, el, ig) := acc
      let (all, any) := if full then (true, true) else positionEnabled f.w i be
      if any && decide (g.cols ≤ c0 + i) then (g, el, ig + 1)
      else if all then
        let (g, a, b) := g.addPosition f unit row (c0 + i) (scaleOf i) (positionBits f.w g.sparse line i)
        (g, el + a, ig + b)
      else if any then (g.mark 1, el, ig)
      else (g, el, ig)) (g, 0, 0)

/-- The scale of granule position `q` from the granule's scale lines (R364): none for NaN. -/
def scaleAt (lines : List (Nat × Bytes)) (q : Nat) : Option Int :=
  let b := q / 32
  match lines.find? (fun l => l.1 == b / 64) with
  | some l => let v := Bytes.at l.2 (b % 64); if v = 255 then none else some ((v : Int) - 127)
  | none => none

/-- Store a scale line in a unit's buffer of 256 granules, most recently used first (R365). -/
def storeScale (slots : List ScaleSlot) (granule l : Nat) (line : Bytes) : List ScaleSlot :=
  let old := (slots.find? (fun x => x.granule == granule)).getD { granule := granule }
  let x := { old with lines := old.lines.filter (fun p => p.1 != l) ++ [(l, line)] }
  (x :: slots.filter (fun x => x.granule != granule)).take 256

/-! ### Adding a line (R352 to R360, R392) -/

/-- The signature that takes a line whose write passes its check on entry `e` with SIGN and index `idx` at MCCk (R352, R374):
a CLOSING one while the replica has not applied its clear of that entry, else the OPEN one of the index. -/
def State.sigFor (s : State) (k e idx : Nat) : Option Nat :=
  let at_ (g : Sig) : Bool := g.index == idx && g.entries.contains e
  match s.bel.sigs.keysWhere (fun _ g => g.state == .closing && at_ g && !g.cleared.contains (k, e)) with
  | h :: _ => some h
  | [] => (s.bel.sigs.keysWhere (fun _ g => g.state == .opened && at_ g)).head?

/-- Change a signature. -/
def State.onSig (s : State) (h : Nat) (f : Sig → Sig) : State := { s with bel := { s.bel with sigs := s.bel.sigs.modify h f } }

/-- The Belfry unit of MCCk adds no lines: throttled (R392), not yet resumed (R743), under test or disabled (R636, R638). -/
def State.belfryIdle (s : State) (k : Nat) : Bool :=
  s.spr.gov.stages.getLsbD 2 || decide (8 - s.pwr.belfryWait ≤ k) || s.ftu.disabled.contains k ||
    (match s.ftu.target with | some (2, i, _) => i == mccIx k | _ => false)

/-- A line of a signature in a unit (R358, R359): the signature, the elements added, the lines and positions ignored, and
the unit's scale buffer. -/
def Sig.addLine (g : Sig) (f : Format) (unit pa : Nat) (line : Bytes) (be : List Bool) (slots : List ScaleSlot) :
    Sig × Nat × Nat × List ScaleSlot :=
  let ignored (g : Sig) : Sig × Nat × Nat × List ScaleSlot :=
    ({ g with ignored := g.ignored.modify unit (· + 1) }, 0, 1, slots)
  if pa < g.base then ignored g
  else
    let r := (pa - g.base) / g.pitch
    let o := (pa - g.base) % g.pitch
    let d := lineD f.w g.sparse
    let full := be.all (fun b => b)
    if r ≥ g.rows ∨ o ≥ g.rowSpan f.w then ignored g
    else if !full && (g.mx || g.sparse) then (g.mark 1, 0, 0, slots)
    else
      let counted (g : Sig) : Sig := { g with added := g.added.modify unit (· + 1) }
      if g.mx then
        let l := o / 64 % 64
        let sl := scaleLines d
        let gr := pa / 4096
        if l < sl then (counted g, 0, 0, storeScale slots gr l line)
        else
          let q0 := (l - sl) * d
          match slots.find? (fun x => x.granule == gr) with
          | some x =>
            if (List.range sl).all (fun i => x.lines.any (fun p => p.1 == i)) then
              let (g, el, ig) := g.addPositions f unit r (o / 4096 * granuleP d + q0) d be full (Bytes.leNat line)
                (granuleP d - q0) (fun i => scaleAt x.lines (q0 + i))
              (counted g, el, ig, x :: slots.filter (fun y => y.granule != gr))
            else (g.mark 1, 0, 0, slots)
          | none => (g.mark 1, 0, 0, slots)
      else
        let (g, el, ig) := g.addPositions f unit r (o / 64 * d) d be full (Bytes.leNat line) d (fun _ => some 0)
        (counted g, el, ig, slots)

/-- BELFRY_LINE_ADD (R352, R358, R392): MCCk's unit adds a line to signature `h`, or, while it adds none, marks it INCOMPLETE
where it would have added the line. -/
def State.belfryAdd (s : State) (k h pa : Nat) (line : Bytes) (be : List Bool) : State :=
  let c := mccIx k
  let g := s.bel.sigs.get h
  if g.state ≠ .opened ∧ g.state ≠ .closing then s
  else match s.format c g.format with
    | none => s
    | some f =>
      let (g', el, ig, slots) := g.addLine f k pa (Bytes.fit line 64) be (s.bel.scales.get k)
      if s.belfryIdle k && g'.added != g.added then (s.onSig h (fun g => g.mark 1)).countT c 0x22 128
      else
        let s := { s with bel := { s.bel with sigs := s.bel.sigs.set h g', scales := s.bel.scales.set k slots } }
        let s := if el = 0 then s else s.count c { code := 0x20, tdid := g.tdid, fmt := g.format, n := el }
        if ig = 0 then s else s.countT c 0x21 128 ig

/-- A write that was added to a signature has failed (R206, R377). -/
def State.belfryFailed (s : State) (o : LineOp) : State :=
  match o.sig with
  | some h => if o.added then s.onSig h (fun g => g.mark 0) else s
  | none => s

/-- An atomic on a signed entry that addresses a line of the tensor leaves the signature INCOMPLETE (R354). -/
def State.belfryAtomic (s : State) (h pa : Nat) : State :=
  let g := s.bel.sigs.get h
  let inside := match s.format 43 g.format with
    | some f => decide (g.base ≤ pa ∧ pa < g.spanEnd f.w) && decide ((pa - g.base) % g.pitch < g.rowSpan f.w)
    | none => false
  if inside then s.onSig h (fun g => g.mark 1) else s

/-- An MX signature keeps the scale buffers in use: it is OPEN, or a unit may still add its lines (R365, R372). -/
def State.scalesUsed (s : State) : Bool := s.bel.sigs.cells.any (fun c => c.2.mx && (c.2.state == .opened || c.2.state == .closing))

/-- The scale buffers are let go when no MX signature uses them (R365). -/
def State.scalesRest (s : State) : State := if s.scalesUsed then s else { s with bel := { s.bel with scales := {} } }

/-- A signature is FREE again: no line that waits is added to it any more (R374). -/
def State.dropSig (s : State) (h : Nat) : State :=
  let f (o : LineOp) : LineOp := if o.sig == some h then { o with sig := none } else o
  State.scalesRest { s with
    bel := { s.bel with sigs := s.bel.sigs.set h default }
    mem := s.mem.mapKeys (fun _ m => { m with ops := m.ops.map f }) }

/-- Accumulator entries a signature occupies in unit `u` (R372). -/
def Sig.entriesIn (g : Sig) (u : Nat) : Nat :=
  match g.state with
  | .free => 0
  | .closed => if g.index % 8 = u then g.vlen else 0
  | _ => g.vlen

/-! ### Merge (R376) -/

/-- Entry `k` of the merged vector: the sum of the eight partials under R371. -/
def Sig.mergeEntry (g : Sig) (k : Nat) (r : Run) : Run × Accum :=
  let parts := (List.range 8).map (fun u => g.acc.get (131072 * u + k))
  let r := parts.foldl (fun (r : Run) a => r.add (w96Parts a.sum)) { r with value := w96Zero }
  (r, { sum := r.value, abs := parts.foldl (fun b a => b32Add b a.abs) 0x200 })

/-- The signature after its merge: merged entries as unit 8, merged ERR, the units' entries released. -/
def Sig.merged (g : Sig) : Sig :=
  let err0 := (g.err.take 8).foldl b32Add 0x200
  let (r, acc) := (List.range g.vlen).foldl (fun (p : Run × Tbl Accum) k =>
    let (r, a) := g.mergeEntry k p.1
    (r, p.2.set (131072 * 8 + k) a)) (({ err := err0 } : Run), ({} : Tbl Accum))
  let g := { g with state := .closed, acc := acc, err := List.replicate 8 0x200 ++ [r.err] }
  if r.isOver then g.mark 3 else g

/-! ### Check (R382 to R386) -/

/-- The finite, non-negative value of an IEEE binary32 number. -/
def binary32 (v : Nat) : Int × Int :=
  let e := v / 2 ^ 23 % 256
  let m : Nat := v % 2 ^ 23
  if e = 0 then (Int.ofNat m, -149) else (Int.ofNat (m + 2 ^ 23), Int.ofNat e - 150)

/-- Breakpoints of a tolerance curve: X in 1/256, Y as binary32 bits. -/
def tolPoints (e : Bytes) : List (Nat × Nat) :=
  (List.range (Bytes.at e 1)).map (fun i => (Bytes.le e (16 + 8 * i) 2, Bytes.le e (20 + 8 * i) 4))

/-- Linear interpolation between two points, upward into B32 (R385). -/
def tolLerp (x x0 x1 : Nat) (y0 y1 : Int × Int) : Word32 :=
  let n := exactAdd (y0.1 * ((x1 - x : Nat) : Int), y0.2) (y1.1 * ((x - x0 : Nat) : Int), y1.2)
  let d := x1 - x0
  b32Round ((n.1.natAbs * 2 ^ 64 + d - 1) / d) (n.2 - 64)

/-- Y of a curve at x (R385). -/
def tolY (x : Nat) : List (Nat × Nat) → Word32
  | [] => 0x200
  | [(_, y)] => b32Abs (binary32 y)
  | (x0, y0) :: (x1, y1) :: rest =>
    if x ≤ x0 then b32Abs (binary32 y0)
    else if x < x1 then tolLerp x x0 x1 (binary32 y0) (binary32 y1)
    else tolY x ((x1, y1) :: rest)

/-- Y and ABS_FLOOR of a curve at vector length K (R382, R385, R386); none for a curve that is not defined. -/
def State.tolerance (s : State) (curve k : Nat) : Option (Word32 × Word32) :=
  let x := Nat.log2 (k ^ 256)
  match (s.entriesOf 43 11).find? (fun e => Bytes.at e 0 == curve) with
  | some e => some (tolY x (tolPoints e), BitVec.ofNat 32 (Bytes.le e 4 4))
  | none => if curve = 0 then some (b32Round 1 (-8), 0x200) else none

/-- The values of a completed check (R379, R382). -/
structure CheckRes where
  verdict : Nat
  ratio : Int := -16
  k : Nat := 0
  residual : BitVec 96 := w96Zero
  bound : Word32 := 0x200
  tol : Word32 := 0x200

/-- floor(log2(a / b)) clamped to −16 to 15 (R379). -/
def log2Ratio (a b : Int × Int) : Int :=
  let e := min a.2 b.2
  let x := a.1.natAbs * 2 ^ (a.2 - e).toNat
  let y := b.1.natAbs * 2 ^ (b.2 - e).toNat
  if x = 0 then -16
  else if y = 0 then 15
  else if x ≥ y then min 15 (Nat.log2 (x / y) : Int)
  else match firstFrom 1 16 (fun n => decide (x * 2 ^ n ≥ y)) with
    | some n => -(n : Int)
    | none => -16

/-- a ≤ b for exact numbers that are not negative. -/
def exactLe (a b : Int × Int) : Bool :=
  let e := min a.2 b.2
  decide (a.1.natAbs * 2 ^ (a.2 - e).toNat ≤ b.1.natAbs * 2 ^ (b.2 - e).toNat)

/-- Largest |SUM| of a vector, in B32. -/
def maxSum (v : List Accum) : Word32 :=
  (v.map (fun a => w96Parts a.sum)).foldl (fun m x => if exactLe x (b32Exact m) then m else b32Abs x) 0x200

/-- The result of a check of three closed signatures (R382, R383). -/
def decideCheck (a b c : Sig) (y floor : Word32) : CheckRes :=
  let vec (g : Sig) : List Accum := (List.range g.vlen).map (fun k => g.acc.get (131072 * 8 + k))
  let va := vec a
  let vb := vec b
  let err (g : Sig) : Word32 := (g.err[8]?).getD 0x200
  let d := (va.zip vb).foldl (fun (r : Run) p => r.addProduct p.1.sum p.2.sum) {}
  let t := (vec c).foldl (fun (r : Run) x => r.add (w96Parts x.sum)) { err := d.err, isOver := d.isOver }
  let (ts, te) := w96Parts t.value
  let r := ({ t with value := d.value } : Run).add (-ts, te)
  let s := (va.zip vb).foldl (fun acc p => b32Add acc (b32Mul p.1.abs p.2.abs)) 0x200
  let e := b32Add (b32Add (b32Add (b32Mul (b32Add (maxSum vb) (err b)) (err a)) (b32Mul (maxSum va) (err b))) (err c)) r.err
  let tol := b32Add (b32Mul y s) floor
  let flags := a.flags ||| b.flags ||| c.flags
  let lim := b32Exact (b32Add tol e)
  let res := w96Parts r.value
  let verdict :=
    if flags.getLsbD 0 then 4
    else if flags.getLsbD 2 then 3
    else if flags.getLsbD 1 || flags.getLsbD 3 || r.isOver then 5
    else if exactLe res lim then 1 else 2
  { verdict := verdict, k := a.vlen, residual := r.value, bound := e, tol := tol
    ratio := if verdict = 1 ∨ verdict = 2 then log2Ratio res lim else -16 }

/-- Bytes 32 to 63 of a check descriptor (R379). -/
def CheckRes.bytes (x : CheckRes) : Bytes :=
  toLe 1 x.verdict ++ toLe 1 (BitVec.ofInt 8 x.ratio).toNat ++ zeros 2 ++ toLe 4 x.k ++ toLe 12 x.residual.toNat ++
    toLe 4 x.bound.toNat ++ toLe 4 x.tol.toNat ++ zeros 4

/-- What a reset of MCCk's unit loses (R378): partials, each signature open then INCOMPLETE, closed signatures of the unit. -/
def State.belfryReset (s : State) (k : Nat) : State :=
  let f (_ : Nat) (g : Sig) : Sig :=
    match g.state with
    | .opened | .closing | .merging =>
      { (g.mark 1) with acc := ⟨g.acc.cells.filter (fun c => c.1 / 131072 != k)⟩ }
    | .closed => if g.index % 8 = k then { (g.mark 1) with acc := {} } else g
    | .free => g
  { s with bel := { s.bel with sigs := s.bel.sigs.mapKeys f, scales := s.bel.scales.set k [] } }

end Sys2Proof.Machine
end

