-- ==== Sys2Proof/Machine/Operands.lean ====
section
/-!
DEFINITION. How a memory request falls into lines, and how partial writes and atomics make the new line
(spec/17_ports_and_pads.md R670 to R672, spec/04_memory_protection.md R192, spec/07_fabric_and_host_links.md R311).
-/

namespace Sys2Proof.Machine

/-- The lines (address bits 51:6) that `len` bytes from `addr` touch, in ascending address (R672). -/
def linesOf (addr len : Nat) : List Nat := (List.range ((addr % 64 + len + 63) / 64)).map (fun i => addr / 64 + i)

/-- First byte inside line `l` and the number of bytes of a request in it. -/
def partIn (addr len l : Nat) : Nat × Nat :=
  let lo := max addr (64 * l)
  let hi := min (addr + len) (64 * l + 64)
  (lo - 64 * l, hi - lo)

/-- The line operation of a request for line `l`; its number, request and entry are given. -/
def reqLineOp (q : MemReq) (kind : OpKind) (id req entry : Nat) (ent : BitVec 128) (l : Nat) : LineOp :=
  let (off, n) := partIn q.addr.toNat q.len l
  let from_ := 64 * l + off - q.addr.toNat
  { id := id, req := req, kind := kind, line := l, off := off, len := n,
    data := Bytes.fit (Bytes.slice q.data from_ n) n
    be := ((q.be.drop from_).take n ++ List.replicate n false).take n
    atop := q.atop, wide := q.wide, opnd := q.opnd.toNat, entry := entry, ent := ent }

/-- A write covers its whole line with every byte enabled (R192). -/
def LineOp.full (o : LineOp) : Bool := o.off == 0 && o.len == 64 && o.be.all (fun b => b)

/-- Byte enables of the 64 bytes of the line. -/
def LineOp.lineBe (o : LineOp) : List Bool :=
  (List.replicate o.off false ++ o.be ++ List.replicate 64 false).take 64

/-- The data placed in a 64-byte line. -/
def LineOp.lineData (o : LineOp) : Bytes := Bytes.fit (zeros o.off ++ o.data) 64

/-- Merge enabled bytes into a line (R192). -/
def mergeBytes : List Bool → Bytes → Bytes → Bytes
  | b :: bs, n :: ns, o :: os => (if b then n else o) :: mergeBytes bs ns os
  | _, _, os => os

/-- An atomic's operation is one of R311. -/
def atopOk (a : BitVec 4) : Bool := decide (1 ≤ a.toNat ∧ a.toNat ≤ 6)

/-- An atomic is naturally aligned to its size (R672, R769). -/
def atomicAligned (addr : Nat) (wide : Bool) : Bool := addr % (if wide then 8 else 4) == 0

/-- The value an atomic stores (R311), for width `w` in bits: old value and operand, CAS with the compare value in the
low 64 bits and the swap value above. -/
def atomicNew (atop w old opnd : Nat) : Nat :=
  let m := 2 ^ w
  let v := opnd % m
  let sg (x : Nat) : Int := (BitVec.ofNat w x).toInt
  match atop with
  | 1 => (old + v) % m
  | 2 => min old v
  | 3 => max old v
  | 4 => if sg old ≤ sg v then old else v
  | 5 => if sg old ≤ sg v then v else old
  | _ => if old = v then opnd / 2 ^ 64 % m else old

/-- Bytes of an atomic's operand. -/
def LineOp.atomicBytes (o : LineOp) : Nat := if o.wide then 8 else 4

/-- The old value of an atomic in a line. -/
def LineOp.oldValue (o : LineOp) (line : Bytes) : Nat := Bytes.le line o.off o.atomicBytes

/-- The line that a write or an atomic leaves over the plaintext `old` (R192, R311). -/
def LineOp.newLine (o : LineOp) (old : Bytes) : Bytes :=
  match o.kind with
  | .at_ =>
    let v := atomicNew o.atop.toNat (8 * o.atomicBytes) (o.oldValue old) o.opnd
    old.take o.off ++ toLe o.atomicBytes v ++ old.drop (o.off + o.atomicBytes)
  | _ => mergeBytes o.lineBe o.lineData old

/-- The bytes a request gets back from a line. -/
def LineOp.result (o : LineOp) (line : Bytes) : Bytes :=
  match o.kind with
  | .rd => Bytes.slice line o.off o.len
  | .at_ => Bytes.fit (Bytes.slice line o.off o.atomicBytes) 8
  | .wr => []

/-- The fill of a failed read (R203). -/
def allOnes (n : Nat) : Bytes := List.replicate n 0xFF

end Sys2Proof.Machine
end

