-- ==== Sys2Proof/Machine/Mcc.lean ====
section
/-!
DEFINITION. The HBM memory clusters: requests and their line operations, the tag cache, class C and class OPEN reads,
writes and atomics, completions (spec/04_memory_protection.md). The pool clusters share the request part.
-/

namespace Sys2Proof.Machine

/-! ### Requests and completions, for every memory cluster (island index `c`) -/

/-- Line operation `id` of a cluster. -/
def State.op (s : State) (c id : Nat) : Option LineOp := (s.mem.get c).ops.find? (fun o => o.id == id)

/-- Change line operation `id` of a cluster. -/
def State.onOp (s : State) (c id : Nat) (f : LineOp → LineOp) : State :=
  s.onMem c (fun m => { m with ops := mapWhere (fun o => o.id == id) f m.ops })

/-- The bytes of a read, its lines in ascending address. -/
def assemble (parts : List (Nat × Bytes)) : Bytes :=
  ((parts.mergeSort (fun a b => decide (a.1 ≤ b.1))).map Prod.snd).flatten

/-- Complete a request to its requester (R203, R678): a failed read carries the all-ones fill, a posted request gets no
response. -/
def State.completeReq (s : State) (r : MemFlight) : State :=
  if r.posted then s
  else
    let data := if r.bad then (match r.kind with | .rd => allOnes r.len | .wr => [] | .at_ => allOnes 8)
      else assemble r.parts
    s.done r.link r.tid (!r.bad) data

/-- A request leaves the cluster: its completion goes out, an ERROR is counted (R645), and a DRAINING entry whose count
reaches zero is told (R281, R282). -/
def State.retireReq (s : State) (c : Nat) (r : MemFlight) (tdid : Nat) : State :=
  let s := s.onMem c (fun m => { m with reqs := m.reqs.filter (fun x => x.id != r.id) })
  let s := s.completeReq r
  if r.bad then s.countT c 0x0A tdid else s

/-- A line operation ends with its bytes, or failed, which marks the signature its line was added to (R206); the last line
completes the request. -/
def State.finishOp (s : State) (c : Nat) (o : LineOp) (ok : Bool) (data : Bytes) : State :=
  let s := if ok then s else s.belfryFailed o
  let s := s.onMem c (fun m => { m with ops := m.ops.filter (fun x => x.id != o.id) })
  match (s.mem.get c).reqs.find? (fun r => r.id == o.req) with
  | none => s
  | some r =>
    let r := { r with left := r.left - 1, bad := r.bad || !ok, parts := r.parts ++ [(o.line, data)] }
    if r.left = 0 then s.retireReq c r (Entry.owner o.ent)
    else s.onMem c (fun m => { m with reqs := mapWhere (fun x => x.id == r.id) (fun _ => r) m.reqs })

/-- A line operation fails closed (R202): a fault report of the condition's class, then an ERROR. -/
def State.failOp (s : State) (c : Nat) (o : LineOp) (cls : Fin 24) : State :=
  let ent : Entry := o.ent
  let s := if cls = 3 then s.note c 3 (some ent.owner) 0 (if ent.cls = 2 then 2 else 1) (64 * o.line) ent.keySlot else s
  (s.report cls c 0 (some (BitVec.ofNat 7 ent.owner))).finishOp c o false []

/-- Complete a request at once with ERROR, before any line operation of it exists (R202, R769). -/
def State.refuseReq (s : State) (c : Nat) (link : Link) (q : MemReq) (kind : OpKind) : State :=
  (s.completeReq { link := link, tid := q.tid.toNat, kind := kind, len := q.len, posted := q.posted, bad := true }).countT
    c 0x0A q.tdid.toNat

/-- A request that has passed its check: one line operation per line it touches joins the cluster, in arrival order, with
the signature that takes its lines. -/
def State.admitReq (s : State) (c : Nat) (link : Link) (q : MemReq) (kind : OpKind) (e : Nat) (ent : BitVec 128)
    (sig : Option Nat) : State :=
  let ls := linesOf q.addr.toNat q.len
  let m := s.mem.get c
  let ops := ls.zipIdx.map (fun p => { reqLineOp q kind (m.next + 1 + p.2) m.next e ent p.1 with sig := sig })
  s.onMem c (fun m => { m with
    ops := m.ops ++ ops
    reqs := m.reqs ++ [{ id := m.next, link := link, tid := q.tid.toNat, kind := kind, len := q.len, posted := q.posted,
                         left := ls.length, entry := e }]
    next := m.next + 1 + ls.length })

/-- Bytes a request covers: an atomic covers its operand. -/
def reqSpan (q : MemReq) (kind : OpKind) : Nat :=
  match kind with
  | .at_ => if q.wide then 8 else 4
  | _ => q.len

/-- The request with LEN set to what it covers. -/
def reqNorm (q : MemReq) (kind : OpKind) : MemReq := { q with len := reqSpan q kind }

/-- A request at a memory cluster up to its check (R35, R276, R277, R683, R769): refused, or admitted under its entry. -/
def State.checkReq (s : State) (c : Nat) (q : MemReq) (kind : OpKind) : State × Option (Nat × BitVec 128) :=
  let link := reqFrom q c
  if q.form ≠ 0 then ((s.report 20 c 0 (some q.tdid)).refuseReq c link q kind, none)
  else match s.ownCheck c q.addr.toNat (reqSpan q kind) q.tdid.toNat q.tower (kind != .rd) with
    | .fail k e => ((s.checkFailed c k e q.addr.toNat q.tdid.toNat).refuseReq c link q kind, none)
    | .pass e ent =>
      if kind = .at_ ∧ !(atopOk q.atop && atomicAligned q.addr.toNat q.wide) then (s.refuseReq c link q kind, none)
      else (s, some (e, ent))

/-- The operations before one, in arrival order. -/
def MemUnit.before (m : MemUnit) (o : LineOp) : List LineOp := m.ops.takeWhile (fun x => x.id != o.id)

/-- An earlier operation on the same line has not made its last device-link issue, or an item on the line that is no
operation's has still to leave its lane (R191, R255). -/
def State.mpBlocked (s : State) (c : Nat) (o : LineOp) : Bool :=
  ((s.mem.get c).before o).any (fun x => x.line == o.line && !x.mpDone) || s.lineInLane c o.line

/-- An earlier operation on the same line has not made its last lane issue, or its output is withheld (R141, R191). -/
def State.laneBlocked (s : State) (c : Nat) (o : LineOp) : Bool :=
  ((s.mem.get c).before o).any (fun x => x.line == o.line && !x.laneDone) || s.lineInLane c o.line

/-- An earlier request waits at the ingress for the same 4 KiB granule (R43). -/
def MemUnit.granuleBlocked (m : MemUnit) (o : LineOp) : Bool :=
  (m.before o).any (fun x => x.line / 64 == o.line / 64 && x.phase == .start && x.req != o.req)

/-! ### Tag cache (R172 to R186) -/

/-- Stack-local line index of a line address (R172). -/
def Mcc.localLine (m : Mcc) (line : Nat) : Nat :=
  let a := (BitVec.ofNat 52 (64 * line) - m.hbmBase).toNat
  let g := fld m.ilv 4 0
  let w := fld m.ilv 9 8
  a / 2 ^ (g + w) * 2 ^ (g - 6) + a / 64 % 2 ^ (g - 6)

/-- Stack-local byte address of a tag line (R174). -/
def Mcc.tagAddr (m : Mcc) (t : Nat) : Nat := m.tagBase.toNat + 64 * t

/-- The tree of R178 after a use of a way: every node on the path points toward it. -/
def plruUse (bits way : Nat) : Nat :=
  (List.range 4).foldl (fun b i =>
    let node := 2 ^ i + way / 2 ^ (4 - i)
    let dir := way / 2 ^ (3 - i) % 2
    if b.testBit node == (dir == 1) then b else b ^^^ 2 ^ node) bits

/-- The way the tree selects: away from the last use at every node (R178). -/
def plruVictim (bits : Nat) : Nat :=
  (List.range 4).foldl (fun w i => 2 * w + b2n (!bits.testBit (2 ^ i + w))) 0

/-- The cache key that holds tag line `t`. -/
def Mcc.tagKey (m : Mcc) (t : Nat) : Option Nat :=
  ((List.range 16).map (fun w => 16 * (t % 1024) + w)).find? (fun k =>
    let x := m.tags.get k
    x.valid != 0 && x.line == t)

/-- The cached tag word of local line `n`, if valid. -/
def Mcc.tagWord (m : Mcc) (n : Nat) : Option Nat :=
  match m.tagKey (n / 8) with
  | some k => let x := m.tags.get k; if x.valid.getLsbD (n % 8) then x.words[n % 8]? else none
  | none => none

/-- A use of a cache key moves the tree of its set (R178). -/
def Mcc.tagUse (m : Mcc) (k : Nat) : Mcc := { m with plru := m.plru.modify (k / 16) (fun b => plruUse b (k % 16)) }

/-- The key a new tag line takes: its own, a way with no valid word, the tree's choice, or the lowest way not being
fetched (R178). With all sixteen ways being fetched, for which the spec names no way, it is the tree's choice (DESIGN CHOICE,
log entry 82). -/
def Mcc.tagPlace (m : Mcc) (t : Nat) : Nat :=
  let set := t % 1024
  let keys := (List.range 16).map (fun w => 16 * set + w)
  match m.tagKey t with
  | some k => k
  | none => match keys.find? (fun k => (m.tags.get k).valid == 0) with
    | some k => k
    | none =>
      let v := 16 * set + plruVictim (m.plru.get set)
      if m.fetching.contains (m.tags.get v).line then
        (keys.find? (fun k => !m.fetching.contains (m.tags.get k).line)).getD v
      else v

/-- Byte enables of the dirty words of a tag line (R182). -/
def dirtyBe (d : BitVec 8) : List Bool := (List.range 64).map (fun i => d.getLsbD (i / 8))

/-- The 64 bytes of eight tag words. -/
def wordBytes (ws : List Nat) : Bytes := Bytes.fit ((ws.map (toLe 8)).flatten) 64

/-- Write back the dirty words of a cached tag line (R182, R184): a posted write in the stack-local form (R175), with
identifier 0 in a flush and 1 for an evicted line (no line operation has either). -/
def State.tagWriteBack (s : State) (k id : Nat) (x : TagLine) : State :=
  s.emit (.memWrite (mccIx k) id 1 ((s.mcc.get k).tagAddr x.line) (wordBytes x.words) (dirtyBe x.dirty))

/-- Put a tag line at its place in MCCk, evicting what is there (R182). -/
def State.tagPut (s : State) (k : Nat) (x : TagLine) : State :=
  let m := s.mcc.get k
  let key := m.tagPlace x.line
  let old := m.tags.get key
  let s := if old.line ≠ x.line ∧ old.valid ≠ 0 ∧ old.dirty ≠ 0 then s.tagWriteBack k 1 old else s
  s.onMcc k (fun m => ({ m with tags := m.tags.set key x }).tagUse key)

/-- Install a written line's tag word as valid and dirty, without a fetch (R180). -/
def State.tagInstall (s : State) (k n word : Nat) : State :=
  let m := s.mcc.get k
  let x : TagLine := match m.tagKey (n / 8) with
    | some key => m.tags.get key
    | none => { line := n / 8, words := List.replicate 8 0 }
  let b : BitVec 8 := BitVec.ofNat 8 (2 ^ (n % 8))
  s.tagPut k { x with words := x.words.set (n % 8) word, valid := x.valid ||| b, dirty := x.dirty ||| b }

/-- The tag word of local line `n` before a change, put back (R202): the word, or its valid bit clear. -/
def State.tagRestore (s : State) (k n : Nat) (old : Option Nat) : State :=
  let f (x : TagLine) : TagLine :=
    let b : BitVec 8 := BitVec.ofNat 8 (2 ^ (n % 8))
    match old with
    | some w => { x with words := x.words.set (n % 8) w }
    | none => { x with valid := x.valid &&& ~~~b, dirty := x.dirty &&& ~~~b }
  s.onMcc k (fun m => match m.tagKey (n / 8) with
    | some key => { m with tags := m.tags.modify key f }
    | none => m)

/-- A hit on the tag word of local line `n` moves the tree (R178). -/
def State.tagHit (s : State) (k n : Nat) : State :=
  s.onMcc k (fun m => match m.tagKey (n / 8) with
    | some key => m.tagUse key
    | none => m)

/-- In-flight entries that MCCk may take for itself (R42). -/
def Mcc.freeEntries (m : Mcc) : Bool := decide (m.fetching.length + m.lent < 2048)

/-! ### Class C and OPEN lines (R187 to R206, R211) -/

/-- The move context whose region holds a line of an entry, if its slot is under re-key (R249, R251). -/
def State.moveOf (s : State) (ent : Entry) : Option (Nat × Move) :=
  (List.range 4).findSome? (fun x =>
    let m := s.nwt.moves.get x
    if m.state ≠ 0 ∧ m.send.isNone ∧ m.oldSlot.toNat = ent.keySlot ∧ ent.cls = 1 then some (x, m) else none)

/-- The group-in-motion record of a line (R252). -/
def State.motionOf (s : State) (ctx line : Nat) : Option Motion :=
  s.nwt.motion.find? (fun g => g.ctx == ctx && g.group == line / 8)

/-- The slot that holds a line's key (R251): below B the new slot, at or above F the old one, between them by NEWKEY;
a write between them goes under the new slot (R253). -/
def State.lineSlot (s : State) (o : LineOp) (write : Bool) : Nat :=
  let ent : Entry := o.ent
  match s.moveOf ent with
  | none => ent.keySlot
  | some (x, m) =>
    if 64 * o.line < m.bound then m.newSlot.toNat
    else if m.front ≤ 64 * o.line then m.oldSlot.toNat
    else match s.motionOf x o.line with
      | some g => if write || g.newkey.getLsbD (o.line % 8) then m.newSlot.toNat else m.oldSlot.toNat
      | none => m.oldSlot.toNat

/-- Change the record of a group in motion of a context. -/
def State.onMotion (s : State) (ctx group : Nat) (f : Motion → Motion) : State :=
  { s with nwt := { s.nwt with motion := mapWhere (fun g => g.ctx == ctx && g.group == group) f s.nwt.motion } }

/-- The group in motion of a line between B and F, if its slot is under re-key (R251, R252). -/
def State.inMotion (s : State) (o : LineOp) : Option (Nat × Motion) :=
  match s.moveOf o.ent with
  | none => none
  | some (x, m) => if m.bound ≤ 64 * o.line ∧ 64 * o.line < m.front then (s.motionOf x o.line).map (fun g => (x, g)) else none

/-- The NEWKEY bit of a line in its group's record. -/
def lineBit (line : Nat) : BitVec 8 := BitVec.ofNat 8 (2 ^ (line % 8))

/-- A write under a move sets its line's NEWKEY bit, and Newt discards its copy (R253); `true` when the bit was clear. -/
def State.markNewkey (s : State) (o : LineOp) : State × Bool :=
  match s.inMotion o with
  | none => (s, false)
  | some (x, g) =>
    let f (g : Motion) : Motion := { g with newkey := g.newkey ||| lineBit o.line, copies := g.copies.filter (fun c => c.1 != o.line) }
    (s.onMotion x (o.line / 8) f, !g.newkey.getLsbD (o.line % 8))

/-- A write that set its line's NEWKEY bit has left the line as it was: the bit is clear again, and Newt reads the line
(DESIGN CHOICE, log entry 83). -/
def State.unmarkNewkey (s : State) (o : LineOp) : State :=
  match s.inMotion o with
  | some (x, _) =>
    if o.marked then s.onMotion x (o.line / 8) (fun g => { g with newkey := g.newkey &&& ~~~lineBit o.line }) else s
  | none => s

/-- Note that a line's tag word is installed, for the group that holds it (R258). -/
def State.markInstalled (s : State) (line : Nat) : State :=
  let f (g : Motion) : Motion :=
    if g.newkey.getLsbD (line % 8) then { g with installed := g.installed ||| lineBit line } else g
  (List.range 4).foldl (fun s x => s.onMotion x (line / 8) f) s

/-- An operation waits at the lanes for a schedule that is not cached. -/
def State.waitsSched (s : State) (c : Nat) (slot : LineOp → Nat) (x : LineOp) : Bool :=
  (x.phase == .toDecrypt || x.phase == .toWrite) && Entry.cls x.ent != 0 && ((s.clusters.get c).find (slot x)).isNone

/-- An earlier line of the same 4 KiB granule waits for a schedule (R111). -/
def State.schedBlocked (s : State) (c : Nat) (slot : LineOp → Nat) (o : LineOp) : Bool :=
  ((s.mem.get c).before o).any (fun x => x.line / 64 == o.line / 64 && s.waitsSched c slot x)

/-- The slot that a waiting operation of MCCk needs. -/
def State.opSlot (s : State) (o : LineOp) : Nat := s.lineSlot o (o.phase == .toWrite)

/-- The stored line of a write leaves the lane: written on MP, its tag word installed (R36, R193). -/
def State.mccWriteOut (s : State) (k : Nat) (o : LineOp) : State :=
  let c := mccIx k
  let n := (s.mcc.get k).localLine o.line
  let old := (s.mcc.get k).tagWord n
  let s := s.emit (.memWrite c o.id 0 (64 * o.line) (o.raw.getD []) (List.replicate 64 true))
  let s := s.tagInstall k n o.tagw
  let s := s.markInstalled o.line
  let s := s.countT c 0x01 (Entry.owner o.ent)
  s.onOp c o.id (fun o => { o with phase := .sent, mpDone := true, laneDone := true, tagOld := old })

/-- A write under schedule `id` of MCCk is counted (R207), and reported at 2^20. -/
def State.lineWritten (s : State) (c id : Nat) : State :=
  let s := s.onCluster c (fun y => { y with sched := mapWhere (fun z => z.id == id) (fun z => { z with unreported := z.unreported + 1 }) y.sched })
  if (s.clusters.get c).sched.any (fun z => z.id == id && decide (2 ^ 20 ≤ z.unreported)) then s.reportWrites c id else s

/-- The unit of the MCC takes the plaintext of a signed write (R193, R352); an atomic is not added (R354). -/
def State.belfryTake (s : State) (k : Nat) (o : LineOp) (line : Bytes) : State × LineOp :=
  match o.sig with
  | some h => if o.kind = .wr then (s.belfryAdd k h (64 * o.line) line o.lineBe, { o with added := true }) else (s, o)
  | none => (s, o)

/-- The lane issue of a class C write (R187, R188, R193, R207): Belfry takes the plaintext, the lane encrypts. -/
def State.mccEncrypt (s : State) (k : Nat) (o : LineOp) (x : Sched) : State :=
  let c := mccIx k
  let ent : Entry := o.ent
  let map := if ent.elide then zeroMap o.plain else 0
  let (s, marked) := s.markNewkey o
  let (s, o) := s.belfryTake k o o.plain
  let (ct, tag) := xtsEncrypt x.key x.epoch ent.owner o.line map o.plain
  let s := s.countT c 0x06 ent.owner (b2n (bit map 0) + b2n (bit map 1) + b2n (bit map 2) + b2n (bit map 3))
  let s := s.lineWritten c x.id
  let o := { o with raw := some ct, tagw := tag, sched := x.id, marked := marked, phase := .cmpWrite }
  (s.onOp c o.id (fun _ => o)).issueThen c (.write o.id) x.id (fun s => s.mccWriteOut k o)

/-- The output of the read of an operation leaves its lane; a read's lane work is done. -/
def LineOp.readOut (o : LineOp) : LineOp :=
  if o.phase = .cmpRead then { o with phase := .verdict, laneDone := o.kind == .rd } else o

/-- The lane issue of a class C read (R195, R123). -/
def State.mccDecrypt (s : State) (k : Nat) (o : LineOp) (x : Sched) (tag : Nat) : State :=
  let c := mccIx k
  let (pt, ok) := xtsDecrypt x.key x.epoch (Entry.owner o.ent) o.line tag (o.raw.getD [])
  let s := s.onOp c o.id (fun o => { o with plain := pt, ok := ok, sched := x.id, phase := .cmpRead })
  s.issueThen c (.read o.id) x.id (fun s => s.onOp c o.id LineOp.readOut)

/-- Fetch a tag line, with an in-flight entry (R179). -/
def State.tagFetch (s : State) (k t : Nat) : State :=
  ((s.emit (.memRead (mccIx k) 0 1 ((s.mcc.get k).tagAddr t))).onMcc k (fun m => { m with fetching := m.fetching ++ [t] })).countT
    (mccIx k) 0x07 128

/-- Issue the data read of a line; its tag word is taken from the cache, or its tag line is fetched unless it is on its way
(R178, R179). -/
def State.mccFetch (s : State) (k : Nat) (o : LineOp) : State :=
  let c := mccIx k
  let m := s.mcc.get k
  let n := m.localLine o.line
  let s := s.emit (.memRead c o.id 0 (64 * o.line))
  let tag := m.tagWord n
  let s :=
    if tag.isSome then s.tagHit k n
    else if m.fetching.contains (n / 8) then s
    else s.tagFetch k (n / 8)
  s.onOp c o.id (fun o => { o with phase := .fetch, tagIn := tag, mpDone := o.kind == .rd })

/-- A class C line at the ingress needs a fetch and no in-flight or read-hold entry is free (R43, R194). -/
def State.mccNoRoom (s : State) (k : Nat) (o : LineOp) : Bool :=
  let m := s.mcc.get k
  let n := m.localLine o.line
  let holds := ((s.mem.get (mccIx k)).ops.filter (fun x =>
    Entry.cls x.ent == 1 && (x.phase == .fetch || x.phase == .toDecrypt || x.phase == .cmpRead || x.phase == .verdict))).length
  decide (8192 ≤ holds) || ((m.tagWord n).isNone && !m.fetching.contains (n / 8) && !m.freeEntries)

/-- Let line operation `id` of MCCk take the next step that nothing holds back (R191 to R196). -/
def State.mccAdvance (s : State) (k id : Nat) : State :=
  let c := mccIx k
  match s.op c id with
  | none => s
  | some o =>
    let ent : Entry := o.ent
    match o.phase with
    | .start =>
      if (s.mem.get c).granuleBlocked o || s.mpBlocked c o then s
      else if ent.cls = 0 then
        match o.kind with
        | .wr =>
          let (s, o) := s.belfryTake k o o.lineData
          let s := s.countT c 0x03 ent.owner
          (s.emit (.memWrite c id 0 (64 * o.line) o.lineData o.lineBe)).onOp c id (fun _ =>
            { o with phase := .sent, mpDone := true, laneDone := true })
        | _ =>
          (s.emit (.memRead c id 0 (64 * o.line))).onOp c id (fun o =>
            { o with phase := .fetch, mpDone := o.kind == .rd, laneDone := true })
      else if o.kind = .wr ∧ o.full then s.onOp c id (fun o => { o with phase := .toWrite, plain := o.lineData })
      else if s.mccNoRoom k o then s
      else s.mccFetch k o
    | .fetch =>
      if ent.cls ≠ 0 ∧ o.raw.isSome ∧ o.tagIn.isSome then s.onOp c id (fun o => { o with phase := .toDecrypt }) else s
    | .toDecrypt =>
      if s.laneBlocked c o || s.schedBlocked c s.opSlot o then s
      else match s.readySched c (s.lineSlot o false) with
        | (s, some x) => s.mccDecrypt k o x (o.tagIn.getD 0)
        | (s, none) => s
    | .toWrite =>
      if s.laneBlocked c o || s.mpBlocked c o || s.schedBlocked c s.opSlot o then s
      else match s.readySched c (s.lineSlot o true) with
        | (s, some x) => if x.writes then s.mccEncrypt k o x else s.failOp c o 7
        | (s, none) => s
    | _ => s

/-- Try every line operation of MCCk once, oldest first. -/
def State.mccPass (s : State) (k : Nat) : State :=
  ((s.mem.get (mccIx k)).ops.map (·.id)).foldl (fun s id => s.mccAdvance k id) s

/-- After each event at MCCk, everything that can go on does, in arrival order (R43, R191). -/
def State.mccPump (s : State) (k : Nat) : State :=
  (List.range ((s.mem.get (mccIx k)).ops.length + 3)).foldl (fun s _ => s.mccPass k) s

/-- A write is held for Newt before its check: its group is in the commit phase at this MCC (R254). -/
def State.newtHolds (s : State) (k : Nat) (q : MemReq) : Bool :=
  s.nwt.motion.any (fun g => g.commit.contains k && (linesOf q.addr.toNat q.len).any (fun l => l / 8 == g.group))

/-- A request reaches MCCk (R193, R196, R197): check, Gecko, signatures of atomics, then its lines. -/
def State.mccAccept (s : State) (k : Nat) (q : MemReq) (kind : OpKind) : State :=
  let c := mccIx k
  let q := reqNorm q kind
  match s.checkReq c q kind with
  | (s, none) => s
  | (s, some (e, ent)) =>
    let g := q.addr.toNat / 4096
    let s := if Entry.gecko ent then
        (linesOf q.addr.toNat q.len).foldl (fun s _ => s.onMcc k (fun m => m.geckoCount e ent g)) s
      else s
    let sig := if Entry.sign ent ∧ kind ≠ .rd then s.sigFor k e (Entry.signature ent) else none
    let s := match kind, sig with
      | .at_, some h => s.belfryAtomic h q.addr.toNat
      | _, _ => s
    (s.admitReq c (reqFrom q c) q kind e ent sig).mccPump k

/-- A write or atomic to a group in Newt's commit phase is held before its check (R254); every other request goes on. -/
def State.mccRequest (s : State) (k : Nat) (q : MemReq) (kind : OpKind) : State :=
  if !s.present (mccIx k) then s
  else if kind ≠ .rd ∧ s.newtHolds k (reqNorm q kind) then
    State.countT { s with nwt := { s.nwt with held := s.nwt.held ++ [(k, .net (b2n (kind == .at_)), q)] } } 42 0x61 128
  else s.mccAccept k q kind

/-- Data arrives on MP for a line operation (R183, R195, R202, R677). -/
def State.mpData (s : State) (k id : Nat) (data : Bytes) (err : MemErr) : State :=
  let c := mccIx k
  match s.op c id with
  | none => s
  | some o =>
    if o.phase ≠ .fetch ∨ o.raw.isSome then s
    else
      let s := if err = .corrected then s.countT c 0x0B 128 else s
      if err = .uncorrectable then ((s.countT c 0x0C 128).failOp c o 4).mccPump k
      else
        let data := Bytes.fit data 64
        if Entry.cls o.ent = 0 then
          match o.kind with
          | .rd => ((s.countT c 0x03 (Entry.owner o.ent)).finishOp c o true (o.result data)).mccPump k
          | _ =>
            let s := s.countT c 0x03 (Entry.owner o.ent) 2
            let be := (List.range 64).map (fun i => decide (o.off ≤ i ∧ i < o.off + o.atomicBytes))
            ((s.emit (.memWrite c id 0 (64 * o.line) (o.newLine data) be)).onOp c id (fun o =>
              { o with plain := data, phase := .sent, mpDone := true })).mccPump k
        else (s.onOp c id (fun o => { o with raw := some data })).mccPump k

/-- The operations of MCCk that wait for tag line `t` (R179). -/
def State.tagWaiters (s : State) (k t : Nat) : List LineOp :=
  (s.mem.get (mccIx k)).ops.filter (fun o =>
    Entry.cls o.ent == 1 && o.phase == .fetch && o.tagIn.isNone && (s.mcc.get k).localLine o.line / 8 == t)

/-- A fetched tag line arrives (R181, R183, R191, R195, R202): words already valid keep their values, and every operation that
waits takes its tag word. -/
def State.tagArrival (s : State) (k t : Nat) (data : Bytes) (err : MemErr) : State :=
  let c := mccIx k
  let m := s.mcc.get k
  if !m.fetching.contains t then s
  else
    let waiting := s.tagWaiters k t
    let s := s.onMcc k (fun m => { m with fetching := m.fetching.erase t })
    let s := if err = .corrected then s.countT c 0x0B 128 else s
    if err = .uncorrectable then
      (waiting.foldl (fun s o => s.failOp c o 4) (s.countT c 0x0C 128)).mccPump k
    else
      let x : TagLine := match m.tagKey t with
        | some key => m.tags.get key
        | none => { line := t, words := List.replicate 8 0 }
      let got := (Bytes.chunks (Bytes.fit data 64) 8).map Bytes.leNat
      let words := (List.range 8).map (fun i => if x.valid.getLsbD i then (x.words[i]?).getD 0 else (got[i]?).getD 0)
      let s := waiting.foldl (fun s o => s.onOp c o.id (fun o => { o with tagIn := words[m.localLine o.line % 8]? })) s
      (s.tagPut k { x with words := words, valid := 0xFF }).mccPump k

/-- The verdict of a read or of the read of a read-modify-write (R107, R192, R196, R202, R205). -/
def State.mccVerdict (s : State) (k id : Nat) : State :=
  let c := mccIx k
  match s.op c id with
  | none => s
  | some o =>
    if o.phase ≠ .verdict then s
    else if o.ok then
      let s := (s.countT c 0x04 (Entry.owner o.ent)).countT c 0x02 (Entry.owner o.ent)
      match o.kind with
      | .rd => (s.finishOp c o true (o.result o.plain)).mccPump k
      | _ =>
        (s.onOp c id (fun o => { o with phase := .toWrite, raw := some o.plain, plain := o.newLine o.plain, opnd := o.oldValue o.plain })).mccPump k
    else ((s.countT c 0x05 (Entry.owner o.ent)).failOp c o 3).mccPump k

/-- MP accepts a write's last beat (R36, R184, R675): identifier 0 is a tag write-back of a flush. -/
def State.mpAccept (s : State) (k id : Nat) : State :=
  let c := mccIx k
  if id = 0 then s.onMcc k (fun m => { m with flushLeft := m.flushLeft - 1 })
  else match s.op c id with
    | none => s
    | some o =>
      if o.phase ≠ .sent then s
      else
        let old := if Entry.cls o.ent = 0 then o.result o.plain else toLe 8 o.opnd
        (s.finishOp c o true (if o.kind = .at_ then old else [])).mccPump k

/-- Write back every dirty tag word (R184); ignored while a flush runs. -/
def State.tagFlush (s : State) (k : Nat) : State :=
  let m := s.mcc.get k
  if m.flushLeft ≠ 0 then s
  else
    let dirty := m.tags.cells.filter (fun x => x.2.dirty != 0)
    let s := dirty.foldl (fun s x => s.tagWriteBack k 0 x.2) s
    s.onMcc k (fun m => { m with flushLeft := dirty.length, tags := m.tags.mapKeys (fun _ x => { x with dirty := 0 }) })

/-- Write back dirty tag words before a reset of the MCC (R186, R696), those of a flush still under way included, and what the
reset keeps of it: its fields. -/
def State.mccReset (s : State) (k : Nat) (writeBack : Bool) : State :=
  let s := if writeBack then (s.onMcc k (fun m => { m with flushLeft := 0 })).tagFlush k else s
  s.onMcc k (fun m => { m with tags := {}, plru := {}, fetching := [], flushLeft := 0, lent := 0, initAt := {} })

end Sys2Proof.Machine
end

