-- ==== Sys2Proof/Machine/Newt.lean ====
section
/-!
DEFINITION. Newt: the re-key of a class C region and the reads of MIGRATE_SEND
(spec/05_counter_tree_and_rekey.md R249 to R261, spec/04_memory_protection.md R207 to R210, R573).
-/

namespace Sys2Proof.Machine

/-- A fresh identifier for a write on a device link that no request waits for. -/
def State.writeId (s : State) (c : Nat) : Nat × State :=
  let n := (s.mem.get c).next
  (n, s.onMem c (fun m => { m with next := n + 1 }))

/-- A class C line made inside MCCk leaves its lane (R198, R255): the stored line, and its tag word. -/
def State.storeLine (s : State) (k line : Nat) (stored : Bytes) (tag : Nat) : State :=
  let c := mccIx k
  let (id, s) := s.writeId c
  let s := s.emit (.memWrite c id 0 (64 * line) stored (List.replicate 64 true))
  s.tagInstall k ((s.mcc.get k).localLine line) tag

/-! ### Move contexts (R249 to R252) -/

/-- Change move context `x`. -/
def State.onMove (s : State) (x : Nat) (f : Move → Move) : State := { s with nwt := { s.nwt with moves := s.nwt.moves.modify x f } }

/-- Byte ranges of a region's entries, in ascending physical address (R249). -/
def State.regionSpans (s : State) (r : Nat) : List (Nat × Nat) :=
  let l := ((s.region r).entries.map s.master).filter (fun e => Entry.state e != 0)
  (l.map (fun e => (4096 * Entry.start e, 4096 * (Entry.start e + Entry.length e)))).mergeSort (fun a b => decide (a.1 ≤ b.1))

/-- The start of the first group of a region at or above `a`, if any. -/
def firstGroup (l : List (Nat × Nat)) (a : Nat) : Option Nat :=
  (l.find? (fun x => decide (a < x.2))).map (fun x => max a x.1)

/-- The start of the group after the one at `a`, or the end of the region. -/
def nextGroup (l : List (Nat × Nat)) (a : Nat) : Nat := (firstGroup l (a + 512)).getD (a + 512)

/-- An address lies in a region. -/
def inSpans (l : List (Nat × Nat)) (a : Nat) : Bool := l.any (fun x => decide (x.1 ≤ a ∧ a < x.2))

/-- A context that no move uses. -/
def State.freeMove (s : State) : Option Nat := (List.range 4).find? (fun x => (s.nwt.moves.get x).state == 0)

/-- A re-key may proceed at MCCk (R259): Newt is not throttled, the MCC has a lane left, both slots' fills are served, and the
region is not being destroyed (R260). -/
def State.newtMay (s : State) (m : Move) (k : Nat) : Bool :=
  !s.spr.gov.stages.getLsbD 0 && !(s.issueSockets (mccIx k)).isEmpty && s.fillOk (mccIx k) m.oldSlot.toNat &&
    s.fillOk (mccIx k) m.newSlot.toNat && !(s.region m.region).dead && (s.region m.region).slot == some m.oldSlot.toNat

/-- NWT and MCCk work. A draining NWT finishes a group that is in motion (R78, R80). -/
def State.newtWorks (s : State) (k : Nat) (begun : Bool) : Bool :=
  let w := (s.isl.get 42).swap
  s.present 42 && s.present (mccIx k) && (w == .run || (begun && w == .draining))

/-- Writes that no commit phase holds any more are admitted, in their order (R254, R256). -/
def State.releaseHeld (s : State) : State :=
  let hs := s.nwt.held
  hs.foldl (fun s h =>
    let kind : OpKind := if h.2.1 = .net 1 then .at_ else .wr
    if s.newtHolds h.1 (reqNorm h.2.2 kind) then { s with nwt := { s.nwt with held := s.nwt.held ++ [h] } }
    else s.mccAccept h.1 h.2.2 kind) { s with nwt := { s.nwt with held := [] } }

/-- A commit phase ends with lines unissued (R256, R259): Newt's copies of them are discarded. -/
def Motion.giveUp (g : Motion) : Motion := if g.commit.isEmpty then g else { g with commit := [], copies := [] }

/-- A move that cannot proceed releases its held writes (R51, R259). -/
def State.moveHalt (s : State) (x : Nat) : State :=
  let f (g : Motion) : Motion := if g.ctx == x then g.giveUp else g
  let s := s.onMove x (fun m => { m with state := if m.state = 0 then 0 else 2 })
  State.releaseHeld { s with nwt := { s.nwt with motion := s.nwt.motion.map f } }

/-- Re-keys that a condition of R259 stops release their held writes. -/
def State.movesHaltIf (s : State) (p : Move → Bool) : State :=
  (List.range 4).foldl (fun s x =>
    let m := s.nwt.moves.get x
    if m.state ≠ 0 ∧ m.send.isNone ∧ p m then s.moveHalt x else s) s

/-- Re-keys halt when cluster `c` is an MCC that has lost its last lane (R51, R259). -/
def State.lanesGone (s : State) (c : Nat) : State :=
  if c ≤ 10 ∧ (s.issueSockets c).isEmpty then s.movesHaltIf (fun _ => true) else s

/-! ### Starting a move (R208, R209) -/

/-- The partition of a region. -/
def State.regionPart (s : State) (r : Nat) : Nat := (s.obj (objKey 3 r)).part

/-- Newt re-keys a region of partition `p`, or its fresh key is on its way (R209). -/
def State.rekeying (s : State) (p : Nat) : Bool :=
  s.nwt.moves.cells.any (fun c => c.2.state != 0 && c.2.send.isNone && s.regionPart c.2.region == p) ||
    s.nwt.keying.any (fun k => s.regionPart k.1 == p)

/-- The attribute record of a region's fresh key (R449, R457), not yet LIVE. -/
def State.regionAttr (s : State) (purpose part tdid : Nat) : BitVec 256 :=
  setFld ({ purpose := purpose, masters := purposeMasters purpose, world := purposeWorld purpose, lcMask := s.lcMaskBit,
            source := 0, part := part, tdid := tdid } : SlotSpec).attr 1 0 0

/-- Ask Dome for a fresh key in slot `n` (R446, R451). -/
def State.freshKey (s : State) (n purpose part tdid : Nat) : State :=
  (s.onSlot n (fun _ => { attr := s.regionAttr purpose part tdid })).deriveQueue (.region n purpose tdid)

/-- An entry of a region is being drained, or a drain of it waits (R283, R284). -/
def State.regionDraining (s : State) (r : Nat) : Bool :=
  (s.region r).entries.any (fun e => s.own.drains.any (fun d => d.entry == e) || s.own.waiting.any (fun d => d.entry == e))

/-- The write budget of a slot is exhausted (R208). -/
def State.exhausted (s : State) (n : Nat) : Bool := (s.slot n).state == 1 && decide (2 ^ 44 - 2 ^ 23 ≤ (s.slot n).writes)

/-- Order the re-key of the region of a slot whose budget is exhausted, when its turn has come (R208, R209, R538). A region with a
drain under way waits until the drain is over (DESIGN CHOICE, log entry 86). A slot that has a fresh key since, or none, waits
no more. -/
def State.tryRekeyOf (s : State) (n : Nat) : State :=
  if !s.exhausted n then { s with nwt := { s.nwt with waiting := s.nwt.waiting.erase n } }
  else match s.prt.regions.keysWhere (fun _ x => x.slot == some n && x.cls == 1 && !x.dead && x.phase == .live) with
  | r :: _ =>
    let p := s.regionPart r
    let busy := s.nwt.moves.countWhere (fun _ m => m.state != 0) + s.nwt.keying.length
    match s.emptySlots p with
    | new :: _ =>
      if busy ≥ 4 ∨ s.rekeying p ∨ !s.domeReady ∨ s.regionDraining r then s
      else
        let t := (s.region r).tdid
        State.freshKey { s with nwt := { s.nwt with waiting := s.nwt.waiting.erase n, keying := s.nwt.keying ++ [(r, new)] } } new 0 p t
    | [] => s
  | [] => s

/-- Every waiting re-key whose turn has come begins. -/
def State.tryRekey (s : State) : State := s.nwt.waiting.foldl State.tryRekeyOf s

/-- The fresh key of a re-key is in its slot: the move begins (R208, R250). -/
def State.moveStart (s : State) (r new : Nat) : State :=
  let s := { s with nwt := { s.nwt with keying := s.nwt.keying.filter (fun k => k.2 != new) } }
  let x := s.region r
  match s.freeMove, x.slot, s.regionSpans r with
  | some c, some old, (a, _) :: _ =>
    if x.dead ∨ x.phase ≠ .live ∨ (s.slot new).state ≠ 1 then s.reap
    else (s.powerOn 42).onMove c (fun _ => { state := 1, newSlot := BitVec.ofNat 12 new, oldSlot := BitVec.ofNat 12 old, bound := a, front := a, region := r })
  | _, _, _ => s.reap

/-! ### Copy and commit (R253 to R257) -/

/-- The next group of a region begins: its record is made and the front passes it (R250, R252). -/
def State.groupBegin (s : State) (x group : Nat) : State :=
  let m := s.nwt.moves.get x
  let l := s.regionSpans m.region
  if (s.motionOf x (8 * group)).isNone ∧ firstGroup l m.front = some (512 * group) ∧ 512 * group + 512 ≤ m.bound + 131072 ∧
      (s.isl.get 42).swap = .run then
    let s := s.onMove x (fun m => { m with front := 512 * group + 512 })
    { s with nwt := { s.nwt with motion := s.nwt.motion ++ [{ ctx := x, group := group }] } }
  else s

/-- The tag word Newt verifies a line under: the cached one, which is a hit (R178), or the one read with the line. -/
def State.newtTag (s : State) (k line : Nat) (tag : Bytes) : State × Nat :=
  let n := (s.mcc.get k).localLine line
  match (s.mcc.get k).tagWord n with
  | some w => (s.tagHit k n, w)
  | none => (s, Bytes.le tag 0 8)

/-- An operation on a line, or an item of Newt's on it, has still an issue to make or an output withheld (R191). -/
def State.lineBusy (s : State) (k line : Nat) : Bool :=
  (s.mem.get (mccIx k)).ops.any (fun o => o.line == line && !(o.laneDone && o.mpDone)) || s.lineInLane (mccIx k) line

/-- A line that failed in the copy phase is not written (R257): its NEWKEY bit is set and no copy of it is kept. It counts as
installed, so that its group can retire (DESIGN CHOICE, log entry 87). -/
def State.copyBad (s : State) (x line : Nat) : State :=
  s.onMotion x (line / 8) (fun g => { g with
    newkey := g.newkey ||| lineBit line, installed := g.installed ||| lineBit line, copies := g.copies.filter (fun y => y.1 != line) })

/-- The verdict of a line read in the copy phase (R253, R257): kept unless a write has taken the line since. -/
def State.newtCopied (s : State) (k x line : Nat) (pt : Option Bytes) : State :=
  let c := mccIx k
  let t := (s.region (s.nwt.moves.get x).region).tdid
  match s.motionOf x line with
  | none => s
  | some g =>
    if g.newkey.getLsbD (line % 8) then s
    else match pt with
      | some d => (s.countT c 0x04 t).onMotion x (line / 8) (fun g => { g with copies := g.copies.filter (fun y => y.1 != line) ++ [(line, d)] })
      | none => ((s.countT c 0x05 t).report 3 c 0 (some (BitVec.ofNat 7 t))).copyBad x line

/-- A line read in the copy phase (R253, R257) is verified in a lane of its MCC under the old slot. A line on which the MCC is
still at work is left for a later read. -/
def State.copyLine (s : State) (x group : Nat) (l : Nat × Bytes × Bytes × MemErr) : State :=
  let m := s.nwt.moves.get x
  let (line, data, tag, err) := l
  match s.motionOf x line, s.hbmPort (64 * line) with
  | some g, some k =>
    let c := mccIx k
    let t := (s.region m.region).tdid
    if line / 8 ≠ group ∨ g.commit.contains k ∨ g.newkey.getLsbD (line % 8) ∨ s.lineBusy k line ∨ !s.newtWorks k true then s
    else if err = .uncorrectable then (((s.countT c 0x0C 128).report 4 c 0 (some (BitVec.ofNat 7 t))).copyBad x line)
    else match s.readySched c m.oldSlot.toNat with
      | (s, none) => s
      | (s, some y) =>
        let s := if err = .corrected then s.countT c 0x0B 128 else s
        let (s, word) := s.newtTag k line tag
        let (pt, ok) := xtsDecrypt y.key y.epoch t line word (Bytes.fit data 64)
        let out := if ok then some pt else none
        s.issueThen c (.newtCopy x line out) y.id (fun s => s.newtCopied k x line out)
  | _, _ => s

/-- The MCCs that carry the lines of a group. -/
def State.groupMccs (s : State) (group : Nat) : List Nat :=
  ((List.range 8).filterMap (fun i => s.hbmPort (64 * (8 * group + i)))).eraseDups

/-- A re-key may proceed with a group at each of its MCCs. -/
def State.groupMay (s : State) (m : Move) (group : Nat) : Bool := (s.groupMccs group).all (fun k => s.newtMay m k)

/-- The copy phase of a re-key: a group is read and verified under the old slot. -/
def State.newtCopyGroup (s : State) (x group : Nat) (lines : List (Nat × Bytes × Bytes × MemErr)) : State :=
  let m := s.nwt.moves.get x
  if !s.live 42 then s
  else if s.groupMay m group then
    let s := (s.onMove x (fun m => { m with state := 1 })).groupBegin x group
    lines.foldl (fun s l => s.copyLine x group l) s
  else s.moveHalt x

/-- A line that Newt has encrypted leaves the lane (R255, R258). -/
def State.newtStored (s : State) (k line tdid : Nat) (ct : Bytes) (tag : Nat) : State :=
  (((s.storeLine k line ct tag).markInstalled line).countT (mccIx k) 0x0D tdid).countT 42 0x60 tdid

/-- Newt issues one re-encrypted line under the new slot (R254, R255, R207): its NEWKEY bit is set, and the first issue begins
the commit phase of its group at its MCC. A slot that is closed to writes takes none (R210). -/
def State.commitLine (s : State) (x k line : Nat) (pt : Bytes) : State :=
  let m := s.nwt.moves.get x
  let c := mccIx k
  let t := (s.region m.region).tdid
  match s.readySched c m.newSlot.toNat with
  | (s, none) => s
  | (s, some y) =>
    if !y.writes then s
    else
      let ent := ((s.findEntry c (line / 64)).map Prod.snd).getD 0
      let map := if Entry.elide ent then zeroMap pt else 0
      let (ct, tag) := xtsEncrypt y.key y.epoch t line map pt
      let s := s.onMotion x (line / 8) (fun g => { g with
        newkey := g.newkey ||| lineBit line, copies := g.copies.filter (fun y => y.1 != line)
        commit := if g.commit.contains k then g.commit else g.commit ++ [k] })
      (s.lineWritten c y.id).issueThen c (.newtWrite x line m.newSlot.toNat ct tag) y.id (fun s => s.newtStored k line t ct tag)

/-- Lines of a group at MCCk whose NEWKEY bit is clear. -/
def State.clearLines (s : State) (g : Motion) (k : Nat) : List Nat :=
  ((List.range 8).map (fun i => 8 * g.group + i)).filter (fun l => !g.newkey.getLsbD (l % 8) && s.hbmPort (64 * l) == some k)

/-- Commit phases in which every line is issued end, and their held writes are released (R254). -/
def State.commitEnds (s : State) (x group : Nat) : State :=
  State.releaseHeld (s.onMotion x group (fun g => { g with commit := g.commit.filter (fun k => !(s.clearLines g k).isEmpty) }))

/-- The commit phase (R254): up to `n` lines are issued, each at an MCC for which every line that is still to be written is
copied; when no NEWKEY bit is clear at an MCC, its held writes are released. -/
def State.newtCommit (s : State) (x group n : Nat) : State :=
  let m := s.nwt.moves.get x
  match s.motionOf x (8 * group) with
  | none => s
  | some g =>
    let copied (l : Nat) : Bool := g.copies.any (fun y => y.1 == l)
    let ready (k : Nat) : Bool := (s.clearLines g k).all copied && s.newtWorks k true
    if m.state = 0 ∨ m.send.isSome then s
    else if !s.groupMay m group then s.moveHalt x
    else
      let s := s.onMove x (fun m => { m with state := 1 })
      let todo := (g.copies.filterMap (fun y => match s.hbmPort (64 * y.1) with
        | some k => if ready k && !s.lineBusy k y.1 then some (y.1, k, y.2) else none
        | none => none)).mergeSort (fun a b => decide (a.1 ≤ b.1))
      ((todo.take n).foldl (fun s y => s.commitLine x y.2.1 y.1 y.2.2) s).commitEnds x group

/-- NEWT_COMMIT. -/
def execNewtCommit (ctx : Fin 4) (group : Nat) (n : Fin 9) (s : State) : Host.Outcome State Fault Refusal :=
  .next (s.newtCommit ctx.val group n.val).tryRekey

/-- NEWT_HOLD_TIMEOUT (R256). -/
def State.holdTimeout (s : State) (x group : Nat) : State :=
  match s.motionOf x (8 * group) with
  | some g => if g.commit.isEmpty then s else (s.onMotion x group Motion.giveUp).releaseHeld
  | none => s

/-- NEWT_HOLD_TIMEOUT. -/
def execNewtHoldTimeout (ctx : Fin 4) (group : Nat) (s : State) : Host.Outcome State Fault Refusal := .next (s.holdTimeout ctx.val group)

/-! ### Retirement and the end of a move (R258, R260, R261) -/

/-- The group at B retires when every line has its NEWKEY bit and its tag word (R258); so do those behind it. -/
def State.groupRetire : Nat → Nat → State → State
  | 0, _, s => s
  | n + 1, x, s =>
    let m := s.nwt.moves.get x
    match s.motionOf x (m.bound / 64) with
    | some g =>
      if g.newkey = 0xFF ∧ g.installed = 0xFF then
        let b := nextGroup (s.regionSpans m.region) m.bound
        let s := s.onMove x (fun m => { m with bound := b, front := max m.front b })
        State.groupRetire n x { s with nwt := { s.nwt with motion := s.nwt.motion.filter (fun y => !(y.ctx == x && y.group == g.group)) } }
      else s
    | none => s

/-- NEWT_GROUP_RETIRE. -/
def execNewtGroupRetire (ctx : Fin 4) (s : State) : Host.Outcome State Fault Refusal := .next (s.groupRetire 256 ctx.val)

/-- The contents of an entry with another key slot. -/
def withSlot (n : Nat) (e : Entry) : Entry := setFld e 91 80 n

/-- An update with another key slot. -/
def RotMsg.withSlot (n : Nat) : RotMsg → RotMsg
  | .scrubbing c => .scrubbing (Machine.withSlot n c)
  | .live c => .live (Machine.withSlot n c)
  | .fields c => .fields (Machine.withSlot n c)
  | m => m

/-- Tower makes slot `n` the slot of an entry (R261): in the master copy, in every replica and update on its way, and for
the operations under it. -/
def State.entrySlot (s : State) (n e : Nat) : State :=
  let s := s.setMaster e (withSlot n (s.master e))
  let s := replicaIslands.foldl (fun s i => if Entry.state (s.repEntry i e) = 0 then s else s.setRep i e (withSlot n (s.repEntry i e))) s
  let f (o : LineOp) : LineOp := if o.entry == e then { o with ent := withSlot n o.ent } else o
  { s with
    own := { s.own with inFlight := s.own.inFlight.map (fun u => if u.2.1 == e then (u.1, u.2.1, u.2.2.withSlot n) else u) }
    mem := s.mem.mapKeys (fun _ m => { m with ops := m.ops.map f }) }

/-- NEWT_MOVE_COMPLETE (R261): B has passed the last line; the new slot becomes the region's and the old one retires. -/
def State.moveComplete (s : State) (x : Nat) : State :=
  let m := s.nwt.moves.get x
  if m.state = 0 ∨ m.send.isSome ∨ (s.region m.region).dead ∨ (s.region m.region).slot ≠ some m.oldSlot.toNat ∨ inSpans (s.regionSpans m.region) m.bound ∨
      s.nwt.motion.any (fun g => g.ctx == x) then s
  else
    let r := m.region
    let s := (s.region r).entries.foldl (fun s e => s.entrySlot m.newSlot.toNat e) s
    let s := s.onRegion r (fun y => { y with slot := some m.newSlot.toNat })
    let s := s.onMove x (fun _ => default)
    let s := { s with nwt := { s.nwt with waiting := s.nwt.waiting.erase m.oldSlot.toNat } }
    (s.retireSlot m.oldSlot.toNat).reap

/-! ### MIGRATE_SEND (R573) -/

/-- A region read for MIGRATE_SEND ends without its stream fence: its command completes with an error. -/
def State.sendStop (s : State) (x err : Nat) : State :=
  match (s.nwt.moves.get x).send with
  | some d =>
    (s.onMove x (fun _ => default)).completeWhere
      (fun c => c.started && c.code == 0x34 && c.what == d.stream && c.fence == some (d.fence, d.value)) 0 [] (some err)
  | none => s

/-- A 4 KiB granule leaves as a STORE on the stream (R573). -/
def State.sendGranule (s : State) (d : Send) (tdid : Nat) : State :=
  let f := d.stream / 2048
  let x := s.streams.get d.stream
  s.fabricSend f { tid := 0, addr := BitVec.ofNat 52 (d.dest + d.sent), form := 3, node := x.peer, len := 4096
                   tdid := BitVec.ofNat 7 tdid, posted := true, data := d.buf, be := List.replicate 4096 true, link := 1 }

/-- The last granule has left: the STREAM_FENCE is queued, and the context is free (R573). -/
def State.sendFence (s : State) (x : Nat) (d : Send) : State :=
  let s := s.onMove x (fun _ => default)
  let f := d.stream / 2048
  let e := d.stream % 2048
  (s.onEntry f e (fun y => { y with fenceQ := y.fenceQ ++ [(d.fence, d.value)] })).fenceCheck f e

/-- Every line of the group at B is there: its bytes join the granule, which leaves when it is full; after the last group the
fence is queued (R573). -/
def State.sendAdvance (s : State) (x : Nat) (d : Send) : State :=
  let m := s.nwt.moves.get x
  if d.got.length < 8 then s.onMove x (fun m => { m with send := some d })
  else
    let l := s.regionSpans m.region
    let next := nextGroup l m.bound
    let buf := d.buf ++ ((d.got.mergeSort (fun a b => decide (a.1 ≤ b.1))).map Prod.snd).flatten
    let d := { d with buf := buf, got := [] }
    let (s, d) := if buf.length < 4096 then (s, d) else (s.sendGranule d (s.region m.region).tdid, { d with sent := d.sent + 4096, buf := [] })
    let s := s.onMove x (fun m => { m with bound := next, front := next, send := some d })
    if inSpans l next then s else s.sendFence x d

/-- The plaintext of a line read for MIGRATE_SEND. A line that fails gives a value the spec does not state. -/
def State.sendGot (s : State) (x line : Nat) (pt : Option Bytes) : State :=
  let m := s.nwt.moves.get x
  match m.send with
  | some d =>
    let (data, s) := match pt with
      | some data => (data, s)
      | none => s.draw 64
    if line / 8 ≠ m.bound / 512 ∨ d.got.any (fun g => g.1 == line) then s else s.sendAdvance x { d with got := d.got ++ [(line, data)] }
  | none => s

/-- The verdict of a class C line read for MIGRATE_SEND leaves its lane. -/
def State.sendVerdict (s : State) (k x line : Nat) (pt : Option Bytes) : State :=
  let c := mccIx k
  let t := (s.region (s.nwt.moves.get x).region).tdid
  let s := match pt with
    | some _ => s.countT c 0x04 t
    | none => (s.countT c 0x05 t).report 3 c 0 (some (BitVec.ofNat 7 t))
  s.sendGot x line pt

/-- One line of a region is read for MIGRATE_SEND through its MCC, verified under the region's key (R573). -/
def State.sendLine (s : State) (x : Nat) (l : Nat × Bytes × Bytes × MemErr) : State :=
  let (line, data, tag, err) := l
  let m := s.nwt.moves.get x
  let r := s.region m.region
  let begun := m.send.any (fun d => !d.got.isEmpty)
  match s.hbmPort (64 * line) with
  | none => s.sendGot x line none
  | some k =>
    let c := mccIx k
    if line / 8 ≠ m.bound / 512 ∨ m.send.all (fun d => d.got.any (fun g => g.1 == line)) ∨ s.lineBusy k line ∨ !s.newtWorks k begun then s
    else
      let read (s : State) : State :=
        let s := s.countT 42 0x60 r.tdid
        if err = .corrected then s.countT c 0x0B 128 else s
      if err = .uncorrectable then (((s.countT 42 0x60 r.tdid).countT c 0x0C 128).report 4 c 0 (some (BitVec.ofNat 7 r.tdid))).sendGot x line none
      else if r.cls = 0 then ((read s).countT c 0x03 r.tdid).sendGot x line (some (Bytes.fit data 64))
      else
        let ent := ((s.findEntry c (line / 64)).map Prod.snd).getD 0
        match s.readySched c (s.lineSlot { line := line, ent := ent } false) with
        | (s, none) => s
        | (s, some y) =>
          let (s, word) := (read s).newtTag k line tag
          let (pt, ok) := xtsDecrypt y.key y.epoch r.tdid line word (Bytes.fit data 64)
          let out := if ok then some pt else none
          s.issueThen c (.sendRead x line out) y.id (fun s => s.sendVerdict k x line out)

/-- The next group of a region read for MIGRATE_SEND. -/
def State.sendGroup (s : State) (x group : Nat) (d : Send) (lines : List (Nat × Bytes × Bytes × MemErr)) : State :=
  let e := s.streams.get d.stream
  if (e.state ≠ 1 ∧ e.state ≠ 2) ∨ e.closing then s.sendStop x 0x12
  else if s.spr.gov.stages.getLsbD 0 then s
  else (lines.filter (fun y => y.1 / 8 == group)).foldl (fun s y => s.sendLine x y) s

/-- NEWT_COPY (R253, R573). -/
def State.newtCopy (s : State) (x group : Nat) (lines : List (Nat × Bytes × Bytes × MemErr)) : State :=
  let m := s.nwt.moves.get x
  if m.state = 0 then s
  else match m.send with
    | some d => s.sendGroup x group d lines
    | none => s.newtCopyGroup x group lines

/-- A region is destroyed under a move (R260, R566): a re-key stops and keeps its record until the region's entries are
FREE; a region read for MIGRATE_SEND ends with an error. -/
def State.moveStop (s : State) (r err : Nat) : State :=
  (List.range 4).foldl (fun s x =>
    let m := s.nwt.moves.get x
    if m.state = 0 ∨ m.region ≠ r then s
    else if m.send.isSome then s.sendStop x err
    else s.moveHalt x) s

/-- A re-key whose region is destroyed or freed stops; it ends once no entry names its old slot (R260): both slots retire, and its
context is clear. -/
def State.moveEnds (s : State) : State :=
  (List.range 4).foldl (fun s x =>
    let m := s.nwt.moves.get x
    let used := s.own.master.cells.any (fun c => Entry.state c.2 != 0 && Entry.cls c.2 == 1 && Entry.keySlot c.2 == m.oldSlot.toNat)
    if m.state = 0 ∨ m.send.isSome then s
    else if (s.region m.region).slot = some m.oldSlot.toNat ∧ !(s.region m.region).dead then s
    else if used then (if m.state = 1 ∨ s.nwt.motion.any (fun g => g.ctx == x && !g.commit.isEmpty) then s.moveHalt x else s)
    else
      let s := { s with nwt := { s.nwt with motion := s.nwt.motion.filter (fun g => g.ctx != x), moves := s.nwt.moves.set x default } }
      ((s.releaseHeld.retireSlot m.oldSlot.toNat).retireSlot m.newSlot.toNat).reap) s

end Sys2Proof.Machine
end

