-- ==== Sys2Proof/Machine/Pcc.lean ====
section
/-!
DEFINITION. The pool clusters: the metadata region, the counter cache, verification and write-back of the counter tree,
fences, counter overflow, class R reads, writes and atomics (spec/05_counter_tree_and_rekey.md R215 to R248).
-/

namespace Sys2Proof.Machine

/-! ### The metadata region (R217, R219). Offsets are counted in lines of 64 bytes from PCC_META_BASE. -/

/-- First metadata line of the counter lines (level 0), the tree levels 1 to 4, and for 5 the node tags, of `n` subtrees. -/
def levelOff (n level : Nat) : Nat :=
  n * (match level with
    | 0 => 0x8000000 | 1 => 0x9000000 | 2 => 0x9040000 | 3 => 0x9041000 | 4 => 0x9041040 | _ => 0x9041041)

/-- Subtrees of a PCC. -/
def Pcc.spans (m : Pcc) : Nat := m.subtrees.toNat

/-- The metadata line of node `idx` of a level. -/
def Pcc.nodeAt (m : Pcc) (level idx : Nat) : Nat := levelOff m.spans level + idx

/-- Level and index of a metadata line that is a counter line or tree node. -/
def Pcc.nodeOf (m : Pcc) (x : Nat) : Option (Nat × Nat) :=
  ((List.range 5).find? (fun l => decide (levelOff m.spans l ≤ x ∧ x < levelOff m.spans (l + 1)))).map (fun l =>
    (l, x - levelOff m.spans l))

/-- The data line (counted from PCC_POOL_BASE) of a physical line. -/
def Pcc.dataLine (m : Pcc) (line : Nat) : Nat := (BitVec.ofNat 52 (64 * line) - m.poolBase).toNat / 64

/-- The counter line's index of a physical line: one per 4 KiB. -/
def Pcc.groupOf (m : Pcc) (line : Nat) : Nat := m.dataLine line / 64

/-- Where the node tag of metadata line `x` stands: the metadata line and the word in it (R219). -/
def Pcc.nodeTagAt (m : Pcc) (x : Nat) : Nat × Nat :=
  let n := x - levelOff m.spans 0
  (levelOff m.spans 5 + n / 8, n % 8)

/-- Pool-local byte address of a metadata line (R220). -/
def Pcc.metaAddr (m : Pcc) (x : Nat) : Nat := m.metaBase.toNat + 64 * x

/-! ### Counter lines and tree nodes (R222) -/

/-- MAJOR of a counter line or node. -/
def nodeMajor (d : Bytes) : Nat := Bytes.le d 0 8
/-- MINOR[i] of a counter line or node. -/
def nodeMinor (d : Bytes) (i : Nat) : Nat := Bytes.le d 8 56 / 2 ^ (7 * i) % 128
/-- A counter line or node of a major counter and 64 minor counters. -/
def nodeBytes (major : Nat) (minors : List Nat) : Bytes :=
  toLe 8 major ++ toLe 56 (minors.zipIdx.foldl (fun n p => n + p.1 % 128 * 2 ^ (7 * p.2)) 0)
/-- The 64 minor counters of a line. -/
def nodeMinors (d : Bytes) : List Nat := (List.range 64).map (nodeMinor d)
/-- A line with MINOR[i] replaced. -/
def nodeSetMinor (d : Bytes) (i v : Nat) : Bytes := nodeBytes (nodeMajor d) ((nodeMinors d).set i v)

/-! ### The counter cache (R227 to R229) -/

/-- Keys of the set of a metadata line. -/
def metaKeys (x : Nat) : List Nat := (List.range 16).map (fun w => 16 * (x % 2048) + w)

/-- The cache key that holds a metadata line. -/
def Pcc.metaKey (m : Pcc) (x : Nat) : Option Nat :=
  (metaKeys x).find? (fun k => let l := m.cache.get k; l.valid != 0 && l.off == x)

/-- A cached metadata line. -/
def Pcc.metaLine (m : Pcc) (x : Nat) : Option MetaLine := (m.metaKey x).map m.cache.get

/-- A cached and verified counter line or node. -/
def Pcc.node (m : Pcc) (x : Nat) : Option Bytes := (m.metaLine x).map (·.data)

/-- A tag word made and not yet in the cache. -/
def Pcc.dueWord (m : Pcc) (x w : Nat) : Option Nat := (m.due.find? (fun d => d.1 == x && d.2.1 == w)).map (fun d => d.2.2)

/-- A valid tag word at hand: one that waits for a way of the cache, or a cached one. -/
def Pcc.tagWord (m : Pcc) (x w : Nat) : Option Nat :=
  match m.dueWord x w, m.metaLine x with
  | some v, _ => some v
  | none, some l => if l.valid.getLsbD w then some (Bytes.le l.data (8 * w) 8) else none
  | none, none => none

/-- A metadata line is on its way (R179). -/
def Pcc.fetching (m : Pcc) (x : Nat) : Bool := m.fetches.any (fun f => f.off == x)

/-- The parent of a node and its slot there; none for level 4, whose parent is the root entry. -/
def Pcc.parentOf (m : Pcc) (x : Nat) : Option (Nat × Nat) :=
  match m.nodeOf x with
  | some (l, i) => if l < 4 then some (m.nodeAt (l + 1) (i / 64), i % 64) else none
  | none => none

/-- A line operation uses counters of its group: verified or being fetched, and not yet released (R229). -/
def LineOp.usesCounters (o : LineOp) : Bool :=
  Entry.cls o.ent != 0 && (match o.phase with | .start => false | .sent => false | _ => true)

/-- A cached counter line or node may not be replaced (R229): a child of it is cached and dirty, or counters of it are in
use. A tag line being fetched is kept as in R178. -/
def State.metaPinned (s : State) (p : Nat) (l : MetaLine) : Bool :=
  let m := s.pcc.get p
  if l.node then
    m.cache.cells.any (fun c => c.2.node && c.2.dirty != 0 && (m.parentOf c.2.off).any (fun q => q.1 == l.off)) ||
      m.fetches.any (fun f => f.node && (m.parentOf f.off).any (fun q => q.1 == l.off)) ||
      m.parents.any (fun q => q.off == l.off) ||
      m.overflows.any (fun v => m.nodeAt 0 v.group == l.off) ||
      (s.mem.get (pccIx p)).ops.any (fun o => o.usesCounters && m.nodeAt 0 (m.groupOf o.line) == l.off)
  else m.fetching l.off

/-- The way that takes a metadata line (R227): its own, the lowest free one, the tree's choice, or the lowest unpinned. A node
does not take the way of its own parent. -/
def State.metaPlace (s : State) (p x : Nat) : Option Nat :=
  let m := s.pcc.get p
  let pinned (k : Nat) : Bool :=
    let l := m.cache.get k
    s.metaPinned p l || (l.node && (m.parentOf x).any (fun q => q.1 == l.off))
  match m.metaKey x with
  | some k => some k
  | none => match (metaKeys x).find? (fun k => (m.cache.get k).valid == 0) with
    | some k => some k
    | none =>
      let v := 16 * (x % 2048) + plruVictim (m.plru.get (x % 2048))
      if pinned v then (metaKeys x).find? (fun k => !pinned k) else some v

/-- A use of a way moves the tree of its set (R178, R227). -/
def Pcc.metaUse (m : Pcc) (k : Nat) : Pcc := { m with plru := m.plru.modify (k / 16) (fun b => plruUse b (k % 16)) }

/-- Write a cache line and note its use (R227). -/
def Pcc.metaSet (m : Pcc) (k : Nat) (l : MetaLine) : Pcc := ({ m with cache := m.cache.set k l }).metaUse k

/-- A hit on a metadata line (R178, R227). -/
def Pcc.metaHit (m : Pcc) (x : Nat) : Pcc :=
  match m.metaKey x with
  | some k => m.metaUse k
  | none => m

/-- A metadata line leaves on PP; until it is accepted no fetch of it starts (R220, R230). Its identifier is 2^49 plus the
line. -/
def State.metaWrite (s : State) (p x : Nat) (data : Bytes) (be : List Bool) : State :=
  let s := s.emit (.memWrite (pccIx p) (2 ^ 49 + x) 2 ((s.pcc.get p).metaAddr x) data be)
  s.onPcc p (fun m => { m with writing := m.writing ++ [x] })

/-- The tree key of PCCp: slot 1 + p (R226, R447). -/
def State.treeKey (s : State) (p : Nat) : Bytes := (s.slot (1 + p)).key

/-- The counter of a node in its parent (R222, R223): the parent is a root entry or cached. -/
def Pcc.counterOf (m : Pcc) (x : Nat) : Option (Nat × Nat) :=
  match m.nodeOf x with
  | some (4, r) => some ((m.root.get r).ctr.toNat, 0)
  | _ => match m.parentOf x with
    | some (q, i) => (m.node q).map (fun d => (nodeMajor d, nodeMinor d i))
    | none => none

/-- Change a cached node's bytes and mark it dirty. -/
def Pcc.nodeUpdate (m : Pcc) (x : Nat) (f : Bytes → Bytes) : Pcc :=
  match m.metaKey x with
  | some k => m.metaSet k (let l := m.cache.get k; { l with data := f l.data, dirty := 1 })
  | none => m

/-- A cached node becomes dirty as it is. -/
def Pcc.nodeDirty (m : Pcc) (x : Nat) : Pcc :=
  match m.metaKey x with
  | some k => { m with cache := m.cache.modify k (fun l => { l with dirty := 1 }) }
  | none => m

/-- Advance minor counter `i` of parent node `q` for its child `x` (R235, R239) and answer the counter the child is written
under. A parent whose minor counter has run out moves to the next major counter; its other children become dirty, those not
cached by being fetched. -/
def State.advanceNode (s : State) (p x q i : Nat) : State × Nat × Nat :=
  let m := s.pcc.get p
  let d := (m.node q).getD (zeros 64)
  if nodeMinor d i = 127 then
    let others := ((List.range 64).map (fun j => x - i + j)).filter (fun c => c != x)
    let left := others.filter (fun c => (m.metaKey c).isNone)
    let m := m.nodeUpdate q (fun d => nodeBytes (nodeMajor d + 1) (List.replicate 64 0))
    let m := others.foldl Pcc.nodeDirty m
    let new : ParentOverflow := { off := q, major := nodeMajor d, minors := nodeMinors d, left := left }
    let m := { m with parents := m.parents ++ (if left.isEmpty then [] else [new]) }
    (s.onPcc p (fun _ => m), nodeMajor d + 1, 0)
  else
    (s.onPcc p (fun m => m.nodeUpdate q (fun d => nodeSetMinor d i (nodeMinor d i + 1))), nodeMajor d, nodeMinor d i + 1)

/-- Advance the counter above a node at the place given: a root entry's for a node of the top level, else its parent's. -/
def State.advanceAt (s : State) (p x : Nat) (place parent : Option (Nat × Nat)) : State × Nat × Nat :=
  match place with
  | some (4, r) =>
    let e := (s.pcc.get p).root.get r
    (s.onPcc p (fun m => { m with root := m.root.set r { e with ctr := e.ctr + 1 } }), e.ctr.toNat + 1, 0)
  | _ => match parent with
    | none => (s, 0, 0)
    | some (q, i) => s.advanceNode p x q i

/-- Advance the parent's counter for an evicted node. -/
def State.advanceParent (s : State) (p x : Nat) : State × Nat × Nat :=
  s.advanceAt p x ((s.pcc.get p).nodeOf x) ((s.pcc.get p).parentOf x)

/-- A lane of PCCp and the tree key's schedule are ready (R226, R111): the tree key is slot 1 + p (R447). -/
def State.treeSched (s : State) (p : Nat) : State × Option Sched := s.readySched (pccIx p) (1 + p)

/-- A tag word is to go into the cache: it waits for a way of its line. -/
def State.tagDue (s : State) (p t w word : Nat) : State :=
  s.onPcc p (fun m => { m with due := m.due.filter (fun d => !(d.1 == t && d.2.1 == w)) ++ [(t, w, word)] })

/-- An evicted node's output leaves the lane (R235): the node is written on PP, and its tag word goes into the cache. -/
def State.nodeWritten (s : State) (p off : Nat) (data : Bytes) (word : Nat) : State :=
  let m := s.pcc.get p
  (s.emit (.memWrite (pccIx p) (2 ^ 49 + off) 2 (m.metaAddr off) data (List.replicate 64 true))).tagDue p (m.nodeTagAt off).1
    (m.nodeTagAt off).2 word

/-- Write back an evicted dirty node (R235): its parent's counter advances, and its tag is computed under that counter by a
Tag Hash-only issue; no fetch of it starts until it is accepted (R230). -/
def State.nodeEvict (s : State) (p : Nat) (old : MetaLine) (x : Sched) : State :=
  let r := s.advanceParent p old.off
  let word := nodeTag x.key r.2.1 r.2.2 ((r.1.pcc.get p).metaAddr old.off) old.data
  let s := r.1.onPcc p (fun m => { m with writing := m.writing ++ [old.off] })
  s.issueThen (pccIx p) (.nodeOut old.off old.data word) x.id (fun s => s.nodeWritten p old.off old.data word)

/-- Put a metadata line into the cache, evicting what is in its way (R227, R235): a dirty node is written back, a tag line's
dirty words are written back (R182). `false` when every way is pinned, or a dirty node must go and no lane is ready. -/
def State.metaPut (s : State) (p : Nat) (l : MetaLine) : State × Bool :=
  match s.metaPlace p l.off with
  | none => (s, false)
  | some k =>
    let old := (s.pcc.get p).cache.get k
    let put (s : State) : State := s.onPcc p (fun m => m.metaSet k l)
    if old.off = l.off ∨ old.valid = 0 ∨ old.dirty = 0 then (put s, true)
    else if old.node then
      match s.treeSched p with
      | (s, none) => (s, false)
      | (s, some x) => (put (s.nodeEvict p old x), true)
    else (put (s.metaWrite p old.off old.data (dirtyBe old.dirty)), true)

/-- A tag word that waits goes into the cache as valid and dirty, without a fetch (R180, R228), if its line finds a way. -/
def State.dueOne (s : State) (p : Nat) (d : Nat × Nat × Nat) : State :=
  let (t, w, word) := d
  let x := ((s.pcc.get p).metaLine t).getD { off := t, data := zeros 64 }
  let b : BitVec 8 := BitVec.ofNat 8 (2 ^ w)
  match s.metaPut p { x with
      data := x.data.take (8 * w) ++ toLe 8 word ++ x.data.drop (8 * w + 8), valid := x.valid ||| b, dirty := x.dirty ||| b } with
  | (s, true) => s.onPcc p (fun m => { m with due := m.due.filter (fun e => e != d) })
  | (s, false) => s

/-- Every tag word that waits tries. -/
def State.dueTry (s : State) (p : Nat) : State := (s.pcc.get p).due.foldl (fun s d => s.dueOne p d) s

/-- Install a tag word (R180, R228). -/
def State.metaTagInstall (s : State) (p t w word : Nat) : State := (s.tagDue p t w word).dueOne p (t, w, word)

/-! ### Fetches (R42, R230, R232) -/

/-- Entries an MCC may still lend (R42, R44). -/
def State.mayLend (s : State) (k : Nat) : Bool :=
  let m := s.mcc.get k
  s.live (mccIx k) && decide (m.lent < 256) && m.freeEntries

/-- The partner that lends the next entry: in rotation, one with none free is skipped (R42). -/
def State.lender (s : State) (p : Nat) : Option Nat :=
  let t := (s.pcc.get p).turn
  ((List.range 4).map (fun i => 4 * p + (t + i) % 4)).find? s.mayLend

/-- Entries that the four partners can lend together. -/
def State.lendable (s : State) (p : Nat) : Nat :=
  ((List.range 4).map (fun i =>
    let m := s.mcc.get (4 * p + i)
    if s.live (mccIx (4 * p + i)) then min (256 - m.lent) (2048 - m.fetching.length - m.lent) else 0)).foldl (· + ·) 0

/-- Issue one metadata fetch with a borrowed entry (R220, R232). -/
def State.metaFetch (s : State) (p x : Nat) (node : Bool) : State :=
  match s.lender p with
  | none => s
  | some k =>
    let s := s.onMcc k (fun m => { m with lent := m.lent + 1 })
    let s := s.emit (.memRead (pccIx p) (2 ^ 49 + x) 2 ((s.pcc.get p).metaAddr x))
    let s := s.countT (pccIx p) 0x07 128
    let word := if node then (s.pcc.get p).tagWord ((s.pcc.get p).nodeTagAt x).1 ((s.pcc.get p).nodeTagAt x).2 else none
    s.onPcc p (fun m => { m with fetches := m.fetches ++ [{ off := x, node := node, lender := k, word := word }], turn := (k + 1) % 4 })

/-- A fetch ends: its entry goes back to the MCC that lent it. -/
def State.metaFetchEnd (s : State) (p x : Nat) : State :=
  match (s.pcc.get p).fetches.find? (fun f => f.off == x) with
  | some f =>
    (s.onMcc f.lender (fun m => { m with lent := m.lent - 1 })).onPcc p (fun m =>
      { m with fetches := m.fetches.filter (fun f => f.off != x) })
  | none => s

/-- The ancestors of a node from itself up to the first that is cached, or the root: those not cached (R232). -/
def Pcc.missingChain (m : Pcc) : Nat → Nat → List Nat
  | 0, _ => []
  | n + 1, x =>
    if (m.metaKey x).isSome then []
    else x :: (match m.parentOf x with | some (q, _) => m.missingChain n q | none => [])

/-- The metadata lines to fetch for some missing nodes: each node not on its way, and its tag line (R232). -/
def Pcc.fetchList (m : Pcc) (chain : List Nat) : List (Nat × Bool) :=
  let nodes := (chain.filter (fun x => !m.fetching x)).map (fun x => (x, true))
  let tags := (chain.map m.nodeTagAt).filterMap (fun t =>
    if (m.tagWord t.1 t.2).isSome || m.fetching t.1 then none else some (t.1, false))
  nodes ++ tags.foldl (fun l t => if l.contains t then l else l ++ [t]) []

/-- A metadata line belongs to the span of node `idx` of a level: a node inside it, or the tag line of data inside it. -/
def Pcc.inSpan (m : Pcc) (level idx x : Nat) : Bool :=
  match m.nodeOf x with
  | some (l, i) => decide (l ≤ level) && i / 64 ^ (level - l) == idx
  | none => decide (x < levelOff m.spans 0) && x / 8 / 64 ^ level == idx

/-- A metadata line is on its way out on PP (R230): written back, or a node of a span that is being rewritten, or its tag
line. -/
def Pcc.leaving (m : Pcc) (x : Nat) : Bool :=
  m.writing.contains x || m.rewriting.any (fun r => m.inSpan r.1 r.2 x ||
    (match m.nodeOf x with
      | some _ => false
      | none => decide (levelOff m.spans 5 ≤ x) &&
          (List.range 8).any (fun w => m.inSpan r.1 r.2 (levelOff m.spans 0 + 8 * (x - levelOff m.spans 5) + w))))

/-- The fetches can start now: their write-backs are accepted (R230), each set has a way (R229), and the partners have
the entries (R43). -/
def State.canFetch (s : State) (p : Nat) (l : List (Nat × Bool)) : Bool :=
  l.all (fun f => !(s.pcc.get p).leaving f.1 && (s.metaPlace p f.1).isSome) && decide (l.length ≤ s.lendable p)

/-- Start some metadata fetches. -/
def State.fetchAll (s : State) (p : Nat) (l : List (Nat × Bool)) : State := l.foldl (fun s f => s.metaFetch p f.1 f.2) s

/-! ### Fences (R240 to R245) -/

/-- A node lies inside the span of a fence record of its root entry. -/
def FenceRec.covers (f : FenceRec) (level idx : Nat) : Bool :=
  decide (level ≤ f.level) && idx / 64 ^ (f.level - level) % 2 ^ (24 - 6 * f.level) == f.index

/-- A line's span is fenced (R243). -/
def Pcc.fenced (m : Pcc) (line : Nat) : Bool :=
  let g := m.groupOf line
  let e := m.root.get (g / 64 ^ 4)
  e.state == 2 || e.fences.any (fun f => f.covers 0 g)

/-- A class R line cannot be reached: its span is fenced, or its root entry is UNINIT and nothing verifies under it (R225). -/
def Pcc.closed (m : Pcc) (line : Nat) : Bool := m.fenced line || (m.root.get (m.groupOf line / 64 ^ 4)).state != 1

/-- The root entry after one more fence (R240, R242): records inside the new span are absorbed; a seventh record, or a
failed level-4 node, fences the whole subtree. The six records then go, and a later failure in a FENCED subtree writes none
(DESIGN CHOICE, log entry 84). -/
def RootEntry.fence (e : RootEntry) (level idx : Nat) : RootEntry :=
  if level = 4 ∨ e.state = 2 then { e with state := 2, fences := [] }
  else
    let f : FenceRec := { level := level, index := idx % 2 ^ (24 - 6 * level) }
    if e.fences.any (fun g => g.covers level idx) then e
    else
      let rest := e.fences.filter (fun g => !(f.covers g.level g.index))
      if rest.length ≥ 6 then { e with state := 2, fences := [] } else { e with fences := rest ++ [f] }

/-- What fencing a span discards (R243, R244): its dirty cached lines, its tag words that wait, its overflows, its fetches; and
every operation on it fails closed. -/
def State.spanDrop (s : State) (p level idx : Nat) : State :=
  let c := pccIx p
  let m := s.pcc.get p
  let s := s.onPcc p (fun m => { m with
    cache := (m.cache.keysWhere (fun _ l => l.dirty != 0 && m.inSpan level idx l.off)).foldl (fun t k => t.set k default) m.cache
    due := m.due.filter (fun d => !m.inSpan level idx d.1)
    overflows := m.overflows.filter (fun v => v.group / 64 ^ level != idx)
    parents := (m.parents.map (fun q => { q with left := q.left.filter (fun x => !m.inSpan level idx x) })).filter (fun q => !q.left.isEmpty) })
  let gone (k : ItemKind) : Bool := match k with | .node off _ => m.inSpan level idx off | _ => false
  let s := s.onCluster c (fun y => { y with items := y.items.filter (fun x => !gone x.kind) })
  let s := (m.fetches.filter (fun f => f.node && m.inSpan level idx f.off)).foldl (fun s f => s.metaFetchEnd p f.off) s
  ((s.mem.get c).ops.filter (fun o => o.usesCounters && m.groupOf o.line / 64 ^ level == idx)).foldl
    (fun s o => s.finishOp c o false []) s

/-- Fence the span of a node (R240, R242, R244): its fence record, and what the fence discards; a subtree that becomes FENCED is
fenced whole. -/
def State.spanFence (s : State) (p level idx : Nat) : State :=
  let r := idx / 64 ^ (4 - level)
  let s := s.onPcc p (fun m => { m with root := m.root.modify r (fun e => e.fence level idx) })
  if ((s.pcc.get p).root.get r).state = 2 then s.spanDrop p 4 r else s.spanDrop p level idx

/-- A failed node (R240, R244): one class 5 report with the root entry as its unit, and its span is fenced. -/
def State.treeFence (s : State) (p level idx : Nat) : State :=
  ((s.report 5 (pccIx p) (idx / 64 ^ (4 - level))).countT (pccIx p) 0x29 128).spanFence p level idx

/-! ### Spans written as zero (R245, R246) -/

/-- The nodes of the span of node (level, idx) from level `low` to level `high`: metadata lines. -/
def Pcc.spanNodes (m : Pcc) (level idx low high : Nat) : List Nat :=
  (List.range (high + 1 - low)).flatMap (fun j =>
    let l := low + j
    (List.range (64 ^ (level - l))).map (fun i => m.nodeAt l (idx * 64 ^ (level - l) + i)))

/-- What PortOut.zeroNodes stands for: each node of the span as zero at its pool-local address, and its tag word at its place;
the tag of the top node, where it is among them, is made under ROOT_CTR, every other under the zero counters of its parent. -/
def Pcc.zeroNodes (m : Pcc) (key : Bytes) (ctr level idx low high : Nat) : List (Nat × Bytes) :=
  (m.spanNodes level idx low high).flatMap (fun x =>
    let major := match m.nodeOf x with | some (4, _) => ctr | _ => 0
    let t := m.nodeTagAt x
    [(m.metaAddr x, zeros 64), (m.metaAddr t.1 + 8 * t.2, toLe 8 (nodeTag key major 0 (m.metaAddr x) (zeros 64)))])

/-- Identifier of the writes that make a span zero. -/
def zeroId (level idx : Nat) : Nat := 2 ^ 50 + 2 ^ 32 * level + idx

/-- Cached words of the node tags of a span give way to the words that the rewriting puts in memory. -/
def Pcc.dropTagWords (m : Pcc) (level idx : Nat) : Pcc :=
  let mine (x w : Nat) : Bool := decide (levelOff m.spans 5 ≤ x) && m.inSpan level idx (levelOff m.spans 0 + 8 * (x - levelOff m.spans 5) + w)
  let keep (x : Nat) : BitVec 8 := BitVec.ofNat 8 (((List.range 8).map (fun w => if mine x w then 0 else 2 ^ w)).sum)
  let f (_ : Nat) (l : MetaLine) : MetaLine :=
    if l.node then l else { l with valid := l.valid &&& keep l.off, dirty := l.dirty &&& keep l.off }
  { m with cache := m.cache.mapKeys f, due := m.due.filter (fun d => !mine d.1 d.2.1) }

/-- The nodes of a span from level `low` to level `high` are written as zero with fresh tags: nothing of the span stays in the
cache, and no fetch in it starts before the writes are accepted. -/
def State.zeroSpan (s : State) (p level idx low high : Nat) : State :=
  let s := s.emit (.zeroNodes p (zeroId level idx) level idx low high)
  s.onPcc p (fun m =>
    let m := m.dropTagWords level idx
    { m with
      cache := (m.cache.keysWhere (fun _ l => m.inSpan level idx l.off)).foldl (fun t k => t.set k default) m.cache
      rewriting := m.rewriting ++ [(level, idx)] })

/-- The nodes of an UNINIT subtree are written as zero and its root entry is LIVE (R246). -/
def State.subtreeInit (s : State) (p r : Nat) : State :=
  (s.zeroSpan p 4 r 1 4).onPcc p (fun m => { m with root := m.root.modify r (fun e => { e with state := 1, fences := [] }) })

/-- A FENCED subtree is cleared (R245): its nodes and counter lines are written as zero under the next ROOT_CTR. -/
def State.subtreeClear (s : State) (p r : Nat) : State :=
  let s := s.onPcc p (fun m => { m with root := m.root.modify r (fun e => { e with ctr := e.ctr + 1 }) })
  (s.zeroSpan p 4 r 0 4).onPcc p (fun m => { m with root := m.root.modify r (fun e => { e with state := 1, fences := [] }) })

/-- What lies under a node is written as zero with tags under its zero counters; the node itself stays. -/
def State.zeroUnder (s : State) (p level idx : Nat) : State :=
  let x := (s.pcc.get p).nodeAt level idx
  match (s.pcc.get p).metaKey x with
  | some k =>
    let l := (s.pcc.get p).cache.get k
    (s.zeroSpan p level idx 0 (level - 1)).onPcc p (fun m => { m with cache := m.cache.set k l })
  | none => s

/-- Tower clears some fence records of a root entry (R245): each span is rewritten before the record goes. -/
def State.clearFences (s : State) (p r : Nat) (which : FenceRec → Bool) : State :=
  s.onPcc p (fun m => { m with clearing := m.clearing ++
    (((m.root.get r).fences.filter which).filter (fun f => !m.clearing.contains (r, f))).map (fun f => (r, f)) })

/-- Rewrite the span of a cleared fence (R245): the fenced node becomes a zero node in the cache, dirty, so that it takes a
fresh tag under the next counter of its parent; what lies under it is written as zero. Its missing ancestors are fetched
first. -/
def State.clearStep (s : State) (p : Nat) (q : Nat × FenceRec) : State :=
  let m := s.pcc.get p
  let (r, f) := q
  let idx := r * 64 ^ (4 - f.level) + f.index
  let x := m.nodeAt f.level idx
  let chain := match m.parentOf x with | some (y, _) => m.missingChain 5 y | none => []
  if !(m.root.get r).fences.contains f then s.onPcc p (fun m => { m with clearing := m.clearing.filter (fun c => c != q) })
  else if !chain.isEmpty then (let l := m.fetchList chain; if s.canFetch p l then s.fetchAll p l else s)
  else
    match s.metaPut p { off := x, node := true, data := zeros 64, valid := 0xFF, dirty := 1 } with
    | (s, false) => s
    | (s, true) =>
      let s := if f.level = 0 then s else s.zeroUnder p f.level idx
      s.onPcc p (fun m => { m with
        clearing := m.clearing.filter (fun c => c != q)
        root := m.root.modify r (fun e => { e with fences := e.fences.filter (fun g => g != f) }) })

/-! ### Verification (R232, R239) -/

/-- The counter under which a fetched node must verify: its old one while its parent's overflow waits for it (R239). -/
def Pcc.verifyCounter (m : Pcc) (x : Nat) : Option (Nat × Nat) :=
  match m.parents.find? (fun q => q.left.contains x) with
  | some q => (m.parentOf x).map (fun z => (q.major, (q.minors[z.2]?).getD 0))
  | none => m.counterOf x

/-- A node whose check has ended well enters the cache (R228), dirty when its parent's overflow waited for it (R239). -/
def State.nodeInstall (s : State) (p : Nat) (f : MetaFetch) : State :=
  let late := (s.pcc.get p).parents.any (fun q => q.left.contains f.off)
  let out (q : ParentOverflow) : ParentOverflow := { q with left := q.left.filter (fun x => x != f.off) }
  match s.metaPut p { off := f.off, node := true, data := f.got.getD [], valid := 0xFF, dirty := if late then 1 else 0 } with
  | (s, true) =>
    (s.onPcc p (fun m => { m with parents := (m.parents.map out).filter (fun q => !q.left.isEmpty) })).metaFetchEnd p f.off
  | (s, false) => s

/-- Change the fetch of a metadata line. -/
def State.onFetch (s : State) (p off : Nat) (f : MetaFetch → MetaFetch) : State :=
  s.onPcc p (fun m => { m with fetches := mapWhere (fun g => g.off == off) f m.fetches })

/-- The fetch of a metadata line. -/
def Pcc.fetchOf (m : Pcc) (off : Nat) : Option MetaFetch := m.fetches.find? (fun f => f.off == off)

/-- The check of a fetched node leaves its lane (R228, R240): it may enter the cache, or its span is fenced. -/
def State.nodeChecked (s : State) (p off : Nat) (ok : Bool) : State :=
  match (s.pcc.get p).fetchOf off, (s.pcc.get p).nodeOf off with
  | some f, some (level, idx) =>
    if !f.inLane then s
    else if ok then
      ((s.onFetch p off (fun f => { f with inLane := false, verified := true })).countT (pccIx p) 0x04 128).nodeInstall p f
    else ((s.metaFetchEnd p off).countT (pccIx p) 0x05 128).treeFence p level idx
  | _, _ => s

/-- The check of a fetched node has no verdict (R141): its fetch ends, and every operation whose chain it is in completes with
ERROR (DESIGN CHOICE, log entry 85). -/
def State.nodeUndecided (s : State) (p off : Nat) : State :=
  let c := pccIx p
  let m := s.pcc.get p
  let mine (o : LineOp) : Bool := o.usesCounters && (m.missingChain 5 (m.nodeAt 0 (m.groupOf o.line))).contains off
  ((s.mem.get c).ops.filter mine).foldl (fun s o => s.finishOp c o false []) (s.metaFetchEnd p off)

/-- A fetched node with its counter and its tag word is given to a lane (R124, R232). -/
def State.verifyWith (s : State) (p : Nat) (f : MetaFetch) (got : Option Bytes) (counter : Option (Nat × Nat)) (word : Option Nat) : State :=
  match got, counter, word with
  | some d, some (major, minor), some w => match s.treeSched p with
    | (s, some x) =>
      let ok := nodeTag x.key major minor ((s.pcc.get p).metaAddr f.off) d == w
      (s.onFetch p f.off (fun f => { f with inLane := true })).issueThen (pccIx p) (.node f.off ok) x.id (fun s => s.nodeChecked p f.off ok)
    | (s, none) => s
  | _, _, _ => s

/-- A fetched node is verified once its parent and tag word are at hand, and enters the cache once verified. -/
def State.verifyNode (s : State) (p off : Nat) : State :=
  let m := s.pcc.get p
  match m.fetchOf off with
  | some f =>
    if !f.node || f.inLane then s
    else if f.verified then s.nodeInstall p f
    else s.verifyWith p f f.got (m.verifyCounter off) (f.word.or (m.tagWord (m.nodeTagAt off).1 (m.nodeTagAt off).2))
  | none => s

/-- Fetch some metadata lines if they can all start. -/
def State.fetchIfCan (s : State) (p : Nat) (l : List (Nat × Bool)) : State := if s.canFetch p l then s.fetchAll p l else s

/-- Verify what can be verified, fetch the children that an overflowing parent waits for, and put into the cache and on PP what
waits for that. -/
def State.verifyPass (s : State) (p : Nat) : State :=
  let s := ((s.pcc.get p).fetches.map (·.off)).foldl (fun s x => s.verifyNode p x) s
  let s := (s.pcc.get p).parents.foldl (fun s q =>
    match q.left.find? (fun x => !(s.pcc.get p).fetching x) with
    | some x => s.fetchIfCan p ((s.pcc.get p).fetchList [x])
    | none => s) s
  (s.pcc.get p).clearing.foldl (fun s q => s.clearStep p q) (s.dueTry p)

/-! ### Class R lines (R231 to R238) -/

/-- The counter pair of an operation's line in its cached counter line. -/
def Pcc.lineCounter (m : Pcc) (line : Nat) : Option (Nat × Nat) :=
  (m.node (m.nodeAt 0 (m.groupOf line))).map (fun d => (nodeMajor d, nodeMinor d (m.dataLine line % 64)))

/-- The data tag word of a line, if cached. -/
def Pcc.dataTag (m : Pcc) (line : Nat) : Option Nat := m.tagWord (m.dataLine line / 8) (m.dataLine line % 8)

/-- The operation needs the stored line: everything but a full-line write. -/
def LineOp.needsRead (o : LineOp) : Bool := !(o.kind == .wr && o.full)

/-- A write for which the counters of its group are at an end (R237). -/
def State.overflowWaits (s : State) (p : Nat) (o : LineOp) : Bool :=
  o.kind != .rd && o.phase == .fetch && Entry.cls o.ent != 0 && ((s.pcc.get p).lineCounter o.line).any (fun c => c.2 == 127)

/-- Another operation's overflow holds the 4 KiB group of an operation, or will (R237). -/
def State.groupHeld (s : State) (p : Nat) (o : LineOp) : Bool :=
  let m := s.pcc.get p
  let g := m.groupOf o.line
  m.overflows.any (fun v => v.group == g && v.op != o.id) ||
    (s.mem.get (pccIx p)).ops.any (fun x => x.id != o.id && m.groupOf x.line == g && s.overflowWaits p x)

/-- The stored line of an operation that waits is there, or known to be lost. -/
def LineOp.arrived (o : LineOp) : Bool := !o.needsRead || o.raw.isSome || o.lost

/-- Nothing in flight uses the counters of the group of a write but writes that wait for an overflow themselves (R237). -/
def State.overflowReady (s : State) (p : Nat) (o : LineOp) : Bool :=
  let m := s.pcc.get p
  let g := m.groupOf o.line
  m.overflows.all (fun v => v.group != g) && (s.mem.get (pccIx p)).ops.all (fun x =>
    x.id == o.id || m.groupOf x.line != g || !x.usesCounters || (s.overflowWaits p x && x.arrived))

/-- Release of a class R write (R234): the new minor counter enters the counter line, the line leaves on PP and its tag
word is installed. -/
def State.pccWriteOut (s : State) (p : Nat) (o : LineOp) : State :=
  let c := pccIx p
  let m := s.pcc.get p
  let i := m.dataLine o.line % 64
  let s := s.onPcc p (fun m => m.nodeUpdate (m.nodeAt 0 (m.groupOf o.line)) (fun d => nodeSetMinor d i (nodeMinor d i + 1)))
  let s := s.emit (.memWrite c o.id 0 (64 * o.line) (o.raw.getD []) (List.replicate 64 true))
  let s := s.metaTagInstall p (m.dataLine o.line / 8) (m.dataLine o.line % 8) o.tagw
  let s := s.countT c 0x01 (Entry.owner o.ent)
  s.onOp c o.id (fun o => { o with phase := .sent, mpDone := true, laneDone := true, tagOld := m.dataTag o.line })

/-- A class R write that its link has not accepted leaves its counter and its tag word as they were (R202): the word, or no
word in the cache. -/
def State.metaTagBack (s : State) (p line : Nat) (old : Option Nat) : State :=
  let m := s.pcc.get p
  let (t, w, i) := (m.dataLine line / 8, m.dataLine line % 8, m.dataLine line % 64)
  let b : BitVec 8 := BitVec.ofNat 8 (2 ^ w)
  let s := s.onPcc p (fun m => m.nodeUpdate (m.nodeAt 0 (m.groupOf line)) (fun d => nodeSetMinor d i (nodeMinor d i - 1)))
  match old with
  | some word => s.metaTagInstall p t w word
  | none => s.onPcc p (fun m => { m with
      due := m.due.filter (fun d => !(d.1 == t && d.2.1 == w))
      cache := match m.metaKey t with
        | some k => m.cache.modify k (fun x => { x with valid := x.valid &&& ~~~b, dirty := x.dirty &&& ~~~b })
        | none => m.cache })

/-- Issue of a class R write under its next counter (R234). -/
def State.pccEncrypt (s : State) (p : Nat) (o : LineOp) (x : Sched) (major minor : Nat) : State :=
  let c := pccIx p
  let (ct, tag) := ctrEncrypt x.key major (minor + 1) (Entry.owner o.ent) o.line o.plain
  let o := { o with raw := some ct, tagw := tag, sched := x.id, phase := .cmpWrite }
  (s.onOp c o.id (fun _ => o)).issueThen c (.write o.id) x.id (fun s => s.pccWriteOut p o)

/-- The verdict of a class R read, or of the read of a read-modify-write (R202, R205). -/
def State.pccVerdict (s : State) (p id : Nat) : State :=
  let c := pccIx p
  match s.op c id with
  | none => s
  | some o =>
    if o.phase ≠ .verdict then s
    else if o.ok then
      let s := (s.countT c 0x04 (Entry.owner o.ent)).countT c 0x02 (Entry.owner o.ent)
      match o.kind with
      | .rd => s.finishOp c o true (o.result o.plain)
      | _ => s.onOp c id (fun o => { o with phase := .toWrite, plain := o.newLine o.plain, opnd := o.oldValue o.plain })
    else (s.countT c 0x05 (Entry.owner o.ent)).failOp c o 3

/-- The output of a class R read leaves its lane, and with it the verdict. -/
def State.pccReadOut (s : State) (p id : Nat) : State := (s.onOp (pccIx p) id LineOp.readOut).pccVerdict p id

/-- The lane issue of a class R read under the counter of its line (R232). -/
def State.pccDecrypt (s : State) (p : Nat) (o : LineOp) (x : Sched) (major minor : Nat) : State :=
  let c := pccIx p
  let (pt, ok) := ctrDecrypt x.key major minor (Entry.owner o.ent) o.line (o.tagIn.getD 0) (o.raw.getD [])
  let s := s.onOp c o.id (fun o => { o with plain := pt, ok := ok, sched := x.id, phase := .cmpRead })
  s.issueThen c (.read o.id) x.id (fun s => s.pccReadOut p o.id)

/-! ### Counter overflow (R237, R238) -/

/-- Identifier of a line of an overflowing group on PP. -/
def groupId (line : Nat) : Nat := 2 ^ 48 + line

/-- The lines of the group of a line. -/
def Pcc.groupLines (m : Pcc) (line : Nat) : List Nat := (List.range 64).map (fun j => line - m.dataLine line % 64 + j)

/-- Begin the counter overflow of a write's group (R237): the other 63 lines are read. -/
def State.overflowStart (s : State) (p : Nat) (o : LineOp) : State :=
  let c := pccIx p
  let m := s.pcc.get p
  let d := (m.node (m.nodeAt 0 (m.groupOf o.line))).getD (zeros 64)
  let new : Overflow := { line := o.line, slot := Entry.keySlot o.ent, owner := Entry.owner o.ent, group := m.groupOf o.line, major := nodeMajor d
                          minors := nodeMinors d, op := o.id }
  let s := s.onPcc p (fun m => { m with overflows := m.overflows ++ [new] })
  let others := (m.groupLines o.line).filter (fun l => l != o.line)
  let s := others.foldl (fun s l => s.emit (.memRead c (groupId l) 0 (64 * l))) s
  s.onOp c o.id (fun o => { o with phase := .overflow })

/-- The overflow of an operation. -/
def Pcc.overflowOf (m : Pcc) (op : Nat) : Option Overflow := m.overflows.find? (fun v => v.op == op)

/-- Change the overflow of an operation. -/
def State.onOverflow (s : State) (p op : Nat) (f : Overflow → Overflow) : State :=
  s.onPcc p (fun m => { m with overflows := mapWhere (fun v => v.op == op) f m.overflows })

/-- The plaintext of a line of the group is known, none when it failed. -/
def Overflow.known (v : Overflow) (line : Nat) (pt : Option Bytes) : Overflow :=
  { v with asked := v.asked.filter (fun l => l != line), plain := v.plain ++ [(line, pt)] }

/-- The new contents of a line of the group, from its verified plaintext: the written line is merged (R237). -/
def State.overflowNew (s : State) (c : Nat) (v : Overflow) (line : Nat) (pt : Option Bytes) : Option Bytes :=
  if line = v.line then (match s.op c v.op with | some o => pt.map o.newLine | none => none) else pt

/-- The check of a line of an overflowing group leaves its lane (R237, R238): a line that fails is left untouched and
reported. -/
def State.overflowGot (s : State) (p op line : Nat) (pt : Option Bytes) : State :=
  let c := pccIx p
  match (s.pcc.get p).overflowOf op with
  | none => s
  | some v =>
    let s := match pt with
      | some d => ((s.countT c 0x04 v.owner).countT c 0x02 v.owner).onOp c op (fun o =>
          if line = v.line then { o with opnd := o.oldValue d } else o)
      | none =>
        let s := s.countT c 0x05 v.owner
        if line = v.line then s else s.report 3 c 0 (some (BitVec.ofNat 7 v.owner))
    s.onOverflow p op (fun x => x.known line (s.overflowNew c v line pt))

/-- What is known of a line of the group before any lane issue (R233, R238): a never-written line is zeros, a full-line write
needs nothing, a line that came with an uncorrectable error has failed. `none`: it is still to be checked, or to arrive. -/
def Overflow.atOnce (v : Overflow) (o : Option LineOp) (never : Bool) (line : Nat) : Option (Option Bytes) :=
  if line = v.line then
    match o with
    | none => some none
    | some o => if !o.needsRead then some (some o.lineData) else if never then some (some (zeros 64)) else if o.lost then some none else none
  else match v.got.find? (fun g => g.1 == line) with
    | none => none
    | some (_, d) => if never then some (some (zeros 64)) else if d.isNone then some none else none

/-- The stored bytes of a line of the group that are to be checked. -/
def Overflow.stored (v : Overflow) (o : Option LineOp) (line : Nat) : Option Bytes :=
  if line = v.line then (match o with | some o => o.raw | none => none)
  else match v.got.find? (fun g => g.1 == line) with | some g => g.2 | none => none

/-- Verify one line of the group under its old counter (R237, R238), or fetch its tag line. -/
def State.overflowRead (s : State) (p : Nat) (v : Overflow) (line : Nat) : State :=
  let c := pccIx p
  let m := s.pcc.get p
  let minor := (v.minors[m.dataLine line % 64]?).getD 0
  let o := s.op c v.op
  match v.atOnce o (v.major == 0 && minor == 0) line with
  | some none =>
    let s := if line = v.line then s else s.report 4 c 0 (some (BitVec.ofNat 7 v.owner))
    s.onOverflow p v.op (fun x => x.known line none)
  | some (some d) =>
    let new := if line = v.line then (match o with | some o => if o.needsRead then some (o.newLine d) else some d | none => none) else some d
    (s.onOverflow p v.op (fun x => x.known line new)).onOp c v.op (fun o => if line = v.line then { o with opnd := o.oldValue d } else o)
  | none => match v.stored o line, m.dataTag line with
    | none, _ => s
    | some _, none => if m.fetching (m.dataLine line / 8) then s else s.fetchIfCan p [(m.dataLine line / 8, false)]
    | some raw, some tag => match s.readySched c v.slot with
      | (s, none) => s
      | (s, some x) =>
        let (pt, ok) := ctrDecrypt x.key v.major minor v.owner line tag raw
        let out := if ok then some pt else none
        (s.onOverflow p v.op (fun x => { x with asked := x.asked ++ [line] })).issueThen c (.overflowRead v.op line out) x.id (fun s =>
          s.overflowGot p v.op line out)

/-- A re-encrypted line of the group leaves its lane (R237): it is written, the written line last to complete its request, and
its tag word is installed. -/
def State.overflowOut (s : State) (p op line : Nat) (ct : Bytes) (tag : Nat) : State :=
  let c := pccIx p
  match (s.pcc.get p).overflowOf op with
  | none => s
  | some v =>
    let m := s.pcc.get p
    let own := line = v.line ∧ (s.op c op).isSome
    let s := s.emit (.memWrite c (if own then op else groupId line) 0 (64 * line) ct (List.replicate 64 true))
    let s := ((s.metaTagInstall p (m.dataLine line / 8) (m.dataLine line % 8) tag).countT c 0x01 v.owner).countT c 0x0D v.owner
    s.onOverflow p op (fun x => { x with asked := x.asked.filter (fun l => l != line), left := x.left.filter (fun l => l != line) })

/-- The encryption of a line of the group is undecided (R141): the line stays as it is, and a write to it fails. -/
def State.overflowLost (s : State) (p op line : Nat) : State :=
  s.onOverflow p op (fun v => { v with
    asked := v.asked.filter (fun l => l != line), left := v.left.filter (fun l => l != line)
    plain := mapWhere (fun g => g.1 == line) (fun g => (g.1, none)) v.plain })

/-- Encrypt one line of the group under (MAJOR + 1, 0) (R237): the written line after all others. -/
def State.overflowWrite (s : State) (p : Nat) (v : Overflow) (line : Nat) : State :=
  let c := pccIx p
  if line = v.line ∧ (((s.pcc.get p).overflowOf v.op).any (fun x => x.left.length != 1)) then s
  else match s.readySched c v.slot with
    | (s, none) => s
    | (s, some x) =>
      let pt := ((v.plain.find? (fun g => g.1 == line)).bind Prod.snd).getD (zeros 64)
      let (ct, tag) := ctrEncrypt x.key (v.major + 1) 0 v.owner line pt
      (s.onOverflow p v.op (fun x => { x with asked := x.asked ++ [line] })).issueThen c (.overflowWrite v.op line ct tag) x.id (fun s =>
        s.overflowOut p v.op line ct tag)

/-- Step 3 of R237: the counter line moves to (MAJOR + 1, 0). -/
def State.overflowAdvance (s : State) (p : Nat) (v : Overflow) : State :=
  let left := (v.plain.filter (fun g => g.2.isSome)).map Prod.fst
  (s.onPcc p (fun m => m.nodeUpdate (m.nodeAt 0 v.group) (fun _ => nodeBytes (v.major + 1) (List.replicate 64 0)))).onOverflow p v.op
    (fun x => { x with advanced := true, left := left })

/-- An operation of the group that has read its line before the overflow reads it again. -/
def State.readAgain (s : State) (p : Nat) (o : LineOp) : State :=
  let c := pccIx p
  if o.needsRead then
    (s.emit (.memRead c o.id 0 (64 * o.line))).onOp c o.id (fun x => { x with raw := none, lost := false, tagIn := (s.pcc.get p).dataTag o.line })
  else s

/-- The group is released (R237, R238): the write waits for its acceptance, or fails. -/
def State.overflowEnd (s : State) (p : Nat) (v : Overflow) : State :=
  let c := pccIx p
  let m := s.pcc.get p
  let s := (s.onPcc p (fun m => { m with overflows := m.overflows.filter (fun x => x.op != v.op) })).countT c 0x28 v.owner
  let waiting := (s.mem.get c).ops.filter (fun x => x.id != v.op && m.groupOf x.line == v.group && x.usesCounters)
  let s := waiting.foldl (fun s x => s.readAgain p x) s
  match s.op c v.op with
  | none => s
  | some o =>
    if v.plain.any (fun g => g.1 == v.line && g.2.isSome) then
      s.onOp c o.id (fun o => { o with phase := .sent, mpDone := true, laneDone := true, tagOld := none })
    else s.failOp c o (if o.lost then 4 else 3)

/-- Let the overflow of operation `op` go on as far as it can (R237). One whose write is gone before its counters advance ends. -/
def State.overflowTry (s : State) (p op : Nat) : State :=
  match (s.pcc.get p).overflowOf op with
  | none => s
  | some v =>
    let known (l : Nat) : Bool := v.asked.contains l || v.plain.any (fun g => g.1 == l)
    if v.advanced then
      if v.left.isEmpty then s.overflowEnd p v
      else (v.left.filter (fun l => !v.asked.contains l)).foldl (fun s l => s.overflowWrite p v l) s
    else if (s.op (pccIx p) op).isNone then
      s.onPcc p (fun m => { m with overflows := m.overflows.filter (fun x => x.op != op) })
    else if v.plain.length = 64 then s.overflowAdvance p v
    else (((s.pcc.get p).groupLines v.line).filter (fun l => !known l)).foldl (fun s l => s.overflowRead p v l) s

/-! ### Class R lines through their phases (R231 to R234) -/

/-- The metadata lines that hit in the cache when a line is admitted (R178, R227): the counter line or the first cached
ancestor, the node-tag lines of those above that are missing, and the data tag line. -/
def Pcc.admitHits (m : Pcc) (chain : List Nat) (x t : Nat) : List Nat :=
  let top := match chain.getLast? with
    | none => [x]
    | some y => (m.parentOf y).toList.map Prod.fst
  top ++ (chain.map m.nodeTagAt).map Prod.fst ++ [t]

/-- Admission of a class R line (R229 to R232, R243): its data line, tag line and missing chain are fetched together. A write
waits also for a way for its tag word. -/
def State.pccAdmit (s : State) (p : Nat) (o : LineOp) : State :=
  let c := pccIx p
  let m := s.pcc.get p
  if m.closed o.line then s.finishOp c o false []
  else
    let x := m.nodeAt 0 (m.groupOf o.line)
    let chain := m.missingChain 5 x
    let t := m.dataLine o.line / 8
    let tagIn := m.dataTag o.line
    let tag := if o.needsRead ∧ tagIn.isNone ∧ !m.fetching t then [(t, false)] else []
    let l := m.fetchList chain ++ tag
    if s.canFetch p l ∧ (o.kind = .rd ∨ (s.metaPlace p t).isSome) then
      let s := if o.needsRead then s.emit (.memRead c o.id 0 (64 * o.line)) else s
      let s := s.onPcc p (fun m => (m.admitHits chain x t).foldl Pcc.metaHit m)
      (s.fetchAll p l).onOp c o.id (fun x => { x with phase := .fetch, tagIn := tagIn, mpDone := x.kind == .rd })
    else s

/-- A class R operation whose counter line is verified goes on (R233, R234, R237): errors on the data of a line never written
are ignored with the data. -/
def State.pccFetched (s : State) (p : Nat) (o : LineOp) : State :=
  let c := pccIx p
  match (s.pcc.get p).lineCounter o.line with
  | none => s
  | some (major, minor) =>
    let never := major == 0 && minor == 0
    if o.kind ≠ .rd ∧ minor = 127 then (if s.overflowReady p o ∧ !s.laneBlocked c o then s.overflowStart p o else s)
    else if s.groupHeld p o ∧ (s.pcc.get p).overflows.any (fun v => v.group == (s.pcc.get p).groupOf o.line) then s
    else if o.kind = .rd ∧ never then s.finishOp c o true (o.result (zeros 64))
    else if !o.needsRead then s.onOp c o.id (fun x => { x with phase := .toWrite, plain := x.lineData })
    else if never then
      s.onOp c o.id (fun x => { x with phase := .toWrite, plain := x.newLine (zeros 64), opnd := x.oldValue (zeros 64) })
    else if o.lost then s.failOp c o 4
    else if o.raw.isSome ∧ o.tagIn.isSome then s.onOp c o.id (fun o => { o with phase := .toDecrypt })
    else s

/-- An OPEN line at the ingress of PCCp (R211, R243): nothing in a fenced span is reached. -/
def State.pccOpen (s : State) (p : Nat) (o : LineOp) : State :=
  let c := pccIx p
  if (s.pcc.get p).fenced o.line then s.finishOp c o false []
  else match o.kind with
    | .wr =>
      ((s.countT c 0x03 (Entry.owner o.ent)).emit (.memWrite c o.id 0 (64 * o.line) o.lineData o.lineBe)).onOp c o.id (fun o =>
        { o with phase := .sent, mpDone := true, laneDone := true })
    | _ =>
      (s.emit (.memRead c o.id 0 (64 * o.line))).onOp c o.id (fun o =>
        { o with phase := .fetch, mpDone := o.kind == .rd, laneDone := true })

/-- Let line operation `id` of PCCp take the next step that nothing holds back. -/
def State.pccAdvance (s : State) (p id : Nat) : State :=
  let c := pccIx p
  match s.op c id with
  | none => s
  | some o =>
    let slot (x : LineOp) : Nat := Entry.keySlot x.ent
    match o.phase with
    | .start =>
      if (s.mem.get c).granuleBlocked o || s.mpBlocked c o then s
      else if Entry.cls o.ent = 0 then s.pccOpen p o
      else if s.groupHeld p o then s
      else s.pccAdmit p o
    | .fetch => if Entry.cls o.ent = 0 then s else s.pccFetched p o
    | .toDecrypt =>
      if s.laneBlocked c o || s.schedBlocked c slot o then s
      else match (s.pcc.get p).lineCounter o.line, s.readySched c (slot o) with
        | some (major, minor), (s, some x) => s.pccDecrypt p o x major minor
        | _, (s, _) => s
    | .toWrite =>
      if s.laneBlocked c o || s.mpBlocked c o || s.schedBlocked c slot o then s
      else match (s.pcc.get p).lineCounter o.line, s.readySched c (slot o) with
        | some (major, minor), (s, some x) => s.pccEncrypt p o x major minor
        | _, (s, _) => s
    | _ => s

/-- Try every operation, overflow and verification of PCCp once. -/
def State.pccPass (s : State) (p : Nat) : State :=
  let s := s.verifyPass p
  let s := ((s.pcc.get p).overflows.map (·.op)).foldl (fun s v => s.overflowTry p v) s
  ((s.mem.get (pccIx p)).ops.map (·.id)).foldl (fun s id => s.pccAdvance p id) s

/-- After each event at PCCp, everything that can go on does. -/
def State.pccPump (s : State) (p : Nat) : State :=
  (List.range ((s.mem.get (pccIx p)).ops.length + 6)).foldl (fun s _ => s.pccPass p) s

/-- A request reaches PCCp (R215, R231 to R234, R347): the check, then its lines. -/
def State.pccRequest (s : State) (p : Nat) (q : MemReq) (kind : OpKind) : State :=
  let c := pccIx p
  if !s.present c then s
  else
    let q := reqNorm q kind
    match s.checkReq c q kind with
    | (s, none) => s
    | (s, some (e, ent)) => (s.admitReq c (reqFrom q c) q kind e ent none).pccPump p

/-- Data of an OPEN line arrives: a read or an atomic's old value. -/
def State.ppOpen (s : State) (p : Nat) (o : LineOp) (data : Bytes) : State :=
  let c := pccIx p
  match o.kind with
  | .rd => (s.countT c 0x03 (Entry.owner o.ent)).finishOp c o true (o.result data)
  | _ =>
    let s := s.countT c 0x03 (Entry.owner o.ent) 2
    let be := (List.range 64).map (fun i => decide (o.off ≤ i ∧ i < o.off + o.atomicBytes))
    (s.emit (.memWrite c o.id 0 (64 * o.line) (o.newLine data) be)).onOp c o.id (fun o =>
      { o with opnd := o.oldValue data, phase := .sent, mpDone := true })

/-- Data arrives on PP for a line operation or for a line of an overflowing group (R202, R233, R238, R349). An uncorrectable
error on a class R line counts once its counter shows that it was written. -/
def State.ppData (s : State) (p id : Nat) (data : Bytes) (err : MemErr) : State :=
  let c := pccIx p
  let s := match err with
    | .corrected => s.countT c 0x0B 128
    | .uncorrectable => s.countT c 0x0C 128
    | .none => s
  let data := Bytes.fit data 64
  match s.op c id with
  | none =>
    let l := id - 2 ^ 48
    let got : Option Bytes := if err = .uncorrectable then none else some data
    let take (v : Overflow) : Overflow :=
      if id ≥ 2 ^ 48 && v.group == (s.pcc.get p).groupOf l && v.got.all (fun g => g.1 != l) then { v with got := v.got ++ [(l, got)] } else v
    (s.onPcc p (fun m => { m with overflows := m.overflows.map take })).pccPump p
  | some o =>
    if (o.phase ≠ .fetch ∧ o.phase ≠ .overflow) ∨ o.raw.isSome then s
    else if Entry.cls o.ent = 0 then (if err = .uncorrectable then s.failOp c o 4 else s.ppOpen p o data).pccPump p
    else (s.onOp c id (fun o => if err = .uncorrectable then { o with raw := some data, lost := true } else { o with raw := some data })).pccPump p

/-- An operation or a fetched node takes its tag word from a tag line that arrives. -/
def State.tagWordsTaken (s : State) (p x : Nat) (word : Nat → Nat) : State :=
  let c := pccIx p
  let m := s.pcc.get p
  let ofOp (o : LineOp) : LineOp :=
    if Entry.cls o.ent ≠ 0 ∧ m.dataLine o.line / 8 = x ∧ o.tagIn.isNone ∧ (o.phase = .fetch ∨ o.phase = .overflow) then
      { o with tagIn := some (word (m.dataLine o.line % 8)) }
    else o
  let ofFetch (f : MetaFetch) : MetaFetch :=
    if f.node && (m.nodeTagAt f.off).1 == x && f.word.isNone then { f with word := some (word (m.nodeTagAt f.off).2) } else f
  (s.onMem c (fun u => { u with ops := u.ops.map ofOp })).onPcc p (fun m => { m with fetches := m.fetches.map ofFetch })

/-- A data tag line is lost: the operations that wait for it have no tag word, and lines of an overflowing group with none are
left untouched (R202, R238). -/
def State.tagLineLost (s : State) (p x : Nat) : State :=
  let c := pccIx p
  let m := s.pcc.get p
  let ofOp (o : LineOp) : LineOp :=
    if Entry.cls o.ent ≠ 0 ∧ m.dataLine o.line / 8 = x ∧ o.tagIn.isNone ∧ (o.phase = .fetch ∨ o.phase = .overflow) then
      { o with lost := true }
    else o
  let bad (l : Nat) : Bool := m.dataLine l / 8 == x && (m.dataTag l).isNone
  let ofGroup (v : Overflow) : Overflow :=
    { v with got := v.got.map (fun g => if bad g.1 then (g.1, none) else g) }
  (s.onMem c (fun u => { u with ops := u.ops.map ofOp })).onPcc p (fun m => { m with overflows := m.overflows.map ofGroup })

/-- An uncorrectable error on a fetched metadata line (R240, R241). -/
def State.metaLost (s : State) (p : Nat) (f : MetaFetch) : State :=
  let m := s.pcc.get p
  let s := s.metaFetchEnd p f.off
  let fence (s : State) (x : Nat) : State := match m.nodeOf x with
    | some (level, idx) => s.treeFence p level idx
    | none => s
  if f.node then fence s f.off
  else if f.off < levelOff m.spans 0 then s.tagLineLost p f.off
  else (List.range 8).foldl (fun s i => fence s (levelOff m.spans 0 + 8 * (f.off - levelOff m.spans 5) + i)) s

/-- A fetched metadata line arrives (R228, R232, R240, R241): tag words are merged as in R181, a node waits for its
verification. -/
def State.metaArrival (s : State) (p x : Nat) (data : Bytes) (err : MemErr) : State :=
  let c := pccIx p
  let m := s.pcc.get p
  match m.fetches.find? (fun f => f.off == x && f.got.isNone) with
  | none => s
  | some f =>
    let s := match err with
      | .corrected => s.countT c 0x0B 128
      | .uncorrectable => s.countT c 0x0C 128
      | .none => s
    let data := Bytes.fit data 64
    if err = .uncorrectable then (s.metaLost p f).pccPump p
    else if f.node then (s.onFetch p x (fun g => { g with got := some data })).pccPump p
    else
      let l := (m.metaLine x).getD { off := x, data := zeros 64 }
      let word (i : Nat) : Nat := (m.tagWord x i).getD (Bytes.le data (8 * i) 8)
      let s := (s.metaFetchEnd p x).tagWordsTaken p x word
      ((s.metaPut p { l with data := ((List.range 8).map (fun i => toLe 8 (word i))).flatten, valid := 0xFF }).1).pccPump p

/-- PP accepts a write's last beat (R230, R236, R675). -/
def State.ppAccept (s : State) (p id : Nat) : State :=
  let c := pccIx p
  let s :=
    if id ≥ 2 ^ 50 then s.onPcc p (fun m => { m with rewriting := m.rewriting.filter (fun r => zeroId r.1 r.2 != id) })
    else if id ≥ 2 ^ 49 then s.onPcc p (fun m => { m with writing := m.writing.erase (id - 2 ^ 49) })
    else s
  match s.op c id with
  | none => s.pccPump p
  | some o =>
    if o.phase ≠ .sent then s
    else (s.finishOp c o true (if o.kind = .at_ then toLe 8 o.opnd else [])).pccPump p

/-- A zero counter line goes into the cache (R247), once its ancestors are there; `true` when it is in. -/
def State.zeroCounterLine (s : State) (p x : Nat) : State × Bool :=
  let m := s.pcc.get p
  let chain := match m.parentOf x with | some (q, _) => m.missingChain 5 q | none => []
  if chain.isEmpty then s.metaPut p { off := x, node := true, data := zeros 64, valid := 0xFF, dirty := 1 }
  else (s.fetchIfCan p (m.fetchList chain), false)

/-- Write one counter line of a region under initialisation as zero through the counter cache (R247); a fence that Tower has
cleared is rewritten first (R245), and a subtree that a reset of the PCC has left UNINIT is initialised again (R246). `true`
when it is written; a line in a span that is fenced since stays unreadable. -/
def State.counterLineInit (s : State) (p group : Nat) : State × Bool :=
  let m := s.pcc.get p
  let r := group / 64 ^ 4
  if m.clearing.any (fun q => q.1 == r && q.2.covers 0 group) then (s, false)
  else if (m.root.get r).state = 2 ∨ (m.root.get r).fences.any (fun f => f.covers 0 group) then (s, true)
  else if (m.root.get r).state = 0 then (s.subtreeInit p r, false)
  else s.zeroCounterLine p (m.nodeAt 0 group)

/-- What a reset of a PCC keeps (R225): its locked fields; the cache, the root and everything in flight are gone. -/
def State.pccReset (s : State) (p : Nat) : State :=
  let s := (s.pcc.get p).fetches.foldl (fun s f => s.metaFetchEnd p f.off) s
  s.onPcc p (fun m => { m with
    root := {}, cache := {}, plru := {}, fetches := [], writing := [], overflows := [], parents := [], due := [], rewriting := [],
    clearing := [], turn := 0, initAt := {} })

end Sys2Proof.Machine
end

