-- ==== Sys2Proof/Machine/Sigs.lean ====
section
/-!
DEFINITION. Signatures and checks as commands: opening, closing, freeing, merging, checking and delivering
(spec/08_belfry_checking.md R355 to R357, R372 to R390).
-/

namespace Sys2Proof.Machine

/-! ### Signatures (R355, R356, R372 to R375) -/

/-- A signature that the descriptor at hand describes (R355). -/
def sigOfDesc (b : Bytes) : Sig :=
  { kind := Bytes.at b 2, format := Bytes.at b 3, mx := bit (Bytes.at b 4) 0, sparse := bit (Bytes.at b 4) 1
    tdid := Bytes.at b 5, base := Bytes.le b 8 8, pitch := Bytes.le b 16 4, rows := Bytes.le b 20 4, cols := Bytes.le b 24 4 }

/-- A signature descriptor is laid out as R355 says. -/
def sigDescFormed (b : Bytes) : Bool :=
  Bytes.le b 0 2 == 1 && decide (Bytes.at b 2 ≤ 2) && decide (Bytes.at b 3 ≤ 31) && decide (Bytes.at b 4 ≤ 3) &&
  decide (Bytes.at b 5 ≤ 127) && Bytes.zeroAt b 6 2 && Bytes.zeroAt b 28 4 && Bytes.le b 20 4 != 0 && Bytes.le b 24 4 != 0

/-- Entries of the master copy that cover part of a span of granules: LIVE, of class C or OPEN, of the owner (R356). -/
def State.coverEntries (s : State) (tdid g0 g1 : Nat) : List Nat :=
  s.own.master.keysWhere (fun _ e =>
    Entry.state e == 1 && decide (Entry.cls e ≤ 1) && Entry.owner e == tdid && rangesMeet g0 (g1 - g0 + 1) (Entry.start e) (Entry.length e))

/-- Granules of the span that the entries cover; entries do not overlap (R272). -/
def State.covered (s : State) (es : List Nat) (g0 g1 : Nat) : Nat :=
  (es.map (fun e => let x := s.master e; min (g1 + 1) (x.start + x.length) - max g0 x.start)).sum

/-- The granules of a tensor span (R355). -/
def Sig.granules (g : Sig) (w : Nat) : Nat × Nat := (g.base / 4096, (g.spanEnd w - 1) / 4096)

/-- The format may be used with the layout (R366). -/
def Format.allows (f : Format) (mx : Bool) : Bool := if mx then f.mx != 0 else f.mx != 2

/-- The alignment of a descriptor (R355). -/
def Sig.aligned (g : Sig) : Bool :=
  let a := if g.mx then 4096 else 64
  g.base % a == 0 && g.pitch % a == 0

/-- Every MCC in service interleaves in granules of at least 4 KiB (R356). -/
def State.wideInterleave (s : State) : Bool :=
  (List.range 8).all (fun k => !s.live (mccIx k) || decide (12 ≤ fld (s.mcc.get k).ilv 4 0))

/-- Accumulator entries of a partition in unit `u` (R372). -/
def State.accumUsed (s : State) (p u : Nat) : Nat :=
  (s.bel.sigs.cells.map (fun c =>
    if c.2.part = p then c.2.entriesIn u else 0)).sum

/-- Signatures of a partition in a set of states. -/
def State.sigCount (s : State) (p : Nat) (f : SigState → Bool) : Nat := s.bel.sigs.countWhere (fun _ g => g.part == p && f g.state)

/-- The lowest index that no open signature holds (R374), and the lowest free handle (R373). -/
def State.sigPlace (s : State) : Option (Nat × Nat) :=
  match firstFrom 0 64 (fun i => !(s.bel.sigs.cells.any (fun c => c.2.state == .opened && c.2.index == i))),
      firstFrom 0 4096 (fun h => (s.bel.sigs.get h).state == .free) with
  | some i, some h => some (i, h)
  | _, _ => none

/-- Why an open is refused under R351 or R356 for a cause that has no STATUS of its own; the format, when it is sound. -/
def State.sigFormat (s : State) (g : Sig) : Option Format :=
  match s.format 43 g.format with
  | none => none
  | some f =>
    let (g0, g1) := g.granules f.w
    let es := s.coverEntries g.tdid g0 g1
    if f.allows g.mx && g.aligned && decide (g.rowSpan f.w ≤ g.pitch) && decide (g.vlen ≤ 131072) && (!g.mx || s.wideInterleave) &&
        s.covered es g0 g1 == g1 - g0 + 1 &&
        es.all (fun e => !(s.master e).sign && (s.rangePccs (s.master e).start (s.master e).length).isEmpty) then some f
    else none

/-- A capacity limit of R372, R373 or of the allotment would be exceeded (R356, R537). -/
def State.sigLimit (s : State) (p : Nat) (g : Sig) : Bool :=
  decide (s.allot p 9 ≤ s.sigCount p (fun x => x != .free)) || decide (s.allot p 10 ≤ s.sigCount p (fun x => x == .opened)) ||
  (List.range 8).any (fun u => decide (s.allot p 12 < s.accumUsed p u + g.vlen))

/-- An update of one of the entries is still on its way to a replica. -/
def State.updatesLeft (s : State) (es : List Nat) : Bool := s.own.inFlight.any (fun u => es.contains u.2.1)

/-- Answer the opens whose entries every replica has updated (R357). -/
def State.sigOpensDone (s : State) : State :=
  let ready := s.cmds.filter (fun c => c.started && c.code == 0x2B && !s.updatesLeft (s.bel.sigs.get c.what).entries)
  ready.foldl (fun s c =>
    let g := s.bel.sigs.get c.what
    State.complete { s with cmds := dropFirst (fun x => x == c) s.cmds } c 0 [BitVec.ofNat 32 (c.what + 65536 * g.index)] none) s

/-- Open a signature: SIGN and SIGNATURE go to every covering entry (R357). -/
def State.sigMake (s : State) (c : Cmd) (p : Nat) (g : Sig) (f : Format) (i h : Nat) : State :=
  let (g0, g1) := g.granules f.w
  let es := s.coverEntries g.tdid g0 g1
  let s := (s.powerOn 43).onSig h (fun _ => { g with state := .opened, part := p, tag := c.tag.toNat, index := i, entries := es })
  let s := es.foldl (fun s e => s.rotFields e (fun x => setFld (setFld x 98 98 1) 104 99 i)) s
  (s.hold { c with what := h }).sigOpensDone

/-- SIG_OPEN on its descriptor (R355 to R357). -/
def State.sigOpen (s : State) (c : Cmd) (b : Bytes) : State :=
  let g := sigOfDesc b
  let p := if c.part = 0 then s.tdidPart g.tdid else c.part
  if !sigDescFormed b then s.answer c 1
  else if p = 0 ∨ !s.ownsTdid p g.tdid then s.answer c 3
  else if !s.gate p 0x2B then s.answer c 7
  else match s.sigFormat g with
    | none => s.freeReason c
    | some f =>
      if s.sigLimit p g then s.answer c 6
      else match s.sigPlace with
        | none => s.answer c 6
        | some (i, h) => s.sigMake c p g f i h

/-- The TDID under which Tower reads a buffer of a command that names none (R602). -/
def State.bufferTdid (s : State) (c : Cmd) : Nat := if c.part = 0 then 0 else s.lowestTdid c.part

/-- A command whose descriptor Tower reads: refused with BUFFER when the read fails (R602). -/
def State.withBuffer (s : State) (c : Cmd) (addr : BitVec 64) (len : Nat) (buf : Buf) (f : State → Bytes → State) : State :=
  let s := s.dmaRead (s.bufferTdid c) addr.toNat len
  match buf with
  | none => s.answer c 9
  | some b => f s (Bytes.fit b len)

/-- SIG_OPEN. -/
def execSigOpen (h : Hdr) (addr : BitVec 64) (buf : Buf) (s : State) : Host.Outcome State Fault Refusal :=
  .next (s.command h 0x2B (addrWords addr) (fun s c => s.withBuffer c addr 32 buf (fun s b => s.sigOpen c b)))

/-- The signature a command names (R373, R599). -/
def State.namedSig (s : State) (c : Cmd) (w : Word32) : Except Nat Nat :=
  let h := w.toNat
  if 65536 ≤ h then .error 1
  else if 4096 ≤ h ∨ (s.bel.sigs.get h).state = .free then .error 4
  else if c.part ≠ 0 ∧ (s.bel.sigs.get h).part ≠ c.part then .error 3
  else .ok h

/-- Clear SIGN on every covering entry of a signature (R374): of a LIVE one in every replica, of one under a drain in the
contents that follow the drain. -/
def State.clearSign (s : State) (g : Sig) : State :=
  g.entries.foldl (fun s e =>
    let x := s.master e
    if x.state = 0 ∨ !x.sign ∨ x.signature ≠ g.index then s
    else if x.state = 1 then s.rotFields e (fun x => setFld x 98 98 0)
    else s.setMaster e (setFld x 98 98 0)) s

/-- The checks that are outstanding and name a signature (R380). -/
def State.sigRefs (s : State) (h : Nat) : Nat := s.bel.checks.countWhere (fun _ x => x.used && (x.a == h || x.b == h || x.c == h))

/-- A free that waits: the signature goes once it is OPEN or CLOSED and nothing references it (R374). -/
def State.sigRelease (s : State) (h : Nat) : State :=
  let g := s.bel.sigs.get h
  if g.freeWanted ∧ s.sigRefs h = 0 ∧ (g.state = .opened ∨ g.state = .closed) then
    (if g.state = .opened then s.clearSign g else s).dropSig h
  else s

/-- SIG_CLOSE (R374). -/
def State.sigClose (s : State) (c : Cmd) (h : Nat) : State :=
  let g := s.bel.sigs.get h
  if !s.gate g.part 0x2C then s.answer c 7
  else if g.state ≠ .opened then s.freeReason c
  else
    let s := (s.clearSign g).onSig h (fun g => { g with state := .closing, ready := [], cleared := [] })
    ((List.range 8).foldl State.sigCleared s).answer c 0

/-- SIG_CLOSE. -/
def execSigClose (h : Hdr) (sig : Word32) (s : State) : Host.Outcome State Fault Refusal :=
  .next (s.command h 0x2C [sig] (fun s c =>
    match s.namedSig c sig with
    | .error st => s.answer c st
    | .ok n => s.sigClose c n))

/-- SIG_FREE (R374). -/
def execSigFree (h : Hdr) (sig : Word32) (s : State) : Host.Outcome State Fault Refusal :=
  .next (s.command h 0x2D [sig] (fun s c =>
    match s.namedSig c sig with
    | .error st => s.answer c st
    | .ok n =>
      if !s.gate (s.bel.sigs.get n).part 0x2D then s.answer c 7
      else ((s.onSig n (fun g => { g with freeWanted := true })).sigRelease n).answer c 0))

/-! ### The combiner (R375, R376, R381) -/

/-- The three signatures of a check are CLOSED (R381). -/
def State.checkReady (s : State) (x : CheckRec) : Bool :=
  [x.a, x.b, x.c].all (fun h => (s.bel.sigs.get h).state == .closed)

/-- Checks that have become ready join the combiner's order; a merge at its head starts when it is idle (R374, R381) and BFC
admits work (R80). -/
def State.combine (s : State) : State :=
  let new := s.bel.checks.keysWhere (fun n x =>
    x.used && !x.aborted && s.checkReady x && !s.bel.ready.contains (.check n) && s.bel.running != some (.check n))
  let ready := s.bel.ready ++ new.map BfcWork.check
  match s.bel.running, ready with
  | none, .merge h :: rest =>
    if (s.isl.get 43).swap = .run ∧ s.present 43 then { s with bel := { s.bel with ready := rest, running := some (.merge h) } }
    else { s with bel := { s.bel with ready := ready } }
  | _, _ => { s with bel := { s.bel with ready := ready } }

/-- A closing signature of an index whose marker has reached unit `k` (R374, R375): every covering entry is cleared in the
replica, and every line checked before has been added. -/
def State.markedSig (s : State) (k idx : Nat) : Option Nat :=
  (s.bel.sigs.keysWhere (fun h g => g.state == .closing && g.index == idx && !g.ready.contains k &&
    g.entries.all (fun e => g.cleared.contains (k, e)) &&
    !(s.mem.get (mccIx k)).ops.any (fun o => o.sig == some h && !o.added))).head?

/-- PARTIAL_READY (R375): a unit's partial is ready; with the last, the signature enters MERGING. -/
def State.partialReady (s : State) (k idx : Nat) : State :=
  match s.markedSig k idx with
  | none => s
  | some h =>
    let s := s.onSig h (fun g => { g with ready := g.ready ++ [k] })
    if (List.range 8).all (fun u => !s.live (mccIx u) || (s.bel.sigs.get h).ready.contains u) then
      let s := (s.onSig h (fun g => { g with state := .merging })).scalesRest
      State.combine { s with bel := { s.bel with ready := s.bel.ready ++ [.merge h] } }
    else s

/-- PARTIAL_READY. -/
def execPartialReady (k : Fin 8) (idx : Fin 64) (s : State) : Host.Outcome State Fault Refusal := .next (s.partialReady k.val idx.val)

/-- MERGE_COMPLETE (R374, R376). -/
def State.mergeComplete (s : State) : State :=
  match s.bel.running with
  | some (.merge h) =>
    let s := (s.onSig h Sig.merged).countT 43 0x68 128
    ((State.combine { s with bel := { s.bel with running := none } }).sigRelease h).reap
  | _ => s

/-- MERGE_COMPLETE. -/
def execMergeComplete (s : State) : Host.Outcome State Fault Refusal := .next s.mergeComplete

/-! ### Checks (R379 to R390) -/

/-- A check descriptor is laid out as R379 says. -/
def checkFormed (b : Bytes) : Bool :=
  Bytes.le b 0 2 == 1 && decide (Bytes.at b 2 ≤ 15) && decide (Bytes.at b 3 ≤ 1) && Bytes.zeroAt b 10 2 && Bytes.zeroAt b 24 8 &&
  Bytes.zeroAt b 32 32 && decide (Bytes.le b 16 8 < 2 ^ 63)

/-- The partition that a check is for: the commanding one, else that of its first signature. -/
def State.checkPart (s : State) (c : Cmd) (a : Nat) : Nat := if c.part = 0 then (s.bel.sigs.get a).part else c.part

/-- Make a check (R380, R548): it holds its signatures and its fence. -/
def State.checkMake (s : State) (c : Cmd) (p n fe : Nat) (addr : BitVec 64) (b : Bytes) : State :=
  let x : CheckRec := { used := true, part := p, tdid := (s.fence fe).tdid, addr := addr.toNat, curve := Bytes.at b 2
                        uncheckedIsError := bit (Bytes.at b 3) 0, a := Bytes.le b 4 2, b := Bytes.le b 6 2, c := Bytes.le b 8 2
                        fence := fe, value := Bytes.le b 16 8 }
  let s := { (s.powerOn 43).newObj (objKey 7 n) p c.tag.toNat false with bel := { s.bel with checks := s.bel.checks.set n x } }
  let c := { c with what := n, fence := some (fe, x.value), names := [objKey 6 fe] }
  (s.acceptA c [s.handle (objKey 7 n)]).combine

/-- CHECK_SUBMIT on its descriptor (R380). -/
def State.checkSubmit (s : State) (c : Cmd) (addr : BitVec 64) (b : Bytes) : State :=
  let sig (o : Nat) := s.namedSig c (BitVec.ofNat 32 (Bytes.le b o 2))
  if !checkFormed b then s.answer c 1
  else match sig 4, sig 6, sig 8, s.namedFence c (BitVec.ofNat 32 (Bytes.le b 12 4)) with
    | .ok ha, .ok hb, .ok hc, .ok fe =>
      let p := s.checkPart c ha
      let ga := s.bel.sigs.get ha
      let gb := s.bel.sigs.get hb
      if ga.part ≠ p ∨ gb.part ≠ p ∨ (s.bel.sigs.get hc).part ≠ p ∨ (s.obj (objKey 6 fe)).part ≠ p then s.answer c 3
      else if !s.gate p 0x2E then s.answer c 7
      else if ga.kind = 0 ∨ gb.kind = 0 ∨ ga.vlen ≠ gb.vlen ∨ (s.tolerance (Bytes.at b 2) 1).isNone then s.freeReason c
      else if s.objCount 7 p ≥ s.allot p 11 then s.answer c 6
      else match s.freeIndex 7 with
        | none => s.answer c 6
        | some n => s.checkMake c p n fe addr b
    | .error st, _, _, _ => s.answer c st
    | _, .error st, _, _ => s.answer c st
    | _, _, .error st, _ => s.answer c st
    | _, _, _, .error st => s.answer c st

/-- CHECK_SUBMIT. -/
def execCheckSubmit (h : Hdr) (addr : BitVec 64) (buf : Buf) (s : State) : Host.Outcome State Fault Refusal :=
  .next (s.command h 0x2E (addrWords addr) (fun s c => s.withBuffer c addr 64 buf (fun s b => s.checkSubmit c addr b)))

/-- CHECK_START (R381): the check at the head of the combiner's order, when it is idle. -/
def State.checkStart (s : State) : State :=
  let s := s.combine
  match s.bel.running, s.bel.ready with
  | none, .check n :: rest => if (s.isl.get 43).swap ≠ .run ∨ !s.present 43 then s else { s with bel := { s.bel with ready := rest, running := some (.check n) } }
  | _, _ => s

/-- CHECK_START. -/
def execCheckStart (s : State) : Host.Outcome State Fault Refusal := .next s.checkStart

/-- The error code a verdict signals with, none for a normal signal (R387). -/
def verdictError (v : Nat) (uncheckedIsError : Bool) : Option Nat :=
  if v = 1 ∨ (v = 5 ∧ !uncheckedIsError) then none else some v

/-- Deliver a result (R387): bytes 32 to 63 of the descriptor, then the fence; the check's references end. -/
def State.checkDeliver (s : State) (n : Nat) (verdict : Nat) (ratio : Int) (k : Nat) (bytes : Bytes) : State :=
  let x := s.bel.checks.get n
  let s := s.dmaWrite x.tdid (x.addr + 32) bytes
  let s := (s.countS 43 0x69 verdict).note 43 8 (some x.tdid) 0 (256 * verdict + (BitVec.ofInt 8 ratio).toNat) (s.handle (objKey 7 n)).toNat k
  let s := if verdict = 1 ∨ verdict = 2 then s.count 43 { code := 512 + (ratio + 16).toNat } else s
  let s := { s.endObj (objKey 7 n) with bel := { s.bel with checks := s.bel.checks.set n default, ready := s.bel.ready.erase (.check n) } }
  let s := s.completeWhere (fun c => c.started && c.code == 0x2E && c.what == n) 0 [] (verdictError verdict x.uncheckedIsError)
  (((s.sigRelease x.a).sigRelease x.b).sigRelease x.c).reap

/-- The result of check `n` (R382, R383). -/
def State.checkResult (s : State) (n : Nat) : CheckRes :=
  let x := s.bel.checks.get n
  let a := s.bel.sigs.get x.a
  let (y, floor) := (s.tolerance x.curve a.vlen).getD (0x200, 0x200)
  decideCheck a (s.bel.sigs.get x.b) (s.bel.sigs.get x.c) y floor

/-- CHECK_COMPLETE (R382, R383, R387). -/
def State.checkComplete (s : State) : State :=
  match s.bel.running with
  | some (.check n) =>
    let r := s.checkResult n
    State.combine (State.checkDeliver { s with bel := { s.bel with running := none } } n r.verdict r.ratio r.k r.bytes)
  | _ => s

/-- An outstanding check completes ABORTED at its partition's removal (R389); the values that were not computed are free
(log entry 4). -/
def State.checkAbort (s : State) (n : Nat) : State :=
  let x := s.bel.checks.get n
  let k := (s.bel.sigs.get x.a).vlen
  let (v, s) := s.draw 20
  let s := if s.bel.running = some (.check n) then { s with bel := { s.bel with running := none } } else s
  State.combine (s.checkDeliver n 6 (-16) k
    (toLe 1 6 ++ toLe 1 (BitVec.ofInt 8 (-16)).toNat ++ zeros 2 ++ toLe 4 k ++ Bytes.fit v 20 ++ zeros 4))

end Sys2Proof.Machine
end

