-- ==== Sys2Proof/Machine/Regions.lean ====
section
/-!
DEFINITION. Regions: creation, initialisation, crypto-erase, attributes and destruction, and the drains they run
(spec/13_partitions_and_objects.md R562 to R567, spec/06_ownership_and_site_guards.md R271 to R287,
spec/04_memory_protection.md R165 to R171, R198 to R201).
-/

namespace Sys2Proof.Machine

/-! ### The parts of a range -/

/-- Islands that initialise their part of a range (R199): clusters that carry lines of it and are not clamped. -/
def State.rangeParts (s : State) (start len : Nat) : List Nat :=
  ((s.rangeMccs start len).map mccIx ++ (s.rangePccs start len).map pccIx).filter (fun c => !s.clamped c)

/-! ### The descriptor (R605) -/

/-- A region descriptor. -/
structure RegionSpec where
  tdid : Nat
  cls : Nat
  attr : Nat
  ranges : List (Nat × Nat)
  key : Word32
  fence : Word32
  value : Nat

/-- The fields of a descriptor. -/
def regionSpec (b : Bytes) : RegionSpec :=
  { tdid := Bytes.at b 4, cls := Bytes.at b 2, attr := Bytes.at b 3
    ranges := (List.range (Bytes.at b 5)).map (fun i => (Bytes.le b (32 + 16 * i) 8, Bytes.le b (40 + 16 * i) 4))
    key := BitVec.ofNat 32 (Bytes.le b 8 4), fence := BitVec.ofNat 32 (Bytes.le b 12 4), value := Bytes.le b 16 8 }

/-- A descriptor is not malformed (R22, R605). -/
def regionFormed (b : Bytes) : Bool :=
  let x := regionSpec b
  Bytes.le b 0 2 == 1 && decide (x.cls ≤ 2) && decide (x.attr < 8) && decide (x.tdid < 128) &&
    decide (1 ≤ x.ranges.length ∧ x.ranges.length ≤ 16) && Bytes.zeroAt b 6 2 && Bytes.zeroAt b 24 8 && decide (x.value < 2 ^ 63) &&
    (List.range x.ranges.length).all (fun i => Bytes.zeroAt b (44 + 16 * i) 4) &&
    x.ranges.all (fun r => decide (1 ≤ r.2 ∧ r.1 + r.2 ≤ 2 ^ 40))

/-! ### Checks of a creation (R562, R563) -/

/-- R177: a class C line's tag line index reaches MCC_TAG_LINES. -/
def State.tagsShort (s : State) (r : Nat × Nat) : Bool :=
  (s.rangeMccs r.1 r.2).any (fun k =>
    let m := s.mcc.get k
    let (_, hi) := s.mccPart k r.1 r.2
    match m.lastLine (hi - 1) with
    | some l => decide (m.tagLines.toNat ≤ m.localLine l / 8)
    | none => false)

/-- A creation breaks R165, R177, R212, R214, R215, R216, R221 or R539. -/
def State.regionBreaks (s : State) (x : RegionSpec) : Bool :=
  let mccs := x.ranges.flatMap (fun r => s.rangeMccs r.1 r.2)
  let pccs := x.ranges.flatMap (fun r => s.rangePccs r.1 r.2)
  let far (r : Nat × Nat) : Bool := (s.rangePccs r.1 r.2).any (fun p =>
    let m := s.pcc.get p
    decide (m.poolBase.toNat + m.subtrees.toNat * 2 ^ 36 < (s.partOf m.poolBase.toNat r.1 r.2).2))
  (x.cls == 2 && !mccs.isEmpty) || (x.cls == 1 && !pccs.isEmpty) || (x.cls == 1 && x.ranges.any s.tagsShort) ||
    (x.cls != 1 && bit x.attr 0) || (x.cls == 2 && x.ranges.any far) || (x.tdid == 0 && x.cls != 0) ||
    mccs.any (fun k => (s.mcc.get k).badBase)

/-- Two ranges of one descriptor meet. -/
def rangesOverlap : List (Nat × Nat) → Bool
  | [] => false
  | r :: rest => rest.any (fun q => rangesMeet r.1 r.2 q.1 q.2) || rangesOverlap rest

/-- The FREE entries of a partition's run, rising. -/
def State.freeRot (s : State) (p : Nat) : List Nat :=
  ((List.range (s.allot p 3)).map (· + (s.part p).rot0)).filter (fun e => (s.master e).state == 0)

/-- A named key may serve the region (R168, R562): no region and no running move has it. -/
def State.regionKeyOk (s : State) (x : RegionSpec) (n : Nat) : Bool :=
  let k := s.slot n
  k.state == 1 && k.purpose + 1 == x.cls && k.tdid == x.tdid &&
    !s.nwt.moves.cells.any (fun m => m.2.state != 0 && m.2.send.isNone && (m.2.newSlot.toNat == n || m.2.oldSlot.toNat == n)) &&
    !s.nwt.keying.any (fun q => q.2 == n) &&
    s.prt.regions.countWhere (fun r y => (s.obj (objKey 3 r)).used && y.slot == some n) == 0

/-- The slot a region names, or that a fresh key will take; none for OPEN. -/
def State.regionSlot (s : State) (c : Cmd) (p : Nat) (x : RegionSpec) : Except (Nat × List Word32) (Option Nat × Bool) := do
  if x.cls = 0 then
    mustReason (x.key = 0) 5
    return (none, false)
  else if x.key = 0 then
    match s.slotForFill p with
    | some n => return (some n, true)
    | none => .error (6, [])
  else
    let n ← refuse (s.named { c with part := p } 4 x.key)
    mustReason (s.regionKeyOk x n) 5
    return (some n, false)

/-- The checks of a creation for partition `p` (R563, R768), in order; the region's index, entries and slot. -/
def State.regionChecks (s : State) (c : Cmd) (p : Nat) (x : RegionSpec) :
    Except (Nat × List Word32) (Nat × List Nat × Option Nat × Bool) := do
  mustReason (!s.regionBreaks x) 1
  mustReason (!(rangesOverlap x.ranges || x.ranges.any (fun r => s.rangeTaken r.1 r.2))) 2
  let es := (s.freeRot p).take x.ranges.length
  must (es.length = x.ranges.length ∧ s.objCount 3 p < s.allot p 4 ∧ s.prt.refs.length < 32768) 6
  must (!(x.cls != 0 && x.key == 0 && (s.slotForFill p).isNone)) 6
  mustReason (!(bit x.attr 1 && s.allot p 14 == 0)) 4
  let (slot, fresh) ← s.regionSlot c p x
  match s.freeIndex 3 with
  | some r => return (r, es, slot, fresh)
  | none => .error (6, [])

/-! ### Initialisation (R198 to R201, R246, R247, R282) -/

/-- The contents of an entry of a region, not yet LIVE. -/
def regionEntry (x : RegionSpec) (p : Nat) (slot : Nat) (r : Nat × Nat) : Entry :=
  BitVec.ofNat 128 (r.1 + 2 ^ 40 * r.2 + 2 ^ 72 * x.tdid + 2 ^ 80 * slot + 2 ^ 92 * x.cls + 2 ^ 94 * 3 +
    2 ^ 97 * b2n (bit x.attr 0) + 2 ^ 105 * b2n (bit x.attr 2) + 2 ^ 106 * b2n (bit x.attr 1) + 2 ^ 116 * p)

/-- The bytes of an entry that PCCp carries meet a span of its window. -/
def State.inWindow (s : State) (p : Nat) (e : Entry) (lo len : Nat) : Bool :=
  let (a, z) := s.partOf (s.pcc.get p).poolBase.toNat e.start e.length
  decide (a < z) && s.poolPort a == some p && rangesMeet lo len a (z - a)

/-- Subtrees of PCCp that an entry covers. -/
def State.subtreesOf (s : State) (p : Nat) (e : Entry) : List Nat :=
  (List.range 128).filter (fun t => s.inWindow p e ((s.pcc.get p).poolBase.toNat + t * 2 ^ 36) (2 ^ 36))

/-- A live region of any class intersects a span of PCCp (R245); the entries being set up do not count (DESIGN CHOICE, log
entry 90). -/
def State.spanUsed (s : State) (p lo len : Nat) (es : List Nat) : Bool :=
  s.own.master.cells.any (fun c => !es.contains c.1 && Entry.state c.2 != 0 && s.inWindow p c.2 lo len)

/-- Before a class R region is initialised: an UNINIT subtree is set up (R246), and a FENCED subtree, or the fences of a LIVE
one, that no live region meets are cleared (R245). -/
def State.treeReady (s : State) (es : List Nat) (p t : Nat) : State :=
  let m := s.pcc.get p
  let root := m.root.get t
  let b := m.poolBase.toNat + t * 2 ^ 36
  if root.state = 0 then s.subtreeInit p t
  else if root.state = 2 then (if s.spanUsed p b (2 ^ 36) es then s else s.subtreeClear p t)
  else if root.state = 1 then
    s.clearFences p t (fun f => !s.spanUsed p (b + f.index * 2 ^ (12 + 6 * f.level)) (2 ^ (12 + 6 * f.level)) es)
  else s

/-- SCRUBBING is sent for a region, under its slot, and its initialisation begins (R282, R283, R564 step 3). -/
def State.regionScrub (s : State) (r : Nat) : State :=
  let x := s.region r
  let s := s.onRegion r (fun x => { x with phase := .scrubbing, done := [] })
  let s := x.entries.foldl (fun s e =>
    let v := Entry.changed (s.master e) (setFld (setFld (s.master e) 91 80 (x.slot.getD 0)) 96 94 3) true
    let s := s.rotPublish e v (.scrubbing v)
    let s := s.note 1 4 (some x.tdid) 0 3 (Entry.start v) e
    let s := { s with mcc := s.mcc.mapKeys (fun _ m => { m with initAt := m.initAt.set e 0 })
                      pcc := s.pcc.mapKeys (fun _ m => { m with initAt := m.initAt.set e 0 }) }
    if s.own.drains.any (fun d => d.entry == e) then s
    else { s with own := { s.own with drains := s.own.drains ++ [{ entry := e, kind := .clear }] } }) s
  if x.cls = 2 then
    (List.range 2).foldl (fun s p =>
      ((x.entries.flatMap (fun e => s.subtreesOf p (s.master e))).eraseDups).foldl (fun s t => s.treeReady x.entries p t) s) s
  else s

/-- Every part of a region is initialised (R199). -/
def State.regionReady (s : State) (r : Nat) : Bool :=
  let x := s.region r
  x.entries.all (fun e =>
    let ent := s.master e
    (s.rangeParts ent.start ent.length).all (fun c => x.done.contains (c, e)))

/-- LIVE is sent for a region's entries, and the replicas' acknowledgements are awaited (R283). -/
def State.regionPublish (s : State) (r : Nat) : State :=
  let x := s.region r
  let s := s.onRegion r (fun x => { x with phase := .publishing })
  x.entries.foldl (fun s e =>
    let v := setFld (s.master e) 96 94 1
    let s := (s.rotPublish e v (.live v)).note 1 4 (some x.tdid) 0 1 (Entry.start v) e
    let await := s.replicas
    { s with own := { s.own with drains := mapWhere (fun d => d.entry == e) (fun d => { d with liveAwait := await }) s.own.drains } }) s

/-! ### Drains (R283, R284) -/

/-- The drain of entry `e` is over. -/
def State.drainOver (s : State) (e : Nat) : State :=
  { s with own := { s.own with drains := s.own.drains.filter (fun d => d.entry != e) } }

/-- Entry `e` is drained for its destruction (R283): with the last entry that names it, the slot retires and is
invalidated first; then the entry is FREE everywhere. -/
def State.destroyDrained (s : State) (e : Nat) : State :=
  let ent := s.master e
  let n := ent.keySlot
  let last := ent.cls != 0 && !s.own.master.cells.any (fun c => c.1 != e && Entry.state c.2 != 0 && Entry.cls c.2 != 0 && Entry.keySlot c.2 == n)
  let s := if last && (s.slot n).state == 1 then s.retireSlot n else s
  if last ∧ ((s.slot n).state = 1 ∨ s.invals.any (fun i => i.2 == n)) then s
  else
    let s := ((s.rotSend e .free).setMaster e 0).note 1 4 (some ent.owner) 0 0 ent.start e
    let s := s.drainOver e
    let s := { s with own := { s.own with waiting := s.own.waiting.filter (fun d => d.entry != e) } }
    match s.regionOf e with
    | some r =>
      let s := s.onRegion r (fun x => { x with entries := x.entries.erase e })
      if (s.region r).entries.isEmpty then s.completeWhere (fun c => c.started && c.code == 0x21 && c.what == r) 0 [] none else s
    | none => s

/-- A crypto-erase's drains are over (R169 to R171, R200, R248): the epoch advances, or a fresh key is asked for, and the
region is initialised. -/
def State.regionErase (s : State) (r : Nat) : State :=
  let x := s.region r
  match x.slot with
  | none => s.regionScrub r
  | some n =>
    if x.cls = 1 ∧ (s.slot n).epoch ≠ 0xFFFFFFFF then
      let s := s.onSlot n (fun k => { k with attr := setFld k.attr 95 64 (k.epoch + 1) })
      (s.invalidate n (((List.range 8).map mccIx).filter s.live)).regionScrub r
    else
      let s := s.invalidate n (s.slotClusters (s.slot n))
      let s := s.onRegion r (fun x => { x with phase := .deriving_ })
      let s := s.freshKey n (if x.cls = 2 then 1 else 0) (s.slot n).part x.tdid
      if s.domeReady then s else State.regionLost (s.onDom (fun d => { d with queue := d.queue.filter (fun k => k.slot != n) })) r

/-- Every entry of a region is drained for its crypto-erase. -/
def State.eraseDrained (s : State) (r : Nat) : Bool :=
  let x := s.region r
  !x.entries.isEmpty && (x.phase == .live || x.phase == .dying) && x.entries.all (fun e =>
    (s.master e).state == 2 && s.own.drains.any (fun d => d.entry == e && d.kind == .clear && d.awaiting.isEmpty))

/-- Every replica has acknowledged LIVE for a region. -/
def State.liveEverywhere (s : State) (r : Nat) : Bool :=
  let x := s.region r
  x.phase == .publishing && x.entries.all (fun e => s.own.drains.all (fun d => d.entry != e || d.liveAwait.isEmpty))

/-- A region is LIVE: its fence is signalled, and drains that waited begin (R283, R284). -/
def State.regionLive (s : State) (r : Nat) : State :=
  let x := s.region r
  let s := s.onRegion r (fun x => { x with phase := if x.dead then .dying else .live })
  let s := x.entries.foldl State.drainOver s
  let s := s.regionDone r (if x.dead then some 0x11 else none)
  let s := x.entries.foldl State.nextDrain s
  if x.entries.any (fun e => s.own.drains.any (fun d => d.entry == e && d.kind == .clear)) then s.clearStarted r else s

/-- A MIGRATE_SEND that waits for a context takes one (R249, R573). -/
def State.sendBegin (s : State) (c : Cmd) : State :=
  let r := (c.names.headD 0) % 2 ^ 20
  match s.freeMove, s.regionSpans r, c.fence with
  | some x, (a, _) :: _, some (fe, v) =>
    if c.code ≠ 0x34 ∨ c.stage ≠ 0 ∨ s.regionDraining r then s
    else
      let n := BitVec.ofNat 12 ((s.region r).slot.getD 0)
      let dest := ((c.args[2]?).getD 0).toNat + 2 ^ 32 * ((c.args[3]?).getD 0).toNat
      let mine (d : Cmd) : Bool := d == c
      (State.powerOn { s with cmds := mapFirst mine (fun d => { d with stage := 1 }) s.cmds } 42).onMove x (fun _ =>
        { state := 1, newSlot := n, oldSlot := n, bound := a, front := a, region := r
          send := some { stream := c.what, dest := dest, fence := fe, value := v } })
  | _, _, _ => s

/-- Every ownership change goes as far as it can: drained entries are destroyed or erased, LIVE regions complete. -/
def State.settle (s : State) : State :=
  let one (s : State) : State :=
    let ds := s.own.drains.filter (fun d => d.kind == .destroy && d.awaiting.isEmpty && (s.master d.entry).state == 2)
    let s := ds.foldl (fun s d => s.destroyDrained d.entry) s
    let s := (s.prt.regions.keysWhere (fun r _ => s.eraseDrained r)).foldl State.regionErase s
    let s := (s.prt.regions.keysWhere (fun r x => x.phase == .scrubbing && s.regionReady r)).foldl State.regionPublish s
    (s.prt.regions.keysWhere (fun r _ => s.liveEverywhere r)).foldl State.regionLive s
  let s := (List.range 3).foldl (fun s _ => one s) s
  let s := s.moveEnds
  ((s.cmds.filter (fun c => c.started && c.code == 0x34 && c.stage == 0)).foldl State.sendBegin s).reap

/-- NEWT_COPY: a MIGRATE_SEND that ends lets a crypto-erase go on. -/
def execNewtCopy (ctx : Fin 4) (group : Nat) (lines : List (Nat × Bytes × Bytes × MemErr)) (s : State) :
    Host.Outcome State Fault Refusal := .next (s.newtCopy ctx.val group lines).settle

/-- NEWT_MOVE_COMPLETE: waiting crypto-erases and re-keys begin. -/
def execNewtMoveComplete (ctx : Fin 4) (s : State) : Host.Outcome State Fault Refusal :=
  .next (s.moveComplete ctx.val).settle.tryRekey

/-- Whatever a change of the replicas lets go on: signatures that wait to open, and ownership changes. -/
def State.afterOwnership (s : State) : State := s.sigOpensDone.settle

/-- A replica applies an update (R273, R282), and Tower goes on. -/
def State.rotApplied (s : State) (i : Nat) : State := (s.rotUpdate i).afterOwnership

/-- DRAIN_DONE reaches Tower (R283). -/
def State.drainDoneTaken (s : State) (i e : Nat) : State :=
  if s.own.drainDone.contains (i, e) then
    let take (d : Drain) : Drain := { d with awaiting := d.awaiting.erase i }
    State.settle { s with own := { s.own with
      drainDone := s.own.drainDone.erase (i, e)
      drains := mapWhere (fun d => d.entry == e) take s.own.drains } }
  else s

/-! ### LINE_INIT (R198, R199, R201, R247, R248) -/

/-- Part of an entry is initialised at island `c`. -/
def State.partDone (s : State) (r c e : Nat) : State :=
  (s.onRegion r (fun x => { x with done := if x.done.contains (c, e) then x.done else x.done ++ [(c, e)] })).settle

/-- A line of entry `e` under initialisation is written (R198, R201): the next one is `l + 1`, and MCCk's part is done when it
carries no further line of the entry. -/
def State.lineDone (s : State) (k r e l : Nat) : State :=
  let ent := s.master e
  let s := (s.countT (mccIx k) 0x0E (s.region r).tdid).onMcc k (fun m => { m with initAt := m.initAt.set e (l + 1) })
  if (s.mccPart k ent.start ent.length).2 ≤ (s.mcc.get k).nextLine (l + 1) then s.partDone r (mccIx k) e else s

/-- An initialised class C line leaves its lane: the stored line and its tag word. -/
def State.initStored (s : State) (k e l : Nat) (ct : Bytes) (tag : Nat) : State :=
  match s.regionOf e with
  | some r => if (s.region r).phase = .scrubbing then (s.storeLine k l ct tag).lineDone k r e l else s
  | none => s

/-- A line of entry `e` under initialisation is withheld in a lane of cluster `c`. -/
def State.initHeld (s : State) (c e : Nat) : Bool :=
  (s.clusters.get c).items.any (fun x => match x.kind with | .init f _ _ _ _ => f == e | _ => false)

/-- One line of an HBM region: zero filler with SECTOR_MAP 0xF and its tag, or plaintext zeros for OPEN. -/
def State.initLine (s : State) (k r e : Nat) : State :=
  let c := mccIx k
  let x := s.region r
  let ent := s.master e
  let m := s.mcc.get k
  let (lo, top) := s.mccPart k ent.start ent.length
  let l := m.nextLine (max (m.initAt.get e) lo)
  if s.initHeld c e then s
  else if top ≤ l then s.partDone r c e
  else if x.cls = 0 then
    let (id, s) := s.writeId c
    (s.emit (.memWrite c id 0 (64 * l) (zeros 64) (List.replicate 64 true))).lineDone k r e l
  else
    let n := x.slot.getD 0
    match s.readySched c n with
    | (s, none) => s
    | (s, some y) =>
      if !y.writes then s
      else
        let (ct, tag) := xtsEncrypt y.key y.epoch x.tdid l 0xF (zeros 64)
        (s.lineWritten c y.id).issueThen c (.init e l n ct tag) y.id (fun s => s.initStored k e l ct tag)

/-- One counter line of a class R region, or one line of an OPEN region, on a pool port. -/
def State.initPool (s : State) (p r e : Nat) : State :=
  let c := pccIx p
  let x := s.region r
  let ent := s.master e
  let m := s.pcc.get p
  let (lo, hi) := s.partOf m.poolBase.toNat ent.start ent.length
  let l := max (m.initAt.get e) (lo / 64)
  let top := hi / 64
  if top ≤ l then s.partDone r c e
  else
    let (s, ok) :=
      if x.cls = 0 then
        let (id, s) := s.writeId c
        (s.emit (.memWrite c id 0 (64 * l) (zeros 64) (List.replicate 64 true)), true)
      else s.counterLineInit p (m.groupOf l)
    if !ok then s
    else
      let next := if x.cls = 0 then l + 1 else l + 64
      let s := (s.countT c 0x0E x.tdid).onPcc p (fun m => { m with initAt := m.initAt.set e next })
      if top ≤ next then s.partDone r c e else s

/-- LINE_INIT (R199): in a free lane slot of a cluster that carries the line, while its replica entry is SCRUBBING and
no invalidation of the slot is on its way to it. A slot that is not LIVE, or that its budget has closed (R210), fails the
initialisation. -/
def State.lineInit (s : State) (k e : Nat) : State :=
  let c := k + 3
  match s.regionOf e with
  | none => s
  | some r =>
    let x := s.region r
    let ent := s.master e
    let n := x.slot.getD 0
    if x.phase ≠ .scrubbing ∨ !s.present c ∨ (s.repEntry c e).state ≠ 3 ∨ !(s.rangeParts ent.start ent.length).contains c then s
    else if x.cls ≠ 0 ∧ ((s.slot n).state ≠ 1 ∨ (s.slot n).writeClosed) then (if r = archiveRegion then s else (s.regionLost r).settle)
    else if x.cls ≠ 0 ∧ (!s.laneReady c ∨ s.invals.contains (c, n) ∨ !s.fillOk c (if x.cls = 1 then n else k - 7)) then s
    else if k < 8 then s.initLine k r e else s.initPool (k - 8) r e

/-! ### Commands -/

/-- Make a region (R564 steps 1 to 3): its entries are taken at once; a fresh key is asked for, or the initialisation
begins. -/
def State.regionMake (s : State) (p tag : Nat) (x : RegionSpec) (r : Nat) (es : List Nat) (slot : Option Nat) (fresh : Bool) : State :=
  let s := s.newObj (objKey 3 r) p tag true
  let s := s.onRegion r (fun _ => { tdid := x.tdid, cls := x.cls, attr := x.attr, entries := es, slot := slot
                                    phase := if fresh then .deriving_ else .scrubbing })
  let s := (x.ranges.zip es).foldl (fun s q =>
    s.setMaster q.2 (Entry.changed (s.master q.2) (regionEntry x p (slot.getD 0) q.1) false)) s
  { s with own := { s.own with drains := s.own.drains ++ es.map (fun e => ({ entry := e, kind := .clear } : Drain)) } }

/-- A region that has been made goes on (R564 steps 2 and 3): Dome derives its key, or the initialisation begins. -/
def State.regionGo (s : State) (p r : Nat) : State :=
  let x := s.region r
  if x.phase = .deriving_ then
    if s.domeReady then s.freshKey (x.slot.getD 0) (if x.cls = 2 then 1 else 0) p x.tdid else s.regionLost r
  else s.regionScrub r

/-- REGION_CREATE on its descriptor (R562 to R564, R768). -/
def State.regionCreate (s : State) (c : Cmd) (b : Bytes) : State :=
  let x := regionSpec b
  let p := if c.part = 0 then s.tdidPart x.tdid else c.part
  s.outcome c (do
    must (regionFormed b) 1
    must (p ≠ 0 ∧ s.ownsTdid p x.tdid) 3
    refuse (s.gated p 0x20)
    let fe ← refuse (s.namedFence c x.fence)
    let (r, es, slot, fresh) ← s.regionChecks c p x
    let s := s.regionMake p c.tag.toNat x r es slot fresh
    let k := objKey 3 r
    let s := s.acceptA { c with what := r, fence := some (fe, x.value), names := [k, objKey 6 fe] } [s.handle k]
    return (s.regionGo p r).settle)

/-- REGION_CREATE. -/
def execRegionCreate (h : Hdr) (addr : BitVec 64) (buf : Buf) (s : State) : Host.Outcome State Fault Refusal :=
  .next (s.command h 0x20 (addrWords addr) (fun s c =>
    let len := 32 + 16 * min ((buf.map (fun b => Bytes.at b 5)).getD 0) 16
    s.withBuffer c addr len buf (fun s b => s.regionCreate c b)))

/-- REGION_DESTROY (R260, R566). -/
def State.regionDestroy (s : State) (c : Cmd) (r : Nat) : State :=
  let es := (s.region r).entries
  let deriving_ := (s.region r).phase == .deriving_ && es.all (fun e => (s.master e).state == 3)
  let s := s.onRegion r (fun x => { x with dead := true })
  let waits := s.own.waiting.filter (fun d => es.contains d.entry && d.kind == .clear)
  let keep (d : Drain) : Bool := !(es.contains d.entry && d.kind == .clear)
  let s := { s with own := { s.own with waiting := s.own.waiting.filter keep } }
  let s := if waits.isEmpty then s else s.completeWhere (fun x => x.started && x.code == 0x22 && x.what == r && x.stage == 1) 0 [] (some 0x11)
  let s := s.moveStop r 0x11
  let s := s.hold { c with what := r, names := [objKey 3 r] }
  if deriving_ then (s.regionLost r).settle else (s.destroyEntries r).settle

/-- REGION_DESTROY. -/
def execRegionDestroy (h : Hdr) (region : Word32) (s : State) : Host.Outcome State Fault Refusal :=
  .next (s.command h 0x21 [region] (fun s c => s.outcome c (do
    let r ← refuse (s.namedRegion c region)
    refuse (s.gated (s.actsFor c (objKey 3 r)) 0x21)
    return s.regionDestroy c r)))

/-- REGION_CLEAR (R200, R284): a drain of every entry, or its wait for the drain before it. -/
def State.regionClear (s : State) (c : Cmd) (r fe v : Nat) : State :=
  let x := s.region r
  let waits := x.entries.any s.drainWaits
  let s := s.acceptA { c with what := r, stage := b2n waits, fence := some (fe, v), names := [objKey 3 r, objKey 6 fe] } []
  if x.slot.any (fun n => (s.slot n).state != 1) ∧ !waits then s.regionDone r (some 0x11)
  else (x.entries.foldl (fun s e => s.drain e .clear) s).settle

/-- REGION_CLEAR: refused while a Newt move covers the region (R260, R283). -/
def execRegionClear (h : Hdr) (region fence value : Word32) (s : State) : Host.Outcome State Fault Refusal :=
  .next (s.command h 0x22 [region, fence, value] (fun s c => s.outcome c (do
    let r ← refuse (s.namedRegion c region)
    let fe ← refuse (s.namedFence c fence)
    refuse (s.gated (s.actsFor c (objKey 3 r)) 0x22)
    if s.moveCovers r then return s.freeReason c
    else return s.regionClear c r fe value.toNat)))

/-- REGION_ATTR (R189, R190, R274): ELIDE and WRITE_DENY, without a drain; ELIDE outside class C is REFUSED with reason 0x01. -/
def execRegionAttr (h : Hdr) (region attr : Word32) (s : State) : Host.Outcome State Fault Refusal :=
  .next (s.command h 0x23 [region, attr] (fun s c => s.outcome c (do
    must (fld attr 31 2 = 0) 1
    let r ← refuse (s.namedRegion c region)
    refuse (s.gated (s.actsFor c (objKey 3 r)) 0x23)
    let x := s.region r
    let el := b2n (attr.getLsbD 0)
    let wd := b2n (attr.getLsbD 1)
    mustReason (el = 0 ∨ x.cls = 1) 1
    let s := x.entries.foldl (fun s e => s.rotFields e (fun v => setFld (setFld v 97 97 el) 105 105 wd)) s
    return (s.onRegion r (fun x => { x with attr := x.attr / 2 % 2 * 2 + el + 4 * wd })).answer c 0)))

/-- IOMMU_DONE (R287): STALE_VALID is cleared on the region's entries. -/
def execIommuDone (h : Hdr) (part region : Word32) (s : State) : Host.Outcome State Fault Refusal :=
  .next (s.command h 0x10 [part, region] (fun s c => s.outcome c (do
    let r ← refuse (s.namedRegion c region)
    must (s.regionPart r = part.toNat) 3
    refuse (s.gated (s.regionPart r) 0x10)
    return ((s.region r).entries.foldl (fun s e => s.rotFields e (fun v => setFld v 108 108 0)) s).answer c 0)))

/-- A LOCAL fence location: the LIVE region of its TDID that holds 8 aligned bytes (R557, R768). -/
def State.fenceRegion (s : State) (tdid loc : Nat) : Option Nat :=
  if loc % 8 ≠ 0 then none
  else (s.prt.regions.keysWhere (fun r x => (s.obj (objKey 3 r)).used && !x.dead && x.tdid == tdid &&
    x.entries.any (fun e => (s.master e).state == 1 && (s.master e).contains (loc / 4096)))).head?

/-- FENCE_CREATE (R557, R604, R768). -/
def State.fenceCreate (s : State) (c : Cmd) (kt : Word32) (loc : BitVec 64) (stream : Word32) (initial : BitVec 64) : State :=
  let kind := fld kt 1 0
  let tdid := fld kt 14 8
  let p := if c.part = 0 then s.tdidPart tdid else c.part
  s.outcome c (do
    must (kind ≠ 3 ∧ fld kt 7 2 = 0 ∧ fld kt 31 15 = 0 ∧ (kind = 2 ∨ stream = 0)) 1
    must (p ≠ 0 ∧ s.ownsTdid p tdid) 3
    let st ← if kind = 2 then refuse (s.namedStream c stream) else pure (0, 0)
    refuse (s.gated p 0x24)
    let holder ← match kind with
      | 0 => match s.fenceRegion tdid loc.toNat with
        | some r => pure (some (objKey 3 r))
        | none => .error (8, [1])
      | 2 =>
        let x := s.entry st.1 st.2
        if !x.recv && x.state == 1 && x.tdid.toNat == tdid then pure (some (objKey 5 (streamKey st.1 st.2))) else .error (8, [1])
      | _ => pure none
    must (s.objCount 6 p < s.allot p 8 ∧ s.prt.refs.length < 32768) 6
    match s.freeIndex 6 with
    | none => .error (6, [])
    | some f =>
      let x : Fence := { kind := kind, tdid := tdid, loc := if kind = 2 then fld loc 47 0 else loc.toNat
                         node := if kind = 2 then fld loc 63 48 else 0, holder := holder, initial := initial.toNat, last := initial.toNat }
      let s := (s.newObj (objKey 6 f) p c.tag.toNat true).onFence f (fun _ => x)
      return (s.fenceWrite x initial.toNat).answer c 0 [s.handle (objKey 6 f)])

/-- FENCE_CREATE. -/
def execFenceCreate (h : Hdr) (kindTdid : Word32) (loc : BitVec 64) (stream : Word32) (initial : BitVec 64) (s : State) :
    Host.Outcome State Fault Refusal :=
  .next (s.command h 0x24 ([kindTdid] ++ addrWords loc ++ [stream] ++ addrWords initial) (fun s c =>
    s.fenceCreate c kindTdid loc stream initial))

/-! ### DOME_DERIVE_DONE (R163, R451, R564) -/

/-- The slot of a derivation that has ended is LIVE: the region or the re-key that waits for it goes on. -/
def State.slotReady (s : State) (n : Nat) : State :=
  match s.nwt.keying.find? (fun k => k.2 == n) with
  | some (r, _) => (s.moveStart r n).settle
  | none => match s.prt.regions.keysWhere (fun _ x => x.phase == .deriving_ && x.slot == some n) with
    | r :: _ => if (s.slot n).state = 1 then (s.regionScrub r).settle else s.regionLost r
    | [] => s.reap

/-- DOME_DERIVE_DONE. -/
def State.deriveDone (s : State) : State :=
  match s.dom.queue with
  | [] => s
  | k :: _ => s.deriveEnd.slotReady k.slot

/-! ### Migration (R570 to R574) -/

/-- The wrap slot of EXPORT, IMPORT and BLOB_UNWRAP: usable, PURPOSE WRAP, WORLD HOST (R450, R456). -/
def State.wrapOk (s : State) (n : Nat) : Bool :=
  let x := s.slot n
  x.purpose == 3 && s.usable x 5 && bit x.world 1

/-- BLOB_KEK over a header (R454, R570). -/
def State.blobKek (s : State) (n : Nat) (header : Bytes) : Bytes :=
  kdf ((s.slot n).key.take 32) blobKekLabel (Sha.sha384 header ++ s.lcContext) 32

/-- The records of a partition (R571): trust domains, regions without addresses, fences with their last values. -/
def State.migrateRecords (s : State) (p : Nat) : List (List Nat) :=
  let tds := ((List.range 128).filter (fun t => (s.part p).tdids.getLsbD t)).map (fun t => [0, t])
  let rs := (s.prt.regions.keysWhere (fun r x => (s.obj (objKey 3 r)).used && s.regionPart r == p && !x.dead)).map (fun r =>
    let x := s.region r
    [1, x.cls, x.attr, x.tdid] ++ x.entries.map (fun e => (s.master e).length))
  let fs := (s.prt.fences.keysWhere (fun f _ => (s.obj (objKey 6 f)).used && (s.obj (objKey 6 f)).part == p)).map (fun f =>
    let x := s.fence f
    [2, x.tdid, x.kind, x.last, b2n x.errored])
  tds ++ rs ++ fs

/-- The header of a package (R570). -/
def State.packageHeader (s : State) (records len : Nat) (mid iv : Bytes) : Bytes :=
  [0x4F, 0x4E, 0x4D, 0x50] ++ toLe 2 1 ++ toLe 2 records ++ toLe 8 len ++ Bytes.fit s.deviceId 48 ++ Bytes.fit mid 16 ++
    zeros 16 ++ Bytes.fit iv 12 ++ zeros 4

/-- A partition holds a class R region or a Set Key (R570). -/
def State.noExport (s : State) (p : Nat) : Bool :=
  s.prt.regions.cells.any (fun c => (s.obj (objKey 3 c.1)).used && s.regionPart c.1 == p && c.2.cls == 2) ||
    s.slots.cells.any (fun c => c.2.part == p && c.2.setBound && c.2.state == 1)

/-- EXPORT on its buffer (R570, R604). -/
def State.exportPart (s : State) (c : Cmd) (n : Nat) (addr : BitVec 64) (len : Nat) (b : Bytes) : State :=
  let p := s.actsFor c (objKey 4 n)
  let recs := s.migrateRecords p
  let body := Config.migrateEncode recs
  let total := 112 + body.length + 16
  if (s.part p).state ≠ .frozen then s.answer c 7
  else if s.noExport p ∨ !s.wrapOk n then s.freeReason c
  else if len < total then s.answer c 1
  else
    let (iv, s) := s.draw 12
    let mid := Bytes.slice b 64 16
    let hdr := s.packageHeader recs.length total mid iv
    let (ct, tag) := gcmEncrypt (s.blobKek n hdr) (Bytes.fit iv 12) hdr body
    let s := s.dmaWrite (s.bufferTdid c) addr.toNat (hdr ++ ct ++ tag)
    (s.onPart p (fun x => { x with migrationId := mid })).answer c 0 [BitVec.ofNat 32 total]

/-- EXPORT. -/
def execPartExport (h : Hdr) (wrap : Word32) (addr : BitVec 64) (len : Word32) (buf : Buf) (s : State) :
    Host.Outcome State Fault Refusal :=
  .next (s.command h 0x32 ([wrap] ++ addrWords addr ++ [len]) (fun s c => s.outcome c (do
    let n ← refuse (s.named c 4 wrap)
    return s.withBuffer c addr 80 buf (fun s b => s.exportPart c n addr len.toNat b))))

/-- The header of a package is well formed (R22, R570). -/
def packageFormed (b : Bytes) : Bool :=
  b.take 4 == [0x4F, 0x4E, 0x4D, 0x50] && Bytes.le b 4 2 == 1 && decide (128 ≤ Bytes.le b 8 8 ∧ Bytes.le b 8 8 ≤ b.length) &&
    Bytes.zeroAt b 80 16 && Bytes.zeroAt b 108 4

/-- The records of a well-formed package whose tag verifies under a wrap slot, with their TDID mask (R572). -/
def State.openPackage (s : State) (n : Nat) (b : Bytes) : Option (List (List Nat)) :=
  let len := Bytes.le b 8 8
  let hdr := b.take 112
  match gcmDecrypt (s.blobKek n hdr) (Bytes.slice b 96 12) hdr (Bytes.slice b 112 (len - 128)) (Bytes.slice b (len - 16) 16) with
  | some pt => match Config.migrateDecode pt with
    | some rs => if rs.length = Bytes.le b 6 2 then some rs else none
    | none => none
  | none => none

/-- The ranges of an imported region: its lengths, one after the other from its START (R572). -/
def placeRanges : Nat → List Nat → List (Nat × Nat)
  | _, [] => []
  | a, n :: rest => (a, n) :: placeRanges (a + n) rest

/-- One record of a package is acted on (R572): a region under R564 with its placement, or a fence with its last value.
The location of an imported fence is not in the package: a free value. -/
def State.importRecord (c : Cmd) (p : Nat) (place : Bytes) (acc : State × List Nat × Nat) (r : List Nat) :
    Except (Nat × List Word32) (State × List Nat × Nat) := do
  let (s, made, i) := acc
  match r with
  | 1 :: cls :: attr :: tdid :: lens =>
    let x : RegionSpec := { tdid := tdid, cls := cls, attr := attr, ranges := placeRanges (Bytes.le place (16 * i) 8) lens
                            key := BitVec.ofNat 32 (Bytes.le place (16 * i + 8) 4), fence := 0, value := 0 }
    must (Bytes.zeroAt place (16 * i + 12) 4 ∧ x.ranges.all (fun y => decide (1 ≤ y.2 ∧ y.1 + y.2 ≤ 2 ^ 40)) ∧ x.cls ≤ 2 ∧
      1 ≤ lens.length ∧ lens.length ≤ 16 ∧ s.ownsTdid p tdid) 1
    let (n, es, slot, fresh) ← s.regionChecks c p x
    return ((s.regionMake p c.tag.toNat x n es slot fresh).regionGo p n, made ++ [objKey 3 n], i + 1)
  | 2 :: tdid :: kind :: last :: err :: _ =>
    must (s.ownsTdid p tdid ∧ s.objCount 6 p < s.allot p 8 ∧ s.prt.refs.length < 32768) 6
    match s.freeIndex 6 with
    | none => .error (6, [])
    | some f =>
      let (b, s) := s.draw 8
      let x : Fence := { kind := kind, tdid := tdid, loc := Bytes.leNat b, initial := last, last := last, errored := err == 1 }
      let s := (s.newObj (objKey 6 f) p c.tag.toNat true).onFence f (fun _ => x)
      return (s.fenceWrite x last, made, i)
  | _ => return acc

/-- IMPORT of a verified package (R572): its records in order, all or none; it completes when its regions are LIVE. -/
def State.importPart (s : State) (c : Cmd) (n : Nat) (recs : List (List Nat)) (place : Bytes) : State :=
  let p := s.actsFor c (objKey 4 n)
  let mask := (recs.filterMap (fun r => match r with | [0, t] => some t | _ => none)).foldl (fun (m : BitVec 128) t => m ||| BitVec.ofNat 128 (2 ^ t)) 0
  if mask ≠ (s.part p).tdids then s.freeReason c
  else s.outcome c (do
    let (t, made, _) ← recs.foldlM (State.importRecord c p place) (s, [], 0)
    if made.isEmpty then return t.answer c 0
    else
      let t := t.hold { c with names := objKey 4 n :: made }
      let lost := made.filter (fun k => (t.region (k % 2 ^ 20)).dead)
      return (lost.foldl (fun t k => t.importStep (k % 2 ^ 20) true) t).settle)

/-- IMPORT. -/
def execPartImport (h : Hdr) (wrap : Word32) (addr place : BitVec 64) (buf placement : Buf) (s : State) :
    Host.Outcome State Fault Refusal :=
  .next (s.command h 0x33 ([wrap] ++ addrWords addr ++ addrWords place) (fun s c => s.outcome c (do
    let n ← refuse (s.named c 4 wrap)
    let p := s.actsFor c (objKey 4 n)
    must ((s.part p).state = .frozen ∧ (s.part p).importing) 7
    match buf, placement with
    | some b, some pl =>
      let s := (s.dmaRead (s.bufferTdid c) addr.toNat (Bytes.le b 8 8)).dmaRead (s.bufferTdid c) place.toNat pl.length
      if !packageFormed b then return s.answer c 1
      else if !s.wrapOk n then return s.freeReason c
      else match s.openPackage n b with
        | some rs => return s.importPart c n rs pl
        | none => return s.freeReason c
    | _, _ => return (s.dmaRead (s.bufferTdid c) addr.toNat 112).answer c 9)))

/-- MIGRATE_SEND (R573, R574). -/
def execMigrateSend (h : Hdr) (region stream : Word32) (dest : BitVec 64) (fence value : Word32) (s : State) :
    Host.Outcome State Fault Refusal :=
  .next (s.command h 0x34 ([region, stream] ++ addrWords dest ++ [fence, value]) (fun s c => s.outcome c (do
    must (dest.toNat < 2 ^ 48 ∧ dest.toNat % 4096 = 0) 1
    let r ← refuse (s.namedRegion c region)
    let (f, e) ← refuse (s.namedStream c stream)
    let fe ← refuse (s.namedFence c fence)
    refuse (s.gated (s.actsFor c (objKey 3 r)) 0x34)
    let x := s.region r
    let y := s.entry f e
    if x.cls = 2 ∨ (x.cls = 0 ∧ x.tdid = 0) ∨ x.phase ≠ .live ∨ y.recv ∨ y.state ≠ 1 ∨ y.tdid.toNat ≠ x.tdid then return s.freeReason c
    else
      let k := streamKey f e
      let s := s.acceptA { c with what := k, fence := some (fe, value.toNat), names := [objKey 3 r, objKey 5 k, objKey 6 fe] } []
      if x.slot.any (fun n => (s.slot n).state != 1) then
        return s.completeWhere (fun d => d.started && d.code == 0x34 && d.what == k && d.stage == 0 && d.fence == some (fe, value.toNat)) 0 [] (some 0x11)
      else return s.settle)))

end Sys2Proof.Machine
end

