-- ==== Sys2Proof/Machine/Sites.lean ====
section
/-!
DEFINITION. Site guards and the admission of their occupants (spec/06_ownership_and_site_guards.md R262 to R270,
spec/12_attestation.md R527 to R534).
-/

namespace Sys2Proof.Machine

/-! ### Site guards (R262 to R270) -/

/-- Site guard `i`. -/
def State.site (s : State) (i : Nat) : Sgu := s.sgu.get i

/-- Change site guard `i`. -/
def State.onSite (s : State) (i : Nat) (f : Sgu → Sgu) : State := { s with sgu := s.sgu.modify i f }

/-- Admission state of a site (R262): ABSENT while its port is clamped at integration. -/
def State.siteState (s : State) (i : Nat) : Nat := if s.clamped (sguIx i) then 0 else (s.site i).state.toNat

/-- Site Context Table entry `n` of site `i` (R264). -/
def State.sctEntry (s : State) (i n : Nat) : BitVec 64 := s.sct.get (256 * i + n)

/-- Write a Site Context Table entry. -/
def State.setSct (s : State) (i n : Nat) (v : BitVec 64) : State := { s with sct := s.sct.set (256 * i + n) v }

/-- An entry is valid (R263, R264). -/
def State.sctValid (s : State) (i : Nat) (v : BitVec 64) : Bool := v.getLsbD 0 && fld v 31 24 == (s.site i).admitSeq.toNat

/-- A site entry carries all bytes of failed reads as ones (R268, R678). -/
def siteError (op : SiteOp) (len : Nat) : Bytes := if op = .read then List.replicate len 0xFF else []

/-- A site request is refused (R268): ERROR to the site and an ownership report with its kind. -/
def State.siteRefuse (s : State) (i kind tdid : Nat) (r : SiteReq) : State :=
  let s := if r.q.posted then s else s.emit (.done (.site i) r.q.tid.toNat false (siteError r.op r.q.len))
  let s := (s.countS (sguIx i) 0x49 kind tdid).note (sguIx i) 2 (some tdid) 0 kind r.ctx.toNat 0
  s.reportOwn { kind := BitVec.ofNat 4 kind, tdid := BitVec.ofNat 7 tdid, gran := BitVec.ofNat 40 r.ctx.toNat,
                site := some (Fin.ofNat 12 i), island := asIsland (sguIx i) }

/-- The permission bit of an operation (R264, R267). -/
def sctAllows (v : BitVec 64) (op : SiteOp) : Bool :=
  match op with
  | .read => v.getLsbD 16
  | .write => v.getLsbD 17
  | _ => v.getLsbD 18

/-- A site guard in ADMITTED stamps a request, or refuses it (R267). DESIGN CHOICE (log entry 99): with SITE_INVALID no valid
entry gives the request a TDID; the report carries the TDID bits of the entry that is not valid. -/
def State.siteStamp (s : State) (i : Nat) (r : SiteReq) : State :=
  let v := s.sctEntry i r.ctx.toNat
  let t := fld v 14 8
  if !s.sctValid i v then s.siteRefuse i 6 t r
  else if !sctAllows v r.op ∨ (r.q.form = 3 ∧ !v.getLsbD 19) ∨ (r.host ∧ !v.getLsbD 20) then s.siteRefuse i 7 t r
  else
    let q := { r.q with tdid := BitVec.ofNat 7 t, tower := false, link := asIsland (sguIx i) }
    let fl : SiteFlight := { site := i, tid := q.tid.toNat, read := decide (r.op = .read), len := q.len }
    let s := (s.countT (sguIx i) 0x48 t).emit (.hubReq (sguIx i) r.op r.host q)
    if q.posted then s else { s with siteFlights := s.siteFlights ++ [fl] }

/-- SITE_REQUEST (R262, R267, R268, R682): MSG passes to Tower alone; all else needs an admitted occupant. -/
def State.siteRequest (s : State) (i : Nat) (r : SiteReq) : State :=
  if !s.present (sguIx i) then s
  else if r.op = .msg then s.emit (.twr "SITE_MSG" (BitVec.ofNat 8 i :: r.q.data))
  else if s.siteState i ≠ 2 then s.siteRefuse i 8 0 r
  else s.siteStamp i r

/-- SITE_REQUEST. -/
def execSiteRequest (i : Fin 12) (q : SiteReq) (s : State) : Host.Outcome State Fault Refusal := 
  .next (s.atIngress (sguIx i.val) (.siteRequest i q) (fun s => s.siteRequest i.val q))

/-- The operation of a request on a network link. -/
def memOp (q : MemReq) : SiteOp := if q.atop ≠ 0 then .atomic else if q.be.isEmpty then .read else .write

/-- INBOUND_SITE_REQUEST (R269): delivered to an admitted site that has a valid INBOUND entry of its TDID. -/
def State.inboundSite (s : State) (i link : Nat) (q : MemReq) : State :=
  if !s.present (sguIx i) then s
  else if s.siteState i = 2 ∧ (List.range 256).any (fun n =>
      let v := s.sctEntry i n
      s.sctValid i v && v.getLsbD 21 && fld v 14 8 == q.tdid.toNat) then s.emit (.siteReq i (memOp q) q)
  else
    let s := if q.posted then s else s.done (reqFrom q link) q.tid.toNat false (siteError (memOp q) q.len)
    (s.note (sguIx i) 2 (some q.tdid.toNat) 0 9 0 0).reportOwn
      { kind := 9, tdid := q.tdid, site := some (Fin.ofNat 12 i), island := asIsland (sguIx i) }

/-- INBOUND_SITE_REQUEST. -/
def execInboundSiteRequest (i : Fin 12) (link : Nat) (q : MemReq) (s : State) : Host.Outcome State Fault Refusal :=
  .next (s.atIngress (sguIx i.val) (.inboundSiteRequest i link q) (fun s => s.inboundSite i.val link q))

/-- SITE_COMPLETION (R270): matched to its request by transaction identifier; a failed read is all ones (R678). -/
def State.siteCompletion (s : State) (i tid : Nat) (ok : Bool) (data : Bytes) : State :=
  let mine (f : SiteFlight) : Bool := f.site == i && f.tid == tid
  match s.siteFlights.find? mine with
  | none => s
  | some f =>
    let d := if !ok ∧ f.read then List.replicate f.len 0xFF else data
    State.emit { s with siteFlights := dropFirst mine s.siteFlights } (.done (.site i) tid ok d)

/-- SITE_COMPLETION. -/
def execSiteCompletion (i : Fin 12) (tid : BitVec 16) (ok : Bool) (data : Bytes) (s : State) : Host.Outcome State Fault Refusal :=
  .next (s.siteCompletion i.val tid.toNat ok data)

/-! ### Admission states (R263, R529, R533) -/

/-- SGU_ADMIT_STATUS (chapter 12). -/
def Sgu.admitStatus (x : Sgu) : Word32 := BitVec.ofNat 32 (x.phase.toNat + 2 ^ 8 * x.reason.toNat + 2 ^ 16 * x.fails.toNat)

/-- The SITE_ADMIT commands that wait for a site's admission are answered (R603). -/
def State.admitAnswer (s : State) (i : Nat) : State :=
  s.completeWhere (fun c => c.started && c.code == 0x0D && c.what == i) 0 [(s.site i).admitStatus] none

/-- A trace record of a site's admission (R659). -/
def State.noteSite (s : State) (i : Nat) : State :=
  s.note (sguIx i) 0x0C none 0 (s.siteState i) (s.site i).reason.toNat (s.site i).admitSeq.toNat

/-- Leave the admission exchange. -/
def Sgu.idle (x : Sgu) : Sgu := { x with phase := 0, step := 0, nonce := [], chain := [], chunks := [], leafKey := [], pendingId := [] }

/-- A failed admission, or an eviction that host software did not ask for: counted and reported (R534). -/
def State.admitFailed (s : State) (i reason : Nat) : State :=
  ((s.onSite i (fun x => { x.idle with reason := BitVec.ofNat 8 reason, fails := satInc x.fails })).report 14 (sguIx i) 0).noteSite i

/-- Every context of a site is withdrawn (R263): ADMIT_SEQ advances and Tower rewrites every entry as zero. -/
def State.withdraw (s : State) (i : Nat) : State :=
  let s := s.onSite i (fun x => { x with state := 1, admitSeq := x.admitSeq + 1, occupant := [], meas := [] })
  { s with sct := (List.range 256).foldl (fun t n => t.set (256 * i + n) 0) s.sct }

/-- Evict a site's occupant (R533), or stop its admission. -/
def State.evict (s : State) (i reason : Nat) (host : Bool) : State :=
  let x := s.site i
  let running := x.phase ≠ 0
  if x.state ≠ 2 ∧ !running then s
  else
    let s := if x.state = 2 then s.withdraw i else s
    let s := if host then (s.onSite i (fun x => { x.idle with reason := BitVec.ofNat 8 reason })).noteSite i
             else s.admitFailed i reason
    s.admitAnswer i

/-- Tower sends an SPDM request to a site's occupant (R683): the bytes are those of DMTF SPDM. -/
def State.admitSend (s : State) (i code : Nat) (body : Bytes) : State := s.emit (.msg (sguIx i) (Config.spdmEncode code body))

/-- Begin an admission (R528, R529, R533): with no policy it ends at once. -/
def State.admitStart (s : State) (i : Nat) : State :=
  if (s.site i).phase ≠ 0 then s
  else if s.siteState i ≠ 1 then s.admitAnswer i
  else if (s.site i).policy.isNone then (s.admitFailed i 0x0B).admitAnswer i
  else ((s.onSite i (fun x => { x.idle with phase := 1, step := 1 })).noteSite i).admitSend i 0x84 []

/-! ### The exchange (R527, R529, R532) -/

/-- Code of the response that each step awaits (DMTF SPDM). -/
def admitExpect (step : Nat) : Nat :=
  match step with
  | 1 => 0x04 | 2 => 0x61 | 3 => 0x63 | 4 => 0x01 | 5 => 0x02 | 6 => 0x03 | _ => 0x60

/-- SPDM 1.2 or 1.3 is offered in a VERSION response (R527). -/
def offersVersion (m : Bytes) : Bool :=
  (List.range (Bytes.at m 5)).any (fun k => [0x12, 0x13].contains (Bytes.at m (7 + 2 * k)))

/-- CERT_CAP, CHAL_CAP and signed MEAS_CAP, with CTExponent at most 20 (R527). -/
def capsOk (m : Bytes) : Bool :=
  let f := Bytes.le m 8 4
  decide (Bytes.at m 5 ≤ 20) && bit f 1 && bit f 2 && bits f 4 3 == 2

/-- ECDSA P-256 or P-384 under SHA-256 or SHA-384 (R527). -/
def algsOk (m : Bytes) : Bool :=
  [0x10, 0x80].contains (Bytes.le m 12 4) && [1, 2].contains (Bytes.le m 16 4)

/-- MeasurementRecord of a MEASUREMENTS response. -/
def measRecord (m : Bytes) : Bytes := Bytes.slice m 8 (Bytes.le m 5 3)

/-- Go to a step that uses a fresh 32-byte nonce. -/
def State.admitNonce (s : State) (i step code : Nat) : State :=
  let (n, s) := s.draw 32
  (s.onSite i (fun x => { x with step := step, nonce := n })).admitSend i code n

/-- Go to the next step, whose request carries `body`. -/
def State.admitNext (s : State) (i step code : Nat) (body : Bytes) : State :=
  (s.onSite i (fun x => { x with step := step })).admitSend i code body

/-- A part of the occupant's chain (R527, R529 step 2): more is fetched, or the whole chain is checked. -/
def State.admitChain (s : State) (i : Nat) (m : Bytes) : State :=
  let chain := (s.site i).chain ++ Bytes.slice m 8 (Bytes.le m 4 2)
  let s := s.onSite i (fun x => { x with chain := chain })
  if chain.length > 16384 then (s.admitFailed i 4).admitAnswer i
  else if Bytes.le m 6 2 ≠ 0 ∧ Bytes.le m 4 2 ≠ 0 then s.admitSend i 0x82 (toLe 2 chain.length)
  else match Config.chainCheck chain with
    | none => (s.admitFailed i 4).admitAnswer i
    | some (root, spki, key) =>
      if ((s.site i).policy.getD ([], [])).1.contains root then
        (s.onSite i (fun x => { x with leafKey := key, pendingId := spki })).admitNonce i 6 0x83
      else (s.admitFailed i 5).admitAnswer i

/-- Success (R529): the occupant and M are recorded and the site enters ADMITTED (R263). -/
def State.admitDone (s : State) (i : Nat) (meas : Bytes) : State :=
  let s := s.onSite i (fun x =>
    { x.idle with state := 2, admitSeq := x.admitSeq + 1, occupant := x.pendingId, meas := meas, leafKey := x.leafKey })
  (s.noteSite i).admitAnswer i

/-- A signed MEASUREMENTS response (R529 steps 4 and 5, R532, R533). -/
def State.admitMeas (s : State) (i : Nat) (m : Bytes) : State :=
  let x := s.site i
  let meas := Sha.sha384 (measRecord m)
  let again := x.phase == 2
  let fail (s : State) (r : Nat) : State := if again then s.evict i r false else (s.admitFailed i r).admitAnswer i
  if !Config.occupantVerify x.leafKey x.nonce m then fail s 6
  else if again ∧ meas ≠ x.meas then fail s 9
  else if !(x.policy.getD ([], [])).2.contains meas then fail s 7
  else if again then s.onSite i (fun x => { x.idle with leafKey := x.leafKey })
  else s.admitDone i meas

/-- One whole response at the step that awaits it. -/
def State.admitStep (s : State) (i : Nat) (m : Bytes) : State :=
  let x := s.site i
  let fail (r : Nat) : State := if x.phase = 2 then s.evict i r false else (s.admitFailed i r).admitAnswer i
  if Bytes.at m 1 ≠ admitExpect x.step then fail 2
  else match x.step with
    | 1 => if offersVersion m then s.admitNext i 2 0xE1 [] else fail 2
    | 2 => if capsOk m then s.admitNext i 3 0xE3 [] else fail 2
    | 3 => if algsOk m then s.admitNext i 4 0x81 [] else fail 3
    | 4 => if bit (Bytes.at m 3) 0 then s.admitNext i 5 0x82 [] else fail 4
    | 5 => s.admitChain i m
    | 6 => if Config.occupantVerify x.leafKey x.nonce m then s.admitNonce i 7 0xE0 else fail 6
    | _ => s.admitMeas i m

/-- ADMISSION_RESPONSE (R529, R532): a response, whole or in chunks (CHUNK_GET), of an occupant. -/
def State.admission (s : State) (i : Nat) (m : Bytes) : State :=
  let x := s.site i
  if !s.fwUp ∨ x.phase = 0 ∨ m.length > 4096 then s
  else if Bytes.at m 1 = 0x7F ∧ Bytes.at m 2 = 0x0F then s.admitSend i 0x86 [BitVec.ofNat 8 (Bytes.at m 4), 0, 0]
  else if Bytes.at m 1 = 0x06 then
    let first := Bytes.le m 4 2 == 0
    let part := Bytes.slice m (if first then 16 else 12) (Bytes.le m 8 4)
    let all := x.chunks ++ part
    if bit (Bytes.at m 2) 0 then (s.onSite i (fun x => { x with chunks := [] })).admitStep i all
    else (s.onSite i (fun x => { x with chunks := all })).admitSend i 0x86
      (BitVec.ofNat 8 (Bytes.at m 3) :: toLe 2 (Bytes.le m 4 2 + 1))
  else s.admitStep i m

/-- ADMISSION_RESPONSE. -/
def execAdmissionResponse (site : Fin 12) (msg : Bytes) (s : State) : Host.Outcome State Fault Refusal :=
  .next (s.admission site.val msg)

/-- ADMISSION_TIMEOUT (R530): TIMEOUT_MS has passed since the first message. -/
def execAdmissionTimeout (site : Fin 12) (s : State) : Host.Outcome State Fault Refusal :=
  .next (if s.fwUp ∧ (s.site site.val).phase = 1 then (s.admitFailed site.val 1).admitAnswer site.val else s)

/-- REMEASURE_TIMER (R532): the occupant of an ADMITTED site is measured again. -/
def State.remeasure (s : State) (i : Nat) : State :=
  let x := s.site i
  if s.fwUp ∧ s.siteState i = 2 ∧ x.phase = 0 ∧ fld x.ctrl 31 16 ≠ 0 then
    (s.onSite i (fun x => { x with phase := 2 })).admitNonce i 7 0xE0
  else s

/-- REMEASURE_TIMER. -/
def execRemeasureTimer (site : Fin 12) (s : State) : Host.Outcome State Fault Refusal := .next (s.remeasure site.val)

/-- SITE_LINK_DOWN (R533): the link is down or the occupant was reset. -/
def execSiteLinkDown (site : Fin 12) (s : State) : Host.Outcome State Fault Refusal :=
  .next (State.evict (s.onSite site.val (fun x => { x with linkUp := false })) site.val 8 false)

/-- SITE_LINK_UP (R533): Tower starts admission. -/
def execSiteLinkUp (site : Fin 12) (s : State) : Host.Outcome State Fault Refusal :=
  .next (let s := s.onSite site.val (fun x => { x with linkUp := true })
    if s.fwUp ∧ s.present (sguIx site.val) then s.admitStart site.val else s)

/-! ### Commands (R265, R528, R531, R533) -/

/-- The site that a command's word names. -/
def siteArg (w : Word32) : Except (Nat × List Word32) Nat := if w.toNat < 12 then .ok w.toNat else .error (1, [])

/-- SITE_POLICY (R528): the buffer's layout is not given; a policy holds at most 4 root and 16 measurement digests. -/
def execSitePolicy (h : Hdr) (site : Word32) (addr : BitVec 64) (buf : Buf) (s : State) : Host.Outcome State Fault Refusal :=
  .next (s.command h 0x0C (site :: addrWords addr) (fun s c =>
    match siteArg site with
    | .error (st, ws) => s.answer c st ws
    | .ok i => s.withBuffer c addr ((buf.map List.length).getD 0) buf (fun s b =>
        match Config.admissionPolicy b with
        | some (roots, meas) =>
          if roots.length ≤ 4 ∧ meas.length ≤ 16 then
            (s.onSite i (fun x => { x with policy := some (roots, meas) })).answer c 0
          else s.answer c 1
        | none => s.answer c 1)))

/-- SITE_ADMIT (R528, R529, R533): answered when the admission ends. -/
def execSiteAdmit (h : Hdr) (site : Word32) (s : State) : Host.Outcome State Fault Refusal :=
  .next (s.command h 0x0D [site] (fun s c =>
    match siteArg site with
    | .error (st, ws) => s.answer c st ws
    | .ok i => (s.hold { c with what := i }).admitStart i))

/-- SITE_EVICT (R533). -/
def execSiteEvict (h : Hdr) (site : Word32) (s : State) : Host.Outcome State Fault Refusal :=
  .next (s.command h 0x0E [site] (fun s c =>
    match siteArg site with
    | .error (st, ws) => s.answer c st ws
    | .ok i => (s.evict i 0x0A true).answer c 0))

/-- The occupant of a site is admitted into the TDIDs of partition `p` (R531). -/
def State.admittedInto (s : State) (i p : Nat) : Bool :=
  s.siteState i == 2 && ((s.part p).occupants.isEmpty || (s.part p).occupants.contains (s.site i).meas)

/-- Site Context Table entries a partition holds, on all sites: valid ones, and those kept for RESUME (R536). -/
def State.contextsOf (s : State) (p : Nat) : Nat :=
  s.sct.countWhere (fun k v => s.sctValid (k / 256) v && fld v 38 32 == p) + (s.part p).kept.length

/-- The entry at an index belongs to another partition. -/
def State.contextOther (s : State) (i n p : Nat) : Bool :=
  let v := s.sctEntry i n
  (s.sctValid i v && fld v 38 32 != p) ||
    s.prt.parts.cells.any (fun c => c.1 != p && c.2.kept.any (fun k => k.1 == 256 * i + n))

/-- SITE_CONTEXT (R265, R531, R536, R768): the checks in order, then the entry. -/
def State.siteContext (s : State) (p : Nat) (sel entry : Word32) : Except (Nat × List Word32) State := do
  let i := fld sel 11 8
  let n := fld sel 7 0
  must (decide (sel.toNat < 4096 ∧ i < 12 ∧ 1 ≤ p ∧ p < 128)) 1
  must (fld entry 7 1 == 0 && !entry.getLsbD 15 && fld entry 23 22 == 0) 1
  must (s.ownsTdid p (fld entry 14 8) && !s.contextOther i n p) 3
  refuse (s.gated p 0x0F)
  mustReason (s.admittedInto i p) 1
  let old := s.sctEntry i n
  let mine := s.sctValid i old && fld old 38 32 == p
  must (mine || !entry.getLsbD 0 || decide (s.contextsOf p < s.allot p 6)) 6
  let v := setFld (setFld (entry.setWidth 64) 31 24 (s.site i).admitSeq.toNat) 38 32 p
  pure (s.setSct i n v)

/-- SITE_CONTEXT. -/
def execSiteContext (h : Hdr) (part sel entry : Word32) (s : State) : Host.Outcome State Fault Refusal :=
  .next (s.command h 0x0F [part, sel, entry] (fun s c =>
    match s.siteContext part.toNat sel entry with
    | .ok t => t.answer c 0
    | .error (st, ws) => s.answer c st ws))

/-! ### A partition's contexts (R544, R545, R568, R613) -/

/-- Clear VALID in every entry of a partition and keep the contents for RESUME (R544, R613). -/
def State.contextsClear (s : State) (p : Nat) : State :=
  let mine := s.sct.cells.filter (fun c => s.sctValid (c.1 / 256) c.2 && fld c.2 38 32 == p)
  let s := s.onPart p (fun x => { x with kept := x.kept ++ mine })
  mine.foldl (fun s c => { s with sct := s.sct.set c.1 (setFld c.2 0 0 0) }) s

/-- Restore a partition's entries on sites whose occupant is still admitted into it (R545), under the present sequence. -/
def State.contextsRestore (s : State) (p : Nat) : State :=
  let kept := (s.part p).kept
  let s := s.onPart p (fun x => { x with kept := [] })
  kept.foldl (fun s c =>
    let i := c.1 / 256
    if s.admittedInto i p then { s with sct := s.sct.set c.1 (setFld (setFld c.2 0 0 1) 31 24 (s.site i).admitSeq.toNat) } else s) s

/-- Zero every entry of a partition (R568 step 6). -/
def State.contextsZero (s : State) (p : Nat) : State :=
  let mine := s.sct.cells.filter (fun c => fld c.2 38 32 == p)
  let s := s.onPart p (fun x => { x with kept := [] })
  mine.foldl (fun s c => { s with sct := s.sct.set c.1 0 }) s

end Sys2Proof.Machine
end

