-- ==== Sys2Proof/Machine/Partition.lean ====
section
/-!
DEFINITION. Partitions: creation, states, removal; the references of processes; tenant blobs
(spec/13_partitions_and_objects.md R535 to R556, R568, R569; spec/10_keys_and_dome.md R455 to R462).
-/

namespace Sys2Proof.Machine

/-! ### The pool (R535 to R537) -/

/-- POOL and CEILING of a resource in the active PARTITION_POOL section. -/
def State.pool (s : State) (r : Nat) : Nat × Nat :=
  match (s.entriesOf 1 4).find? (fun b => Bytes.at b 0 == r) with
  | some b => (Bytes.le b 4 4, Bytes.le b 8 4)
  | none => (0, 0)

/-- The amount of a resource that all partitions hold. -/
def State.allotted (s : State) (r : Nat) : Nat :=
  (s.prt.parts.cells.map (fun c => if c.2.state != .none then (c.2.allot[r - 1]?).getD 0 else 0)).sum

/-- A further allotment of a resource fits its CEILING and POOL. -/
def State.poolFits (s : State) (r n : Nat) : Bool := decide (n ≤ (s.pool r).2 ∧ s.allotted r + n ≤ (s.pool r).1)

/-- The lowest run of `n` units of a resource that no partition holds (R536): slots, entries, mailboxes, windows. -/
def State.freeRun (s : State) (r n : Nat) : Option Nat :=
  let first (x : Part) : Nat := match r with | 2 => x.slot0 | 3 => x.rot0 | 5 => x.mbx0 | _ => x.gecko0
  let (lo, cap) : Nat × Nat := match r with | 2 => (32, 4064) | 3 => (16, 8176) | 5 => (32, 128) | _ => (0, 64)
  let free (u : Nat) : Bool := !s.prt.parts.cells.any (fun c =>
    c.2.state != .none && decide (first c.2 ≤ u ∧ u < first c.2 + (c.2.allot[r - 1]?).getD 0))
  if n = 0 then some lo else runFrom lo lo 0 n cap free

/-! ### PART_CREATE (R540 to R543, R768) -/

/-- A partition descriptor's allotments, resources 1 to 14. -/
def descAllot (b : Bytes) : List Nat :=
  ((List.range 127).filter (fun t => bit (Bytes.le b 8 16) (t + 1))).length :: (List.range 13).map (fun i => Bytes.le b (24 + 4 * i) 4)

/-- A partition descriptor is not malformed (R22, R540), and its mask is not empty. -/
def partFormed (b : Bytes) : Bool :=
  let mask := Bytes.le b 8 16
  let occ := Bytes.at b 5
  Bytes.le b 0 2 == 1 && decide (Bytes.le b 2 2 < 4) && decide (1 ≤ Bytes.at b 4 ∧ Bytes.at b 4 ≤ 4) && decide (occ ≤ 16) &&
    Bytes.zeroAt b 6 2 && mask != 0 && bit mask 0 == bit (Bytes.at b 2) 0 && Bytes.zeroAt b 76 4 &&
    Bytes.zeroAt b (128 + 48 * occ) (768 - 48 * occ)

/-- The TDIDs of a mask. -/
def maskTdids (m : Nat) : List Nat := (List.range 128).filter (fun t => bit m t)

/-- The checks of a creation (R541), in the order of R768; the number and the four runs. -/
def State.partChecks (s : State) (b : Bytes) : Except (Nat × List Word32) (Nat × Nat × Nat × Nat × Nat) := do
  let al := descAllot b
  let a (r : Nat) : Nat := (al[r - 1]?).getD 0
  must (partFormed b) 1
  must (!s.lc.rootless && !s.fw.sealed) 7
  let number := (List.range 127).find? (fun i => (s.part (i + 1)).state == .none)
  must (number.isSome && (List.range 14).all (fun i => s.poolFits (i + 1) (a (i + 1))) && decide (s.prt.refs.length < 32768)) 6
  match number, s.freeRun 2 (a 2), s.freeRun 3 (a 3), s.freeRun 5 (a 5), s.freeRun 14 (a 14) with
  | some i, some k, some e, some m, some g =>
    mustReason ((maskTdids (Bytes.le b 8 16)).all (fun t => t == 0 || s.tdidPart t == 0)) 4
    mustReason (!(bit (Bytes.at b 2) 0 && s.tdidPart 0 != 0)) 5
    mustReason (Bytes.at b 4 < a 2) 8
    must (!s.str.busy) 5
    return (i + 1, k, e, m, g)
  | _, _, _, _, _ => .error (6, [])

/-- A partition is made (R540, R543, R548): its record, its TDIDs' owner in Spire's map, and a Trust Domain object each. -/
def State.partMake (s : State) (b : Bytes) (p k e m g : Nat) : State :=
  let mask := Bytes.le b 8 16
  let x : Part := {
    state := if bit (Bytes.at b 2) 1 then .frozen else .active
    openDomain := bit (Bytes.at b 2) 0, importing := bit (Bytes.at b 2) 1, reserve := Bytes.at b 4
    tdids := BitVec.ofNat 128 mask, allot := descAllot b, slot0 := k, rot0 := e, mbx0 := m, gecko0 := g
    keyService := Bytes.slice b 80 48
    occupants := (List.range (Bytes.at b 5)).map (fun i => Bytes.slice b (128 + 48 * i) 48) }
  let s := s.onPart p (fun _ => x)
  (maskTdids mask).foldl (fun s t =>
    (s.newObj (objKey 2 t) p 0 false).onSpr (fun q => { q with tdidOwner := q.tdidOwner.set t p })) s

/-- PART_CREATE on its descriptor. -/
def State.partCreate (s : State) (c : Cmd) (b : Bytes) : State :=
  s.outcome c (do
    let (p, k, e, m, g) ← s.partChecks b
    return (s.partMake b p k e m g).answer c 0 [BitVec.ofNat 32 p])

/-- PART_CREATE. -/
def execPartCreate (h : Hdr) (addr : BitVec 64) (buf : Buf) (s : State) : Host.Outcome State Fault Refusal :=
  .next (s.command h 0x06 (addrWords addr) (fun s c => s.withBuffer c addr 896 buf (fun s b => s.partCreate c b)))

/-! ### QUIESCE, RESUME, FREEZE (R543 to R546) -/

/-- The partition that a manager command names. -/
def partArg (w : Word32) : Except (Nat × List Word32) Nat := if 1 ≤ w.toNat ∧ w.toNat < 128 then .ok w.toNat else .error (1, [])

/-- A command is one of partition `p` (R544), other than its QUIESCE and REMOVE. -/
def State.ofPart (s : State) (p : Nat) (c : Cmd) : Bool :=
  c.code != 0x07 && c.code != 0x0A && (c.part == p || c.names.any (fun k => (s.obj k).part == p) ||
    (c.part == 0 && (c.code.toNat == 0x10 || c.code.toNat == 0x0F || decide (8 ≤ c.code.toNat ∧ c.code.toNat ≤ 0x0B)) &&
      (c.args.head?).any (fun w => w.toNat == p)))

/-- The quiesce actions of R544. -/
def State.quiesceStart (s : State) (p : Nat) : State := (s.contextsClear p).onPart p (fun x => { x with state := .quiescing })

/-- QUIESCE. -/
def execQuiesce (h : Hdr) (part fence value : Word32) (s : State) : Host.Outcome State Fault Refusal :=
  .next (s.command h 0x07 [part, fence, value] (fun s c => s.outcome c (do
    let p ← partArg part
    let fe ← refuse (s.namedFence c fence)
    must ((s.obj (objKey 6 fe)).part = p) 3
    must ((s.part p).state = .active) 7
    let s := (s.quiesceStart p).onPart p (fun x => { x with quiesce := some (fe, value.toNat) })
    return s.acceptA { c with what := p, fence := some (fe, value.toNat), names := [objKey 6 fe] } [])))

/-- Every stream of a partition is quiet (R544): nothing unacknowledged, no atomic without its REPLY. -/
def State.streamsQuiet (s : State) (p : Nat) : Bool :=
  s.streams.cells.all (fun c => c.2.state == 0 || c.2.recv || s.tdidPart c.2.tdid.toNat != p ||
    (decide (c.2.unacked = 0) && c.2.kept.all (fun x => !(x.atomic && !x.replied)) && c.2.waiting.isEmpty))

/-- A drain of a partition's entries is in progress. -/
def State.draining (s : State) (p : Nat) : Bool :=
  (s.own.drains ++ s.own.waiting).any (fun d => (s.master d.entry).part == p)

/-- Quiescence is reached (R544). -/
def State.quiescent (s : State) (p : Nat) : Bool :=
  !s.cmds.any (s.ofPart p) && (s.tdi p).state != 2 && s.streamsQuiet p && !s.draining p

/-- QUIESCENCE_REACHED (R543). -/
def State.quiesced (s : State) (p : Nat) : State :=
  if (s.part p).state = .quiescing ∧ s.quiescent p then
    (s.onPart p (fun x => { x with state := .quiesced, quiesce := none })).completeWhere
      (fun c => c.started && c.code == 0x07 && c.what == p) 0 [] none
  else s

/-- QUIESCENCE_REACHED. -/
def execQuiescenceReached (part : Fin 128) (s : State) : Host.Outcome State Fault Refusal := .next (s.quiesced part.val)

/-- RESUME (R543, R545, R631). -/
def State.resume (s : State) (c : Cmd) (p : Nat) : State :=
  let x := s.part p
  let s := s.contextsRestore p
  let s := s.completeWhere (fun c => c.started && c.code == 0x07 && c.what == p) 0 [] (some 0x17)
  let s := s.onPart p (fun x => { x with state := .active, fenced := false, quiesce := none })
  let s := if x.fenced then { s with cap := { s.cap with notices := s.cap.notices ++ [{ kind := 4, mask := x.tdids }] } } else s
  s.answer c 0

/-- RESUME. -/
def execResume (h : Hdr) (part : Word32) (s : State) : Host.Outcome State Fault Refusal :=
  .next (s.command h 0x08 [part] (fun s c => s.outcome c (do
    let p ← partArg part
    must ((s.part p).state = .quiescing ∨ (s.part p).state = .quiesced ∨ (s.part p).state = .frozen) 7
    return s.resume c p)))

/-- The freeze conditions (R546). -/
def State.freezeOk (s : State) (p : Nat) : Bool :=
  s.bel.checks.cells.all (fun c => !(c.2.used && c.2.part == p)) &&
    s.bel.sigs.cells.all (fun c => !(c.2.part == p && (c.2.state == .opened || c.2.state == .closing || c.2.state == .merging))) &&
    !s.prt.regions.cells.any (fun c => s.regionPart c.1 == p && s.moveCovers c.1)

/-- FREEZE (R543, R546). -/
def execFreeze (h : Hdr) (part : Word32) (s : State) : Host.Outcome State Fault Refusal :=
  .next (s.command h 0x09 [part] (fun s c => s.outcome c (do
    let p ← partArg part
    must ((s.part p).state = .quiesced) 7
    if s.freezeOk p then return (s.onPart p (fun x => { x with state := .frozen })).answer c 0
    else return s.freeReason c)))

/-! ### Removal (R568, R569) -/

/-- Move partition `p` to a step of its removal. -/
def State.toStep (s : State) (p n : Nat) : State := s.onPart p (fun x => { x with step := n })

/-- Streams of a partition that are not CLOSED. -/
def State.openStreams (s : State) (p : Nat) : List Nat :=
  s.streams.keysWhere (fun _ x => x.state != 0 && s.tdidPart x.tdid.toNat == p)

/-- Step 2: outstanding checks complete ABORTED; every other pending signal is written with PARTITION_REMOVED. -/
def State.removeSignals (s : State) (p : Nat) : State :=
  let s := (s.bel.checks.keysWhere (fun _ x => x.used && x.part == p)).foldl State.checkAbort s
  (s.openStreams p).foldl (fun s k =>
    let f := k / 2048
    let e := k % 2048
    let x := s.entry f e
    let fs := (x.armed.map (fun a => (a.fence, a.value))).toList ++ x.fenceQ
    let s := s.onEntry f e (fun x => { x with armed := none, fenceQ := [] })
    fs.foldl (fun s a => s.streamFenceEnd k a.1 a.2 (some 0x14)) s) s

/-- Step 5: the partition's regions are DEAD, their moves stop, and every entry is destroyed. -/
def State.removeEntries (s : State) (p : Nat) : State :=
  let rs := s.prt.regions.keysWhere (fun r _ => (s.obj (objKey 3 r)).used && s.regionPart r == p)
  let s := rs.foldl (fun s r => (s.onRegion r (fun x => { x with dead := true })).moveStop r 0x14) s
  let es := s.own.master.keysWhere (fun _ e => Entry.state e != 0 && Entry.part e == p)
  (es.foldl (fun s e => s.drain e .destroy) s).settle

/-- Step 7 (R374): an OPEN or CLOSED signature of the partition is freed, one that is CLOSING or MERGING completes its merge
first; its Set Table entries are free. -/
def State.removeSigs (s : State) (p : Nat) : State :=
  let hs := s.bel.sigs.keysWhere (fun _ g => g.part == p && g.state != .free)
  let s := hs.foldl (fun s h =>
    match (s.bel.sigs.get h).state with
    | .closing | .merging => s.onSig h (fun g => { g with part := 0, freeWanted := true })
    | _ => s.dropSig h) s
  State.combine { s with sets := (s.sets.keysWhere (fun _ x => x.inUse && x.part.toNat == p)).foldl (fun t k => t.set k default) s.sets }

/-- Steps 9 and 10: every object ends, slots return to EMPTY, the number and the allotments are free; a notice names the
TDIDs, and REMOVE is answered. -/
def State.removeEnd (s : State) (p : Nat) : State :=
  let x := s.part p
  let run := (List.range (s.allot p 2)).map (· + x.slot0)
  let keys := s.prt.objs.keysWhere (fun _ o => o.used && o.part == p)
  let s := keys.foldl (fun s k =>
    let i := k % 2 ^ 20
    let s := s.endObj k
    s.onPrt (fun q => { q with
      regions := if k / 2 ^ 20 = 3 then q.regions.set i default else q.regions
      fences := if k / 2 ^ 20 = 6 then q.fences.set i default else q.fences })) s
  let s := run.foldl (fun s n => s.onSlot n (fun _ => default)) s
  let s := (maskTdids x.tdids.toNat).foldl (fun s t => s.onSpr (fun q => { q with tdidOwner := q.tdidOwner.set t 0 })) s
  let s := { s.onPart p (fun _ => ({} : Part)) with att := { s.att with standing := s.att.standing.set p default, shown := s.att.shown.set p default } }
  let s := { s with cap := { s.cap with notices := s.cap.notices ++ [({ kind := 3, mask := x.tdids } : NoticeReq)] } }
  s.completeWhere (fun c => c.started && c.code == 0x0A && c.what == p) 0 [] none

/-- One step of the removal of a partition, when it may be taken (R568). -/
def State.removeStep (s : State) (p : Nat) : State :=
  match (s.part p).step with
  | 2 => (s.removeSignals p).toStep p 3
  | 3 =>
    if s.cmds.any (s.ofPart p) then s
    else (((List.range (s.allot p 2)).map (· + (s.part p).slot0)).foldl State.retireSlot s).toStep p 4
  | 4 =>
    let s := (s.openStreams p).foldl (fun s k => if (s.streams.get k).closing then s else s.closeStream (k / 2048) (k % 2048)) s
    if (s.openStreams p).isEmpty then (s.toStep p 5).removeEntries p else s
  | 5 => if s.own.master.cells.any (fun c => Entry.state c.2 != 0 && Entry.part c.2 == p) then s else s.toStep p 6
  | 6 => (((s.contextsZero p).tdiUnlock p).ideTeardown p).toStep p 7
  | 7 => (s.removeSigs p).toStep p 8
  | 8 =>
    if ((List.range (s.allot p 2)).map (· + (s.part p).slot0)).all (fun n => (s.slot n).state == 0 || (s.slot n).state == 3) then s.removeEnd p
    else s
  | _ => s

/-- Every removal goes as far as it can. -/
def State.removals (s : State) : State :=
  (s.prt.parts.keysWhere (fun _ x => x.state == .removing)).foldl (fun s p =>
    (List.range 8).foldl (fun s _ => if (s.part p).state = .removing then s.removeStep p else s) s) s

/-- Step 1 (R569): the partition's commands that have not started are cancelled with STATE, and its MIGRATE_SEND moves
stop. -/
def State.removeStart (s : State) (c : Cmd) (p : Nat) : State :=
  let cancel (x : Cmd) : Bool := s.ofPart p x && !x.started
  let gone := s.cmds.filter cancel
  let s := gone.foldl (fun s x => s.answer x 7) { s with cmds := s.cmds.filter (fun x => !cancel x) }
  let s := s.onPart p (fun x => { x with state := .removing, step := 2 })
  let s := (List.range 4).foldl (fun s x =>
    let m := s.nwt.moves.get x
    if m.state != 0 && m.send.isSome && s.regionPart m.region == p then s.sendStop x 0x14 else s) s
  let waits (x : Cmd) : Bool := x.started && x.stage == 0 && x.code == 0x34 && x.names.any (fun k => (s.obj k).part == p)
  let s := s.completeWhere waits 0 [] (some 0x14)
  (s.hold { c with what := p }).removals

/-- REMOVE. -/
def execRemove (h : Hdr) (part : Word32) (s : State) : Host.Outcome State Fault Refusal :=
  .next (s.command h 0x0A [part] (fun s c => s.outcome c (do
    let p ← partArg part
    must ((s.part p).state = .quiesced ∨ (s.part p).state = .frozen) 7
    return s.removeStart c p)))

/-! ### Events that a removal or an ownership change waits for -/

/-- ROT_UPDATE. -/
def execRotUpdate (r : Fin 10) (s : State) : Host.Outcome State Fault Refusal := .next (s.rotApplied (r.val + 3)).removals

/-- DRAIN_DONE_RECEIVED. -/
def execDrainDoneReceived (r : Fin 10) (e : Fin 8192) (s : State) : Host.Outcome State Fault Refusal :=
  .next (s.drainDoneTaken (r.val + 3) e.val).removals

/-- LINE_INIT. -/
def execLineInit (k : Fin 10) (e : Fin 8192) (s : State) : Host.Outcome State Fault Refusal :=
  .next (s.lineInit k.val e.val).tryRekey.removals

/-- DOME_DERIVE_DONE. -/
def execDomeDeriveDone (s : State) : Host.Outcome State Fault Refusal := .next s.deriveDone.removals

/-- SLOT_INVALIDATION_ACKED (R461): with every acknowledgement in, the slot is DEAD; what waited for it goes on. -/
def State.slotAcked (s : State) (n : Nat) : State :=
  if (s.slot n).state = 2 ∧ !s.invals.any (fun i => i.2 == n) then ((s.slotDead n).slotEmpty n).settle.tryRekey.removals else s

/-- SLOT_INVALIDATION_ACKED. -/
def execSlotInvalidationAcked (slot : Fin 4096) (s : State) : Host.Outcome State Fault Refusal := .next (s.slotAcked slot.val)

/-- PACKET_RECEIVE. -/
def execPacketReceive (f : Fin 16) (pkt : Bytes) (buf : BitVec 16) (s : State) : Host.Outcome State Fault Refusal :=
  .next (s.atIngress (fccIx f.val) (.packetReceive f pkt buf) (fun s => (s.packetReceive f.val pkt buf.toNat).removals))

/-- RETRY_SPAN_EXPIRY (R319, R338). -/
def execRetrySpanExpiry (f : Fin 16) (e : Fin 2048) (s : State) : Host.Outcome State Fault Refusal :=
  .next (if (s.entry f.val e.val).kept.isEmpty ∨ (s.entry f.val e.val).state = 3 then s else (s.streamLost f.val e.val).removals)

/-- CHECK_COMPLETE. -/
def execCheckComplete (s : State) : Host.Outcome State Fault Refusal := .next s.checkComplete.removals

/-- CPE_DONE. -/
def execCpeDone (s : State) : Host.Outcome State Fault Refusal := .next s.cpeDone.settle.removals

/-! ### References of processes (R551 to R556) -/

/-- RETAIN (R552). -/
def execRetain (h : Hdr) (handle : Word32) (s : State) : Host.Outcome State Fault Refusal :=
  .next (s.command h 0x30 [handle] (fun s c => s.outcome c (do
    let type := fld handle 31 28
    must (2 ≤ type ∧ type ≤ 7) 1
    let i ← refuse (if type = 3 then s.namedRegion c handle else s.named c type handle)
    let k := objKey type i
    refuse (s.gated (s.actsFor c k) 0x30)
    if type = 2 ∨ type = 7 then return s.freeReason c
    else
      must (s.href k < 0xFFFF ∧ (s.prt.refs.length < 32768 ∨ s.prt.refs.any (fun r => r.key == k && r.tag == c.tag.toNat))) 6
      return (s.addRef k (s.obj k).part c.tag.toNat).answer c 0)))

/-- RELEASE (R552, R565, R566). -/
def execRelease (h : Hdr) (handle : Word32) (s : State) : Host.Outcome State Fault Refusal :=
  .next (s.command h 0x31 [handle] (fun s c => s.outcome c (do
    let type := fld handle 31 28
    must (2 ≤ type ∧ type ≤ 7) 1
    let i ← refuse (s.named c type handle)
    let k := objKey type i
    refuse (s.gated (s.actsFor c k) 0x31)
    if s.prt.refs.any (fun r => r.key == k && r.tag == c.tag.toNat) then
      return ((s.dropRef k c.tag.toNat).reap.answer c 0).settle
    else return s.freeReason c)))

/-- The fence and value that a queued command with answer A would signal. -/
def queuedFence (c : Cmd) : Option (Word32 × Nat) :=
  let arg (i j : Nat) : Option (Word32 × Nat) := match c.args[i]?, c.args[j]? with | some f, some v => some (f, v.toNat) | _, _ => none
  match c.code.toNat with
  | 0x22 => arg 1 2 | 0x28 => arg 1 2 | 0x29 => arg 1 2 | 0x34 => arg 4 5 | _ => none

/-- A fence that another holder than a TAG references (R556). -/
def State.heldElse (s : State) (f p tag : Nat) : Bool :=
  let k := objKey 6 f
  decide (0 < s.bref k) || s.prt.refs.any (fun r => r.key == k && !(r.tag == tag && r.part == p))

/-- Cancel a command of a TAG that has not started (R556 step 1). -/
def State.cancelExit (s : State) (p tag : Nat) (c : Cmd) : State :=
  if c.answered then
    let drop (s : State) (e : Nat) : State :=
      { s with own := { s.own with waiting := dropFirst (fun d => d.entry == e && d.kind == .clear) s.own.waiting } }
    let s := if c.code = 0x22 then (s.region c.what).entries.foldl drop s else s
    match c.fence with
    | some (f, v) => if s.heldElse f p tag then s.signal f v (some 0x10) else s
    | none => s
  else match queuedFence c with
    | some (w, v) =>
      let s := s.respond c.mbx 0 c.cmdId.toNat []
      match s.namedFence c w with
      | .ok f => if s.heldElse f p tag then s.signal f v (some 0x10) else s
      | .error _ => s
    | none => s.answer c 0x0B

/-- PROCESS_EXIT (R556). -/
def State.processExit (s : State) (p tag : Nat) : State :=
  let mine (c : Cmd) : Bool := c.part == p && c.tag.toNat == tag &&
    (!c.started || (c.answered && ((c.code == 0x22 && c.stage == 1) || (c.code == 0x34 && c.stage == 0))))
  let gone := s.cmds.filter mine
  let s := gone.foldl (fun s c => s.cancelExit p tag c) { s with cmds := s.cmds.filter (fun c => !mine c) }
  let s := State.reap (s.onPrt (fun q => { q with refs := q.refs.filter (fun r => !(r.tag == tag && r.part == p)) }))
  let fs := s.prt.fences.keysWhere (fun f _ => let o := s.obj (objKey 6 f); o.used && o.part == p && o.tag == tag)
  let s := fs.foldl (fun s f => if s.heldElse f p tag then s.signal f (s.fence f).last (some 0x10) else s) s
  let hs := s.bel.sigs.keysWhere (fun _ g => g.state != .free && g.part == p && g.tag == tag)
  (hs.foldl (fun s n => (s.onSig n (fun g => { g with freeWanted := true })).sigRelease n) s).reap.settle

/-- PROCESS_EXIT. -/
def execProcessExit (h : Hdr) (part tag : Word32) (s : State) : Host.Outcome State Fault Refusal :=
  .next (s.command h 0x0B [part, tag] (fun s c => s.outcome c (do
    let p ← partArg part
    must (tag.toNat < 2 ^ 24) 1
    refuse (s.gated p 0x0B)
    return (s.processExit p tag.toNat).answer c 0)))

/-! ### BLOB_UNWRAP (R455 to R457, R768) -/

/-- The header checks of step 1 other than those that R768 answers by name. -/
def State.blobHeaderOk (s : State) (p : Nat) (b : Bytes) : Bool :=
  let purpose := Bytes.at b 6
  b.take 4 == [0x4F, 0x4E, 0x4B, 0x42] && Bytes.le b 4 2 == 1 && decide (purpose ≤ 4) && Bytes.le b 10 2 == purposeLen purpose &&
    bit (Bytes.at b 9) s.lcBit && s.ownsTdid p (Bytes.at b 8)

/-- The set checks of step 3. -/
def State.blobSetOk (s : State) (n : Nat) (b : Bytes) : Bool :=
  let x := s.slot n
  if x.setBound then
    let e := s.sets.get x.set
    e.inUse && e.setId == Bytes.slice b 16 16 && e.digest == Bytes.slice b 32 48
  else Bytes.zeroAt b 16 64

/-- BLOB_UNWRAP on its blob: wrap slot `n`. -/
def State.blobUnwrap (s : State) (c : Cmd) (n : Nat) (b : Bytes) : State :=
  let p := s.actsFor c (objKey 4 n)
  let x := s.slot n
  let purpose := Bytes.at b 6
  if s.lc.rootless then s.freeReason c
  else s.outcome c (do
    must (Bytes.at b 7 < 2 ∧ Bytes.at b 8 < 128 ∧ Bytes.at b 9 < 16) 1
    must ((s.slotForFill p).isSome ∧ s.prt.refs.length < 32768) 6
    mustReason (s.blobHeaderOk p b) 1
    mustReason (s.wrapOk n && x.part == p) 2
    mustReason (s.blobSetOk n b) 3
    match s.slotForFill p, keyUnwrap (s.blobKek n (b.take 96)) (Bytes.slice b 96 (purposeLen purpose + 8)) with
    | some d, some key =>
      mustReason (key.length = purposeLen purpose) 5
      let spec : SlotSpec := { purpose := purpose, masters := purposeMasters purpose, world := purposeWorld purpose, lcMask := Bytes.at b 9
                               source := 1, part := p, tdid := Bytes.at b 8, expiry := Bytes.le b 12 4
                               leave := bit (Bytes.at b 7) 0 && !x.setBound }
      let s := s.fillSlot d spec.attr key
      let s := s.onSlot d (fun y => { y with setId := if x.setBound then Bytes.slice b 16 16 else [] })
      let s := s.newObj (objKey 4 d) p c.tag.toNat true
      return s.answer c 0 [s.handle (objKey 4 d)]
    | _, _ => .error (8, [5]))

/-- BLOB_UNWRAP. -/
def execBlobUnwrap (h : Hdr) (wrap : Word32) (addr : BitVec 64) (buf : Buf) (s : State) : Host.Outcome State Fault Refusal :=
  .next (s.command h 0x25 ([wrap] ++ addrWords addr) (fun s c => s.outcome c (do
    let n ← refuse (s.named c 4 wrap)
    refuse (s.gated (s.actsFor c (objKey 4 n)) 0x25)
    let len := 104 + purposeLen ((buf.map (fun b => Bytes.at b 6)).getD 0)
    return s.withBuffer c addr len buf (fun s b => s.blobUnwrap c n b))))

end Sys2Proof.Machine
end

