-- ==== Sys2Proof/Machine/MemRows.lean ====
section
/-!
DEFINITION. What reaches the memory clusters: requests and the answers of their device links (spec/04_memory_protection.md,
spec/05_counter_tree_and_rekey.md). After each of them a re-key whose turn has come begins (R208), and drains go on (R282).
-/

namespace Sys2Proof.Machine

/-- Replicas of island `i` whose DRAINING entries have no request left say so (R282). -/
def State.drainsIdle (s : State) (i : Nat) : State :=
  (s.own.owes.filter (fun o => o.1 == i)).foldl (fun s o => s.drainIfIdle o.1 o.2) s

/-- Schedules that nothing uses any more leave cluster `c`; an invalidation that this acknowledges lets Tower go on (R113). -/
def State.acksAfter (s : State) (c : Nat) : State :=
  let t := s.reapSchedules c
  if t.invals.length = s.invals.length then t else t.settle.removals

/-- What follows every event at MCCk. -/
def State.mccAfter (s : State) (k : Nat) : State := ((s.drainsIdle (mccIx k)).acksAfter (mccIx k)).tryRekey

/-- What follows every event at PCCp. -/
def State.pccAfter (s : State) (p : Nat) : State := (s.drainsIdle (pccIx p)).acksAfter (pccIx p)

/-- MCCk takes a request. -/
def State.mccTake (s : State) (k : Nat) (q : MemReq) (kind : OpKind) : State := (s.mccRequest k q kind).mccAfter k

/-- PCCp takes a request. -/
def State.pccTake (s : State) (p : Nat) (q : MemReq) (kind : OpKind) : State := (s.pccRequest p q kind).pccAfter p

/-- MCC_WRITE_REQUEST (R193). -/
def execMccWriteRequest (k : Fin 8) (q : MemReq) (s : State) : Host.Outcome State Fault Refusal := 
  .next (s.atIngress (mccIx k.val) (.mccWriteRequest k q) (fun s => s.mccTake k.val q .wr))

/-- MCC_READ_REQUEST (R196). -/
def execMccReadRequest (k : Fin 8) (q : MemReq) (s : State) : Host.Outcome State Fault Refusal := 
  .next (s.atIngress (mccIx k.val) (.mccReadRequest k q) (fun s => s.mccTake k.val q .rd))

/-- MCC_ATOMIC_REQUEST (R197). -/
def execMccAtomicRequest (k : Fin 8) (q : MemReq) (s : State) : Host.Outcome State Fault Refusal := 
  .next (s.atIngress (mccIx k.val) (.mccAtomicRequest k q) (fun s => s.mccTake k.val q .at_))

/-- MP_DATA_ARRIVAL (R195, R202). -/
def execMpDataArrival (k : Fin 8) (id : Nat) (data : Bytes) (err : MemErr) (s : State) : Host.Outcome State Fault Refusal :=
  .next ((s.mpData k.val id data err).mccAfter k.val)

/-- TAG_LINE_ARRIVAL (R181, R202). -/
def execTagLineArrival (k : Fin 8) (t : Nat) (data : Bytes) (err : MemErr) (s : State) : Host.Outcome State Fault Refusal :=
  .next ((s.tagArrival k.val t data err).mccAfter k.val)

/-- READ_VERDICT (R107, R196). -/
def execReadVerdict (k : Fin 8) (id : Nat) (s : State) : Host.Outcome State Fault Refusal := .next ((s.mccVerdict k.val id).mccAfter k.val)

/-- MP_WRITE_ACCEPT (R36). -/
def execMpWriteAccept (k : Fin 8) (id : Nat) (s : State) : Host.Outcome State Fault Refusal := .next ((s.mpAccept k.val id).mccAfter k.val)

/-- TAG_FLUSH (R184). -/
def execTagFlush (k : Fin 8) (s : State) : Host.Outcome State Fault Refusal := .next (if s.regUp (mccIx k.val) then s.tagFlush k.val else s)

/-- PCC_READ_REQUEST (R232). -/
def execPccReadRequest (p : Fin 2) (q : MemReq) (s : State) : Host.Outcome State Fault Refusal := 
  .next (s.atIngress (pccIx p.val) (.pccReadRequest p q) (fun s => s.pccTake p.val q .rd))

/-- PCC_WRITE_REQUEST (R234). -/
def execPccWriteRequest (p : Fin 2) (q : MemReq) (s : State) : Host.Outcome State Fault Refusal := 
  .next (s.atIngress (pccIx p.val) (.pccWriteRequest p q) (fun s => s.pccTake p.val q .wr))

/-- PCC_ATOMIC_REQUEST (R238). -/
def execPccAtomicRequest (p : Fin 2) (q : MemReq) (s : State) : Host.Outcome State Fault Refusal := 
  .next (s.atIngress (pccIx p.val) (.pccAtomicRequest p q) (fun s => s.pccTake p.val q .at_))

/-- PP_DATA_ARRIVAL. -/
def execPpDataArrival (p : Fin 2) (id : Nat) (data : Bytes) (err : MemErr) (s : State) : Host.Outcome State Fault Refusal :=
  .next ((s.ppData p.val id data err).pccAfter p.val)

/-- METADATA_ARRIVAL (R228, R233): `off` is the byte offset from PCC_META_BASE. -/
def execMetadataArrival (p : Fin 2) (off : Nat) (data : Bytes) (err : MemErr) (s : State) : Host.Outcome State Fault Refusal :=
  .next ((s.metaArrival p.val (off / 64) data err).pccAfter p.val)

/-- PP_WRITE_ACCEPT. -/
def execPpWriteAccept (p : Fin 2) (id : Nat) (s : State) : Host.Outcome State Fault Refusal := .next ((s.ppAccept p.val id).pccAfter p.val)

end Sys2Proof.Machine
end

