-- ==== Sys2Proof/Machine/Release.lean ====
section
/-!
DEFINITION. Lane outputs that are compared before release, votes, and the key-schedule fills of the clusters
(spec/03_cipher_lanes.md R106 to R113, R139 to R142; spec/10_keys_and_dome.md R461, R464).
-/

namespace Sys2Proof.Machine

/-! ### Withheld outputs (R139, R141) -/

/-- What waits in FCCf for a key, a schedule or a lane tries again: requests, packets, REPLYs and ACKs. -/
def State.fccPump (s : State) (f : Nat) : State :=
  (s.entriesWhere f (fun x => x.state != 0)).foldl (fun s e =>
    let s := (s.sendWaiting f e).authWaiting f e
    if (s.entry f e).recv then (s.payReplies f e).ackIfDue f e else s) s

/-- Whatever waits in cluster `c` tries again: the lines of a memory cluster, the streams of an FCC, the traffic of HCC. -/
def State.clusterPump (s : State) (c : Nat) : State :=
  if c ≤ 10 then (s.mccPump (c - 3)).mccAfter (c - 3)
  else if c ≤ 12 then (s.pccPump (c - 11)).pccAfter (c - 11)
  else if c ≤ 28 then (s.fccPump (c - 13)).acksAfter c
  else s.hccRetry.acksAfter c

/-- The effect of an output that is released. -/
def State.releaseItem (s : State) (c : Nat) (k : ItemKind) : State :=
  let f := c - 13
  let p := c - 11
  match k with
  | .read id => if c ≤ 10 then s.onOp c id LineOp.readOut else s.pccReadOut p id
  | .write id => match s.op c id with
    | some o => if o.phase ≠ .cmpWrite then s else if c ≤ 10 then s.mccWriteOut (c - 3) o else s.pccWriteOut p o
    | none => s
  | .link outs => outs.foldl State.emit s
  | .tlp sid t body => s.tlpOpened sid t body
  | .seal e seq outs => s.sealOut f e seq outs
  | .ctrl pkt => s.packetAct f pkt
  | .packet e seq => s.packetOpened f e seq
  | .newtCopy x line pt => s.newtCopied (c - 3) x line pt
  | .newtWrite x line _ ct tag => s.newtStored (c - 3) line (s.region (s.nwt.moves.get x).region).tdid ct tag
  | .sendRead x line pt => s.sendVerdict (c - 3) x line pt
  | .init e line _ ct tag => s.initStored (c - 3) e line ct tag
  | .overflowRead op line pt => s.overflowGot p op line pt
  | .overflowWrite op line ct tag => s.overflowOut p op line ct tag
  | .node off ok => s.nodeChecked p off ok
  | .nodeOut off data word => s.nodeWritten p off data word

/-- A line of Newt's whose encryption is undecided stays as it is (R141): its NEWKEY bit is clear again, and Newt reads it
(DESIGN CHOICE, log entry 83). -/
def State.newtDropped (s : State) (x line : Nat) : State :=
  s.onMotion x (line / 8) (fun g => { g with newkey := g.newkey &&& ~~~lineBit line })

/-- The effect of an undecided vote (R141, R202): a read or write of a request completes with ERROR, and memory is left
unchanged; a packet is discarded. A line of Newt's or of an initialisation stays as it is and is done again (DESIGN CHOICE, log
entry 83). -/
def State.discardItem (s : State) (c : Nat) (k : ItemKind) : State :=
  let p := c - 11
  let fail (s : State) (id : Nat) : State := match s.op c id with
    | some o => (s.unmarkNewkey o).finishOp c o false []
    | none => s
  match k with
  | .read id => fail s id
  | .write id => fail s id
  | .tlp sid t _ => s.tlpDiscarded sid t
  | .packet e seq => s.packetFinished (c - 13) e seq false
  | .newtWrite x line _ _ _ => s.newtDropped x line
  | .sendRead x line _ => s.sendGot x line none
  | .overflowRead op line _ => s.onOverflow p op (fun v => v.known line none)
  | .overflowWrite op line _ _ => s.overflowLost p op line
  | .node off _ => s.nodeUndecided p off
  | .nodeOut off _ _ => s.onPcc p (fun m => { m with writing := m.writing.filter (· != off) })
  | .link _ => s
  | .seal _ _ _ => s
  | .ctrl _ => s
  | .newtCopy _ _ _ => s
  | .init _ _ _ _ _ => s

/-- Carry out a verdict on a withheld item, and what waited behind it. -/
def State.itemEnds (s : State) (c id : Nat) (v : Verdict) : State :=
  match s.item c id, v with
  | some x, .release => ((((s.dropItem c id).releaseItem c x.kind).lanesGone c).clusterPump c).settle.removals
  | some x, .discard => ((((s.dropItem c id).discardItem c x.kind).lanesGone c).clusterPump c).settle.removals
  | _, _ => s

/-- LANE_OUTPUT: the outputs of a withheld item have been compared. -/
def State.laneOutput (s : State) (c id : Nat) (equal : Bool) : State :=
  match s.compare c id equal with
  | (s, v) => s.itemEnds c id v

/-- LANE_OUTPUT. -/
def execLaneOutput (c : Cl) (id : Nat) (equal : Bool) (s : State) : Host.Outcome State Fault Refusal :=
  .next (s.laneOutput (c.val + 3) id equal)

/-- LANE_VOTE: the third result has arrived. -/
def State.laneVote (s : State) (c id : Nat) (third : Third) : State :=
  match s.vote c id third with
  | (s, v) => s.itemEnds c id v

/-- LANE_VOTE. -/
def execLaneVote (c : Cl) (id : Nat) (third : Third) (s : State) : Host.Outcome State Fault Refusal :=
  .next (s.laneVote (c.val + 3) id third)

/-! ### Lanes that come and go (R51, R137, R144) -/

/-- What follows a change of the lanes of cluster `c`: its clamp is released once they have passed (R697); without a lane left
Newt's moves halt (R51); with one, what waited goes on. -/
def State.lanesAfter (s : State) (c : Nat) : State := ((s.unclamp c).lanesGone c).clusterPump c

/-- LANE_KNOWN_ANSWER_TEST. -/
def execLaneKnownAnswerTest (c : Cl) (sock : Fin 16) (pass : Bool) (s : State) : Host.Outcome State Fault Refusal :=
  .next ((s.knownAnswer (c.val + 3) sock.val pass).lanesAfter (c.val + 3))

/-- SOCKET_SWITCH. -/
def execSocketSwitch (c : Cl) (s : State) : Host.Outcome State Fault Refusal :=
  .next ((s.socketSwitch (c.val + 3)).lanesAfter (c.val + 3))

/-! ### Schedule fills (R111 to R113, R450, R464) -/

/-- The operations of a memory cluster that wait for the schedule of a slot: at the lanes, for an overflow, or, for the tree's
key, for a counter line that is not verified. -/
def State.waitsFor (s : State) (c slot : Nat) (o : LineOp) : Bool :=
  let p := c - 11
  if c ≤ 10 then Entry.cls o.ent == 1 && (o.phase == .toDecrypt || o.phase == .toWrite) && s.opSlot o == slot
  else if slot = 1 + p then Entry.cls o.ent == 2 && o.phase == .fetch && ((s.pcc.get p).lineCounter o.line).isNone
  else Entry.cls o.ent == 2 && (o.phase == .toDecrypt || o.phase == .toWrite || o.phase == .overflow) && Entry.keySlot o.ent == slot

/-- Every operation that waits for the schedule of a slot ends in one way; overflows under the slot end with them. -/
def State.waitersEnd (s : State) (c slot : Nat) (go : State → LineOp → State) : State :=
  let s := ((s.mem.get c).ops.filter (s.waitsFor c slot)).foldl go s
  if c ≤ 10 then s else s.onPcc (c - 11) (fun m => { m with overflows := m.overflows.filter (fun v => v.slot != slot) })

/-- A fill is refused: every waiting operation fails closed with a report of class 7; Newt's moves under the slot halt. -/
def State.fillRefused (s : State) (c slot : Nat) : State :=
  let s := s.onCluster c (fun y => { y with awaiting := y.awaiting.erase slot })
  if c = hccIx then (s.report 7 c 0).hccFail slot
  else
    let s := s.waitersEnd c slot (fun s o => s.failOp c o 7)
    let s := if c ≤ 10 then s.movesHaltIf (fun m => m.oldSlot.toNat == slot || m.newSlot.toNat == slot) else s
    s.clusterPump c

/-- SCHEDULE_FILL: the answer to a fill that is awaited; one that Tower does not serve is refused. -/
def State.scheduleFill (s : State) (c slot : Nat) : State :=
  if !s.live c ∨ !(s.clusters.get c).awaiting.contains slot ∨ s.invals.contains (c, slot) then s
  else if s.fillOk c slot then (s.installSchedule c slot).clusterPump c
  else s.fillRefused c slot

/-- SCHEDULE_FILL. -/
def execScheduleFill (c : Cl) (slot : Nat) (s : State) : Host.Outcome State Fault Refusal := .next (s.scheduleFill (c.val + 3) slot)

/-- SCHEDULE_FILL_REFUSED (R464): Tower refuses a fill that is awaited, for a slot that is not usable. -/
def execScheduleFillRefused (c : Cl) (slot : Nat) (s : State) : Host.Outcome State Fault Refusal :=
  .next (if (s.clusters.get (c.val + 3)).awaiting.contains slot ∧ !s.fillOk (c.val + 3) slot then s.fillRefused (c.val + 3) slot else s)

/-- SCHEDULE_INVALIDATE: an invalidation on its way reaches its cluster. -/
def State.scheduleInvalidate (s : State) (c slot : Nat) : State :=
  if s.invals.contains (c, slot) then (s.invalidateSchedule c slot).clusterPump c else s

/-- SCHEDULE_INVALIDATE. -/
def execScheduleInvalidate (c : Cl) (slot : Nat) (s : State) : Host.Outcome State Fault Refusal :=
  .next (s.scheduleInvalidate (c.val + 3) slot).settle.removals

end Sys2Proof.Machine
end

