-- ==== Sys2Proof/Machine/Regs.lean ====
section
/-!
DEFINITION. The CSR window (spec/19_register_map.md): which registers there are, what each reads, which fields take writes and
in which range, the latches of wide values, and the rows that read and write registers. The field maps are those of the
chapters that define the registers.
-/

namespace Sys2Proof.Machine

/-! ### Writable fields (R20, R751) -/

/-- A writable field: its bits and its smallest and largest value. -/
structure RegField where
  hi : Nat
  lo : Nat
  min : Nat
  max : Nat

/-- A field that takes every value. -/
def anyField (hi lo : Nat) : RegField := ⟨hi, lo, 0, 2 ^ (hi + 1 - lo) - 1⟩

/-- The RWL fields of a register (R755); none for a register that has none. -/
def rwlFields (i off : Nat) : List RegField :=
  if i = 1 then
    match off with
    | 0x2010 => [anyField 31 22] | 0x2014 => [anyField 19 0] | _ => []
  else if i = 2 then
    match off with
    | 0x5410 => [⟨19, 16, 1, 15⟩, anyField 15 0]
    | 0x5700 => [⟨31, 24, 1, 255⟩, ⟨23, 16, 1, 255⟩, ⟨15, 8, 1, 255⟩, ⟨7, 0, 1, 255⟩]
    | _ => []
  else if 3 ≤ i ∧ i ≤ 10 then
    match off with
    | 0x5000 => [anyField 31 12] | 0x5004 => [anyField 19 0] | 0x5008 => [anyField 18 16, anyField 9 8, ⟨4, 0, 6, 30⟩]
    | 0x500C => [anyField 31 12] | 0x5010 => [anyField 15 0] | 0x5014 => [anyField 31 0] | _ => []
  else if 11 ≤ i ∧ i ≤ 12 then
    match off with
    | 0x5000 => [anyField 31 12] | 0x5004 => [anyField 19 0] | 0x5008 => [anyField 31 12] | 0x500C => [anyField 15 0]
    | 0x5010 => [⟨7, 0, 0, 128⟩] | _ => []
  else if 13 ≤ i ∧ i ≤ 28 then
    match off with
    | 0x5000 => [anyField 31 31, anyField 15 0] | 0x5008 => [⟨31, 24, 1, 127⟩, anyField 23 12, anyField 11 0] | _ => []
  else []

/-- Offsets of an island's RWL registers, ascending (R756). -/
def rwlOffsets (i : Nat) : List Nat :=
  [0x2010, 0x2014, 0x5000, 0x5004, 0x5008, 0x500C, 0x5010, 0x5014, 0x5410, 0x5700].filter (fun o => !(rwlFields i o).isEmpty)

/-- Element `n` of an array of registers at `base`, `stride` apart, if `off` is one of `count`. -/
def elem (off base stride count : Nat) : Option Nat :=
  if base ≤ off ∧ (off - base) % stride = 0 ∧ (off - base) / stride < count then some ((off - base) / stride) else none

/-- Mailbox number and offset in its page (R586). -/
def mbxPage (off : Nat) : Option (Nat × Nat) :=
  if 0x60000 ≤ off ∧ off < 0x100000 then some ((off - 0x60000) / 0x1000, off % 0x1000) else none

/-- The RW fields of a register whose write does nothing beyond setting them. -/
def rwFields (i off : Nat) : List RegField :=
  if i = 0 then (if off = 0x10 then [anyField 7 4, anyField 3 0] else [])
  else if i = 1 then
    match off with
    | 0x6400 => [anyField 31 12] | 0x6404 => [anyField 31 0] | 0x6408 => [⟨8, 0, 0, 256⟩] | 0x640C => [anyField 31 12]
    | 0x6410 => [anyField 31 0]
    | _ => match mbxPage off with
      | some (_, 0x10) => [anyField 9 8, anyField 4 0]
      | _ => []
  else if i = 2 then
    (if off = 0x5A00 then [⟨15, 0, 0, 1000⟩] else if (elem off 0x5500 4 16).isSome then [anyField 31 0] else [])
  else if 3 ≤ i ∧ i ≤ 10 then
    (if off = 0x6000 then [anyField 4 0] else if (elem off 0x6104 8 64).isSome then [anyField 31 0] else [])
  else if 13 ≤ i ∧ i ≤ 28 then (if off = 0x5004 then [⟨31, 24, 1, 255⟩, anyField 23 16, ⟨15, 0, 1, 65535⟩] else [])
  else if 30 ≤ i ∧ i ≤ 41 then (if off = 0x5008 then [anyField 31 16, ⟨15, 0, 1, 65535⟩] else [])
  else if i = 44 then
    match off with
    | 0x5010 => [anyField 31 30, ⟨23, 20, 0, 8⟩, anyField 19 0] | 0x5014 => [anyField 31 16] | 0x5018 => [anyField 31 0]
    | 0x5028 => [anyField 31 12] | 0x502C => [anyField 31 0] | _ => []
  else if i = 45 then
    match off with
    | 0x5000 => [anyField 15 0] | 0x5004 => [anyField 31 0] | _ => []
  else []

/-- The W1C bits of a register, apart from those whose clearing is a row of its own. -/
def w1cMask (i off : Nat) : Nat :=
  if i = 1 then
    (if off = 0x3004 then 2 else match mbxPage off with
      | some (n, 0xC) => if n < 160 then 0xE0000000 else 0
      | _ => 0)
  else if i = 2 then (if off = 0x5004 ∨ off = 0x5704 then 0x80000000 else if off = 0x5008 then 0xFFFF else 0)
  else if i = 44 then (if off = 0x5024 then 0xD0000000 else 0)
  else 0

/-- Registers that answer writes only from Tower's port (R747). -/
def towerOnly (i off : Nat) : Bool :=
  (i == 0 && (off == 0x10 || off == 0x14)) || (i == 1 && (off == 0x3000 || off == 0x3004)) || (i == 2 && off == 0x5408)

/-- The fields of a word that are in range, written over the old word; the others keep their value (R751). -/
def writeFields (fs : List RegField) (old v : Word32) : Word32 :=
  fs.foldl (fun w f =>
    let x := fld v f.hi f.lo
    if f.min ≤ x ∧ x ≤ f.max then setFld w f.hi f.lo x else w) old

/-- Rules for the fields of a register together: REPLY_HOLD × 32 µs is at least LIFETIME + RETRY_SPAN (R335). -/
def comboOk (i off : Nat) (v : Word32) : Bool :=
  if 13 ≤ i ∧ i ≤ 28 ∧ off = 0x5008 then decide (fld v 11 0 + fld v 23 12 ≤ 32 * fld v 31 24) else true

/-! ### What registers read -/

/-- A word from its fields: values at bit positions. -/
def pack (l : List (Nat × Nat)) : Nat := (l.map (fun x => x.2 * 2 ^ x.1)).sum

/-- Word `n` of a string of bytes. -/
def wordAt (b : Bytes) (n : Nat) : Nat := Bytes.le b (4 * n) 4

/-- KIND and INSTANCE of an island (R764). -/
def islandKind (i : Nat) : Nat × Nat :=
  if i < 3 then (i, 0) else if i < 11 then (3, i - 3) else if i < 13 then (4, i - 11) else if i < 29 then (5, i - 13)
  else if i = 29 then (6, 0) else if i < 42 then (7, i - 30) else (i - 34, 0)

/-- The common island block (R764, R765). -/
def State.commonReg (s : State) (i off : Nat) : Nat :=
  let r := s.isl.get i
  let swap := match r.swap with
    | .run => 0 | .draining => 1 | .prepared => 2
  match off with
  | 0xF00 => pack [(24, 0xA0), (16, (islandKind i).1), (8, (islandKind i).2), (0, i)]
  | 0xF04 =>
    if i = 0 then pack [(29, b2n ((List.range 46).any (fun j => (s.isl.get j).locked))), (28, 1)]
    else pack [(30, swap), (29, b2n r.locked), (28, b2n (r.loaded && s.pwr.committed)),
      (0, ((List.range 14).map (fun k => if r.active.any (fun x => x.id == k + 1) then 2 ^ (k + 1) else 0)).sum)]
  | 0xF08 => if i = 0 then 0 else r.generation.toNat
  | 0xF0C => pack [(16, r.parity.toNat), (0, r.corrected.toNat)]
  | _ => 0

/-- Registers of DOM. -/
def State.domReg (s : State) (off : Nat) : Nat :=
  let d := s.dom
  match off with
  | 0x0 => pack [(5, b2n d.noiseFail), (4, b2n d.vbatLow), (2, b2n d.rootFresh), (0, d.rootState.toNat)]
  | 0x10 => pack [(31, b2n d.tamperLock), (4, d.polarity.toNat), (0, d.enable.toNat)]
  | 0x14 => pack [(31, b2n d.latched), (16, d.zeroCount.toNat), (4, d.cause.toNat), (0, d.inputs.toNat)]
  | 0x20 => s.lc.statusWord.toNat
  | 0x24 => s.lc.otp.toNat
  | 0x400 => d.streamFloor.toNat
  | 0x404 => d.bootCount.toNat
  | 0x408 => d.rootGen.toNat
  | 0x410 => d.keyGen.toNat % 2 ^ 32
  | 0x414 => d.keyGen.toNat / 2 ^ 32
  | _ =>
    match elem off 0x420 4 4, elem off 0x500 4 12 with
    | some n, _ => wordAt d.rootId n
    | _, some n => wordAt (toLe 48 s.lc.digest.toNat) n
    | _, _ => 0

/-- STATE of a partition as TWR_PART gives it. -/
def PartState.code : PartState → Nat
  | .none => 0 | .active => 1 | .quiescing => 2 | .quiesced => 3 | .frozen => 4 | .removing => 5

/-- TWR_PARTn. -/
def State.partReg (s : State) (n : Nat) : Nat :=
  let p := s.part n
  if n = 0 then 0
  else pack [(29, p.state.code), (28, b2n p.openDomain), (13, (maskTdids p.tdids.toNat).length), (0, s.objCount 3 n)]

/-- Capacity of a divisible resource (R536). -/
def resourceCapacity (r : Nat) : Nat :=
  ([127, 4064, 8176, 8176, 128, 3072, 32768, 16384, 4096, 64, 1024, 125952, 64, 64][r - 1]?).getD 0

/-- TWR_CAPn (R575). -/
def State.capReg (s : State) (n : Nat) : Nat :=
  let parts := s.prt.parts.countWhere (fun _ p => p.state != .none)
  match n with
  | 0 => 0x01A0
  | 1 => pack [(16, b2n (s.prt.parts.countWhere (fun _ p => p.state != .none && p.openDomain) != 0)), (8, 127), (0, parts)]
  | 60 => ((List.range 32).map (fun k => if (s.format 43 k).isSome then 2 ^ k else 0)).sum
  | 61 => ((List.range 16).map (fun k => if (s.tolerance k 1).isSome then 2 ^ k else 0)).sum
  | 62 => pack [(0, 1), (1, 1), (2, b2n (s.pcc.cells.any (fun c => c.2.subtrees != 0))),
      (3, b2n (s.fcc.cells.any (fun c => c.2.node.getLsbD 31))), (4, 1)]
  | _ =>
    if 4 ≤ n ∧ n < 60 then
      let r := n / 4
      match n % 4 with
      | 0 => resourceCapacity r
      | 1 => (s.pool r).1
      | 2 => (s.pool r).2
      | _ => (s.pool r).1 - s.allotted r
    else 0

/-- TWR_SLOT_SUMMARY. -/
def State.slotSummary (s : State) : Nat :=
  let n (k : Nat) : Nat := s.slots.countWhere (fun _ x => x.state == k)
  pack [(17, n 1), (4, n 3), (0, min (n 2) 15)]

/-- TWR_STREAM_STATUS (R72). -/
def Stream.statusWord (x : Stream) : Nat :=
  pack [(24, x.island.toNat), (16, x.section_.toNat), (8, x.reason.toNat), (0, x.state.toNat)]

/-- TWR_FW_STATUS. -/
def Firmware.statusWord (f : Firmware) : Nat :=
  pack [(31, b2n f.recovery), (30, b2n f.running), (29, b2n f.sleep), (28, b2n f.sealed), (0, f.lastStep.toNat)]

/-- TWR_SPDM_STATUS. -/
def State.spdmStatus (s : State) : Nat :=
  pack [(16, s.att.sess.countWhere (fun _ k => k.open_)), (8, s.att.conns.countWhere (fun _ c => c != default)),
    (0, b2n s.att.dice.aliasDebug)]

/-- TWR_CPE_STATUS. -/
def Cpe.statusWord (c : Cpe) : Nat := pack [(8, c.error.toNat), (1, b2n c.done), (0, b2n c.busy)]

/-- TWR_MBX_STATUSn. -/
def Mbx.statusWord (m : Mbx) : Nat :=
  pack [(31, b2n m.towerReset), (30, b2n m.collTx), (29, b2n m.collRx), (28, b2n m.queueMode), (24, m.tx.length), (20, m.rx.length),
    (8, ((m.rx.head?).elim m.rxSeq MbxWord.seq).toNat), (0, m.txSeq.toNat)]

/-- A register of mailbox `n` at an offset in its page. -/
def State.mbxReg (s : State) (n o : Nat) : Nat :=
  let m := s.mbx.get n
  match o with
  | 0x4 => ((m.rx.head?).getD {}).word.toNat
  | 0xC => m.statusWord
  | 0x10 => pack [(9, b2n m.emptyIrq), (8, b2n m.rxIrq), (0, m.vector.toNat)]
  | _ => 0

/-- Ports whose bit `f` holds, as a number with bit `p` for port `p` (R668). -/
def portBits (f : Nat → Bool) : Nat := ((List.range 39).map (fun p => if f p then 2 ^ p else 0)).sum

/-- PRESENT of the 39 ports (R692). -/
def State.presentPorts (s : State) : Nat :=
  portBits (fun p => (List.range 46).any (fun i => portOf i == some p && s.present i))

/-- A Set Table entry (R459). -/
def SetEntry.bytes (x : SetEntry) : Bytes :=
  Bytes.fit x.setId 16 ++ Bytes.fit x.digest 48 ++ toLe 2 x.slot.toNat ++ toLe 1 x.part.toNat ++ toLe 1 (b2n x.inUse) ++ zeros 12

/-- Registers of TWR. -/
def State.twrReg (s : State) (tower : Bool) (off : Nat) : Nat :=
  match off with
  | 0x2000 => s.str.statusWord
  | 0x2004 => s.str.detail.toNat
  | 0x2008 => ((s.str.active.map (fun x : StreamSet => x.generation)).getD 0).toNat
  | 0x200C => ((s.str.shadow.map (fun x : StreamSet => x.generation)).getD 0).toNat
  | 0x2010 => s.str.base.toNat % 2 ^ 32
  | 0x2014 => s.str.base.toNat / 2 ^ 32
  | 0x3004 => if tower then s.cpe.statusWord else 0
  | 0x6000 => s.slotSummary
  | 0x6200 => s.spdmStatus
  | 0x6204 => pack [(22, s.att.queue.length), (0, s.att.signed.toNat)]
  | 0x6300 => s.fw.statusWord
  | 0x6400 => s.cap.base.toNat % 2 ^ 32
  | 0x6404 => s.cap.base.toNat / 2 ^ 32
  | 0x6408 => pack [(24, s.cap.count.toNat), (16, s.cap.next.toNat), (0, s.cap.slotPages.toNat)]
  | 0x640C => s.cap.noticeBase.toNat % 2 ^ 32
  | 0x6410 => s.cap.noticeBase.toNat / 2 ^ 32
  | 0x6414 => s.cap.noticeNo.toNat
  | 0x6500 => s.pwr.clampStatic.toNat % 2 ^ 32
  | 0x6504 => s.pwr.clampStatic.toNat / 2 ^ 32
  | 0x6508 => s.presentPorts % 2 ^ 32
  | 0x650C => s.presentPorts / 2 ^ 32
  | 0x8200 => pack [(16, min s.prt.refs.length 0xFFFF), (1, s.prt.objs.countWhere (fun k o => decide (k / 2 ^ 20 = 6) && o.used)),
      (0, b2n s.prt.fenceLost)]
  | _ =>
    match mbxPage off with
    | some (n, o) => s.mbxReg n o
    | none =>
      if 0x40000 ≤ off then fld (s.slots.get ((off - 0x40000) / 32)).attr (8 * (off % 32) + 31) (8 * (off % 32))
      else if 0x30000 ≤ off ∧ off < 0x32000 then wordAt (s.sets.get ((off - 0x30000) / 128)).bytes (off % 128 / 4)
      else match elem off 0x6100 4 8, elem off 0x7000 4 64, elem off 0x8000 4 128 with
        | some n, _, _ => wordAt (s.lc.challenge.getD []) n
        | _, some n, _ => s.capReg n
        | _, _, some n => s.partReg n
        | _, _, _ => 0

/-- SPR_ESC_CLASSn. -/
def State.escClassReg (s : State) (c : Nat) : Nat :=
  let e := s.spr.esc.classes.get c
  pack [(16, e.count.toNat), (3, b2n (s.classPending c)), (0, e.level.toNat)]

/-- Word `w` of ownership detail record `n`: SPR_OWNF_ID, _SRC, _GRAN_LO, _GRAN_HI. -/
def State.ownfReg (s : State) (n w : Nat) : Nat :=
  let r := s.spr.esc.ownf.get n
  match w with
  | 0 => pack [(31, b2n r.valid), (27, r.kind.toNat), (20, r.tdid.toNat), (0, r.entry.toNat)]
  | 1 => pack [(16, r.count.toNat), (12, r.site.toNat), (0, r.clusters.toNat)]
  | 2 => r.gran.toNat % 2 ^ 32
  | _ => r.gran.toNat / 2 ^ 32

/-- Clusters that wait for a grant (R740). -/
def State.rampWaiting (s : State) : List Nat :=
  ((List.range 27).map (· + 3)).filter (fun c => let x := s.clusters.get c; decide (x.cap < x.demand))

/-- Islands whose bit `f` holds. -/
def islandBits (f : Nat → Bool) : Nat := ((List.range 46).map (fun i => if f i then 2 ^ i else 0)).sum

/-- SPR_GOV_STATUS. -/
def Governor.statusWord (g : Governor) : Nat := pack [(7, b2n g.insufficient), (6, b2n g.above), (0, g.stages.toNat)]

/-- SPR_EVENT_STATUS. -/
def Spr.eventStatus (p : Spr) : Nat := pack [(31, b2n p.lost), (16, p.dropped.toNat), (0, p.queue.length)]

/-- Registers of SPR. -/
def State.sprReg (s : State) (off : Nat) : Nat :=
  let p := s.spr
  let pwr := islandBits s.powered
  let rst := islandBits (fun i => (s.isl.get i).inReset || s.clamped i || !s.powered i)
  match off with
  | 0x1000 => p.commitCount.toNat
  | 0x3100 => p.esc.ownfLost.toNat
  | 0x5004 => p.eventStatus
  | 0x5008 => p.fsmIrq.toNat
  | 0x5010 => ((List.range 24).map (fun c => if s.classPending c then 2 ^ c else 0)).sum
  | 0x5400 => p.time.counter.toNat % 2 ^ 32
  | 0x5404 => p.time.counter.toNat / 2 ^ 32
  | 0x540C => pack [(31, b2n p.time.locked), (30, b2n p.time.seedPending), (29, b2n p.time.seedRejected), (20, p.time.run.toNat),
      (0, p.time.lastError.toNat)]
  | 0x5410 => p.time.ctrl.toNat
  | 0x5600 => p.gov.statusWord
  | 0x5604 => p.gov.power.toNat
  | 0x5608 => p.gov.credit
  | 0x560C => p.gov.peakUs
  | 0x5700 => p.esc.hangCtrl.toNat
  | 0x5704 => pack [(31, b2n p.esc.logWrapped), (0, p.esc.logNext.toNat)]
  | 0x5A00 => s.pwr.holdUs.toNat
  | 0x5A04 => pack [(16, (s.clusters.cells.map (fun c => c.2.cap.toNat)).sum), (0, s.rampWaiting.length)]
  | 0x5A10 => pwr % 2 ^ 32
  | 0x5A14 => pwr / 2 ^ 32
  | 0x5A18 => rst % 2 ^ 32
  | 0x5A1C => rst / 2 ^ 32
  | _ =>
    if 0x3000 ≤ off ∧ off < 0x3100 then s.ownfReg ((off - 0x3000) / 16) (off % 16 / 4)
    else match elem off 0x5100 4 24, elem off 0x5200 4 64, elem off 0x5500 4 16, elem off 0x5800 4 128, elem off 0x5B00 4 30, elem off 0x5C00 4 128 with
      | some n, _, _, _, _, _ => s.escClassReg n
      | _, some n, _, _, _, _ =>
        pack [(7, b2n (s.fsmTables.1.any (fun t => Bytes.at t 0 == n))), (0, (p.fsm.get n).state.toNat)]
      | _, _, some n, _, _, _ =>
        let x := p.time.sched.get (n / 2)
        if n % 2 = 0 then x.lo.toNat else pack [(31, b2n x.armed), (0, x.hi.toNat)]
      | _, _, _, some n, _, _ =>
        let x := p.esc.log.get (n / 2)
        if n % 2 = 0 then x.lo.toNat else x.hi.toNat
      | _, _, _, _, some n, _ => if n < 3 then 0 else pack [(8, (s.clusters.get n).demand.toNat), (0, (s.clusters.get n).cap.toNat)]
      | _, _, _, _, _, some n =>
        let f := p.fsm.get (n / 2)
        if n % 2 = 0 then pack [(16, f.c1.toNat), (0, f.c0.toNat)] else pack [(16, f.c3.toNat), (0, f.c2.toNat)]
      | _, _, _, _, _, _ => 0

/-- X_SOCKET_STATUSn (R149). -/
def State.socketReg (s : State) (c n : Nat) : Nat :=
  if n < socketCount c then
    let x := s.socket c n
    pack [(24, x.mismatches.toNat), (16, x.ageing.toNat), (8, if x.activity = 1 then x.target.toNat else 0), (6, x.activity.toNat),
      (4, x.role.toNat), (0, x.lane.toNat)]
  else 0

/-- MCC_BELFRY_STATUS (R365, R372, R392): the unit is powered while a signature has an open partial or a home entry in it; the
scale buffer takes 5,120 entries. -/
def State.belfryStatus (s : State) (k : Nat) : Nat :=
  let used := (s.bel.sigs.cells.map (fun c => c.2.entriesIn k)).sum
  pack [(31, b2n (s.spr.gov.stages.getLsbD 2)), (30, b2n (used != 0)), (29, b2n s.scalesUsed),
    (0, used + if s.scalesUsed then 5120 else 0)]

/-- Registers of MCCk at island `i`. -/
def State.mccReg (s : State) (i off : Nat) : Nat :=
  let k := i - 3
  let m := s.mcc.get k
  match off with
  | 0x5000 => m.hbmBase.toNat % 2 ^ 32
  | 0x5004 => m.hbmBase.toNat / 2 ^ 32
  | 0x5008 => m.ilv.toNat
  | 0x500C => m.tagBase.toNat % 2 ^ 32
  | 0x5010 => m.tagBase.toNat / 2 ^ 32
  | 0x5014 => m.tagLines.toNat
  | 0x501C => pack [(31, b2n m.badBase), (16, m.tags.countWhere (fun _ l => l.dirty != 0)), (0, b2n (m.flushLeft != 0))]
  | 0x5100 => s.belfryStatus k
  | 0x6000 => m.geckoCtrl.toNat
  | _ =>
    match elem off 0x6100 4 128, elem off 0x7000 4 1024 with
    | some n, _ => if n % 2 = 0 then (m.geckoWin.get (n / 2)).toNat else (m.geckoBase.get (n / 2)).toNat
    | _, some n => (m.geckoCnt.get n).toNat
    | _, _ => 0

/-- PCC_TREE_STATUS of PCCp. -/
def State.treeStatus (s : State) (p : Nat) : Nat :=
  let m := s.pcc.get p
  pack [(24, m.root.countWhere (fun _ e => e.state == 2)), (16, m.root.countWhere (fun _ e => e.state == 1)),
    (0, (m.root.cells.map (fun c => c.2.fences.length)).sum)]

/-- Registers of PCCp at island `i`. -/
def State.pccReg (s : State) (i off : Nat) : Nat :=
  let m := s.pcc.get (i - 11)
  match off with
  | 0x5000 => m.poolBase.toNat % 2 ^ 32
  | 0x5004 => m.poolBase.toNat / 2 ^ 32
  | 0x5008 => m.metaBase.toNat % 2 ^ 32
  | 0x500C => m.metaBase.toNat / 2 ^ 32
  | 0x5010 => m.subtrees.toNat
  | 0x5014 => s.treeStatus (i - 11)
  | _ => 0

/-- The status word of a pair-key cache entry (R299). -/
def FccEntry.statusWord (x : FccEntry) : Nat :=
  pack [(34, b2n x.keyValid), (32, x.state.toNat), (24, x.epoch.toNat), (23, b2n x.recv), (16, x.tdid.toNat), (0, x.peer.toNat)] +
    (if x.recv then pack [(84, x.ctrlSeq.toNat), (36, x.expected.toNat)]
     else pack [(104, b2n x.errPending), (94, ((x.armed.map (·.point)).getD 0) % 1024), (93, b2n x.armed.isSome), (84, x.unacked % 512),
       (36, x.nextSeq.toNat)])

/-- Registers of FCCf at island `i`. -/
def State.fccReg (s : State) (i off : Nat) : Nat :=
  let f := i - 13
  let x := s.fcc.get f
  match off with
  | 0x5000 => x.node.toNat
  | 0x5004 => x.timers.toNat
  | 0x5008 => x.span.toNat
  | 0x500C => x.reply.countWhere (fun _ r => r.valid)
  | _ =>
    if 0x20000 ≤ off ∧ off < 0x28000 then (s.entry f ((off - 0x20000) / 16)).statusWord / 2 ^ (32 * (off % 16 / 4)) % 2 ^ 32 else 0

/-- The TDI that is bound to a stream: its partition. -/
def State.boundTdi (s : State) (sid : BitVec 8) : Option Nat :=
  ((s.hcc.tdis.cells.find? (fun c => c.2.stream == some sid))).map Prod.fst

/-- HCC_IDE_STATUSn. -/
def State.ideStatus (s : State) (n : Nat) : Nat :=
  let x := s.hcc.ctxs.get n
  if !x.valid then 0
  else
    let (t, st) := match s.boundTdi x.stream with
      | some p => (s.boundTdid p, (s.tdi p).state.toNat)
      | none => (0, 0)
    pack [(31, 1), (26, x.state.toNat), (16, x.stream.toNat), (8, t), (3, b2n x.ksetRx), (2, b2n x.ksetTx), (0, st)]

/-- Registers of cluster island `i`. -/
def State.clusterReg (s : State) (i off : Nat) : Nat :=
  match elem off 0x4000 4 16 with
  | some n => s.socketReg i n
  | none =>
    if i ≤ 12 ∧ 0x20000 ≤ off ∧ off < 0x40000 then
      fld (s.own.rep.get (8192 * (i - 3) + (off - 0x20000) / 16)) (8 * (off % 16) + 31) (8 * (off % 16))
    else if i ≤ 10 then s.mccReg i off
    else if i ≤ 12 then s.pccReg i off
    else if i ≤ 28 then s.fccReg i off
    else match elem off 0x5000 4 64 with
      | some n => s.ideStatus n
      | none => 0

/-- Registers of SGUk at island `i`; the occupant reads zero unless ADMITTED. -/
def State.sguReg (s : State) (i off : Nat) : Nat :=
  let k := i - 30
  let x := s.sgu.get k
  let st := s.siteState k
  match off with
  | 0x5000 => pack [(8, x.admitSeq.toNat), (0, st)]
  | 0x5004 => x.admitStatus.toNat
  | 0x5008 => x.ctrl.toNat
  | _ =>
    if 0x8000 ≤ off ∧ off < 0x8800 then (s.sct.get (256 * k + (off - 0x8000) / 8)).toNat / 2 ^ (8 * (off % 8)) % 2 ^ 32
    else if st ≠ 2 then 0
    else match elem off 0x5100 4 12, elem off 0x5140 4 12 with
      | some n, _ => wordAt x.occupant n
      | _, some n => wordAt x.meas n
      | _, _ => 0

/-- NWT_MOVE_STATUSn. -/
def Move.statusWord (m : Move) : Nat := pack [(30, m.state.toNat), (12, m.newSlot.toNat), (0, m.oldSlot.toNat)]

/-- Registers of NWT. -/
def State.nwtReg (s : State) (off : Nat) : Nat :=
  match elem off 0x5000 4 16 with
  | none => 0
  | some n =>
    let m := s.nwt.moves.get (n / 4)
    match n % 4 with
    | 0 => m.statusWord
    | 1 => m.bound / 512 * 512 % 2 ^ 32
    | 2 => m.bound / 2 ^ 32 % 2 ^ 20
    | _ => (s.nwt.motion.filter (fun g => g.ctx == n / 4)).length

/-- BFC_STATUS. -/
def State.bfcStatus (s : State) : Nat :=
  pack [(21, s.bel.checks.countWhere (fun _ c => c.used)), (8, s.bel.sigs.countWhere (fun _ g => g.state != .free)),
    (7, b2n s.bel.running.isSome), (0, s.bel.sigs.countWhere (fun _ g => g.state == .opened))]

/-- Registers of BFC. -/
def State.bfcReg (s : State) (off : Nat) : Nat :=
  let open_ := ((s.bel.sigs.cells.filter (fun c => c.2.state == .opened)).map (fun c => 2 ^ c.2.index)).sum
  match off with
  | 0x5000 => s.bfcStatus
  | 0x5004 => open_ % 2 ^ 32
  | 0x5008 => open_ / 2 ^ 32
  | _ => 0

/-- STATE of OBS_TRACE_STATUS. -/
def TraceState.code : TraceState → Nat
  | .recording => 0 | .stopped => 1 | .post => 2 | .frozen => 3 | .lent => 4

/-- Registers of OBS; counters and bins come from the frozen bank while FROZEN is set (R652). -/
def State.obsReg (s : State) (off : Nat) : Nat :=
  let o := s.obs
  let half (v : BitVec 48) (n : Nat) : Nat := if n % 2 = 0 then v.toNat % 2 ^ 32 else v.toNat / 2 ^ 32
  match off with
  | 0x5004 => pack [(31, b2n o.frozen), (30, b2n (!o.markers.isEmpty)), (27, o.source.toNat), (26, b2n o.timeLocked)]
  | 0x5008 => o.time.toNat % 2 ^ 32
  | 0x500C => o.time.toNat / 2 ^ 32
  | 0x5010 => o.snapCtrl.toNat
  | 0x5014 => o.snapBase.toNat % 2 ^ 32
  | 0x5018 => o.snapBase.toNat / 2 ^ 32
  | 0x501C => pack [(31, b2n o.snapBusy), (30, b2n o.noChannel), (0, o.seq.toNat % 2 ^ 24)]
  | 0x5024 => pack [(31, b2n o.dropped), (30, b2n o.overwritten), (29, b2n o.draining), (28, b2n o.drained), (27, b2n o.traceNoChannel),
      (16, o.trace.code), (0, o.records.length)]
  | 0x5028 => o.traceBase.toNat % 2 ^ 32
  | 0x502C => o.traceBase.toNat / 2 ^ 32
  | _ =>
    match elem off 0x6000 4 64, elem off 0x10000 4 8192 with
    | some n, _ => half ((if o.frozen then o.frozHist else o.liveHist).get (n / 2)) n
    | _, some n => half ((if o.frozen then o.froz else o.live).get (n / 2)) n
    | _, _ => 0

/-- Registers of FTU. -/
def State.ftuReg (s : State) (off : Nat) : Nat :=
  let f := s.ftu
  match off with
  | 0x5000 => pack [(8, f.unit.toNat), (2, f.island.toNat), (0, f.kind.toNat)]
  | 0x5004 => f.pattern.toNat
  | 0x5008 => pack [(28, f.result.toNat), (8, f.reason.toNat)]
  | 0x500C => f.beatsDone.toNat
  | 0x5010 => f.firstFail.toNat
  | 0x5014 => f.failCount.toNat
  | _ => 0

/-- What a register of a running island reads, latches apart. -/
def State.regValue (s : State) (tower : Bool) (i off : Nat) : Word32 :=
  BitVec.ofNat 32
    (if 0xF00 ≤ off ∧ off < 0xF10 then s.commonReg i off
     else if i = 0 then s.domReg off
     else if i = 1 then s.twrReg tower off
     else if i = 2 then s.sprReg off
     else if i ≤ 29 then s.clusterReg i off
     else if i ≤ 41 then s.sguReg i off
     else match i with
      | 42 => s.nwtReg off
      | 43 => s.bfcReg off
      | 44 => s.obsReg off
      | _ => s.ftuReg off)

/-! ### Wide values (R753, R754) -/

/-- The _HI register of a _LO register. -/
def hiOf (i off : Nat) : Option Nat :=
  let one (l : List Nat) : Option Nat := if l.contains off then some (off + 4) else none
  let arr (base stride count : Nat) : Option Nat := (elem off base stride count).map (fun _ => off + 4)
  if i = 0 then one [0x410]
  else if i = 1 then one [0x2010, 0x6400, 0x640C, 0x6500, 0x6508]
  else if i = 2 then
    (one [0x5400, 0x5A10, 0x5A18]).or ((arr 0x3008 16 16).or ((arr 0x5500 8 8).or ((arr 0x5800 8 64).or (arr 0x5C00 8 64))))
  else if i ≤ 10 then one [0x5000, 0x500C]
  else if i ≤ 12 then one [0x5000, 0x5008]
  else if i = 42 then arr 0x5004 16 4
  else if i = 43 then one [0x5004]
  else if i = 44 then (one [0x5008, 0x5014, 0x5028]).or ((arr 0x6000 8 32).or (arr 0x10000 8 4096))
  else none

/-- The wide entry that an offset lies in: its lowest offset and how many words it has. -/
def entryOf (i off : Nat) : Option (Nat × Nat) :=
  let arr (base stride count words : Nat) : Option (Nat × Nat) :=
    if base ≤ off ∧ off < base + stride * count ∧ (off - base) % stride < 4 * words then some (off - (off - base) % stride, words) else none
  if i = 1 then (arr 0x30000 128 64 20).or (arr 0x40000 32 4096 8)
  else if 3 ≤ i ∧ i ≤ 12 then arr 0x20000 16 8192 4
  else if 13 ≤ i ∧ i ≤ 28 then arr 0x20000 16 2048 4
  else if 30 ≤ i ∧ i ≤ 41 then arr 0x8000 8 256 2
  else none

/-- The latched value of an offset for a requester. -/
def State.latched (s : State) (tower : Bool) (i off : Nat) : Option Word32 :=
  (s.latches.find? (fun l => l.tower == tower && l.island == i && l.off == off)).map (·.value)

/-- A register read (R748, R753, R754): the value, and the latches it leaves. -/
def State.readReg (s : State) (tower : Bool) (i off : Nat) : Word32 × State :=
  if !s.regUp i then (0, s)
  else
    let v := s.regValue tower i off
    match hiOf i off with
    | some h =>
      let l : Latch := { tower := tower, island := i, off := h, value := s.regValue tower i h }
      (v, { s with latches := s.latches.filter (fun x => !(x.tower == tower && x.island == i && x.off == h)) ++ [l] })
    | none =>
      if off ≥ 4 ∧ hiOf i (off - 4) = some off then ((s.latched tower i off).getD 0, s)
      else match entryOf i off with
        | some (base, n) =>
          if off = base then
            let ls := (List.range (n - 1)).map (fun k =>
              ({ tower := tower, island := i, off := base + 4 * (k + 1), value := s.regValue tower i (base + 4 * (k + 1)) } : Latch))
            (v, { s with latches := s.latches.filter (fun x => !(x.tower == tower && (entryOf x.island x.off).isSome)) ++ ls })
          else ((s.latched tower i off).getD v, s)
        | none => (v, s)

/-- A register read at a port (R684, R746): CP answers ERROR at an offset that is not a multiple of 4. -/
def State.readPort (s : State) (tower : Bool) (i off : Nat) : State :=
  if off % 4 ≠ 0 then (if tower then s else s.emit (.cpError (2 ^ 20 * i + off)))
  else
    let (v, s) := s.readReg tower i off
    s.emit (.regRead (2 ^ 20 * i + off) v)

/-- LO_REGISTER_READ (R753): an offset that names no _LO register is read as that register is. -/
def execLoRegisterRead (tower : Bool) (island : Fin 64) (off : BitVec 20) (s : State) : Host.Outcome State Fault Refusal :=
  .next (s.readPort tower island.val off.toNat)

/-- ENTRY_LOW_WORD_READ (R754): an offset that names no lowest word is read as that register is. -/
def execEntryLowWordRead (tower : Bool) (island : Fin 64) (off : BitVec 20) (s : State) : Host.Outcome State Fault Refusal :=
  .next (s.readPort tower island.val off.toNat)

/-! ### Writes -/

/-- A base register of two halves: the word at `hi` replaced. -/
def setHalf {w : Nat} (old : BitVec w) (hi : Bool) (v : Word32) : BitVec w :=
  if hi then BitVec.ofNat w (v.toNat * 2 ^ 32 + old.toNat % 2 ^ 32) else BitVec.ofNat w (old.toNat / 2 ^ 32 * 2 ^ 32 + v.toNat)

/-- Store the word of a register with RW or RWL fields. -/
def State.regPut (s : State) (i off : Nat) (v : Word32) : State :=
  if i = 0 then s.onDom (fun d => { d with tamperLock := true, polarity := BitVec.ofNat 4 (fld v 7 4), enable := BitVec.ofNat 4 (fld v 3 0) })
  else if i = 1 then
    match off with
    | 0x2010 => { s with str := { s.str with base := setHalf s.str.base false v } }
    | 0x2014 => { s with str := { s.str with base := setHalf s.str.base true v } }
    | 0x6400 => { s with cap := { s.cap with base := setHalf s.cap.base false v } }
    | 0x6404 => { s with cap := { s.cap with base := setHalf s.cap.base true v } }
    | 0x6408 => { s with cap := { s.cap with slotPages := BitVec.ofNat 9 (fld v 8 0) } }
    | 0x640C => { s with cap := { s.cap with noticeBase := setHalf s.cap.noticeBase false v } }
    | 0x6410 => { s with cap := { s.cap with noticeBase := setHalf s.cap.noticeBase true v } }
    | _ => match mbxPage off with
      | some (n, 0x10) => s.onMbx n (fun m => { m with emptyIrq := v.getLsbD 9, rxIrq := v.getLsbD 8, vector := BitVec.ofNat 5 (fld v 4 0) })
      | _ => s
  else if i = 2 then
    match off with
    | 0x5410 => s.onTime (fun t => { t with ctrl := v })
    | 0x5700 => s.onEsc (fun e => { e with hangCtrl := v })
    | 0x5A00 => { s with pwr := { s.pwr with holdUs := BitVec.ofNat 16 (fld v 15 0) } }
    | _ => match elem off 0x5500 4 16 with
      | some n => if n % 2 = 0 then s.schedWriteLo (n / 2) v else s.schedWriteHi (n / 2) v
      | none => s
  else if 3 ≤ i ∧ i ≤ 10 then
    s.onMcc (i - 3) (fun m =>
      match off with
      | 0x5000 => { m with hbmBase := setHalf m.hbmBase false v }
      | 0x5004 => { m with hbmBase := setHalf m.hbmBase true v }
      | 0x5008 => { m with ilv := v }
      | 0x500C => { m with tagBase := setHalf m.tagBase false v }
      | 0x5010 => { m with tagBase := setHalf m.tagBase true v }
      | 0x5014 => { m with tagLines := v }
      | 0x6000 => { m with geckoCtrl := BitVec.ofNat 5 (fld v 4 0) }
      | _ => match elem off 0x6104 8 64 with
        | some n => { m with geckoBase := m.geckoBase.set n v }
        | none => m)
  else if 11 ≤ i ∧ i ≤ 12 then
    s.onPcc (i - 11) (fun m =>
      match off with
      | 0x5000 => { m with poolBase := setHalf m.poolBase false v }
      | 0x5004 => { m with poolBase := setHalf m.poolBase true v }
      | 0x5008 => { m with metaBase := setHalf m.metaBase false v }
      | 0x500C => { m with metaBase := setHalf m.metaBase true v }
      | 0x5010 => { m with subtrees := BitVec.ofNat 8 (fld v 7 0) }
      | _ => m)
  else if 13 ≤ i ∧ i ≤ 28 then
    s.onFcc (i - 13) (fun x =>
      match off with
      | 0x5000 => { x with node := v } | 0x5004 => { x with timers := v } | 0x5008 => { x with span := v } | _ => x)
  else if 30 ≤ i ∧ i ≤ 41 then s.onSite (i - 30) (fun x => { x with ctrl := v })
  else if i = 44 then
    let o := s.obs
    match off with
    | 0x5010 => { s with obs := { o with snapCtrl := v, lastPeriod := s.spr.time.counter.toNat } }
    | 0x5014 => { s with obs := { o with snapBase := setHalf o.snapBase false v } }
    | 0x5018 => { s with obs := { o with snapBase := setHalf o.snapBase true v } }
    | 0x5028 => { s with obs := { o with traceBase := setHalf o.traceBase false v } }
    | 0x502C => { s with obs := { o with traceBase := setHalf o.traceBase true v } }
    | _ => s
  else if i = 45 then
    match off with
    | 0x5000 => { s with ftu := { s.ftu with unit := BitVec.ofNat 8 (fld v 15 8), island := BitVec.ofNat 6 (fld v 7 2), kind := BitVec.ofNat 2 (fld v 1 0) } }
    | 0x5004 => { s with ftu := { s.ftu with pattern := v } }
    | _ => s
  else s

/-- Clear the W1C bits of a register that a write sets. -/
def State.regClear (s : State) (i off : Nat) (v : Word32) : State :=
  let v := v &&& BitVec.ofNat 32 (w1cMask i off)
  if i = 1 then
    (if off = 0x3004 then { s with cpe := { s.cpe with done := s.cpe.done && !v.getLsbD 1 } }
     else match mbxPage off with
      | some (n, _) => s.onMbx n (fun m => { m with
          towerReset := m.towerReset && !v.getLsbD 31, collTx := m.collTx && !v.getLsbD 30, collRx := m.collRx && !v.getLsbD 29 })
      | none => s)
  else if i = 2 then
    match off with
    | 0x5004 => if v.getLsbD 31 then s.onSpr (fun p => { p with lost := false, dropped := 0 }) else s
    | 0x5008 => s.onSpr (fun p => { p with fsmIrq := p.fsmIrq &&& ~~~ (v.setWidth 16) })
    | _ => if v.getLsbD 31 then s.onEsc (fun e => { e with logWrapped := false }) else s
  else
    { s with obs := { s.obs with
        dropped := s.obs.dropped && !v.getLsbD 31, overwritten := s.obs.overwritten && !v.getLsbD 30
        drained := s.obs.drained && !v.getLsbD 28 } }

/-- A register write that reaches a running island: RWL fields while unlocked, RW fields, W1C bits; DOM_TAMPER_CFG until its
first write. -/
def State.writeReg (s : State) (i off : Nat) (v : Word32) : State :=
  let fs := (if (s.isl.get i).locked then [] else rwlFields i off) ++ rwFields i off
  if fs.isEmpty then (if w1cMask i off = 0 then s else s.regClear i off v)
  else if i = 0 ∧ s.dom.tamperLock then s
  else
    let w := writeFields fs (s.regValue true i off) v
    if comboOk i off w then s.regPut i off w else s

/-- A register write at a port (R684, R746 to R748). -/
def State.writePort (s : State) (tower : Bool) (i off : Nat) (v : Word32) : State :=
  if off % 4 ≠ 0 then (if tower then s else s.emit (.cpError (2 ^ 20 * i + off)))
  else if !s.regUp i || (towerOnly i off && !tower) then s
  else s.writeReg i off v

/-- REGISTER_WRITE (R20): fields with a behaviour of their own are written by the rows that name it. -/
def execRegisterWrite (tower : Bool) (island : Fin 64) (off : BitVec 20) (v : Word32) (s : State) : Host.Outcome State Fault Refusal :=
  .next (s.writePort tower island.val off.toNat v)

end Sys2Proof.Machine
end

