-- ==== Sys2Proof/Machine/Observe.lean ====
section
/-!
DEFINITION. Counters, freezes, snapshots and the trace (spec/16_observation.md), and the TRIG_IO pad
(spec/17_ports_and_pads.md R710, R711).
-/

namespace Sys2Proof.Machine

/-- OBS. -/
def obsIx : Nat := 44

/-- Change OBS. -/
def State.onObs (s : State) (f : Obs → Obs) : State := { s with obs := f s.obs }

/-! ### Selections (R642, R643, R645) -/

/-- The COUNTER_SELECT entries of an island, entry `k` for counter 16 + k. -/
def State.selections (s : State) (i : Nat) : List Word32 := (s.entriesOf i 12).map (fun b => BitVec.ofNat 32 (Bytes.le b 0 4))

/-- ISLAND of an entry. -/
def selIsland (e : Word32) : Nat := fld e 31 26
/-- EVENT of an entry. -/
def selEvent (e : Word32) : Nat := fld e 25 18
/-- QUAL_KIND of an entry. -/
def selKind (e : Word32) : Nat := fld e 17 16
/-- QUAL of an entry. -/
def selQual (e : Word32) : Nat := fld e 15 9

/-- An entry counts an event of island `i`; an unknown TDID never matches a TDID qualifier. -/
def selMatches (e : Word32) (i : Nat) (x : CountEv) : Bool :=
  selEvent e != 0 && selEvent e == x.code && (selIsland e == i || selIsland e == 63) &&
    (match selKind e with
     | 0 => true | 1 => x.tdid == selQual e | 2 => x.fmt == selQual e | _ => x.sub == selQual e)

/-- Add to a counter of a bank, modulo 2^48 (R640). -/
def bump (t : Tbl (BitVec 48)) (n k : Nat) : Tbl (BitVec 48) := t.modify n (fun v => v + BitVec.ofNat 48 k)

/-- What one accumulated event of island `i` adds to a bank: a fixed counter (code 256 + n), a histogram bin (code 512 + b),
or every counter whose selection it meets. -/
def bumpEvent (sel : List Word32) (i : Nat) (bank : Tbl (BitVec 48) × Tbl (BitVec 48)) (x : CountEv) : Tbl (BitVec 48) × Tbl (BitVec 48) :=
  if 512 ≤ x.code then (bank.1, bump bank.2 (x.code - 512) x.n)
  else if 256 ≤ x.code then (bump bank.1 (x.code - 256) x.n, bank.2)
  else ((sel.zipIdx.filter (fun p => selMatches p.1 i x)).foldl (fun t p => bump t (16 + p.2) x.n) bank.1, bank.2)

/-- An island sends its accumulators to OBS (R641): they enter the live bank, and the frozen bank while the island's freeze
marker is outstanding (R648). -/
def State.flush (s : State) (i : Nat) : State :=
  if !s.live obsIx then s
  else
    let sel := s.selections i
    let acc := (s.isl.get i).acc
    let o := s.obs
    let live := acc.foldl (bumpEvent sel i) (o.live, o.liveHist)
    let froz := if o.markers.contains i then acc.foldl (bumpEvent sel i) (o.froz, o.frozHist) else (o.froz, o.frozHist)
    (s.onIsl i (fun r => { r with acc := [] })).onObs (fun o =>
      { o with live := live.1, liveHist := live.2, froz := froz.1, frozHist := froz.2 })

/-- COUNTER_FLUSH (R641). -/
def execCounterFlush (i : Fin 46) (s : State) : Host.Outcome State Fault Refusal := .next (s.flush i.val)

/-! ### Trace (R658 to R667) -/

/-- TRACE_SETUP in use (R661, R662). -/
structure TraceSetup where
  stop : Bool := false
  level : Nat := 2
  postK : Nat := 4
  kinds : Nat := 0x0000FFFE
  mask : Nat := 3
  kind : Nat := 0
  out : Bool := false
  islands : Nat := 2 ^ 46 - 1
  tdids : Nat := 2 ^ 128 - 1

/-- The active TRACE_SETUP of OBS, or the defaults of R662. -/
def State.traceSetup (s : State) : TraceSetup :=
  match s.sectionOf obsIx 13 with
  | some x =>
    { stop := Bytes.at x.body 16 == 1, level := Bytes.at x.body 17, postK := Bytes.le x.body 18 2, kinds := Bytes.le x.body 20 4
      mask := Bytes.le x.body 24 4, kind := Bytes.at x.body 28, out := bit (Bytes.at x.body 29) 0
      islands := Bytes.le x.body 32 8, tdids := Bytes.le x.body 40 16 }
  | none => {}

/-- Records in the post-trigger segment. -/
def TraceSetup.post (t : TraceSetup) : Nat := 1024 * t.postK

/-- KIND of a record's 24 bytes. -/
def recKind (b : BitVec 192) : Nat := fld b 15 8

/-- A record passes KIND_ENABLE, ISLAND_MASK and TDID_MASK (R661); TRIGGER and DROP records always do. -/
def TraceSetup.takes (t : TraceSetup) (b : BitVec 192) : Bool :=
  let k := recKind b
  decide (k = 0x0E ∨ k = 0x0F) ||
    (bit t.kinds k && bit t.islands (fld b 5 0) && (!b.getLsbD 23 || bit t.tdids (fld b 22 16)))

/-- Write a record at its arrival (R658, R660, R665): when 32,768 are held the oldest goes. -/
def State.traceWrite (s : State) (b : BitVec 192) : State :=
  let r : TraceRec := { time := s.spr.time.counter, body := b }
  let s := s.countFixed obsIx 4
  if s.obs.records.length < 32768 then s.onObs (fun o => { o with records := o.records ++ [r] })
  else (s.onObs (fun o => { o with records := o.records.drop 1 ++ [r], overwritten := true })).countFixed obsIx 5

/-- Drop a record (R665). -/
def State.traceDrop (s : State) : State :=
  (s.onObs (fun o => { o with dropped := true, droppedCount := satInc o.droppedCount })).countFixed obsIx 6

/-- What an arriving record does in each state (R665). -/
def State.traceArrive (s : State) (b : BitVec 192) : State :=
  let t := s.traceSetup
  match s.obs.trace with
  | .recording =>
    let s := s.traceWrite b
    if t.stop ∧ 32768 - t.post ≤ s.obs.records.length then s.onObs (fun o => { o with trace := .stopped }) else s
  | .post =>
    let s := s.traceWrite b
    s.onObs (fun o => { o with postLeft := o.postLeft - 1, trace := if o.postLeft ≤ 1 then .frozen else .post })
  | _ => s.traceDrop

/-- TRIG_IO pulses while its owner is TRIGGER_OUT and OBS drives it (R667, R710, R95). -/
def State.trigPulse (s : State) : State :=
  if s.traceSetup.out ∧ s.pads.trigDriven then
    (if s.pads.trigOut then s else s.emit (.pad "TRIG_IO" true)) |> fun s => { s with pads := { s.pads with trigOut := true } }
  else s

/-- A trace trigger from a source (R665): the TRIGGER record is the first of the post-trigger segment; a trigger in POST,
FROZEN or LENT is ignored and counted. -/
def State.traceFire (s : State) (source : Nat) : State :=
  if s.obs.trace = .recording ∨ s.obs.trace = .stopped then
    let s := s.traceWrite (traceBody obsIx 0x0E none 0 source 0 0)
    let n := s.traceSetup.post - 1
    let s := s.onObs (fun o => { o with trace := .post, postLeft := n, triggerTime := s.spr.time.counter })
    s.trigPulse
  else s.countFixed obsIx 7

/-- The sources that a record triggers (R661, R664): FAULT at TRIGGER_LEVEL or above, then KIND. -/
def TraceSetup.fires (t : TraceSetup) (b : BitVec 192) : List Nat :=
  (if bit t.mask 1 && recKind b == 1 && decide (t.level ≤ fld b 34 32) then [2] else []) ++
    (if bit t.mask 2 && recKind b == t.kind then [3] else [])

/-- A record arrives at OBS (R660, R664): it is a pre-trigger record of the trigger it causes. -/
def State.traceTake (s : State) (b : BitVec 192) : State :=
  let t := s.traceSetup
  let fires := t.fires b
  let s := if t.takes b then s.traceArrive b else s
  match fires with
  | src :: _ => s.traceFire src
  | [] => s

/-- TRACE_RECORD (R660): the oldest record that island `i` holds reaches OBS, between two records of a swap (R78). -/
def State.traceRecord (s : State) (i : Nat) : State :=
  match (s.isl.get i).trace with
  | b :: rest =>
    if s.live obsIx ∧ (s.isl.get obsIx).swap ≠ .prepared then (s.onIsl i (fun r => { r with trace := rest })).traceTake b else s
  | [] => s

/-- TRACE_RECORD. -/
def execTraceRecord (i : Fin 46) (s : State) : Host.Outcome State Fault Refusal := .next (s.traceRecord i.val)

/-- TRACE_TRIGGER (OBS_TRACE_CTRL.TRIGGER): while TRIGGER_MASK bit 3 is set. -/
def State.traceTrigger (s : State) : State := if s.regUp obsIx ∧ bit s.traceSetup.mask 3 then s.traceFire 4 else s

/-- TRACE_TRIGGER. -/
def execTraceTrigger (s : State) : Host.Outcome State Fault Refusal := .next s.traceTrigger

/-- The trace is emptied and enters a state (R665). -/
def State.traceEmpty (s : State) (t : TraceState) : State :=
  s.onObs (fun o => { o with trace := t, records := [], postLeft := 0, droppedCount := 0, releaseWait := false })

/-- TRACE_RELEASE (R665): a frozen capture that drains goes when the drain has ended. -/
def State.traceRelease (s : State) : State :=
  if !s.regUp obsIx then s
  else match s.obs.trace with
    | .recording => s
    | .lent => s
    | .frozen => if s.obs.draining then s.onObs (fun o => { o with releaseWait := true }) else s.traceEmpty .recording
    | _ => s.traceEmpty .recording

/-- TRACE_RELEASE. -/
def execTraceRelease (s : State) : Host.Outcome State Fault Refusal := .next s.traceRelease

/-- The lowest CP DMA channel of an owner (R655). -/
def State.dmaChannel (s : State) (owner : Nat) : Option Nat :=
  (List.range 4).find? (fun n => s.owner obsIx 5 n (if n = 0 then 0x0B else 0) == owner)

/-- An OBS DMA write over CP (R655): TDID 0, no Tower mark. -/
def State.obsWrite (s : State) (addr : Nat) (data : Bytes) : State :=
  s.emit (.hubReq obsIx .write true { tid := 0, addr := BitVec.ofNat 52 addr, len := data.length, tdid := 0, data := data,
                                      be := List.replicate data.length true, link := 44 })

/-- The bytes of a record (R658). -/
def TraceRec.bytes (r : TraceRec) : Bytes := toLe 8 r.time.toNat ++ toLe 24 r.body.toNat

/-- The header and the records of a drain (R666). -/
def State.drainImage (s : State) : Bytes :=
  let o := s.obs
  let pos := o.records.findIdx (fun r => recKind r.body == 0x0E)
  [0x4F, 0x4E, 0x54, 0x52] ++ toLe 2 1 ++ toLe 1 (b2n s.traceSetup.stop) ++ zeros 1 ++ toLe 4 o.records.length ++ toLe 4 pos ++
    toLe 8 o.triggerTime.toNat ++ toLe 4 o.droppedCount.toNat ++ toLe 4 (s.isl.get obsIx).generation.toNat ++ zeros 32 ++
    (o.records.map TraceRec.bytes).flatten

/-- TRACE_DRAIN (R655, R666). -/
def State.traceDrain (s : State) : State :=
  if !s.regUp obsIx ∨ s.obs.trace ≠ .frozen ∨ s.obs.draining then s
  else match s.dmaChannel 4 with
    | some _ => (s.obsWrite s.obs.traceBase.toNat s.drainImage).onObs (fun o => { o with draining := true, traceNoChannel := false })
    | none => s.onObs (fun o => { o with traceNoChannel := true })

/-- TRACE_DRAIN. -/
def execTraceDrain (s : State) : Host.Outcome State Fault Refusal := .next s.traceDrain

/-- TRACE_DRAIN_DONE (R656, R665, R666): an ERROR abandons the drain. -/
def State.traceDrainDone (s : State) (ok : Bool) : State :=
  if !s.obs.draining then s
  else
    let s := s.onObs (fun o => { o with draining := false, drained := o.drained || ok })
    let s := if ok then s else s.countFixed obsIx 11
    if s.obs.releaseWait then s.traceEmpty .recording else s

/-- TRACE_DRAIN_DONE. -/
def execTraceDrainDone (ok : Bool) (s : State) : Host.Outcome State Fault Refusal := .next (s.traceDrainDone ok)

/-! ### Freezes and snapshots (R646 to R657) -/

/-- A freeze is triggered (R647 to R651): ignored and counted while the frozen bank is held; else every island's marker is
awaited. SOURCE: 1 TRIG_IO, 2 REGISTER, 3 SCHEDULE, 4 PERIOD. -/
def State.freeze (s : State) (source : Nat) : State :=
  if !s.live obsIx then s
  else if s.obs.frozen ∨ !s.obs.markers.isEmpty then s.countFixed obsIx 1
  else
    let marks := (List.range 46).filter (fun i => i != 0 && s.live i && s.powered i)
    let t := s.spr.time
    let gen := (s.isl.get obsIx).generation
    let s := (s.onObs (fun o => { o with
      froz := o.live, frozHist := o.liveHist, markers := marks, source := BitVec.ofNat 3 source
      time := t.counter, timeLocked := t.locked, generation := gen })).countFixed obsIx 0
    if bit s.traceSetup.mask 0 then s.traceFire 1 else s

/-- FREEZE_TRIGGER (OBS_FREEZE.FREEZE). -/
def execFreezeTrigger (s : State) : Host.Outcome State Fault Refusal := .next (if s.regUp obsIx then s.freeze 2 else s)

/-- PERIODIC_FREEZE (R647): secure time has passed a multiple of PERIOD_MS since the last instant or set-up. While the bank is
held the snapshot is counted skipped. -/
def State.periodicFreeze (s : State) : State :=
  let p := fld s.obs.snapCtrl 19 0 * 1000000
  let now := s.spr.time.counter.toNat
  if !s.live obsIx ∨ p = 0 ∨ !s.spr.time.locked ∨ now / p ≤ s.obs.lastPeriod / p then s
  else
    let s := s.onObs (fun o => { o with lastPeriod := now })
    if s.obs.frozen ∨ !s.obs.markers.isEmpty then s.countFixed obsIx 3 else s.freeze 4

/-- PERIODIC_FREEZE. -/
def execPeriodicFreeze (dt : Nat) (s : State) : Host.Outcome State Fault Refusal := .next (s.advance dt).periodicFreeze

/-- The bytes of a snapshot (R654). -/
def State.snapshotImage (s : State) : Bytes :=
  let o := s.obs
  [0x4F, 0x4E, 0x53, 0x4E] ++ toLe 2 1 ++ toLe 1 o.source.toNat ++ toLe 1 (b2n o.timeLocked) ++ toLe 4 o.seq.toNat ++
    toLe 4 s.dom.bootCount.toNat ++ toLe 8 o.time.toNat ++ toLe 4 o.generation.toNat ++ zeros 36 ++
    ((List.range 4096).map (fun n => toLe 8 (o.froz.get n).toNat)).flatten ++ ((List.range 32).map (fun b => toLe 8 (o.frozHist.get b).toNat)).flatten

/-- A snapshot starts when FROZEN is set and snapshots are enabled (R653, R655). -/
def State.snapshotStart (s : State) : State :=
  if !s.obs.snapCtrl.getLsbD 31 then s
  else match s.dmaChannel 0x0A with
    | some _ =>
      let slot := s.obs.seq.toNat % 2 ^ fld s.obs.snapCtrl 23 20
      (s.obsWrite (s.obs.snapBase.toNat + 65536 * slot) s.snapshotImage).onObs (fun o => { o with snapBusy := true, noChannel := false })
    | none => (s.onObs (fun o => { o with noChannel := true })).countFixed obsIx 3

/-- The marker of island `i` returns with its accumulators (R648, R649). -/
def State.markerBack (s : State) (i : Nat) : State :=
  if s.obs.markers.contains i then
    let s := (s.flush i).onObs (fun o => { o with markers := o.markers.erase i })
    if s.obs.markers.isEmpty then (s.onObs (fun o => { o with frozen := true })).snapshotStart else s
  else s

/-- FREEZE_COMPLETE (R649). -/
def execFreezeComplete (i : Fin 46) (s : State) : Host.Outcome State Fault Refusal := .next (s.markerBack i.val)

/-- The frozen bank is released (R651). -/
def State.thawNow (s : State) : State := s.onObs (fun o => { o with frozen := false, thawWait := false })

/-- THAW (OBS_FREEZE.THAW): of a bank that is FROZEN, after any snapshot in progress. -/
def State.thaw (s : State) : State :=
  if !s.regUp obsIx ∨ !s.obs.frozen then s
  else if s.obs.snapBusy then s.onObs (fun o => { o with thawWait := true })
  else s.thawNow

/-- THAW. -/
def execThaw (s : State) : Host.Outcome State Fault Refusal := .next s.thaw

/-- SNAPSHOT_DONE (R653, R656): an ERROR abandons the snapshot, which is counted skipped. -/
def State.snapshotDone (s : State) (ok : Bool) : State :=
  if !s.obs.snapBusy then s
  else
    let s := s.onObs (fun o => { o with snapBusy := false, seq := if ok then o.seq + 1 else o.seq })
    let s := if ok then s.countFixed obsIx 2 else (s.countFixed obsIx 3).countFixed obsIx 11
    if s.obs.snapCtrl.getLsbD 30 ∨ s.obs.thawWait then s.thawNow else s

/-- SNAPSHOT_DONE. -/
def execSnapshotDone (ok : Bool) (s : State) : Host.Outcome State Fault Refusal := .next (s.snapshotDone ok)

/-! ### TRIG_IO (R710, R711) and WAKE (R686) -/

/-- TRIG_IO_EDGE: a counted rising edge, by the pad's owner. -/
def State.trigEdge (s : State) : State :=
  if s.live obsIx ∧ s.owner obsIx 1 0 0 = 1 then s.freeze 1
  else if s.live 2 ∧ s.owner 2 1 0 0 = 3 then s.raiseEvent 0x6B 0 2
  else s

/-- TRIG_IO_EDGE. -/
def execTrigIoEdge (s : State) : Host.Outcome State Fault Refusal := .next (s.atStep stepArrive).trigEdge

/-- The pulse on TRIG_IO ends (R710). -/
def State.trigRelease (s : State) : State :=
  if s.pads.trigOut then { s.emit (.pad "TRIG_IO" false) with pads := { s.pads with trigOut := false } } else s

/-- TRIG_IO_PULSE_END. -/
def execTrigIoPulseEnd (s : State) : Host.Outcome State Fault Refusal := .next s.trigRelease

/-- WAKE_PULSE_END (R686). -/
def execWakePulseEnd (s : State) : Host.Outcome State Fault Refusal :=
  .next (if s.pads.wake then { s.emit (.wake false) with pads := { s.pads with wake := false } } else s)

/-! ### Schedule slots (R424) -/

/-- SCHEDULE_SLOT_FIRE: the slot disarms and raises its event; one that FREEZE_AT owns orders the freeze. -/
def State.schedFire (s : State) (n : Nat) : State :=
  if s.live 2 ∧ s.schedDue n then
    let s := s.onTime (fun t => { t with sched := t.sched.modify n (fun x => { x with armed := false }) })
    let s := s.raiseEvent (0x60 + n) 0 2
    if s.schedOwner n = 8 then s.freeze 3 else s
  else s

/-- SCHEDULE_SLOT_FIRE. -/
def execScheduleSlotFire (n : Fin 8) (dt : Nat) (s : State) : Host.Outcome State Fault Refusal := 
  .next (((s.advance dt).atStep stepCompare).schedFire n.val)

end Sys2Proof.Machine
end

