-- ==== Sys2Proof/Machine/Sections.lean ====
section
/-!
DEFINITION. The validation of a structure stream (spec/02_structure_stream.md R55 to R73, R92 to R94) and the encodings of its
sections, from the chapters that define them.
-/

namespace Sys2Proof.Machine

/-! ### Checks of fields -/

/-- A condition on a field and the byte offset of the field. -/
abbrev FieldCheck := Bool × Nat

/-- The offset of the first field that fails. -/
def firstFail (l : List FieldCheck) : Option Nat := (l.find? (fun c => !c.1)).map Prod.snd

/-- The checks of every entry from byte `off` on; each sees the entry before it. -/
def entryChecks (f : Option Bytes → Bytes → List FieldCheck) : Option Bytes → Nat → List Bytes → List FieldCheck
  | _, _, [] => []
  | prev, off, e :: es => (f prev e).map (fun c => (c.1, off + c.2)) ++ entryChecks f (some e) (off + e.length) es

/-- An entry's key is above the key of the entry before it. -/
def above (key : Bytes → Nat) (prev : Option Bytes) (e : Bytes) : Bool := prev.all (fun p => decide (key p < key e))

/-- A byte lies in a range. -/
def within (lo hi v : Nat) : Bool := decide (lo ≤ v ∧ v ≤ hi)

/-! ### The section table (R59, R60) -/

/-- Largest SIZE of a section (R60). -/
def sectionMax (id : Nat) : Nat :=
  1024 * (match id with | 1 => 256 | 2 => 64 | 3 => 4 | 5 => 1 | 6 => 1024 | 8 => 256 | 9 => 4 | 10 => 8 | 11 => 8 | 14 => 4 | _ => 16)

/-- Island `i` is among a section's permitted islands (R60). -/
def sectionPermits (id i : Nat) : Bool :=
  match id with
  | 1 => i == 1 || i == 2 || isCluster i || i == 43
  | 2 => true
  | 3 => isCluster i || i == 2
  | 4 => i == 1
  | 5 => i == 1
  | 6 => i == 2
  | 7 => i == 2
  | 8 => i == 2
  | 9 => i == 2
  | 10 => within 3 10 i || i == 43
  | 11 => i == 43
  | 12 => i != 0
  | 13 => i == 44
  | _ => i == 1 || i == 2 || i == 44 || i == 45

/-- ENTRY_SIZE of a section; zero for a single body (R59). -/
def sectionEntry (id : Nat) : Nat :=
  match id with
  | 2 => 8 | 3 => 16 | 4 => 16 | 5 => 4 | 6 => 8 | 7 => 16 | 8 => 272 | 10 => 16 | 11 => 272 | 12 => 4 | 14 => 8 | _ => 0

/-- Most entries of a section. -/
def sectionCount (id : Nat) : Nat :=
  match id with
  | 2 => 8190 | 3 => 27 | 4 => 14 | 5 => 160 | 7 => 24 | 8 => 64 | 10 => 21 | 11 => 16 | 12 => 4080 | _ => 2 ^ 32

/-! ### Encodings (step 8 of R71) -/

/-- BASE (R62, R766). -/
def baseChecks (b : Bytes) : List FieldCheck :=
  let n := Bytes.le b 20 4
  [(decide (Bytes.le b 16 2 ≤ 3), 16), (decide (n % 64 = 0 ∧ 2112 ≤ n), 20), (Bytes.zeroAt b 24 40, 24), (Bytes.zeroAt b (3373 + n) 3, 3373 + n)]

/-- Island and offset of a preset entry. -/
def presetAt (e : Bytes) : Nat × Nat := (Bytes.le e 0 4 % 2 ^ 26 / 2 ^ 20, Bytes.le e 0 4 % 2 ^ 20)

/-- Every field of a register that a preset may name. -/
def presetFields (i off : Nat) : List RegField := rwlFields i off ++ rwFields i off

/-- A preset's VALUE sets no reserved bit (R758). -/
def presetReserved (i off : Nat) (v : Word32) : Bool :=
  (presetFields i off).foldl (fun w f => setFld w f.hi f.lo 0) v == 0

/-- REGISTER_PRESETS (R757, R758), for a section's ISLAND_MASK. -/
def presetChecks (mask : BitVec 64) (prev : Option Bytes) (e : Bytes) : List FieldCheck :=
  let (i, off) := presetAt e
  let v := BitVec.ofNat 32 (Bytes.le e 4 4)
  [(decide (Bytes.le e 0 4 < 2 ^ 26) && above (fun x => Bytes.le x 0 4) prev e && off % 4 == 0 && !(rwlFields i off).isEmpty && mask.getLsbD i, 0),
   (presetReserved i off v && (presetFields i off).all (fun f => within f.min f.max (fld v f.hi f.lo)) && comboOk i off v, 4)]

/-- A number's nibbles below `n` are a permutation of 0 to n − 1, and the rest are zero. -/
def lanesPermuted (n v : Nat) : Bool :=
  decide (v < 2 ^ (4 * n)) && (List.range n).all (fun l => (List.range n).any (fun k => bits v (4 * k + 3) (4 * k) == l))

/-- Bits of a mask below 16 that are set. -/
def maskBits (v : Nat) : List Nat := (List.range 16).filter (fun n => bit v n)

/-- LANE_MAP (R135, R136); a lane that is FAULTED now may not be made active. -/
def State.laneChecks (s : State) (prev : Option Bytes) (e : Bytes) : List FieldCheck :=
  let c := Bytes.at e 0
  let n := socketCount c
  let act := Bytes.le e 2 2
  let lanes := Bytes.le e 8 8
  let faulted (l : Nat) : Bool := (socketNums c).any (fun k => (s.socket c k).role == 2 && (s.socket c k).lane.toNat == l)
  [(isCluster c && above (fun x => Bytes.at x 0) prev e, 0), (within 4 8 (Bytes.at e 1), 1),
   (decide (act < 2 ^ n) && (maskBits act).length == activeCount c, 2), (within 16 24 (Bytes.at e 4), 4), (Bytes.zeroAt e 5 3, 5),
   (lanesPermuted n lanes && (maskBits act).all (fun k => !faulted (bits lanes (4 * k + 3) (4 * k))), 8)]

/-- PARTITION_POOL (R535). -/
def poolChecks (prev : Option Bytes) (e : Bytes) : List FieldCheck :=
  [(within 1 14 (Bytes.at e 0) && above (fun x => Bytes.at x 0) prev e, 0), (Bytes.zeroAt e 1 3, 1),
   (decide (Bytes.le e 8 4 ≤ Bytes.le e 4 4), 8), (Bytes.zeroAt e 12 4, 12)]

/-- MAILBOX_MODES (R587). -/
def modeChecks (prev : Option Bytes) (e : Bytes) : List FieldCheck :=
  let n := Bytes.at e 0
  let m := Bytes.at e 1
  [(decide (n ≤ 159) && above (fun x => Bytes.at x 0) prev e, 0), (decide (m ≤ 1) && !(n == 0 && m != 0) && !((n == 1 || n == 2) && m != 1), 1),
   (Bytes.zeroAt e 2 2, 2)]

/-- A transition of SPIRE_FSM (R400). -/
def transitionChecks (prev : Option Bytes) (e : Bytes) : List FieldCheck :=
  [(decide (Bytes.at e 0 ≤ 63) && prev.all (fun p => decide (Bytes.at p 0 ≤ Bytes.at e 0)), 0),
   (decide (Bytes.at e 1 ≤ 31 ∨ Bytes.at e 1 = 0xFF), 1), (decide (Bytes.at e 4 ≤ 31 ∨ Bytes.at e 4 = 0xFF), 4), (decide (Bytes.at e 5 ≤ 8), 5)]

/-- An action of SPIRE_FSM (R400, R402). -/
def actionChecks (_ : Option Bytes) (e : Bytes) : List FieldCheck :=
  let a := Bytes.le e 2 2
  let b := Bytes.le e 4 4
  let (okA, okB) := match Bytes.at e 0 with
    | 0 => (a == 0, b == 0)
    | 1 => (within 4 31 a, b % 2 ^ 31 != 0)
    | 2 => (within 4 31 a, b == 0)
    | 3 => (within 0xA0 0xBF a, decide (b < 65536 ∨ b = 0xFFFFFFFF))
    | 4 => (decide (a ≤ 3), decide (b < 65536))
    | 5 => (decide (a ≤ 3), b == 0)
    | 6 => (decide (a ≤ 3), within 0xA0 0xBF (bits b 31 24) && bits b 23 16 == 0)
    | 7 => (isCluster a || a == 0xFFFF, decide (b ≤ 15 ∨ b = 0xFF))
    | 8 => (decide (a ≤ 15), b == 0)
    | _ => (true, true)
  [(decide (Bytes.at e 0 ≤ 9), 0), (Bytes.at e 1 == 0, 1), (okA, 2), (okB, 4)]

/-- SPIRE_FSM (R400, R402): the preamble, the transitions, the actions. -/
def fsmChecks (b : Bytes) (es : List Bytes) : List FieldCheck :=
  let t := Bytes.le b 16 4
  let a := Bytes.le b 20 4
  (es.length == 1 + t + a, 4) ::
    (entryChecks transitionChecks none 24 ((es.drop 1).take t) ++ entryChecks actionChecks none (24 + 8 * t) (es.drop (1 + t)))

/-- SPIRE_ESCALATION (R414). -/
def escalationChecks (prev : Option Bytes) (e : Bytes) : List FieldCheck :=
  [(decide (Bytes.at e 0 ≤ 23) && above (fun x => Bytes.at x 0) prev e, 0), (decide (Bytes.at e 1 ≤ 4), 1),
   (within (Bytes.at e 1) 4 (Bytes.at e 2), 2), (decide (Bytes.at e 3 ≤ 20), 3)] ++
    (List.range 5).map (fun l => (decide (Bytes.at e (4 + l) < 32), 4 + l)) ++
    [(Bytes.at e 9 == 0, 9), (decide (Bytes.le e 10 2 ≤ 10000), 10), (Bytes.zeroAt e 12 4, 12)]

/-- An instance that a curve source has (R410). -/
def sourceOk (src inst : Nat) : Bool :=
  match src with
  | 1 => isCluster inst | 2 => isCluster inst | 5 => decide (inst ≤ 23) | 7 => isCluster inst | _ => decide (src ≤ 7) && inst == 0

/-- Breakpoints of 8 bytes from byte 16 on: `n` of them ascend under `x`, meet `y`, and the rest of the 32 are zero. -/
def pointChecks (e : Bytes) (n : Nat) (x : Nat → Int) (more : Nat → List FieldCheck) : List FieldCheck :=
  (List.range 32).flatMap (fun i =>
    if i < n then (decide (i = 0 ∨ x (i - 1) < x i), 16 + 8 * i) :: more i else [(Bytes.zeroAt e (16 + 8 * i) 8, 16 + 8 * i)])

/-- SPIRE_CURVES (R409 to R411). -/
def curveChecks (prev : Option Bytes) (e : Bytes) : List FieldCheck :=
  let f := Bytes.at e 6
  let x (i : Nat) : Int := toQ32 (f % 16) (Bytes.le e (16 + 8 * i) 4)
  [(decide (Bytes.at e 0 ≤ 63) && above (fun y => Bytes.at y 0) prev e, 0), (within 2 32 (Bytes.at e 1), 1),
   (Bytes.at e 3 != 0 && sourceOk (Bytes.at e 3) (Bytes.at e 2), 2), (sourceOk (Bytes.at e 5) (Bytes.at e 4), 4),
   (decide (f % 16 ≤ 3 ∧ f / 16 ≤ 3), 6), (Bytes.at e 7 == 0, 7), (decide (0 ≤ toQ32 (f / 16) (Bytes.le e 8 4)), 8),
   (within 1 1000000 (Bytes.le e 12 4), 12)] ++ pointChecks e (Bytes.at e 1) x (fun _ => [])

/-- POWER_GOVERNOR (R426), apart from the BASE limits of step 12. -/
def governorChecks (b : Bytes) : List FieldCheck :=
  let credit := Bytes.le b 20 4
  [(decide (1000 ≤ Bytes.le b 16 4), 16), (decide (credit = 0) || within 1 credit (Bytes.le b 28 4), 28),
   (within 1 1000 (Bytes.le b 32 2), 32), (decide (Bytes.at b 34 ≤ 31 ∨ Bytes.at b 34 = 0xFF), 34), (Bytes.zeroAt b 35 13, 35)]

/-- NUMERIC_FORMATS (R367). -/
def formatChecks (prev : Option Bytes) (e : Bytes) : List FieldCheck :=
  let kind := Bytes.at e 1
  let w := Bytes.at e 2
  let sp := Bytes.at e 5
  let scale := (BitVec.ofNat 8 (Bytes.at e 6)).toInt
  [(within 11 31 (Bytes.at e 0) && above (fun x => Bytes.at x 0) prev e, 0), (within 1 3 kind, 1), (within 4 16 w, 2),
   (if kind = 3 then within 1 8 (Bytes.at e 3) && decide (Bytes.at e 3 ≤ w - 1) else Bytes.at e 3 == 0, 3),
   (decide (kind = 3) || Bytes.at e 4 == 0, 4),
   (decide (sp < 8) && !(bit sp 1 && bit sp 2) && !(bit sp 0 && !bit sp 1) && (decide (kind = 3) || sp == 0), 5),
   (decide (-32 ≤ scale ∧ scale ≤ 31), 6), (decide (Bytes.at e 7 < 2) && (Bytes.at e 7 == 0 || decide (w ≤ 8)), 7)]

/-- A binary32 word is finite and not negative (R384). -/
def finiteNotNegative (v : Nat) : Bool := bits v 30 23 != 255 && (!bit v 31 || decide (v = 2 ^ 31))

/-- TOLERANCE_CURVES (R384). -/
def toleranceChecks (prev : Option Bytes) (e : Bytes) : List FieldCheck :=
  let x (i : Nat) : Int := (Bytes.le e (16 + 8 * i) 2 : Nat)
  [(decide (Bytes.at e 0 ≤ 15) && above (fun y => Bytes.at y 0) prev e, 0), (within 2 32 (Bytes.at e 1), 1), (Bytes.zeroAt e 2 2, 2),
   (Bytes.zeroAt e 8 8, 8)] ++
    pointChecks e (Bytes.at e 1) x (fun i => [(Bytes.zeroAt e (18 + 8 * i) 2, 18 + 8 * i), (finiteNotNegative (Bytes.le e (20 + 8 * i) 4), 20 + 8 * i)])

/-! ### Counter events (R645) -/

/-- Island `i` raises an event; 63 stands for some island. -/
def raisesEvent (i ev : Nat) : Bool :=
  let mcc := within 3 10 i
  let mem := within 3 12 i
  let cl := isCluster i
  let fcc := within 13 28 i
  let any := i == 63
  if within 1 5 ev then (if ev = 3 then mem || any else cl || any)
  else match ev with
    | 0x06 => mcc || any | 0x07 => mem || any | 0x08 => cl || any | 0x09 => mem || any | 0x0A => mem || any | 0x0B => mem || any
    | 0x0C => mem || any | 0x0D => mem || any | 0x0E => mem || any | 0x0F => cl || any
    | 0x20 => mcc || any | 0x21 => mcc || any | 0x22 => mcc || any | 0x28 => within 11 12 i || any | 0x29 => within 11 12 i || any
    | 0x40 => i == 29 || any | 0x48 => within 30 41 i || any | 0x49 => within 30 41 i || any | 0x50 => i == 1 || any | 0x51 => i == 1 || any
    | 0x52 => i == 1 || any | 0x53 => i == 1 || any | 0x58 => i == 2 || any | 0x60 => i == 42 || any | 0x61 => i == 42 || any
    | 0x68 => i == 43 || any | 0x69 => i == 43 || any | 0x70 => i == 45 || any
    | _ => within 0x30 0x38 ev && (fcc || any)

/-- Events that take a TDID qualifier. -/
def tdidEvents : List Nat :=
  [0x01, 0x02, 0x03, 0x04, 0x05, 0x06, 0x09, 0x0A, 0x0D, 0x0E, 0x20, 0x28, 0x30, 0x31, 0x32, 0x34, 0x35, 0x36, 0x37, 0x38, 0x48, 0x52, 0x53, 0x60]

/-- A subcode is in an event's list. -/
def subcodeOk (ev q : Nat) : Bool :=
  match ev with
  | 0x09 => within 1 5 q || q == 10 || q == 11
  | 0x30 => within 1 4 q
  | 0x31 => within 1 4 q
  | 0x33 => within 1 7 q
  | 0x40 => within 1 2 q
  | 0x49 => within 6 9 q
  | 0x50 => (commandArgs q).isSome
  | 0x58 => decide (q ≤ 23)
  | 0x69 => within 1 6 q
  | _ => false

/-- COUNTER_SELECT (R643, R644); ANY is permitted for every event. -/
def selectChecks (_ : Option Bytes) (b : Bytes) : List FieldCheck :=
  let e := BitVec.ofNat 32 (Bytes.le b 0 4)
  let ev := selEvent e
  let q := selQual e
  let qual := match selKind e with
    | 0 => q == 0
    | 1 => tdidEvents.contains ev
    | 2 => ev == 0x20 && decide (q < 32)
    | _ => subcodeOk ev q
  [((within 1 45 (selIsland e) || selIsland e == 63) && (ev == 0 || raisesEvent (selIsland e) ev) && (qual || ev == 0) && fld e 8 0 == 0, 0)]

/-- TRACE_SETUP (R661). -/
def traceChecks (b : Bytes) : List FieldCheck :=
  [(decide (Bytes.at b 16 ≤ 1), 16), (decide (Bytes.at b 17 ≤ 4), 17), (within 1 16 (Bytes.le b 18 2), 18),
   (Bytes.le b 20 4 % 2 == 0 && decide (Bytes.le b 20 4 < 65536), 20), (decide (Bytes.le b 24 4 < 16), 24),
   (decide (Bytes.at b 28 ≤ 15), 28), (decide (Bytes.at b 29 ≤ 1), 29), (Bytes.zeroAt b 30 2, 30), (decide (Bytes.le b 32 8 < 2 ^ 46), 32),
   (Bytes.zeroAt b 56 24, 56)]

/-- Instances and permitted owners of a shared resource (R93). -/
def resourceInfo (r : Nat) : Nat × List Nat :=
  match r with
  | 1 => (1, [1, 2, 3]) | 2 => (1, [4]) | 3 => (32, [5, 6, 7]) | 4 => (8, [8, 9]) | 5 => (4, [0x0A, 0x0B, 0x04]) | _ => (0, [])

/-- The fixed owner of an instance (R93). -/
def fixedOwner (r n : Nat) : Option Nat :=
  if r = 2 ∧ n = 0 then some 4 else if r = 3 ∧ n < 4 then some 7 else if r = 5 ∧ n = 0 then some 0x0B else none

/-- RESOURCE_OWNERS (R92). -/
def ownerChecks (_ : Option Bytes) (e : Bytes) : List FieldCheck :=
  let r := Bytes.le e 0 2
  [(within 1 5 r, 0), (decide (Bytes.le e 2 2 < (resourceInfo r).1), 2), (Bytes.zeroAt e 5 3, 5)]

/-- Bytes of a section with a single body, its header included; none where BODY_SIZE decides (R426, R661). -/
def bodySize (id : Nat) : Option Nat := match id with | 9 => some 48 | 13 => some 80 | _ => none

/-- The checks of a section's header and encoding (R59, step 8), with offsets from its first byte. -/
def State.sectionChecks (s : State) (x : Section) : List FieldCheck :=
  let b := x.body
  let es := x.entries
  let size := sectionEntry x.id
  let count := Bytes.le b 4 4
  [(Bytes.le b 0 2 == x.id, 0), (Bytes.le b 2 2 == 1, 2), (Bytes.le b 8 4 == size, 8),
   (if size = 0 then count == 0 else b.length == 16 + size * count && decide (count ≤ sectionCount x.id), 4), (Bytes.zeroAt b 12 4, 12)] ++
    (match x.id with
     | 1 => baseChecks b
     | 2 => entryChecks (presetChecks x.mask) none 16 es
     | 3 => entryChecks s.laneChecks none 16 es
     | 4 => entryChecks poolChecks none 16 es
     | 5 => entryChecks modeChecks none 16 es
     | 6 => fsmChecks b es
     | 7 => entryChecks escalationChecks none 16 es
     | 8 => entryChecks curveChecks none 16 es
     | 9 => governorChecks b
     | 10 => entryChecks formatChecks none 16 es
     | 11 => entryChecks toleranceChecks none 16 es
     | 12 => entryChecks selectChecks none 16 es
     | 13 => traceChecks b
     | _ => entryChecks ownerChecks none 16 es)

/-! ### The stream (R55 to R58) -/

/-- A directory entry (R57) and the offset it lies at. -/
structure DirEntry where
  id : Nat
  version : Nat
  off : Nat
  size : Nat
  mask : BitVec 64
  pos : Nat

/-- The directory of a stream (R57). -/
def directory (b : Bytes) : List DirEntry :=
  (List.range (Bytes.le b 20 2)).map (fun i =>
    let d := 128 + 32 * i
    { id := Bytes.le b d 2, version := Bytes.le b (d + 2) 2, off := Bytes.le b (d + 4) 4, size := Bytes.le b (d + 8) 4
      mask := BitVec.ofNat 64 (Bytes.le b (d + 16) 8), pos := d })

/-- The section of a directory entry. -/
def DirEntry.section_ (d : DirEntry) (b : Bytes) : Section := { id := d.id, mask := d.mask, body := Bytes.slice b d.off d.size }

/-- A set of sections as a stream brings it. -/
def streamSet (b : Bytes) : StreamSet :=
  { generation := BitVec.ofNat 32 (Bytes.le b 12 4), raiseFloor := bit (Bytes.le b 16 4) 0, commitTime := BitVec.ofNat 64 (Bytes.le b 40 8)
    baseDigest := Bytes.slice b 48 48, digest := Sha.sha384 b, sections := (directory b).map (fun d => d.section_ b), bytes := b }

/-- The section of an identifier in a set. -/
def StreamSet.find (x : StreamSet) (id : Nat) : Option Section := x.sections.find? (fun y => y.id == id)

/-- Entries of a section of a set. -/
def StreamSet.entries (x : StreamSet) (id : Nat) : List Bytes := ((x.find id).map Section.entries).getD []

/-- What a set sends to island `i` (R60, R70). -/
def StreamSet.forIsland (x : StreamSet) (i : Nat) : List Section := x.sections.filter (fun y => y.mask.getLsbD i)

/-- Sections lie in ascending OFFSET without overlap, on multiples of 64, with zeros between, from `pos` to ENVELOPE_OFFSET
(R58): the identifier of the first that does not, zero for the end. -/
def layoutFault (b : Bytes) (env : Nat) : Nat → List DirEntry → Option Nat
  | pos, [] => if Bytes.zeroAt b pos (env - pos) then none else some 0
  | pos, d :: ds =>
    if d.off % 64 ≠ 0 ∨ d.off < pos ∨ env < d.off + d.size ∨ !Bytes.zeroAt b pos (d.off - pos) then some d.id
    else layoutFault b env (d.off + d.size) ds

/-- Why a stream is rejected: REASON, SECTION and DETAIL of TWR_STREAM_STATUS (R71, R72). -/
abbrev Reject := Nat × Nat × Nat

/-- A condition of a validation step. -/
def step71 (ok : Bool) (reason : Nat) (sec detail : Nat := 0) : Except Reject Unit := if ok then .ok () else .error (reason, sec, detail)

/-- No element for which a step's condition fails; else the first, by identifier. -/
def stepAll (ds : List DirEntry) (ok : DirEntry → Bool) (reason : Nat) : Except Reject Unit :=
  match ds.find? (fun d => !ok d) with
  | some d => .error (reason, d.id % 256, 0)
  | none => .ok ()

/-- Step 6 (R57, R58, R60, R61). -/
def directoryStep (b : Bytes) (env : Nat) (ds : List DirEntry) : Except Reject Unit := do
  let top := 128 + 32 * ds.length
  step71 (within 2 14 ds.length && env % 64 == 0 && decide (top ≤ env)) 6
  match (ds.zip (ds.drop 1)).find? (fun p => decide (p.2.id ≤ p.1.id)) with
  | some p => .error (6, p.2.id % 256, 0)
  | none => .ok ()
  match layoutFault b env top ds with
  | some id => .error (6, id % 256, 0)
  | none => .ok ()
  stepAll ds (fun d => within 1 14 d.id && d.version == 1) 6
  step71 (ds.any (fun d => d.id == 1) && ds.any (fun d => d.id == 14)) 6
  stepAll ds (fun d => (List.range 46).all (fun i => !d.mask.getLsbD i || sectionPermits d.id i)) 6

/-- Step 7: reserved fields of the header, the directory and the envelope (R55, R57, R65). -/
def reservedStep (b : Bytes) (env : Nat) (ds : List DirEntry) : Except Reject Unit := do
  step71 (decide (Bytes.le b 16 4 < 2 ∧ Bytes.at b 32 < 16) && Bytes.zeroAt b 33 7) 7
  stepAll ds (fun d => Bytes.zeroAt b (d.pos + 12) 4 && decide (d.mask.toNat < 2 ^ 46) && Bytes.zeroAt b (d.pos + 24) 8) 7
  step71 (Bytes.zeroAt b (env + 6) 2 && Bytes.zeroAt b (env + 2105) 7 && Bytes.zeroAt b (env + 5421) 3) 7

/-- An MCC's base meets R214. -/
def Mcc.baseOk (m : Mcc) : Bool := m.hbmBase.toNat % 2 ^ (fld m.ilv 4 0 + fld m.ilv 9 8) == 0

/-- Apply preset entries (R759), those of clamped islands ignored (R61). -/
def State.withPresets (s : State) (es : List Bytes) : State :=
  es.foldl (fun s e =>
    let (i, off) := presetAt e
    if s.clamped i then s else s.regPut i off (BitVec.ofNat 32 (Bytes.le e 4 4))) s

/-- The offset in a REGISTER_PRESETS section of the first entry of an MCC whose base R214 does not allow, with reset values
for what the section does not name. -/
def badPreset (es : List Bytes) : Option Nat :=
  let t := State.reset.withPresets es
  (es.zipIdx.find? (fun p =>
    let i := (presetAt p.1).1
    within 3 10 i && [0x5000, 0x5004, 0x5008].contains (presetAt p.1).2 && !(t.mcc.get (i - 3)).baseOk)).map (fun p => 20 + 8 * p.2)

/-- Step 8 on one section: the size limit and the encoding. -/
def State.sectionStep (s : State) (b : Bytes) (d : DirEntry) : Except Reject Unit := do
  let x := d.section_ b
  step71 (within 16 (sectionMax d.id) d.size && (bodySize d.id).all (fun n => n == d.size)) 8 d.id (d.pos + 8)
  match firstFail (s.sectionChecks x) with
  | some o => .error (8, d.id, d.off + o)
  | none => .ok ()
  match (if d.id = 2 then badPreset x.entries else none) with
  | some o => .error (8, d.id, d.off + o)
  | none => .ok ()

/-- Step 8: every section in offset order. -/
def State.sectionsStep (s : State) (b : Bytes) : List DirEntry → Except Reject Unit
  | [] => .ok ()
  | d :: ds => do
    s.sectionStep b d
    s.sectionsStep b ds

/-- Step 9 (R62, R63, R67, R471): the digest, the keys and both signatures of BASE. -/
def baseStep (x : StreamSet) : Except Reject Unit :=
  let b := ((x.find 1).map Section.body).getD []
  let n := Bytes.le b 20 4
  let pk := Bytes.slice b (64 + n - 2112) 1952
  let ec := Bytes.slice b (64 + n - 160) 97
  let m := b.take (64 + n)
  step71 (Sha.sha384 b == x.baseDigest && b.length == 3472 + n && Bytes.zeroAt b (1 + n) 63 &&
    Config.romKeyDigest (Bytes.le b 16 2) == Sha.sha384 (pk ++ ec) &&
    Config.mldsaVerify pk (ascii "ONRUS-BASE") m (Bytes.slice b (64 + n) 3309) && Config.ecdsaVerify ec m (Bytes.slice b (3376 + n) 96)) 9 1

/-- The digest that OPERATOR_KEY_DIGEST must equal, none while it is not valid (R68, R480). -/
def State.operatorDigest (s : State) : Option Bytes :=
  if s.lc.state = 4 then (if s.lc.digestValid then some (toLe 48 s.lc.digest.toNat) else none) else some Config.mfgKeyDigest

/-- Steps 10 and 11 (R66 to R68). -/
def State.envelopeStep (s : State) (b : Bytes) (env : Nat) : Except Reject Unit := do
  let d := Bytes.slice b (env + 8) 48
  let pk := Bytes.slice b (env + 56) 1952
  let ec := Bytes.slice b (env + 2008) 97
  let m := b.take (env + 2112)
  step71 (s.operatorDigest == some d && d == Sha.sha384 (pk ++ ec)) 10
  step71 (Config.mldsaVerify pk (ascii "ONRUS-STREAM") m (Bytes.slice b (env + 2112) 3309) &&
    Config.ecdsaVerify ec m (Bytes.slice b (env + 5424) 96)) 11

/-! ### Steps 12 to 15 -/

/-- Bits of ACTIONS that the BASE release requires (R610). -/
def requiredActions (c level : Nat) : Nat := if level < 2 then 0 else if level = 2 ∨ c = 12 then 0x10 else 0x18

/-- An escalation entry lies within R609 and R610. -/
def escalationBounds (e : Bytes) : Bool :=
  let c := Bytes.at e 0
  let (base, ceil, co) := baseClass c
  decide (base ≤ Bytes.at e 1 ∧ ceil ≤ Bytes.at e 2) && (c == 6 || decide (Bytes.at e 3 ≤ co)) &&
    (List.range 5).all (fun l => Bytes.at e (4 + l) &&& requiredActions c l == requiredActions c l)

/-- POWER_GOVERNOR lies within the BASE limits (R426). -/
def governorBounds (b : Bytes) : Bool :=
  decide (Bytes.le b 16 4 ≤ 48000 ∧ Bytes.le b 20 4 ≤ 1500000 ∧ Bytes.le b 24 4 ≤ 250000)

/-- SPIRE_FSM lies within R406. -/
def fsmBounds (es : List Bytes) : Bool :=
  let t := Bytes.le (es.headD []) 0 4
  let a := Bytes.le (es.headD []) 4 4
  let ts := (es.drop 1).take t
  let mine (m : Nat) : List Bytes := ts.filter (fun e => Bytes.at e 0 == m)
  decide (t ≤ 32768 ∧ a ≤ 16384) && ts.all (fun e => decide (Bytes.le e 6 2 + Bytes.at e 5 ≤ a)) &&
    (List.range 64).all (fun m =>
      let l := mine m
      (List.range 32).all (fun st => decide ((l.filter (fun e => Bytes.at e 1 == st || Bytes.at e 1 == 0xFF)).length ≤ 64)))

/-- No island needs more than 256 accumulators (R644). -/
def selectBounds (es : List Bytes) : Bool :=
  let sel := es.map (fun b => BitVec.ofNat 32 (Bytes.le b 0 4))
  (List.range 46).all (fun i => decide ((sel.filter (fun e =>
    selEvent e != 0 && (selIsland e == i || (selIsland e == 63 && raisesEvent i (selEvent e))))).length ≤ 256))

/-- The archive's base once the presets of a set are applied (R761). -/
def State.archiveBase (s : State) (x : StreamSet) : Nat := (s.withPresets (x.entries 2)).str.base.toNat

/-- Every granule of a range maps to an MCC (R763). -/
def State.rangeMaps (s : State) (start len : Nat) : Bool := (List.range len).all (fun g => (s.hbmPort (4096 * (start + g))).isSome)

/-- The archive's entry fits (R763), as a class C region does (R177, R760); it need not before the first commit is past, or with no base. -/
def State.archiveFits (s : State) (x : StreamSet) : Bool :=
  let base := s.archiveBase x
  s.str.active.isSome || base == 0 ||
    (let t := s.withPresets (x.entries 2)
     !s.rangeTaken (base / 4096) 0x400 && t.rangeMaps (base / 4096) 0x400 && !t.tagsShort (base / 4096, 0x400))

/-- Step 12. -/
def State.capacityStep (s : State) (x : StreamSet) : Except Reject Unit := do
  step71 ((x.entries 4).all (fun e => decide (Bytes.le e 4 4 ≤ resourceCapacity (Bytes.at e 0)))) 12 4
  step71 ((x.find 6).all (fun _ => fsmBounds (x.entries 6))) 12 6
  step71 ((x.entries 7).all escalationBounds) 12 7
  step71 ((x.find 9).all (fun y => governorBounds y.body)) 12 9
  step71 (selectBounds (x.entries 12)) 12 12
  step71 (s.archiveFits x) 12

/-- The owner that a set gives an instance (R92). -/
def StreamSet.ownerOf (x : StreamSet) (r n : Nat) : Nat :=
  match (x.entries 14).find? (fun e => Bytes.le e 0 2 == r && Bytes.le e 2 2 == n) with
  | some e => Bytes.at e 4
  | none => (fixedOwner r n).getD 0

/-- The first RESOURCE_OWNERS entry that breaks R94: it names an instance again, an owner outside the permitted set, or one
against a fixed ownership. -/
def ownerFault : List Bytes → List Bytes → Option Bytes
  | _, [] => none
  | before, e :: es =>
    let r := Bytes.le e 0 2
    let n := Bytes.le e 2 2
    let o := Bytes.at e 4
    if before.any (fun f => f.take 4 == e.take 4) || !(resourceInfo r).2.contains o || (fixedOwner r n).any (fun f => f != o) then some e
    else ownerFault (e :: before) es

/-- DETAIL of step 13. -/
def conflictDetail (r n : Nat) : Nat := 2 ^ 16 * r + n

/-- Step 13 (R94, R404, R426, R663). -/
def StreamSet.conflictStep (x : StreamSet) : Except Reject Unit := do
  match ownerFault [] (x.entries 14) with
  | some e => .error (13, 14, conflictDetail (Bytes.le e 0 2) (Bytes.le e 2 2))
  | none => .ok ()
  let es := x.entries 6
  match (es.drop (1 + Bytes.le (es.headD []) 0 4)).find? (fun a => within 1 2 (Bytes.at a 0) && x.ownerOf 3 (Bytes.le a 2 2) != 5) with
  | some a => .error (13, 6, conflictDetail 3 (Bytes.le a 2 2))
  | none => .ok ()
  let timer := ((x.find 9).map (fun y => Bytes.at y.body 34)).getD 0xFF
  step71 (timer == 0xFF || x.ownerOf 3 timer == 6) 13 9 (conflictDetail 3 timer)
  step71 (!(x.find 13).any (fun y => bit (Bytes.at y.body 29) 0) || x.ownerOf 1 0 == 2) 13 13 (conflictDetail 1 0)

/-- The mask of the islands that are not clamped. -/
def State.unclampedMask (s : State) : BitVec 64 :=
  BitVec.ofNat 64 (((List.range 46).map (fun i => if s.clamped i then 0 else 2 ^ i)).sum)

/-- A section counts as changed (R767). -/
def State.sectionChanged (s : State) (old new : StreamSet) (id : Nat) : Bool :=
  match old.find id, new.find id with
  | some a, some b => a.body != b.body || (a.mask &&& s.unclampedMask) != (b.mask &&& s.unclampedMask)
  | none, none => false
  | _, _ => true

/-- Step 14 (R73). -/
def State.bootStep (s : State) (x : StreamSet) : Except Reject Unit :=
  match s.str.active with
  | none => .ok ()
  | some old => do
    step71 (!s.sectionChanged old x 1) 14 1
    step71 (!s.sectionChanged old x 2) 14 2

/-- Steps 12 to 14, which a retry runs again (R88). -/
def State.laterSteps (s : State) (x : StreamSet) : Except Reject Unit := do
  s.capacityStep x
  x.conflictStep
  s.bootStep x

/-- Steps 1 to 15 on a stream of `len` supplied bytes (R71). -/
def State.validate (s : State) (b : Bytes) (len : Nat) : Except Reject StreamSet := do
  let env := Bytes.le b 28 4
  step71 (decide (128 ≤ b.length) && b.take 4 == [0x4F, 0x4E, 0x53, 0x53] && Bytes.le b 4 2 == 1 && Bytes.le b 6 2 == 128 && Bytes.le b 24 4 == 128 &&
    Bytes.slice b env 4 == [0x4F, 0x4E, 0x53, 0x45] && Bytes.slice b (env + 4) 2 == [0x01, 0x00]) 1
  step71 (decide (Bytes.le b 8 4 ≤ 4194304 ∧ Bytes.le b 8 4 = env + 5520 ∧ Bytes.le b 8 4 = len ∧ len = b.length)) 2
  step71 (Bytes.le b 22 2 == 0x00A0) 3
  step71 (bit (Bytes.at b 32) s.lcBit) 4
  step71 (decide (s.dom.streamFloor.toNat ≤ Bytes.le b 12 4)) 5
  let ds := directory b
  directoryStep b env ds
  reservedStep b env ds
  s.sectionsStep b ds
  let x := streamSet b
  baseStep x
  s.envelopeStep b env
  s.laterSteps x
  step71 (x.commitTime == 0 || decide (s.spr.time.counter.toNat < x.commitTime.toNat)) 15
  return x

end Sys2Proof.Machine
end

