-- ==== Sys2Proof/Machine/Stream.lean ====
section
/-!
DEFINITION. Loading a structure stream, the swap of the active set, island commits and reloads, and the stream archive
(spec/02_structure_stream.md R69 to R91, R95; spec/19_register_map.md R755, R756, R759 to R763).
-/

namespace Sys2Proof.Machine

/-- Change Tower's stream record. -/
def State.onStr (s : State) (f : Stream → Stream) : State := { s with str := f s.str }

/-! ### Loading (R69 to R71, R88) -/

/-- The commands that wait for a load or swap are answered with TWR_STREAM_STATUS (R603). -/
def State.streamAnswer (s : State) : State :=
  s.completeWhere (fun c => c.started && (c.code == 1 || c.code == 2)) 0 [BitVec.ofNat 32 s.str.statusWord] none

/-- Tower writes a stream's sections into the shadow sets of the islands that run (R70). -/
def State.writeShadows (s : State) (x : StreamSet) : State :=
  (List.range 46).foldl (fun s i => if i ≠ 0 ∧ s.live i then s.onIsl i (fun r => { r with shadow := x.forIsland i }) else s) s

/-- The shadow sets are discarded. -/
def State.dropShadows (s : State) : State :=
  { s with isl := s.isl.mapKeys (fun _ r => { r with shadow := [] }), str := { s.str with shadow := none } }

/-- A stream is rejected (R71, R72). -/
def State.streamReject (s : State) (r : Reject) : State :=
  let (reason, sec, detail) := r
  s.dropShadows.onStr (fun x => { x with state := 5, reason := BitVec.ofNat 8 reason, section_ := BitVec.ofNat 8 sec, island := 0x3F,
                                          detail := BitVec.ofNat 32 detail })

/-- A stream of `len` bytes has been read (R71): VALIDATED, or REJECTED. DESIGN CHOICE (log entry 93): a load made while an
aborted swap's set is still held VALIDATED (R69, R88) takes the shadow set's place, and that set is discarded as the read
begins. -/
def State.streamRead (s : State) (b : Bytes) (len : Nat) : State :=
  let s := s.dropShadows
  match s.validate b len with
  | .ok x => (s.writeShadows x).onStr (fun y => { y with state := 2, reason := 0, section_ := 0, island := 0x3F, detail := 0, shadow := some x })
  | .error r => s.streamReject r

/-- No archive exists although the first stream has committed (R762). -/
def State.noArchive (s : State) : Bool := s.pwr.committed && (s.region archiveRegion).entries.isEmpty

/-- STREAM_LOAD (R69, R70, R762): BUSY during a load, a swap or a life-cycle transition (meeting cases of
spec/11_life_cycle.md). -/
def State.streamLoad (s : State) (c : Cmd) (addr : BitVec 64) (len : Nat) (buf : Buf) : State :=
  if s.str.busy ∨ s.lc.running.isSome then s.answer c 5
  else if s.noArchive then s.answer c 8 [1]
  else s.withBuffer c addr len buf (fun s b =>
    let s := (s.streamRead b len).hold c
    if s.str.state = 5 then s.streamAnswer else s)

/-- STREAM_LOAD. -/
def execStreamLoad (h : Hdr) (addr : BitVec 64) (len : Word32) (buf : Buf) (dt : Nat) (s : State) : Host.Outcome State Fault Refusal :=
  .next ((s.advance dt).command h 1 (addrWords addr ++ [len]) (fun s c => s.streamLoad c addr len.toNat buf))

/-- BOOT_STREAM_LOAD (R735, R446): Tower firmware, once started, reads the boot stream from flash and asks for the reserved
keys. A flash that holds no stream gives one that fails step 1. -/
def State.bootLoad (s : State) (stream : Buf) : State :=
  if !s.fwUp ∨ s.str.busy ∨ s.pwr.committed then s
  else
    let b := stream.getD []
    let asked := s.dom.queue.isEmpty && (s.slot 0).state == 0
    State.streamRead (if asked then s.reservedKeys else s) b b.length

/-- BOOT_STREAM_LOAD. -/
def execBootStreamLoad (stream : Buf) (dt : Nat) (s : State) : Host.Outcome State Fault Refusal := .next ((s.advance dt).bootLoad stream)

/-! ### Spire's own tables (R81, R95, R408, R413) -/

/-- The transitions of a machine, each with the actions it names. -/
def machineTable (es : List Bytes) (m : Nat) : List (Bytes × List Bytes) :=
  let t := Bytes.le (es.headD []) 0 4
  let acts := es.drop (1 + t)
  (((es.drop 1).take t).filter (fun e => Bytes.at e 0 == m)).map (fun e => (e.take 6, (acts.drop (Bytes.le e 6 2)).take (Bytes.at e 5)))

/-- The entries of a section for an island of a list of sections. -/
def sectionEntries (l : List Section) (id : Nat) : List Bytes := ((l.find? (fun x => x.id == id)).map Section.entries).getD []

/-- Machines whose transitions or actions differ between two sets of SPR's sections. -/
def changedMachines (old new : List Section) : List Nat :=
  (List.range 64).filter (fun m => machineTable (sectionEntries old 6) m != machineTable (sectionEntries new 6) m)

/-- A machine starts again (R408): state 0, zero counters, and the timers it started stop without an event. -/
def State.machineRestart (s : State) (m : Nat) : State :=
  let stop (t : SpTimer) : SpTimer := if t.running ∧ t.machine = m then { t with running := false, serial := t.serial + 1 } else t
  s.onSpr (fun p => { p with fsm := p.fsm.set m {}, timers := p.timers.mapKeys (fun _ t => stop t) })

/-- The entry of a key in a section's entries. -/
def entryOfKey (es : List Bytes) (k : Nat) : Option Bytes := es.find? (fun e => Bytes.at e 0 == k)

/-- The owner of an instance in a list of sections (R92). -/
def ownerIn (l : List Section) (r n : Nat) : Nat := ({ sections := l } : StreamSet).ownerOf r n

/-- Spire swaps its own tables: machines and comparators that changed start again, and timers and schedule slots leave an
owner that changed (R95). A release under way on a timer that the governor gives up goes on at its next tick (R431; log
entry 100). -/
def State.spireTables (s : State) (old new : List Section) : State :=
  let s := (changedMachines old new).foldl State.machineRestart s
  let s := (List.range 64).foldl (fun s n =>
    match entryOfKey (sectionEntries new 8) n with
    | some e =>
      if entryOfKey (sectionEntries old 8) n == some e then s
      else s.onSpr (fun p => { p with curves := p.curves.set n false, curveDue := p.curveDue.set n (s.now + 1000 * Bytes.le e 12 4) })
    | none => s.onSpr (fun p => { p with curves := p.curves.set n false, curveDue := p.curveDue.set n 0 })) s
  let s := (List.range 32).foldl (fun s n =>
    if ownerIn old 3 n ≠ ownerIn new 3 n then s.onTimer n (fun t => { t with running := false, serial := t.serial + 1 }) else s) s
  let timer (l : List Section) : Nat := Bytes.at (((l.find? (fun x => x.id == 9)).map Section.body).getD []) 34
  let s := if timer old = timer new then s else s.onSpr (fun p => { p with gov := { p.gov with releasing := false } })
  (List.range 8).foldl (fun s n =>
    if ownerIn old 4 n ≠ ownerIn new 4 n then s.onTime (fun t => { t with sched := t.sched.modify n (fun x => { x with armed := false }) }) else s) s

/-! ### An island's commit (R75 to R77, R80, R91, R755, R756, R759) -/

/-- The LANE_MAP entry of a cluster in its sections. -/
def laneEntry (l : List Section) (c : Nat) : Option Bytes := entryOfKey (sectionEntries l 3) c

/-- Take the placement of a LANE_MAP entry, or the one of R29 without an entry (R75, R136): what belongs to a physical lane
moves with it. -/
def State.placeLanes (s : State) (c : Nat) (e : Option Bytes) : State :=
  let old := (socketNums c).map (fun n => s.socket c n)
  let act := match e with
    | some b => Bytes.le b 2 2
    | none => 2 ^ activeCount c - 1
  let laneAt (n : Nat) : Nat := match e with
    | some b => bits (Bytes.le b 8 8) (4 * n + 3) (4 * n)
    | none => n
  let s := (socketNums c).foldl (fun s n =>
    let k := (old.find? (fun x => x.lane.toNat == laneAt n)).getD {}
    s.onSocket c n (fun _ => { k with
      lane := BitVec.ofNat 4 (laneAt n), role := if bit act n then 0 else if k.role = 2 then 2 else 1
      activity := if k.powered then 0 else 3, target := 0, issues := 0 })) s
  s.onCluster c (fun x => { x with turn := 0, window := 0, auditSpares := [] })

/-- Counters whose selection changes restart at zero when their island commits; those of no single island when OBS does
(R77). -/
def State.restartCounters (s : State) (i : Nat) (old new : List Section) : State :=
  let sel (l : List Section) : List Word32 := (sectionEntries l 12).map (fun b => BitVec.ofNat 32 (Bytes.le b 0 4))
  let (a, b) := (sel old, sel new)
  (List.range (max a.length b.length)).foldl (fun s k =>
    let (x, y) := ((a[k]?).getD 0, (b[k]?).getD 0)
    let mine := selIsland x == i || selIsland y == i || (i == obsIx && (selIsland x == 63 || selIsland y == 63))
    if x != y && mine then s.onObs (fun o => { o with live := o.live.set (16 + k) 0 }) else s) s

/-- The mode of a mailbox in TWR's sections (R586, R587): QUEUE while true. -/
def mailboxQueue (l : List Section) (n : Nat) : Bool :=
  match entryOfKey (sectionEntries l 5) n with
  | some e => Bytes.at e 1 == 1
  | none => n != 0

/-- Mailboxes take the modes of the new set. -/
def State.setModes (s : State) (l : List Section) : State :=
  (List.range 160).foldl (fun s n => s.onMbx n (fun m => { m with queueMode := mailboxQueue l n })) s

/-- The archive's base may be used (R214): no MCC of its range has a base that R214 does not allow. -/
def State.archivePlaced (s : State) (x : StreamSet) (base : Nat) : Bool :=
  let t := s.withPresets (x.entries 2)
  base != 0 && (t.rangeMccs (base / 4096) 0x400).all (fun k => (t.mcc.get k).baseOk)

/-- The contents of Range Ownership Table entry 0 (R760): the 4 MiB of the archive, class C under slot 0, TOWER. -/
def archiveEntry (base : Nat) : Entry := BitVec.ofNat 128 (base / 4096 + 2 ^ 40 * 0x400 + 2 ^ 92 + 2 ^ 94 * 3 + 2 ^ 107)

/-- At TWR's first commit the archive's entry goes from FREE to SCRUBBING (R760 to R762). -/
def State.archiveCreate (s : State) (x : StreamSet) : State :=
  let base := s.str.base.toNat
  if s.archivePlaced x base then
    let s := s.setMaster 0 (archiveEntry base)
    let s := s.onRegion archiveRegion (fun _ => { cls := 1, entries := [0], slot := some 0, phase := .scrubbing })
    (s.regionScrub archiveRegion).settle
  else s

/-- The first commit of an island (R214, R755, R756, R759): its presets, the base check of an MCC, Tower's record of its RWL
registers, and the lock. -/
def State.firstCommit (s : State) (i : Nat) (x : StreamSet) : State :=
  let mine := (x.entries 2).filter (fun e => (presetAt e).1 == i)
  let s := mine.foldl (fun s e => s.regPut i (presetAt e).2 (BitVec.ofNat 32 (Bytes.le e 4 4))) s
  let s := if 3 ≤ i ∧ i ≤ 10 then s.onMcc (i - 3) (fun m => { m with badBase := !m.baseOk }) else s
  let rwl := (rwlOffsets i).map (fun o => (i, o, s.regValue true i o))
  let s := (s.onStr (fun y => { y with rwl := y.rwl ++ rwl })).onIsl i (fun r => { r with locked := true })
  if i = 1 then s.archiveCreate x else s

/-- The replica of an island takes Tower's copy of the table (R275). -/
def State.loadReplica (s : State) (i : Nat) : State :=
  if 3 ≤ i ∧ i ≤ 12 then
    let keep := { s.own with
      rep := s.own.rep.mapKeys (fun k e => if k / 8192 = i - 3 then 0 else e), inFlight := s.own.inFlight.filter (fun u => u.1 != i) }
    let s := s.own.master.cells.foldl (fun s c => s.setRep i c.1 c.2) { s with own := keep }
    if i ≤ 10 then s.sigCleared (i - 3) else s
  else s

/-- The CP DMA channel of an owner in OBS's sections, as `State.dmaChannel` finds it. -/
def dmaChannelIn (l : List Section) (owner : Nat) : Option Nat := (List.range 4).find? (fun n => ownerIn l 5 n == owner)

/-- OBS takes and lets go what changes its owner (R95): TRIG_IO, and a CP DMA channel. DESIGN CHOICE (log entry 94): a
transfer on a channel that its feature lets go is abandoned as after an ERROR (R656). -/
def State.obsOwners (s : State) (old new : List Section) : State :=
  let s := s.trigDrive (ownerIn new 1 0 == 2)
  let lost (o : Nat) : Bool := match dmaChannelIn old o with
    | some n => ownerIn new 5 n != o
    | none => false
  let s := if lost 0x0A then s.snapshotDone false else s
  if lost 4 then s.traceDrainDone false else s

/-- Island `i` takes the sections of a set: the effects of its commit on what it runs. -/
def State.takeSections (s : State) (i : Nat) (x : StreamSet) : State :=
  let r := s.isl.get i
  let new := x.forIsland i
  let s := if r.locked then s else s.firstCommit i x
  let s := (s.flush i).restartCounters i r.active new
  let s := if i = 2 then s.spireTables r.active new else s
  let s := if isCluster i && laneEntry r.active i != laneEntry new i then s.placeLanes i (laneEntry new i) else s
  let s := if i = 1 then s.setModes new else s
  let s := if i = obsIx then s.obsOwners r.active new else s
  let s := if r.loaded then s else s.loadReplica i
  (s.onIsl i (fun r => { r with active := new, shadow := [], generation := x.generation, loaded := true })).unclamp i

/-! ### Admission after a swap (R80) -/

/-- A request that has waited at an ingress is taken as it would have been on its arrival. -/
def State.replay (s : State) (c : Instr) : State :=
  match c with
  | .mccWriteRequest k q => s.mccTake k.val q .wr
  | .mccReadRequest k q => s.mccTake k.val q .rd
  | .mccAtomicRequest k q => s.mccTake k.val q .at_
  | .pccWriteRequest p q => s.pccTake p.val q .wr
  | .pccReadRequest p q => s.pccTake p.val q .rd
  | .pccAtomicRequest p q => s.pccTake p.val q .at_
  | .fabricSend f q => s.fabricSend f.val q
  | .packetReceive f pkt buf => (s.packetReceive f.val pkt buf.toNat).removals
  | .hostOutboundRequest q => s.hccRetry.hostOutbound q
  | .hostInboundTlp ctx tlp => s.hccRetry.hostInbound ctx tlp
  | .siteRequest i q => s.siteRequest i.val q
  | .inboundSiteRequest i link q => s.inboundSite i.val link q
  | _ => s

/-- An island admits work again: it enters RUN, and what waited goes on in its order. -/
def State.admitWork (s : State) (i : Nat) : State :=
  let f := (s.isl.get i).ingress
  let (items, f) := f.drain (fifoDepth i) f.items.length
  let s := s.onIsl i (fun r => { r with swap := .run, ingress := f })
  let s := if isCluster i then s.clusterPump i else s
  let s := if i = 43 then s.combine else s
  let s := if i = obsIx then s.trigDrive (ownerIn (s.isl.get i).active 1 0 == 2) else s
  items.foldl State.replay s

/-! ### PREPARE (R74 to R78, R80) -/

/-- A cluster has no request outstanding and none waiting (R74). -/
def State.clusterQuiet (s : State) (c : Nat) : Bool :=
  let m := s.mem.get c
  m.ops.isEmpty && m.reqs.isEmpty && (s.clusters.get c).items.isEmpty && (s.isl.get c).ingress.items.isEmpty &&
    (if 13 ≤ c ∧ c ≤ 28 then
      (s.entriesWhere (c - 13) (fun x => !x.waiting.isEmpty || !x.kept.isEmpty || !x.held.isEmpty || !x.rel.isEmpty)).isEmpty
     else if c = 29 then s.hcc.flights.isEmpty && s.hcc.waitOut.isEmpty && s.hcc.waitIn.isEmpty && s.hcc.waitCpl.isEmpty && s.hcc.asks.isEmpty
     else true)

/-- Formats that open signatures and outstanding checks use (R76). -/
def State.formatsInUse (s : State) : List Nat :=
  let sigs := s.bel.sigs.keysWhere (fun h g => g.state == .opened ||
    s.bel.checks.countWhere (fun _ c => c.used && (c.a == h || c.b == h || c.c == h)) != 0)
  sigs.map (fun h => (s.bel.sigs.get h).format)

/-- A key whose entry differs between two lists of sections. -/
def entryDiffers (old new : List Section) (id k : Nat) : Bool :=
  entryOfKey (sectionEntries old id) k != entryOfKey (sectionEntries new id) k

/-- PARTITION_POOL falls below what is allocated (R76). -/
def State.poolShort (s : State) (new : List Section) : Bool :=
  (List.range 14).any (fun k =>
    let r := k + 1
    let (pool, ceil) := match entryOfKey (sectionEntries new 4) r with
      | some b => (Bytes.le b 4 4, Bytes.le b 8 4)
      | none => (0, 0)
    decide (pool < s.allotted r) || s.prt.parts.cells.any (fun c => c.2.state != .none && decide (ceil < (c.2.allot[k]?).getD 0)))

/-- Island index of FTU. -/
def ftuIx : Nat := 45

/-- A section counts as changed for island `i` (R767): a mask that differs counts only for the islands that gain or lose the
section. -/
def changedFor (old new : StreamSet) (id i : Nat) : Bool :=
  match old.find id, new.find id with
  | some a, some b => a.body != b.body || a.mask.getLsbD i != b.mask.getLsbD i
  | none, none => false
  | _, _ => true

/-- The trace SRAM's set-up or owner differs between two streams, as FTU counts it (R76, R767). -/
def State.traceTouched (s : State) (x : StreamSet) : Option Nat :=
  let old := s.str.active.getD {}
  if changedFor old x 13 ftuIx then some 13
  else if old.ownerOf 2 0 ≠ x.ownerOf 2 0 then some 14
  else none

/-- Why island `i` refuses PREPARE (R74, R76): REASON and SECTION. -/
def State.refusesSwap (s : State) (i : Nat) (x : StreamSet) : Option (Nat × Nat) :=
  let old := (s.isl.get i).active
  let new := x.forIsland i
  let formats (l : List Nat) : Bool := l.any (fun n => entryDiffers old new 10 n)
  if isCluster i && laneEntry old i != laneEntry new i && !s.clusterQuiet i then some (0x12, 3)
  else if i = 1 then
    if s.poolShort new then some (0x10, 4)
    else if (List.range 160).any (fun n =>
        let m := s.mbx.get n
        m.queueMode != mailboxQueue new n && !(m.tx.isEmpty && m.rx.isEmpty)) then some (0x10, 5)
    else none
  else if 3 ≤ i ∧ i ≤ 10 then (if formats s.formatsInUse then some (0x10, 10) else none)
  else if i = 43 then
    if formats s.formatsInUse then some (0x10, 10)
    else if s.bel.checks.countWhere (fun _ c => c.used && entryDiffers old new 11 c.curve) != 0 then some (0x10, 11)
    else none
  else if i = obsIx then
    if s.obs.frozen && sectionEntries old 12 != sectionEntries new 12 then some (0x10, 12)
    else if s.obs.trace = .frozen ∧ changedFor (s.str.active.getD {}) x 13 obsIx then some (0x10, 13)
    else none
  else if i = ftuIx then (if s.ftu.target.isSome then (s.traceTouched x).map (fun n => (0x10, n)) else none)
  else none

/-- Spire's own refusal (R76): a machine whose table changes is in a state other than 0. -/
def State.spireRefuses (s : State) (x : StreamSet) : Bool :=
  (changedMachines (s.isl.get 2).active (x.forIsland 2)).any (fun m => (s.spr.fsm.get m).state != 0)

/-- The participants (R78, R81): every island but DOM and SPR that is present, not clamped and powered. -/
def State.swapParticipants (s : State) : List Nat :=
  (List.range 46).filter (fun i => i != 0 && i != 2 && s.live i && s.powered i && !s.loading i)

/-- The swap ends in ABORTED (R81, R72, R88): the shadow set stays, and the commands that waited are answered. -/
def State.swapAbort (s : State) (reason sec island : Nat) : State :=
  let s := s.onSpr (fun p => { p with
    coord := .idle, abortTo := p.abortTo ++ p.participants.filter (fun i => !p.abortTo.contains i), participants := [], prepared := [], refused := [] })
  (s.onStr (fun x => { x with state := 6, reason := BitVec.ofNat 8 reason, section_ := BitVec.ofNat 8 sec, island := BitVec.ofNat 6 island })).streamAnswer

/-- Spire broadcasts PREPARE and opens its window, unless it refuses itself (R81). -/
def State.prepareStart (s : State) : State :=
  match s.str.shadow with
  | none => s
  | some x =>
    let s := (s.writeShadows x).onStr (fun y => { y with state := 3 })
    if s.spireRefuses x then s.swapAbort 0x10 6 2
    else
      let ps := s.swapParticipants
      s.onSpr (fun p => { p with coord := .collecting, participants := ps, prepared := [], committed := [], refused := [] })

/-- COMMIT_TIME_REACHED (R71, R81): a VALIDATED set's time has come, or it named none. -/
def State.commitTime (s : State) : State :=
  match s.str.shadow with
  | some x =>
    if s.str.state = 2 ∧ s.spr.coord = .idle ∧ s.live 2 ∧ (x.commitTime = 0 ∨ x.commitTime.toNat ≤ s.spr.time.counter.toNat) then s.prepareStart
    else s
  | none => s

/-- COMMIT_TIME_REACHED. -/
def execCommitTimeReached (dt : Nat) (s : State) : Host.Outcome State Fault Refusal := .next ((s.advance dt).atStep stepCompare).commitTime

/-- STREAM_RETRY (R88): steps 12 to 14 again, then PREPARE at once; STATE when no set is held VALIDATED after an ABORT. -/
def State.streamRetry (s : State) (c : Cmd) : State :=
  match s.str.shadow with
  | some x =>
    if s.str.state ≠ 6 then s.answer c 7
    else match s.laterSteps x with
      | .ok _ => ((s.onStr (fun y => { y with reason := 0, section_ := 0, island := 0x3F, detail := 0 })).hold c).prepareStart
      | .error r => ((s.hold c).streamReject r).streamAnswer
  | none => s.answer c 7

/-- STREAM_RETRY. -/
def execStreamRetry (h : Hdr) (s : State) : Host.Outcome State Fault Refusal := .next (s.command h 2 [] State.streamRetry)

/-- PREPARE reaches an island in RUN (R80): it refuses, or drains. -/
def State.islandPrepare (s : State) (i : Nat) : State :=
  let p := s.spr
  match s.str.shadow with
  | some x =>
    if p.coord = .collecting ∧ p.participants.contains i ∧ (s.isl.get i).swap = .run ∧ !p.refused.any (fun r => r.1 == i) ∧ !p.abortTo.contains i then
      match s.refusesSwap i x with
      | some (reason, sec) => s.onSpr (fun p => { p with refused := p.refused ++ [(i, 256 * reason + sec)] })
      | none => s.onIsl i (fun r => { r with swap := .draining })
    else s
  | none => s

/-- ISLAND_PREPARE. -/
def execIslandPrepare (i : Fin 46) (s : State) : Host.Outcome State Fault Refusal := .next (s.islandPrepare i.val)

/-- An island is at its boundary (R78). -/
def State.atBoundary (s : State) (i : Nat) : Bool :=
  if isCluster i then
    let c := s.clusters.get i
    c.items.isEmpty && c.swap.isNone && !(s.mem.get i).ops.any (fun o => o.phase == .verdict)
  else if i = 42 then s.nwt.held.isEmpty && !s.nwt.motion.any (fun g => !g.commit.isEmpty)
  else true

/-- BOUNDARY_REACHED (R78, R80, R95): PREPARED goes to Spire. OBS lets TRIG_IO go, from
here to its COMMIT, when the pad's owner changes. -/
def State.boundary (s : State) (i : Nat) : State :=
  if (s.isl.get i).swap = .draining ∧ s.atBoundary i then
    let s := s.onIsl i (fun r => { r with swap := .prepared })
    let r := s.isl.get i
    if i = obsIx ∧ ownerIn r.active 1 0 ≠ ownerIn r.shadow 1 0 then s.trigDrive false else s
  else s

/-- BOUNDARY_REACHED. -/
def execBoundaryReached (i : Fin 46) (s : State) : Host.Outcome State Fault Refusal := .next (s.boundary i.val)

/-! ### COMMIT (R81 to R84, R87, R89, R91) -/

/-- The BLOCK_RESET notice is due once per reset (R631): the first stream has committed and ROOT_STATE is READY. -/
def State.resetNotice (s : State) : State :=
  if s.cap.resetNotice ∧ s.pwr.committed ∧ s.dom.rootState = 2 then
    let n : NoticeReq := { kind := 1, mask := BitVec.allOnes 128 }
    { s with cap := { s.cap with resetNotice := false, notices := s.cap.notices ++ [n] } }
  else s

/-- Islands that run and are no participants (R78, R81): they were unpowered, or loading, at PREPARE. -/
def State.idleIslands (s : State) : List Nat :=
  (List.range 46).filter (fun i => i != 0 && i != 2 && s.live i && !s.spr.participants.contains i)

/-- At the COMMIT broadcast an island that is no participant has to obtain its sections of the new generation before it
admits work (R84, R86); its presets and locks are those of the first commit (R91). DESIGN CHOICE (log entry 92): so has one
that has powered on, and loaded, since PREPARE. -/
def State.outdate (s : State) (x : StreamSet) (i : Nat) : State :=
  let s := if (s.isl.get i).locked then s else s.firstCommit i x
  s.onIsl i (fun r => { r with loaded := false, clampOff := false, shadow := [] })

/-- The last PREPARED has arrived (R81, R84, R89): Spire swaps its own tables and broadcasts COMMIT; Tower records the
committed generation. -/
def State.commitBroadcast (s : State) : State :=
  match s.str.shadow with
  | none => s
  | some x =>
    let idle := s.idleIslands
    let s := s.takeSections 2 x
    let s := s.onSpr (fun p => { p with coord := .committing, commitTo := p.participants, committed := [], refused := [], commitCount := satInc p.commitCount })
    let s := s.onStr (fun y => { y with active := some x, shadow := none, copied := false })
    let s := { s with pwr := { s.pwr with committed := true } }
    let s := if x.raiseFloor ∧ s.dom.streamFloor.toNat < x.generation.toNat then s.onDom (fun d => { d with streamFloor := x.generation }) else s
    let s := s.raiseEvent 0x01 (x.generation.toNat % 65536) 2
    (idle.foldl (fun s i => s.outdate x i) s).resetNotice

/-- PREPARED_RECEIVED (R81). -/
def State.preparedTaken (s : State) (i : Nat) : State :=
  let p := s.spr
  if p.coord = .collecting ∧ p.participants.contains i ∧ !p.prepared.contains i ∧ (s.isl.get i).swap = .prepared then
    let s := s.onSpr (fun p => { p with prepared := p.prepared ++ [i] })
    if s.spr.participants.all s.spr.prepared.contains then s.commitBroadcast else s
  else s

/-- PREPARED_RECEIVED. -/
def execPreparedReceived (i : Fin 46) (s : State) : Host.Outcome State Fault Refusal := 
  .next ((s.atStep stepArrive).preparedTaken i.val)

/-- REFUSED_RECEIVED (R81, R74, R76). -/
def State.refusedTaken (s : State) (i : Nat) : State :=
  match s.spr.coord, s.spr.refused.find? (fun r => r.1 == i) with
  | .collecting, some (_, v) => s.swapAbort (v / 256) (v % 256) i
  | _, _ => s

/-- REFUSED_RECEIVED. -/
def execRefusedReceived (i : Fin 46) (s : State) : Host.Outcome State Fault Refusal := 
  .next ((s.atStep stepArrive).refusedTaken i.val)

/-- PREPARE_WINDOW_EXPIRY (R81, R82): a PREPARED that has arrived counts; the status names the lowest island that has not
answered. -/
def State.windowExpiry (s : State) : State :=
  let p := s.spr
  if p.coord = .collecting then s.swapAbort 0x11 0 ((p.participants.find? (fun i => !p.prepared.contains i)).getD 0x3F) else s

/-- PREPARE_WINDOW_EXPIRY. -/
def execPrepareWindowExpiry (s : State) : Host.Outcome State Fault Refusal := .next (s.atStep stepCompare).windowExpiry

/-- ISLAND_ABORT (R80). -/
def State.islandAbort (s : State) (i : Nat) : State :=
  if s.spr.abortTo.contains i then
    let s := s.onSpr (fun p => { p with abortTo := p.abortTo.erase i })
    if (s.isl.get i).swap = .run then s else s.admitWork i
  else s

/-- ISLAND_ABORT. -/
def execIslandAbort (i : Fin 46) (s : State) : Host.Outcome State Fault Refusal := .next (s.islandAbort i.val)

/-- COMMIT reaches a PREPARED island (R80, R755, R759). -/
def State.islandCommit (s : State) (i : Nat) : State :=
  match s.str.active with
  | some x =>
    if s.spr.commitTo.contains i ∧ (s.isl.get i).swap = .prepared then
      ((s.onSpr (fun p => { p with commitTo := p.commitTo.erase i })).takeSections i x).admitWork i
    else s
  | none => s

/-- ISLAND_COMMIT. -/
def execIslandCommit (i : Fin 46) (s : State) : Host.Outcome State Fault Refusal := .next (s.islandCommit i.val)

/-- A participant counts as COMMITTED; with the last of them the swap is over (R81, R83). -/
def State.countCommitted (s : State) (i : Nat) : State :=
  let s := s.onSpr (fun p => { p with committed := p.committed ++ [i] })
  if s.spr.participants.all s.spr.committed.contains then
    let s := s.onSpr (fun p => { p with coord := .idle, participants := [], prepared := [], committed := [] })
    (s.onStr (fun x => { x with state := 4, reason := 0, section_ := 0, island := 0x3F })).streamAnswer
  else s

/-- A participant whose COMMITTED is awaited. -/
def State.awaitsCommitted (s : State) (i : Nat) : Bool :=
  s.spr.coord == .committing && s.spr.participants.contains i && !s.spr.committed.contains i

/-- COMMITTED_RECEIVED (R81). -/
def execCommittedReceived (i : Fin 46) (s : State) : Host.Outcome State Fault Refusal :=
  let s := s.atStep stepArrive
  .next (if s.awaitsCommitted i.val ∧ !s.spr.commitTo.contains i.val then s.countCommitted i.val else s)

/-- COMMITTED_TIMEOUT (R83): a hang fault of class 11 on the island, which counts as COMMITTED. -/
def execCommittedTimeout (i : Fin 46) (s : State) : Host.Outcome State Fault Refusal :=
  let s := s.atStep stepCompare
  .next (if s.awaitsCommitted i.val then (s.report 11 i.val 0).countCommitted i.val else s)

/-- A participant resets during a swap (R81, R86): COLLECTING takes it as REFUSED and aborts, COMMITTING as COMMITTED. -/
def State.swapReset (s : State) (i : Nat) : State :=
  let s := s.onSpr (fun p => { p with commitTo := p.commitTo.erase i, abortTo := p.abortTo.erase i })
  let s := if s.awaitsCommitted i then s.countCommitted i else s
  if s.spr.coord = .collecting ∧ s.spr.participants.contains i then
    (s.swapAbort 0x10 0 i).onSpr (fun p => { p with abortTo := p.abortTo.erase i })
  else s

/-! ### The archive and reloads (R86, R87, R697, R756, R762) -/

/-- Identifier and SHA-384 of each section of a set (R87). -/
def StreamSet.digests (x : StreamSet) : List (Nat × Bytes) := x.sections.map (fun y => (y.id, Sha.sha384 y.body))

/-- A write of Tower's into the archive: within one granule, with the Tower mark. -/
def State.archiveWrite (s : State) (addr : Nat) (data : Bytes) : State :=
  s.emit (.hubReq 1 .write false { tid := 0, addr := BitVec.ofNat 52 addr, len := data.length, tdid := 0, tower := true, data := data,
                                   be := List.replicate data.length true, link := 1 })

/-- ARCHIVE_COPY (R87, R760): the committed stream, once after each commit and once the archive's entry is LIVE everywhere. -/
def State.archiveCopy (s : State) : State :=
  match s.str.active with
  | some x =>
    if s.fwUp ∧ (s.region archiveRegion).entries = [0] ∧ (s.region archiveRegion).phase = .live ∧ !s.str.copied then
      let s := ((Bytes.chunks x.bytes 4096).zipIdx).foldl (fun s p => s.archiveWrite (s.str.base.toNat + 4096 * p.2) p.1) s
      s.onStr (fun y => { y with archive := x.digests, copied := true })
    else s
  | none => s

/-- ARCHIVE_COPY. -/
def execArchiveCopy (s : State) : Host.Outcome State Fault Refusal := .next s.archiveCopy

/-- What the archive gives back for an island's sections, one after the other in directory order, has the digests that Tower
keeps (R87, R762). DESIGN CHOICE (log entry 14): from a commit until its stream has been copied, the first one or a later
one, the sections come from the stream itself, and no digest is checked. -/
def State.archiveGood (s : State) (l : List Section) (archive : Buf) : Bool :=
  let rec go : List Section → Bytes → Bool
    | [], b => b.isEmpty
    | x :: xs, b => s.str.archive.any (fun d => d.1 == x.id && d.2 == Sha.sha384 (b.take x.body.length)) && go xs (b.drop x.body.length)
  !s.str.copied || (match archive with
    | some b => go l b
    | none => false)

/-- Tower writes an island's recorded RWL values back, and its fields stay locked (R756). -/
def State.rwlRestore (s : State) (i : Nat) : State :=
  let s := (s.str.rwl.filter (fun r => r.1 == i)).foldl (fun s r => s.regPut i r.2.1 r.2.2) s
  s.onIsl i (fun r => { r with locked := true })

/-- ISLAND_SECTION_LOAD (R86, R87, R275, R697, R756): an island that has left reset obtains its sections, its replica and its
RWL values; a mismatch raises class 16 and leaves it unloaded. -/
def State.sectionLoad (s : State) (i : Nat) (archive : Buf) : State :=
  match s.str.active with
  | some x =>
    if i = 0 ∨ !s.live i ∨ !s.loading i ∨ !s.live 1 then s
    else if !s.archiveGood (x.forIsland i) archive then s.report 16 i 0
    else
      let s := if s.str.rwl.any (fun r => r.1 == i) then s.rwlRestore i else s
      (s.takeSections i x).admitWork i
  | none => s

/-- ISLAND_SECTION_LOAD. -/
def execIslandSectionLoad (i : Fin 46) (archive : Buf) (s : State) : Host.Outcome State Fault Refusal := .next (s.sectionLoad i.val archive)

end Sys2Proof.Machine
end

