-- ==== Sys2Proof/Machine/FieldTest.lean ====
section
/-!
DEFINITION. The field test (spec/15_faults_and_recovery.md R634 to R638, FTU registers).
-/

namespace Sys2Proof.Machine

/-- Change FTU. -/
def State.onFtu (s : State) (f : Ftu → Ftu) : State := { s with ftu := f s.ftu }

/-- Throttle stage 2 is applied (R429, R637). -/
def State.testThrottled (s : State) : Bool := s.spr.gov.stages.getLsbD 1

/-! ### The pattern set (R634) -/

/-- BEAT_SIZE. -/
def patternBeat (b : Bytes) : Nat := Bytes.le b 8 4
/-- BEATS. -/
def patternBeats (b : Bytes) : Nat := Bytes.le b 12 4

/-- The header of a pattern set is well formed for a target kind, and its signatures verify (R634, R635). Only a SITE set may
be unsigned. -/
def patternOk (kind : Nat) (b : Bytes) : Bool :=
  let pk := Bytes.slice b 128 1952
  let ec := Bytes.slice b 2080 97
  let m := b.take 2240
  let n := patternBeat b
  b.length == 5648 && b.take 4 == [0x4F, 0x4E, 0x46, 0x54] && Bytes.le b 4 2 == 1 && Bytes.at b 6 == kind &&
    decide (n % 192 = 0 ∧ 192 ≤ n ∧ n ≤ 65472 ∧ 1 ≤ patternBeats b ∧ Bytes.le b 16 8 = n * patternBeats b) &&
    Bytes.zeroAt b 24 40 && Bytes.zeroAt b 112 16 && Bytes.zeroAt b 2177 63 &&
    (if Bytes.at b 7 = 0xFF then kind == 3 && Bytes.zeroAt b 128 5520
     else decide (Bytes.at b 7 ≤ 3) && Bytes.zeroAt b 5549 3 && Config.romKeyDigest (Bytes.at b 7) == Sha.sha384 (pk ++ ec) &&
       Config.mldsaVerify pk (ascii "ONRUS-FT") m (Bytes.slice b 2240 3309) && Config.ecdsaVerify ec m (Bytes.slice b 5552 96))

/-! ### START (R635, R636) -/

/-- KIND, ISLAND and UNIT name a target of that kind (FTU_CTRL). -/
def State.testTarget (s : State) (kind island unit : Nat) : Bool :=
  match kind with
  | 1 => isCluster island && decide (unit < socketCount island) && !s.clamped island
  | 2 => decide (3 ≤ island ∧ island ≤ 10 ∧ unit = 0) && !s.clamped island
  | 3 => decide (island = 0 ∧ unit < 12) && !s.clamped (sguIx unit)
  | _ => false

/-- A signature has an open partial or a home entry in the unit of MCCk (R372, R374). -/
def State.belfryInUse (s : State) (k : Nat) : Bool :=
  s.bel.sigs.countWhere (fun _ g => g.state == .opened || g.state == .closing || g.state == .merging ||
    (g.state == .closed && g.index % 8 == k)) != 0

/-- The first condition of R635 that refuses a START: its REASON. -/
def State.testRefused (s : State) (kind island unit : Nat) (discard : Bool) (header : Buf) : Option Nat :=
  if s.ftu.target.isSome then some 1
  else if s.spr.coord ≠ .idle then some 2
  else if s.obs.trace = .frozen ∧ !discard then some 3
  else if !s.testTarget kind island unit then some 4
  else if kind = 1 ∧ (s.socket island unit).role = 0 ∧ (s.healthySpares island).isEmpty then some 5
  else if kind = 2 ∧ s.belfryInUse (island - 3) then some 6
  else if kind = 3 ∧ s.siteState unit ≠ 1 then some 7
  else match header with
    | none => some 9
    | some b => if patternOk kind b then none else some 8

/-- The target is taken out of service and cleared (R636 steps 2 and 3): an active lane leaves its socket at the end of the
swap that is ordered here. -/
def State.testTake (s : State) (kind island unit : Nat) : State :=
  match kind with
  | 1 =>
    if (s.socket island unit).role = 0 then s.orderSwap island unit
    else s.onSocket island unit (fun x => { x with underTest := true, activity := if x.powered then 0 else 3, target := 0, tested := false })
  | 2 => { s with bel := { s.bel with scales := s.bel.scales.set (island - 3) [] } }
  | _ => s.emit (.order "SITE_TEST" unit 1)

/-- A test starts: the trace SRAM is lent (R636 step 1, R637). A lane is named by its number, which its socket may change. -/
def State.testBegin (s : State) (kind island unit : Nat) (header : Bytes) : State :=
  let x := s.socket island unit
  let t := if kind = 1 then (kind, island, x.lane.toNat) else (kind, island, unit)
  let s := (s.powerOn ftuIx).traceEmpty .lent
  let s := s.onFtu (fun f => { f with
    result := if s.testThrottled then 2 else 1, reason := 0, beatsDone := 0, firstFail := 0xFFFFFFFF, failCount := 0
    target := some t, wasFaulted := decide (kind = 1 ∧ x.role = 2), header := header, beats := [] })
  s.testTake kind island unit

/-- FIELD_TEST_START: a write of FTU_CTRL. -/
def State.testStart (s : State) (v : Word32) (header : Buf) : State :=
  if !s.regUp ftuIx then s
  else
    let s := s.regPut ftuIx 0x5000 v
    if !v.getLsbD 31 then s
    else
      let (kind, island, unit) := (fld v 1 0, fld v 7 2, fld v 15 8)
      match s.testRefused kind island unit (v.getLsbD 29) header with
      | some r => s.onFtu (fun f => { f with result := 7, reason := BitVec.ofNat 8 r })
      | none => s.testBegin kind island unit (header.getD [])

/-- FIELD_TEST_START. -/
def execFieldTestStart (v : Word32) (header : Buf) (s : State) : Host.Outcome State Fault Refusal := .next (s.testStart v header)

/-! ### Beats (R636 step 4) -/

/-- The target is out of service. -/
def State.testReady (s : State) : Bool :=
  match s.ftu.target with
  | some (1, c, lane) => (match s.laneSocket c lane with
    | some n => (s.socket c n).underTest
    | none => false)
  | some _ => true
  | none => false

/-- A response agrees with the expected one under the mask. -/
def beatMatches (beat response : Bytes) : Bool :=
  let n := beat.length / 3
  let want := Bytes.slice beat n n
  let mask := Bytes.slice beat (2 * n) n
  ((List.range n).all fun i => (Bytes.at response i ^^^ Bytes.at want i) &&& Bytes.at mask i == 0)

/-- FIELD_TEST_BEAT: a beat of BEAT_SIZE bytes, while the test runs (R637). -/
def State.testBeat (s : State) (beat response : Bytes) : State :=
  let f := s.ftu
  if !s.testReady ∨ s.testThrottled ∨ !s.present ftuIx ∨ beat.length ≠ patternBeat f.header ∨ patternBeats f.header ≤ f.beatsDone.toNat then s
  else
    let bad := !beatMatches beat response
    (s.onFtu (fun f => { f with
      beats := f.beats ++ beat, beatsDone := f.beatsDone + 1
      failCount := if bad then satInc f.failCount else f.failCount
      firstFail := if bad ∧ f.failCount = 0 then f.beatsDone else f.firstFail })).countT ftuIx 0x70 128

/-- FIELD_TEST_BEAT. -/
def execFieldTestBeat (beat response : Bytes) (s : State) : Host.Outcome State Fault Refusal := .next (s.testBeat beat response)

/-! ### The end of a test (R636 steps 5 and 6, R638) -/

/-- A lane returns from its test: FAULTED after a failure or when it was so before; else it runs R137 and then is a spare.
An active lane that was never swapped out stays in service. -/
def State.testLane (s : State) (c lane : Nat) (fail : Bool) : State :=
  match s.laneSocket c lane with
  | none => s
  | some n =>
    if !(s.socket c n).underTest then s.onSpr (fun p => { p with swapQueue := dropFirst (fun o => o.1 == c && o.2.1 == n && !o.2.2) p.swapQueue })
    else
      let was := s.ftu.wasFaulted
      let s := s.onSocket c n (fun x => { x with underTest := false })
      if fail then (s.faultLane c n).report 22 c n
      else if was then s
      else s.onSocket c n (fun x => { x with role := 1, powered := s.live c, tested := false, activity := if s.live c then 0 else 3 })

/-- The target of a test returns to service (R638); class 22 names the target's island and unit (log entry 60). -/
def State.testReturn (s : State) (fail : Bool) : State :=
  match s.ftu.target with
  | some (1, c, lane) => s.testLane c lane fail
  | some (2, i, _) =>
    if fail then (s.report 22 i 0).onFtu (fun f => { f with disabled := f.disabled ++ [i - 3] }) else s
  | some (_, _, k) =>
    let s := s.emit (.order "SITE_TEST" k 0)
    if fail then s.report 22 (sguIx k) 0 else s
  | none => s

/-- A test ends with a RESULT: FTU zeroes the trace SRAM and gives it back (R636 step 6). -/
def State.testEnd (s : State) (result : BitVec 4) : State :=
  let s := s.testReturn (result == 4)
  (s.traceEmpty .recording).onFtu (fun f => { f with result := result, reason := 0, target := none, wasFaulted := false, header := [], beats := [] })

/-- The RESULT of a test whose last beat has finished (R638). -/
def Ftu.verdict (f : Ftu) : BitVec 4 :=
  if Bytes.slice f.header 64 48 ≠ Sha.sha384 f.beats then 6 else if f.failCount = 0 then 3 else 4

/-- FIELD_TEST_END: the last beat has finished, or a flash read has failed. -/
def State.testFinish (s : State) (flashOk : Bool) : State :=
  let f := s.ftu
  if f.target.isNone then s
  else if !flashOk then s.testEnd 5
  else if f.beatsDone.toNat = patternBeats f.header then s.testEnd f.verdict
  else s

/-- FIELD_TEST_END. -/
def execFieldTestEnd (flashOk : Bool) (s : State) : Host.Outcome State Fault Refusal := .next (s.testFinish flashOk)

/-- FIELD_TEST_ABORT: ABORT written to FTU_CTRL. -/
def execFieldTestAbort (s : State) : Host.Outcome State Fault Refusal :=
  .next (if s.regUp ftuIx ∧ s.ftu.target.isSome then s.testEnd 5 else s)

end Sys2Proof.Machine
end

