-- ==== Sys2Proof/Machine/Faults.lean ====
section
/-!
DEFINITION. Faults: the escalation unit, the fences of the levels, island resets, ownership detail records, clock monitors and
parity (spec/15_faults_and_recovery.md R608 to R616; spec/09_spire_tables.md R414 to R419;
spec/06_ownership_and_site_guards.md R288 to R290; spec/17_ports_and_pads.md R679, R696; spec/18_islands_clocks_power.md R716,
R725, R726).
-/

namespace Sys2Proof.Machine

/-! ### Requests that an island holds (R612, R696) -/

/-- A request that waits at an island's ingress fails closed; a packet or TLP is discarded. -/
def State.heldFail (s : State) (c : Instr) : State :=
  match c with
  | .mccWriteRequest k q => s.refuseReq (mccIx k.val) (reqFrom q (mccIx k.val)) (reqNorm q .wr) .wr
  | .mccReadRequest k q => s.refuseReq (mccIx k.val) (reqFrom q (mccIx k.val)) (reqNorm q .rd) .rd
  | .mccAtomicRequest k q => s.refuseReq (mccIx k.val) (reqFrom q (mccIx k.val)) (reqNorm q .at_) .at_
  | .pccWriteRequest p q => s.refuseReq (pccIx p.val) (reqFrom q (pccIx p.val)) (reqNorm q .wr) .wr
  | .pccReadRequest p q => s.refuseReq (pccIx p.val) (reqFrom q (pccIx p.val)) (reqNorm q .rd) .rd
  | .pccAtomicRequest p q => s.refuseReq (pccIx p.val) (reqFrom q (pccIx p.val)) (reqNorm q .at_) .at_
  | .fabricSend f q => s.refuseSend f.val q
  | .hostOutboundRequest q => s.refuseHost q
  | .siteRequest i r => if r.q.posted then s else s.emit (.done (.site i.val) r.q.tid.toNat false (siteError r.op r.q.len))
  | .inboundSiteRequest _ link q => if q.posted then s else s.done (reqFrom q link) q.tid.toNat false (siteError (memOp q) q.len)
  | _ => s

/-- The TDID of a request of a memory cluster: the owner of the entry it passed under. -/
def State.reqTdid (s : State) (c : Nat) (r : MemFlight) : Nat :=
  match (s.mem.get c).ops.find? (fun o => o.req == r.id) with
  | some o => Entry.owner o.ent
  | none => Entry.owner (s.repEntry c r.entry)

/-- The operations of PCCp that a metadata line holds up: those whose tag word it holds, or whose counters lie under it. -/
def State.metaWaiters (s : State) (p x : Nat) : List LineOp :=
  let m := s.pcc.get p
  (s.mem.get (pccIx p)).ops.filter (fun o => Entry.cls o.ent != 0 && o.phase == .fetch &&
    match m.nodeOf x with
    | some (level, idx) => m.groupOf o.line / 64 ^ level == idx && (m.node (m.nodeAt 0 (m.groupOf o.line))).isNone
    | none => m.dataLine o.line / 8 == x && o.tagIn.isNone && o.needsRead)

/-- A write that its device link has not accepted is dropped (R202): the tag word and the counter that it has put into the
caches are as before, unless a later write has replaced them (DESIGN CHOICE, log entry 91). -/
def State.writeUndone (s : State) (c : Nat) (o : LineOp) : State :=
  if o.phase ≠ .sent ∨ Entry.cls o.ent = 0 then s
  else if c ≤ 10 then
    let n := (s.mcc.get (c - 3)).localLine o.line
    let s := if (s.mcc.get (c - 3)).tagWord n = some o.tagw then s.tagRestore (c - 3) n o.tagOld else s
    s.unmarkNewkey o
  else if (s.pcc.get (c - 11)).dataTag o.line = some o.tagw then s.metaTagBack (c - 11) o.line o.tagOld
  else s

/-- The fetches of tag and metadata lines that only operations of a list wait for are free (R286). -/
def State.fetchesFree (s : State) (c : Nat) (gone : LineOp → Bool) : State :=
  let idle (l : List LineOp) : Bool := !l.isEmpty && l.all gone
  if c ≤ 10 then
    s.onMcc (c - 3) (fun m => { m with fetching := m.fetching.filter (fun t => !idle (s.tagWaiters (c - 3) t)) })
  else (((s.pcc.get (c - 11)).fetches.map (·.off)).filter (fun x => idle (s.metaWaiters (c - 11) x))).foldl (fun s x =>
    s.metaFetchEnd (c - 11) x) s

/-- Requests of a memory cluster that meet a test complete with ERROR (R286): their line operations end, and the fetch entries that
only those wait for are free. -/
def State.memFail (s : State) (c : Nat) (p : MemFlight → Bool) : State :=
  let rs := (s.mem.get c).reqs.filter p
  let mine (o : LineOp) : Bool := rs.any (fun r => r.id == o.req)
  let s := s.fetchesFree c mine
  let s := ((s.mem.get c).ops.filter mine).foldl (fun s o => (s.writeUndone c o).belfryFailed o) s
  let s := rs.foldl (fun s r => s.retireReq c { r with bad := true } (s.reqTdid c r)) s
  s.onMem c (fun m => { m with ops := m.ops.filter (fun o => !mine o) })

/-- Writes that Newt holds at MCCk complete with ERROR. -/
def State.newtHeldFail (s : State) (k : Nat) : State :=
  let hs := s.nwt.held.filter (fun h => h.1 == k)
  let s := { s with nwt := { s.nwt with held := s.nwt.held.filter (fun h => h.1 != k) } }
  hs.foldl (fun s h =>
    let kind : OpKind := if h.2.1 = .net 1 then .at_ else .wr
    s.refuseReq (mccIx k) (reqFrom h.2.2 (mccIx k)) (reqNorm h.2.2 kind) kind) s

/-! ### What an island reset loses (R612, R696, R731) -/

/-- Re-keys stop and release their held writes while they cannot proceed (R259). -/
def State.movesHalt (s : State) : State := s.movesHaltIf (fun _ => true)

/-- A cluster's lanes, schedules and cap: its lanes power off, and its schedules' writes are reported (R207, R731, R744). -/
def State.clusterReset (s : State) (c : Nat) : State :=
  let s := ((s.clusters.get c).sched.map (·.id)).foldl (fun s n => s.reportWrites c n) s
  let s := s.onCluster c (fun x => { nextItem := x.nextItem, demand := x.demand })
  let s := { s with invals := s.invals.filter (fun p => p.1 != c) }
  (socketNums c).foldl (fun s n => s.onSocket c n (fun x => { x with powered := false, tested := false, activity := 3, target := 0, issues := 0 })) s

/-- The replica of an island is lost: updates on their way to it are not awaited, and its drains count as done (R273, R286). -/
def State.replicaLost (s : State) (i : Nat) : State :=
  let due := (s.own.drains.filter (fun d => d.awaiting.contains i && !s.own.drainDone.contains (i, d.entry))).map (fun d => (i, d.entry))
  { s with own := { s.own with
      inFlight := s.own.inFlight.filter (fun u => u.1 != i), owes := s.own.owes.filter (fun o => o.1 != i)
      drainDone := s.own.drainDone ++ due
      drains := s.own.drains.map (fun d => { d with liveAwait := d.liveAwait.erase i }) } }

/-- MCCk: its dirty tag words are written back first, then its caches, its Belfry unit and its windows are as at reset. -/
def State.mccLost (s : State) (k : Nat) : State :=
  let s := ((s.newtHeldFail k).movesHalt.mccReset k true).belfryReset k
  let s := s.onMcc k (fun m => { m with geckoCtrl := 0x1F, geckoWin := {}, geckoBase := {}, geckoCnt := {} })
  s.onFtu (fun f => { f with disabled := f.disabled.erase k })

/-- FCCf: its streams fail and close, its timers return to their reset value. -/
def State.fccLost (s : State) (f : Nat) : State := (s.fccErase f).onFcc f (fun x => { node := x.node, span := x.span })

/-- HCC: what it holds fails closed, and its streams leave Secure. -/
def State.hccLost (s : State) : State :=
  let s := (s.hcc.ctxs.keysWhere (fun _ x => x.valid && x.state == 2)).foldl State.streamInsecure s
  let s := s.hcc.flights.foldl (fun s f => s.emit (.done f.link f.tid false (List.replicate f.len 0xFF))) s
  let s := s.hcc.waitOut.foldl State.refuseHost s
  s.onHcc (fun h => { h with flights := [], asks := [], waitCpl := [], waitOut := [], waitIn := [] })

/-- SGUi: requests that await their completion fail closed, and the guard is UNADMITTED (R262), with no context and no
occupant; an admission under way ends. -/
def State.sguLost (s : State) (i : Nat) : State :=
  let mine := s.siteFlights.filter (fun f => f.site == i)
  let s := mine.foldl (fun s f => s.emit (.done (.site i) f.tid false (if f.read then List.replicate f.len 0xFF else []))) s
  let s := { s with siteFlights := s.siteFlights.filter (fun f => f.site != i)
                    sct := (List.range 256).foldl (fun t n => t.set (256 * i + n) 0) s.sct }
  (s.onSite i (fun x => { policy := x.policy, linkUp := x.linkUp })).admitAnswer i

/-- OBS: the counters go on (R642); everything else of it is as at reset, but a trace SRAM on loan stays with FTU. -/
def State.obsLost (s : State) : State :=
  (s.trigDrive false).onObs (fun o => { live := o.live, liveHist := o.liveHist, trace := if o.trace = .lent then .lent else .recording })

/-- BFC: the merge or check that ran starts again. -/
def State.bfcLost (s : State) : State :=
  { s with bel := { s.bel with running := none, ready := (match s.bel.running with | some w => [w] | none => []) ++ s.bel.ready } }

/-- FTU: a test ends ABORTED, and its registers are as at reset. -/
def State.ftuLost (s : State) : State :=
  let s := if s.ftu.target.isSome then s.testEnd 5 else s
  s.onFtu (fun f => { disabled := f.disabled })

/-- What the kind of an island loses. -/
def State.kindLost (s : State) (i : Nat) : State :=
  if i ≤ 10 then (s.memFail i (fun _ => true)).mccLost (i - 3)
  else if i ≤ 12 then (s.memFail i (fun _ => true)).pccReset (i - 11)
  else if i ≤ 28 then s.fccLost (i - 13)
  else if i = 29 then s.hccLost
  else if i ≤ 41 then s.sguLost (i - 30)
  else match i with
    | 42 => s.movesHalt
    | 43 => s.bfcLost
    | 44 => s.obsLost
    | _ => s.ftuLost

/-- The RWL fields of an island that resets before they lock return to their reset values; those that have locked keep what
Tower has recorded, and writes back (R731, R755, R756). -/
def State.rwlReset (s : State) (i : Nat) : State :=
  if (s.isl.get i).locked then s
  else if 3 ≤ i ∧ i ≤ 10 then
    let z : Mcc := {}
    s.onMcc (i - 3) (fun m => { m with hbmBase := z.hbmBase, ilv := z.ilv, tagBase := z.tagBase, tagLines := z.tagLines })
  else if 11 ≤ i ∧ i ≤ 12 then
    let z : Pcc := {}
    s.onPcc (i - 11) (fun m => { m with poolBase := z.poolBase, metaBase := z.metaBase, subtrees := z.subtrees })
  else if 13 ≤ i ∧ i ≤ 28 then
    let z : Fcc := {}
    s.onFcc (i - 13) (fun x => { x with node := z.node, span := z.span })
  else s

/-- The latches of an island's registers are as at reset (R753, R754). -/
def State.latchesGone (s : State) (i : Nat) : State := { s with latches := s.latches.filter (fun l => l.island != i) }

/-- An island other than DOM, TWR and SPR is reset (R612, R696): what it holds fails closed; it leaves reset when its PLL has
locked, and then obtains its sections (R86). A freeze marker counts as returned, without what was not yet sent (R649). -/
def State.islandReset (s : State) (i : Nat) : State :=
  if i ≤ 2 ∨ 46 ≤ i ∨ (s.isl.get i).inReset then s
  else
    let s := (s.isl.get i).ingress.items.foldl State.heldFail s
    let s := ((s.kindLost i).rwlReset i).latchesGone i
    let s := if isCluster i then s.clusterReset i else s
    let s := if 3 ≤ i ∧ i ≤ 12 then s.replicaLost i else s
    let s := s.onIsl i (fun r => { inReset := true, clockHeld := r.clockHeld, locked := r.locked, generation := r.generation, active := r.active })
    ((s.swapReset i).markerBack i).afterOwnership.removals

/-! ### The fences of the levels (R608, R610 to R616) -/

/-- The receive entry of an FCC and TDID whose failure was last reported (R323). -/
def State.badReceive (s : State) (f : Nat) (t : Nat) : Option Nat :=
  let es := s.entriesWhere f (fun x => x.recv && x.state != 0 && x.tdid.toNat == t && x.reportAt.isSome)
  es.find? (fun e => es.all (fun d => decide (((s.entry f d).reportAt.getD 0) ≤ ((s.entry f e).reportAt.getD 0))))

/-- What a class fences at L0 at its report, beyond what the reporting unit has fenced by itself (R608): the open signatures of
a Belfry unit. -/
def State.fenceL0 (s : State) (cls : Nat) : State :=
  if cls = 18 then
    let open_ (g : Sig) : Bool := g.state == .opened || g.state == .closing || g.state == .merging
    { s with bel := { s.bel with sigs := s.bel.sigs.mapKeys (fun _ g => if open_ g then g.mark 1 else g) } }
  else s

/-- What a class fences at L1 (R608). The spec gives no REASON for the eviction of class 6: a free value (log entry 4). -/
def State.fenceL1 (s : State) (cls i unit : Nat) (tdid : Option Tdid) (site : Option (Fin 12)) : State :=
  match cls with
  | 5 => if i = 11 ∨ i = 12 then s.spanFence (i - 11) 4 unit else s
  | 6 => match site with
    | some k => let (b, s) := s.draw 1; s.evict k.val (Bytes.leNat b) false
    | none => s
  | 8 => match s.badReceive (i - 13) ((tdid.map (·.toNat)).getD 0) with
    | some e => if 13 ≤ i ∧ i ≤ 28 then s.closeStream (i - 13) e else s
    | none => s
  | 18 => if 3 ≤ i ∧ i ≤ 10 then s.belfryReset (i - 3) else s
  | 21 => (s.onIsl i (fun r => { r with clockHeld := true, goodWindows := 0 })).islandReset i
  | _ => if cls = 11 ∨ cls = 16 ∨ cls = 19 ∨ cls = 20 then s.islandReset i else s

/-- What L2 fences (R613, R614): the contexts and the TDI of the partition that owns the TDID; an ACTIVE partition enters
QUIESCING, with no quiesce fence. -/
def State.fenceL2 (s : State) (tdid : Option Tdid) : State :=
  let p := (tdid.map (fun t => s.spr.tdidOwner.get t.toNat)).getD 0
  if p = 0 then s
  else
    let active := (s.part p).state == .active
    let s := (s.contextsClear p).onTdi p (fun t => { t with state := 3 })
    let s := if active then s.quiesceStart p else s
    s.onPart p (fun x => { x with fenced := true })

/-- The reset of L3, or with TRAY_REQ_N the one of L4 (R615, R616). A class carried out as L3 stays pending at level 3
(R612). -/
def State.faultReset (s : State) (a : FaultAct) : State :=
  let s := if a.level = 4 ∧ !s.pads.trayReq then { s.emit (.pad "TRAY_REQ_N" false) with pads := { s.pads with trayReq := true } } else s
  let s := s.chipReset
  if a.carried then
    (s.onEsc (fun e => { e with classes := e.classes.modify a.cls.val (fun c => { c with pending := true, level := 3 }) })).updateFaultN
  else s

/-- Capture records can be written (R629). -/
def State.captureOn (s : State) : Bool := s.cap.base != 0 && s.cap.slotPages != 0

/-- The bits of a mask that names one TDID. -/
def tdidMask (t : Option Tdid) : BitVec 128 :=
  match t with
  | some t => BitVec.ofNat 128 (2 ^ t.toNat)
  | none => 0

/-- The TDIDs of the partition that owns a TDID. -/
def State.partMask (s : State) (t : Option Tdid) : BitVec 128 :=
  let p := (t.map (fun t => s.spr.tdidOwner.get t.toNat)).getD 0
  if p = 0 then 0 else (s.part p).tdids

/-- The domain-status notice of a fault below L3 (R631). -/
def State.faultNotice (s : State) (a : FaultAct) : State :=
  let two := a.level == 2
  let n : NoticeReq := { kind := if two then 2 else 5, cls := BitVec.ofNat 8 a.cls.val, level := a.level.setWidth 8
                         mask := if two then s.partMask a.tdid else tdidMask a.tdid }
  { s with cap := { s.cap with notices := s.cap.notices ++ [n] } }

/-- Put a fault in the log (SPR_FAULT_LOG, SPR_FAULT_HEAD). -/
def State.logFault (s : State) (a : FaultAct) : State :=
  let t := a.tdid.getD 0
  let lo := a.cls.val * 2 ^ 27 + a.level.toNat * 2 ^ 24 + a.island.val * 2 ^ 18 + a.unit.toNat * 2 ^ 10 + t.toNat * 2 ^ 3 +
    b2n a.tdid.isSome * 4 + 1
  s.onEsc (fun e => { e with
    logWrapped := e.logWrapped || (e.log.get e.logNext.toNat).lo.getLsbD 0
    log := e.log.set e.logNext.toNat { lo := BitVec.ofNat 32 lo, hi := BitVec.ofNat 32 (a.time.toNat / 1024) }
    logNext := e.logNext + 1 })

/-- The level of a fault of a class (R417). -/
def faultLevel (pending : Bool) (current base ceiling : Nat) : Nat :=
  if pending then max current (min (current + 1) ceiling) else base

/-- An L1 or L2 fault is carried out as L3 (R608, R612). -/
def carriedOut (cls island level : Nat) : Bool :=
  decide (level = 1 ∨ level = 2) &&
    ([12, 13, 23].contains cls || ([11, 16, 19, 20, 21].contains cls && decide (island ≤ 2)))

/-- The ACTIONS of a fault (R415): interrupt, notice to Tower firmware, FAULT_N. -/
def State.faultActions (s : State) (a : FaultAct) (acts : Nat) : State :=
  let s := if bit acts 0 then s.irq 32 else s
  let s := if bit acts 1 then s.notice 2 (256 * a.cls.val + a.level.toNat) (256 * a.island.val + a.unit.toNat) else s
  s.updateFaultN

/-- The fences of a fault, from L1 up to L2 (R611). -/
def State.faultFences (s : State) (a : FaultAct) (site : Option (Fin 12)) : State :=
  let s := if 1 ≤ a.level.toNat ∧ !a.carried then s.fenceL1 a.cls.val a.island.val a.unit.toNat a.tdid site else s
  if 2 ≤ a.level.toNat then s.fenceL2 a.tdid else s

/-- A fault of L3 or L4 (R416): its reset comes at once, or waits for the capture record. -/
def State.faultTop (s : State) (a : FaultAct) (capture : Bool) : State :=
  if capture && s.captureOn then
    State.onEsc { s with cap := { s.cap with queue := s.cap.queue ++ [a] } } (fun e => { e with waiting := e.waiting ++ [a] })
  else s.faultReset a

/-- The escalation unit raises a fault (R394, R414 to R417, R610 to R616); `was` tells whether its class was pending. -/
def State.raiseFault (s : State) (cls : Fin 24) (island : Fin 46) (unit : BitVec 8) (tdid : Option Tdid) (site : Option (Fin 12))
    (was : Bool) : State :=
  let e := s.escEntry cls.val
  let level := faultLevel was (s.spr.esc.classes.get cls.val).level.toNat e.base e.ceiling
  let carried := carriedOut cls.val island.val level
  let level := if carried then 3 else level
  let acts := e.actions level
  let a : FaultAct := { cls := cls, level := BitVec.ofNat 3 level, island := island, unit := unit, tdid := tdid, time := s.spr.time.counter
                        clock := s.now, waitUs := e.waitUs, carried := carried }
  let s := s.onEsc (fun x => { x with
    classes := x.classes.modify cls.val (fun c => { c with pending := decide (cls.val ≠ 6), level := BitVec.ofNat 3 level })
    raised := x.raised.filter (fun r => decide (s.now < r.2 + 1000000000)) ++ [(cls.val, s.now)] })
  let s := s.logFault a
  let s := (s.countS 2 0x58 cls.val ((tdid.map (·.toNat)).getD 128)).note 2 1 (tdid.map (·.toNat)) unit.toNat (256 * cls.val + level) 0 0
  let s := s.raiseEvent (0x10 + cls.val) (256 * level + unit.toNat) island.val
  let s := ((s.faultActions a acts).fenceL0 cls.val).faultFences a site
  if 3 ≤ level then s.faultTop a (bit acts 3)
  else
    let s := if bit acts 3 && s.captureOn then { s with cap := { s.cap with queue := s.cap.queue ++ [a] } } else s
    if bit acts 4 then s.faultNotice a else s

/-! ### Reports (R418, R288 to R290) -/

/-- A report is counted for its class. -/
def State.countReport (s : State) (cls : Nat) : State :=
  s.onEsc (fun e => { e with classes := e.classes.modify cls (fun c => { c with count := satInc c.count }) })

/-- A report arrives inside the window of its unit (R418). -/
def State.coalesces (s : State) (r : FaultRep) : Bool :=
  let n := (s.escEntry r.cls.val).coalesce
  n != 0 && s.spr.esc.windows.any (fun w => w.cls == r.cls && w.island == r.island && w.unit == r.unit && decide (s.now ≤ w.since + 2 ^ n))

/-- A fault report reaches Spire (R418), once no item before it holds its island's handshake (R717). Ownership faults reach it
as ownership reports (R288). -/
def State.takeReport (s : State) (r : FaultRep) : State :=
  if !s.live 2 ∨ r.cls = 6 ∨ s.behind r.island.val (.fault r) then s
  else
    let s := s.crossed r.island.val (.fault r)
    let hit := s.coalesces r
    let s := s.countReport r.cls.val
    if hit then s
    else
      let w : EscWindow := { cls := r.cls, island := r.island, unit := r.unit, since := s.now }
      let s := s.onEsc (fun e => { e with
        windows := e.windows.filter (fun x => !(x.cls == r.cls && x.island == r.island && x.unit == r.unit)) ++ [w] })
      s.raiseFault r.cls r.island r.unit r.tdid none (s.classPending r.cls.val)

/-- FAULT_REPORT. -/
def execFaultReport (rep : FaultRep) (dt : Nat) (s : State) : Host.Outcome State Fault Refusal := 
  .next (((s.advance dt).atStep (stepReport rep.island.val rep.unit.toNat)).takeReport rep)

/-- Kinds raised by a site guard (R268, R269). -/
def siteKind (k : Nat) : Bool := decide (6 ≤ k ∧ k ≤ 9)

/-- The record that a report opens (R289). -/
def ownfOpen (r : OwnRep) (now : Nat) : OwnfRec :=
  let k := r.kind.toNat
  { valid := true, kind := r.kind, tdid := if k = 8 then 0 else r.tdid
    entry := if k = 1 ∨ k = 5 ∨ siteKind k then 0 else BitVec.ofNat 13 r.entry.val
    count := 1, site := if siteKind k then (match r.site with | some i => BitVec.ofNat 4 i.val | none => 15) else 15
    clusters := if 3 ≤ r.island.val ∧ r.island.val ≤ 12 then BitVec.ofNat 10 (2 ^ (r.island.val - 3)) else 0
    gran := if siteKind k then BitVec.ofNat 40 (r.gran.toNat % 256) else r.gran, since := now }

/-- A report coalesces into a record (R288): the same kind, TDID, entry or granule, and site, within 64 ns of its first. -/
def OwnfRec.takes (x : OwnfRec) (r : OwnRep) (now : Nat) : Bool :=
  let y := ownfOpen r now
  let k := r.kind.toNat
  x.valid && x.kind == y.kind && x.tdid == y.tdid && x.entry == y.entry && x.site == y.site &&
    (!(k == 1 || k == 5) || x.gran == y.gran) && decide (now ≤ x.since + 64)

/-- An ownership report reaches Spire (R288, R289), once no item before it holds its island's handshake (R717). -/
def State.takeOwnReport (s : State) (r : OwnRep) : State :=
  if !s.live 2 ∨ s.behind r.island.val (.own r) then s
  else
    let s := s.crossed r.island.val (.own r)
    let y := ownfOpen r s.now
    let s := s.countReport 6
    match firstFrom 0 16 (fun n => (s.spr.esc.ownf.get n).takes r s.now) with
    | some n => s.onEsc (fun e => { e with ownf := e.ownf.modify n (fun x => { x with count := satInc x.count, clusters := x.clusters ||| y.clusters }) })
    | none =>
      let was := s.classPending 6
      let s := match firstFrom 0 16 (fun n => !(s.spr.esc.ownf.get n).valid) with
        | some n => s.onEsc (fun e => { e with ownf := e.ownf.set n y })
        | none => s.onEsc (fun e => { e with ownfLost := satInc e.ownfLost, own2 := true })
      s.raiseFault 6 r.island 0 (if r.kind = 8 then none else some r.tdid) (if siteKind r.kind.toNat then r.site else none) was

/-- OWNERSHIP_REPORT. -/
def execOwnershipReport (rep : OwnRep) (dt : Nat) (s : State) : Host.Outcome State Fault Refusal := 
  .next (((s.advance dt).atStep (stepReport rep.island.val 0)).takeOwnReport rep)

/-- What follows an acknowledgement of a class (R397, R415): FAULT_N, and FAULT_ACK once the class is no longer pending. -/
def State.acked (s : State) (c : Nat) (was : Bool) : State :=
  (if was && !s.classPending c then s.raiseEvent 0x28 c 2 else s).updateFaultN

/-- OWNF_RECORD_FREE (R290). -/
def State.ownfFree (s : State) (n : Nat) : State :=
  if s.live 2 ∧ (s.spr.esc.ownf.get n).valid then
    (s.onEsc (fun e => { e with ownf := e.ownf.modify n (fun x => { x with valid := false }) })).acked 6 true
  else s

/-- OWNF_RECORD_FREE. -/
def execOwnfRecordFree (n : Fin 16) (s : State) : Host.Outcome State Fault Refusal := .next ((s.atStep stepArrive).ownfFree n.val)

/-- FAULT_ACK (R419): of class 6, only the fault that found no record free. -/
def State.faultAck (s : State) (c : Nat) : State :=
  if !s.live 2 then s
  else
    let was := s.classPending c
    (s.onEsc (fun e => if c = 6 then { e with own2 := false }
      else { e with classes := e.classes.modify c (fun x => { x with pending := false }) })).acked c was

/-- FAULT_ACK. -/
def execFaultAck (c : Fin 24) (s : State) : Host.Outcome State Fault Refusal := .next ((s.atStep stepArrive).faultAck c.val)

/-! ### Clock monitors and parity (R716, R725, R679) -/

/-- CLOCK_MONITOR_WINDOW: a bad window raises class 21; an island that is held leaves reset after two good windows in a row. A
Dome clock fault stops Dome's derivations. -/
def State.clockWindow (s : State) (i : Nat) (good : Bool) : State :=
  let r := s.isl.get i
  if i = 0 then (if good ∨ !s.dom.railPresent then s else s.deriveStop.report 21 0 0)
  else if r.clockHeld then
    if !good then s.onIsl i (fun r => { r with goodWindows := 0 })
    else if r.goodWindows = 0 then s.onIsl i (fun r => { r with goodWindows := 1 })
    else State.pllLock (s.onIsl i (fun r => { r with clockHeld := false, goodWindows := 0 })) i
  else if good ∨ !s.live i then s
  else s.report 21 i 0

/-- CLOCK_MONITOR_WINDOW. -/
def execClockMonitorWindow (i : Fin 46) (good : Bool) (s : State) : Host.Outcome State Fault Refusal := .next (s.clockWindow i.val good)

/-- A word with bad parity is counted at its island (R764). -/
def State.parityCount (s : State) (i : Nat) : State := s.onIsl i (fun r => { r with parity := satInc r.parity })

/-- BAD_PARITY_BEAT (R679): the unit is the port. -/
def State.badParity (s : State) (p : Nat) : State :=
  match (List.range 46).find? (fun i => portOf i == some p) with
  | some i => if s.live i then (s.parityCount i).report 20 i p else s
  | none => s

/-- BAD_PARITY_BEAT. -/
def execBadParityBeat (p : Fin 39) (s : State) : Host.Outcome State Fault Refusal := .next (s.badParity p.val)

end Sys2Proof.Machine
end

