-- ==== Sys2Proof/Machine/Recovery.lean ====
section
/-!
DEFINITION. Hang detection, capture records and domain-status notices (spec/15_faults_and_recovery.md R617 to R632, R416;
spec/06_ownership_and_site_guards.md R286; spec/18_islands_clocks_power.md R725).
-/

namespace Sys2Proof.Machine

/-! ### Waits that fail closed (R286, R617, R725) -/

/-- A line operation that waits for its device link fails closed, and its entries are freed. -/
def State.opFail (s : State) (i id : Nat) : Option State :=
  match s.op i id with
  | some o => if o.phase = .fetch ∨ o.phase = .sent then some ((s.writeUndone i o).finishOp i o false []) else none
  | none => none

/-- A tag-line or metadata fetch fails closed: its waiters end, and its entry is free. -/
def State.fetchFail (s : State) (i n : Nat) : Option State :=
  if 3 ≤ i ∧ i ≤ 10 then
    if (s.mcc.get (i - 3)).fetching.contains n then
      let os := s.tagWaiters (i - 3) n
      let s := s.onMcc (i - 3) (fun m => { m with fetching := m.fetching.erase n })
      some (os.foldl (fun s o => s.finishOp i o false []) s)
    else none
  else if 11 ≤ i ∧ i ≤ 12 then
    if (s.pcc.get (i - 11)).fetching n then
      let os := s.metaWaiters (i - 11) n
      some (os.foldl (fun s o => s.finishOp i o false []) (s.metaFetchEnd (i - 11) n))
    else none
  else none

/-- A replica that owes a DRAIN_DONE completes every request still counted under the entry, frees its entries and sends
DRAIN_DONE (R286). -/
def State.drainFail (s : State) (i e : Nat) : Option State :=
  if s.own.owes.contains (i, e) then
    let s := s.memFail i (fun r => r.entry == e)
    let hs := s.nwt.held.filter (fun h => h.1 + 3 == i && heldIn (s.repEntry i e) h)
    let s := { s with nwt := { s.nwt with held := s.nwt.held.filter (fun h => !(h.1 + 3 == i && heldIn (s.repEntry i e) h)) } }
    let s := hs.foldl (fun s h =>
      let kind : OpKind := if h.2.1 = .net 1 then .at_ else .wr
      s.refuseReq i (reqFrom h.2.2 i) (reqNorm h.2.2 kind) kind) s
    some (s.drainIfIdle i e)
  else none

/-- A request of HCC that awaits its completion TLP fails closed. -/
def State.hostFail (s : State) (tid : Nat) : Option State :=
  match s.hcc.flights.find? (fun f => f.tid == tid) with
  | some f => some ((s.onHcc (fun h => { h with flights := dropFirst (fun f => f.tid == tid) h.flights })).done f.link f.tid false
      (List.replicate f.len 0xFF))
  | none => none

/-- A request of a site that awaits its completion fails closed. -/
def State.siteFail (s : State) (i tid : Nat) : Option State :=
  let mine (f : SiteFlight) : Bool := f.site == i && f.tid == tid
  match s.siteFlights.find? mine with
  | some f => some (State.emit { s with siteFlights := dropFirst mine s.siteFlights }
      (.done (.site i) tid false (if f.read then List.replicate f.len 0xFF else [])))
  | none => none

/-- A released packet of FCCf whose requests await their responses is refused (R329). -/
def State.packetFail (s : State) (f seq : Nat) : Option State :=
  match s.entriesWhere f (fun x => x.rel.any (fun r => r.seq == seq && r.entered)) with
  | e :: _ =>
    if (s.entry f e).rel.any (fun r => r.seq == seq && r.entered && r.atomic) then some (s.atomicResult f e seq false 0)
    else some (s.packetDone f e seq false)
  | [] => none

/-- The wait that island `i` has, failed closed; none when it has no such wait. -/
def State.waitFail (s : State) (i : Nat) (w : Waiting) : Option State :=
  match w with
  | .op id =>
    if 3 ≤ i ∧ i ≤ 12 then s.opFail i id
    else if 13 ≤ i ∧ i ≤ 28 then s.packetFail (i - 13) id
    else if i = 29 then s.hostFail id
    else if 30 ≤ i ∧ i ≤ 41 then s.siteFail (i - 30) id
    else none
  | .fetch n => s.fetchFail i n
  | .drain e => s.drainFail i e.val

/-- What goes on once a wait of island `i` has failed. -/
def State.waitOver (s : State) (i : Nat) : State := ((if isCluster i then s.clusterPump i else s).afterOwnership).removals

/-! ### Hang detection (R617 to R620) -/

/-- Clocks of a tick of hang timers 0 to 3 (R617). -/
def hangTick (timer : Nat) : Nat := 1000 * 10 ^ (if timer = 3 then 4 else timer)

/-- A hang report of a timer for an island (R617, R619): the waits that one island reports at one tick make a single report. -/
def State.hangReport (s : State) (timer : Nat) (cls : Fin 24) (i : Nat) : State :=
  let t := (timer, i, s.now / hangTick timer)
  if s.spr.esc.hung.contains t then s
  else (s.report cls i 0).onEsc (fun e => { e with hung := e.hung.filter (fun x => !(x.1 == timer && x.2.1 == i)) ++ [t] })

/-- MEMORY_HANG (timer 2): class 11. -/
def State.memoryHang (s : State) (i : Nat) (w : Waiting) : State :=
  match s.waitFail i w with
  | some t => (t.waitOver i).hangReport 2 11 i
  | none => s

/-- MEMORY_HANG. -/
def execMemoryHang (i : Fin 46) (w : Waiting) (s : State) : Host.Outcome State Fault Refusal := .next (s.memoryHang i.val w)

/-- A command of Spire or an update of the Range Ownership Table that island `i` has not acknowledged (timer 0). -/
def State.owesSpire (s : State) (i : Nat) : Bool :=
  s.own.inFlight.any (fun u => u.1 == i) || s.spr.commitTo.contains i || s.spr.abortTo.contains i ||
    (s.own.drains.any (fun d => d.liveAwait.contains i)) || s.spr.swapQueue.any (fun o => o.1 == i)

/-- ISLAND_HANG (timer 0): class 11 on the island. -/
def execIslandHang (i : Fin 46) (s : State) : Host.Outcome State Fault Refusal :=
  .next (if s.owesSpire i.val then s.hangReport 0 11 i.val else s)

/-- Requests of a cluster that wait for a schedule fill from Tower fail closed (R50). -/
def State.fillHang (s : State) (c slot : Nat) : Option State :=
  if 13 ≤ c ∧ c ≤ 28 then
    let f := c - 13
    if (s.entry f slot).asked then
      let ws := (s.entry f slot).waiting
      let drop (s : State) (p : Bytes × Nat) : State := s.dropPacket f p.2 3
      let ps := (s.entry f slot).waitAuth
      let s := s.onEntry f slot (fun x => { x with asked := false, waiting := [], waitAuth := [] })
      some (ps.foldl drop (ws.foldl (fun s q => s.refuseSend f q) s))
    else none
  else if (s.clusters.get c).awaiting.contains slot then
    let s := s.onCluster c (fun y => { y with awaiting := y.awaiting.erase slot })
    if c = hccIx then some (s.hccFail slot)
    else some (s.waitersEnd c slot (fun s o => s.finishOp c o false []))
  else none

/-- TOWER_SERVICE_HANG (timer 1): a fill, an invalidation or a replica load awaited from Tower; class 13. -/
def State.serviceHang (s : State) (i slot : Nat) : State :=
  match (if isCluster i then s.fillHang i slot else none) with
  | some t => (t.waitOver i).hangReport 1 13 i
  | none =>
    if s.invals.contains (i, slot) ∨ (s.live i ∧ s.loading i ∧ i ≠ 0) then s.hangReport 1 13 i else s

/-- TOWER_SERVICE_HANG. -/
def execTowerServiceHang (i : Fin 46) (slot : Fin 4096) (s : State) : Host.Outcome State Fault Refusal :=
  .next (s.serviceHang i.val slot.val)

/-- The Dome derivation at the head of the queue is abandoned: commands that wait for it end with ABANDONED. -/
def State.domeAbandon (s : State) (k : DeriveKind) : State :=
  let rs := s.prt.regions.keysWhere (fun _ x => x.phase == .deriving_ && x.slot == some k.slot)
  let s := s.completeWhere (fun c => c.started && (c.code == 0x20 || c.code == 0x22) && rs.contains c.what) 0x0B [] (some 0x16)
  (s.onDom (fun d => { d with queue := d.queue.drop 1 })).deriveLost k

/-- COMMAND_HANG (timer 3): class 13. A command accepted and not started, or one that waits for a Dome operation, is answered
ABANDONED, or its fence is signalled with that error; a control-plane operation is dropped. -/
def State.commandHang (s : State) (w : CmdWait) : State :=
  match w with
  | .command mbx id =>
    let mine (c : Cmd) : Bool := !c.started && c.mbx == mbx.val && c.cmdId == id
    if s.cmds.any mine then (s.completeWhere mine 0x0B [] (some 0x16)).hangReport 3 13 1 else s
  | .cpe =>
    if s.cpe.busy then
      (State.retireRoots (State.retireWaiting { s with cpe := { s.cpe with busy := false, out := none, slots := [] } })).hangReport 3 13 1
    else s
  | .dome =>
    match s.dom.queue with
    | k :: _ => (s.domeAbandon k).settle.hangReport 3 13 1
    | [] =>
      let mine (c : Cmd) : Bool := c.started && c.code == 4
      if s.lc.running.isSome ∧ s.cmds.any mine then (s.completeWhere mine 0x0B [] none).hangReport 3 13 1 else s

/-- COMMAND_HANG. -/
def execCommandHang (w : CmdWait) (s : State) : Host.Outcome State Fault Refusal := .next (s.commandHang w)

/-- LATE_RESPONSE (R620, R697): counted at a running island, and without effect. -/
def execLateResponse (i : Fin 46) (s : State) : Host.Outcome State Fault Refusal :=
  .next (if s.live i.val then s.countFixed i.val 9 else s)

/-- FIFO_PARITY_ERROR (R725): the rest of the item is discarded, its request fails closed, class 20. -/
def State.fifoParity (s : State) (i : Nat) (w : Option Waiting) : State :=
  if !s.live i then s
  else
    let s := s.parityCount i
    let s := match w with
      | some w => (match s.waitFail i w with
        | some t => t.waitOver i
        | none => s)
      | none => s
    s.report 20 i 0

/-- FIFO_PARITY_ERROR. -/
def execFifoParityError (i : Fin 46) (w : Option Waiting) (s : State) : Host.Outcome State Fault Refusal := .next (s.fifoParity i.val w)

/-! ### Capture records (R624 to R629) -/

/-- Words of some registers of an island, as Tower reads them. -/
def State.regBytes (s : State) (i : Nat) (offs : List Nat) : Bytes := (offs.map (fun o => toLe 4 (s.regValue true i o).toNat)).flatten

/-- Section 1, FAULTS. -/
def State.capFaults (s : State) : Bytes :=
  s.regBytes 2 ((List.range 24).map (fun n => 0x5100 + 4 * n)) ++ s.regBytes 2 ((List.range 128).map (fun n => 0x5800 + 4 * n)) ++
    s.regBytes 2 ((List.range 64).map (fun n => 0x3000 + 4 * n))

/-- Section 3, COMMANDS: partition, CODE, CMD_ID, TAG and started flag (the packing is the model's: log entry 61). -/
def State.capCommands (s : State) : Bytes :=
  (s.cmds.map (fun c => toLe 1 c.part ++ toLe 1 c.code.toNat ++ toLe 2 c.cmdId.toNat ++ toLe 3 c.tag.toNat ++ toLe 1 (b2n c.started))).flatten

/-- The fence signals that are pending: fence, value, error code. -/
def State.pendingSignals (s : State) : List (Nat × Nat × Nat) :=
  s.cmds.filterMap (fun c => c.fence.map (fun f => (f.1, f.2, 0))) ++
    (s.bel.checks.cells.filter (fun c => c.2.used)).map (fun c => (c.2.fence, c.2.value, 0)) ++
    s.streams.cells.flatMap (fun c => (match c.2.armed with | some a => [(a.fence, a.value, if a.err then 0x13 else 0)] | none => []) ++
      c.2.fenceQ.map (fun a => (a.1, a.2, 0))) ++
    s.prt.parts.cells.filterMap (fun c => c.2.quiesce.map (fun q => (q.1, q.2, 0)))

/-- Section 4, FENCES. -/
def State.capFences (s : State) : Bytes :=
  (s.pendingSignals.map (fun x => toLe 4 (s.handle (objKey 6 x.1)).toNat ++ toLe 8 x.2.1 ++ toLe 4 x.2.2)).flatten

/-- Section 5, ENGINES. -/
def State.capEngines (s : State) : Bytes :=
  s.regBytes 1 [0x3004] ++ s.regBytes 0 [0] ++ s.regBytes 1 [0x2000, 0x6200, 0x6204] ++ s.regBytes 42 [0x5000, 0x5010, 0x5020, 0x5030] ++
    s.regBytes 43 [0x5000] ++ ((List.range 8).map (fun k => s.regBytes (mccIx k) [0x5100])).flatten ++
    ((List.range 2).map (fun p => s.regBytes (pccIx p) [0x5014])).flatten ++ s.regBytes 2 [0x5600, 0x5004]

/-- Section 8, STREAMS: the status words of entries not CLOSED, each after its FCC index. -/
def State.capStreams (s : State) : Bytes :=
  ((s.streams.cells.filter (fun c => c.2.state != 0)).map (fun c => toLe 4 (c.1 / 2048) ++ toLe 16 c.2.statusWord)).flatten

/-- The contents of section `n` (R625). -/
def State.capSection (s : State) (n : Nat) : Bytes :=
  match n with
  | 1 => s.capFaults
  | 2 => s.regBytes 1 ((List.range 127).map (fun k => 0x8004 + 4 * k))
  | 3 => s.capCommands
  | 4 => s.capFences
  | 5 => s.capEngines
  | 6 => s.regBytes 1 ((List.range 160).map (fun n => 0x6000C + 0x1000 * n))
  | 7 => ((List.range 27).map (fun c => s.regBytes (c + 3) ((List.range 16).map (fun n => 0x4000 + 4 * n)))).flatten
  | _ => s.capStreams

/-- A section with its header (R625). -/
def capFramed (n : Nat) (b : Bytes) : Bytes := toLe 2 n ++ zeros 2 ++ toLe 4 (b.length + 8) ++ b

/-- The most of sections 1 to 8 that fit: whole sections are omitted, highest ID first (R628). -/
def capFit (room : Nat) : List (Nat × Bytes) → List (Nat × Bytes)
  | [] => []
  | (n, b) :: rest => if b.length ≤ room then (n, b) :: capFit (room - b.length) rest else []

/-- The header of a record of LENGTH bytes, with a STATE (R624). -/
def State.capHeader (s : State) (a : FaultAct) (state length sections : Nat) : Bytes :=
  [0x4F, 0x4E, 0x43, 0x52] ++ toLe 2 1 ++ toLe 1 state ++ zeros 1 ++ toLe 4 length ++ toLe 4 s.dom.bootCount.toNat ++ toLe 8 a.time.toNat ++
    toLe 1 a.cls.val ++ toLe 1 a.level.toNat ++ toLe 1 a.island.val ++ toLe 1 a.unit.toNat ++ toLe 2 sections ++ zeros 2 ++
    Bytes.fit s.deviceId 48 ++ (if s.lc.digestValid then toLe 48 s.lc.digest.toNat else zeros 48)

/-- A record as its slot takes it, with STATE 0: the signatures are over the bytes with STATE 1 (R624, R626). -/
def State.captureRecord (s : State) (a : FaultAct) (room : Nat) : Bytes :=
  let secs := capFit (room - 3536) ((List.range 8).map (fun n => (n + 1, capFramed (n + 1) (s.capSection (n + 1)))))
  let body := (secs.map Prod.snd).flatten
  let mask := (secs.map (fun x => 2 ^ (x.1 - 1))).sum
  let length := 3536 + body.length
  let signed := s.capHeader a 1 length mask ++ body
  s.capHeader a 0 length mask ++ body ++ s.aliasMldsa "ONRUS-CAPTURE" signed ++ zeros 3 ++ s.aliasEcdsa signed

/-- CAPTURE_RECORD_WRITE (R626 to R629): the oldest record goes to slot NEXT, its STATE last. -/
def State.captureWrite (s : State) : State :=
  match s.cap.queue with
  | a :: rest =>
    if s.fwUp ∧ s.captureOn then
      let room := 4096 * s.cap.slotPages.toNat
      let addr := s.cap.base.toNat + s.cap.next.toNat * room
      let s := (s.dmaWrite 0 addr (s.captureRecord a room)).dmaWrite 0 (addr + 6) [1]
      { s with cap := { s.cap with queue := rest, count := satInc s.cap.count, next := s.cap.next + 1 } }
    else if !s.captureOn then { s with cap := { s.cap with queue := rest } }
    else s
  | [] => s

/-- CAPTURE_RECORD_WRITE. -/
def execCaptureRecordWrite (dt : Nat) (s : State) : Host.Outcome State Fault Refusal := .next (s.advance dt).captureWrite

/-- CAPTURE_SEALED (R416): the reset whose record is sealed. -/
def State.captureSealed (s : State) : State :=
  match s.spr.esc.waiting.find? (fun a => !s.cap.queue.contains a) with
  | some a => s.faultReset a
  | none => s

/-- CAPTURE_SEALED. -/
def execCaptureSealed (s : State) : Host.Outcome State Fault Refusal := .next (s.atStep stepArrive).captureSealed

/-- CAPTURE_WAIT_EXPIRY (R416). -/
def State.captureExpiry (s : State) : State :=
  match s.spr.esc.waiting.find? (fun a => decide (a.clock + 1000 * a.waitUs ≤ s.now)) with
  | some a => s.faultReset a
  | none => s

/-- CAPTURE_WAIT_EXPIRY. -/
def execCaptureWaitExpiry (dt : Nat) (s : State) : Host.Outcome State Fault Refusal := .next ((s.advance dt).atStep stepCompare).captureExpiry

/-! ### Domain-status notices (R630 to R632) -/

/-- Bytes 0 to 127 of a notice (R630). -/
def State.noticeHeader (s : State) (n : NoticeReq) : Bytes :=
  [0x4F, 0x4E, 0x44, 0x53] ++ toLe 2 1 ++ toLe 2 s.cap.noticeNo.toNat ++ [n.kind, n.cls, n.level] ++ zeros 1 ++
    toLe 4 s.dom.bootCount.toNat ++ toLe 8 s.spr.time.counter.toNat ++ toLe 1 (b2n s.spr.time.locked) ++ zeros 7 ++
    Bytes.fit s.deviceId 48 ++ toLe 16 n.mask.toNat ++
    ((List.range 16).map (fun f => let w := (s.fcc.get f).node; toLe 2 (if w.getLsbD 31 then fld w 15 0 else 0xFFFF))).flatten

/-- A whole notice. -/
def State.noticeBytes (s : State) (n : NoticeReq) : Bytes :=
  let m := s.noticeHeader n
  m ++ s.aliasMldsa "ONRUS-EVIDENCE" m ++ zeros 3 ++ s.aliasEcdsa m

/-- DOMAIN_STATUS_NOTICE (R631, R632): the oldest notice that is due goes to its ring slot, and the message to MBX2. -/
def State.noticeIssue (s : State) : State :=
  match s.cap.notices with
  | n :: rest =>
    if !s.fwUp then s
    else
      let no := s.cap.noticeNo.toNat
      let s := if s.cap.noticeBase = 0 then s else s.dmaWrite 0 (s.cap.noticeBase.toNat + no % 16 * 8192) (s.noticeBytes n)
      let s := { s with cap := { s.cap with notices := rest, noticeNo := s.cap.noticeNo + 1 } }
      s.noticeWords (BitVec.ofNat 32 (0x03000000 + no)) 0xDD0
  | [] => s

/-- DOMAIN_STATUS_NOTICE. -/
def execDomainStatusNotice (s : State) : Host.Outcome State Fault Refusal := .next s.noticeIssue

end Sys2Proof.Machine
end

