-- ==== Sys2Proof/Machine/Governor.lean ====
section
/-!
DEFINITION. The power governor (spec/09_spire_tables.md R426 to R432, R15, R16, R743).
-/

namespace Sys2Proof.Machine

/-- Change the governor. -/
def State.onGov (s : State) (f : Governor → Governor) : State := s.onSpr (fun p => { p with gov := f p.gov })

/-- The governor's settings (R426): the active POWER_GOVERNOR section, or the values a stream without one takes. -/
structure GovSettings where
  allocation : Nat := 48000
  creditUj : Nat := 1500000
  peakLimit : Nat := 250000
  releaseUj : Nat := 1500000
  stepUs : Nat := 1
  timer : Nat := 0xFF
  deriving DecidableEq, Repr, Inhabited

/-- The settings in force. -/
def State.govSettings (s : State) : GovSettings :=
  match s.sectionOf 2 9 with
  | some x =>
    let b := x.body
    let step := Bytes.le b 32 2
    let timer := Bytes.at b 34
    { allocation := Bytes.le b 16 4, creditUj := Bytes.le b 20 4, peakLimit := Bytes.le b 24 4, releaseUj := Bytes.le b 28 4,
      stepUs := step, timer := timer }
  | none => {}

/-! ### The estimate (R427) -/

/-- Draw in nW of the consumer that a stage throttles: 0 Newt, 1 the field test, 2 the Belfry units. -/
def stageDraw (act : Activity) (stage : Nat) : Nat :=
  match stage with
  | 0 => Config.govCoeff 2 * act.newtBytes
  | 1 => Config.govCoeff 4 * act.testBeats
  | _ => Config.govCoeff 3 * act.belfryLines

/-- The estimate P in nW (R427): energies in fJ over 1 µs. The bytes of Newt are counted apart from the other memory-path bytes. -/
def estimate (act : Activity) : Nat :=
  Config.govStatic + Config.govCoeff 0 * act.memBytes + Config.govCoeff 1 * act.linkBytes + Config.govCoeff 2 * act.newtBytes +
    Config.govCoeff 3 * act.belfryLines + Config.govCoeff 4 * act.testBeats

/-! ### Credit and PEAK_TIME (R428) -/

/-- ALLOCATION_MW in nW. -/
def GovSettings.alloc (t : GovSettings) : Nat := 1000000 * t.allocation

/-- Credit and PEAK_TIME after a tick with estimate `p`; SPR_GOV_POWER has it to the nearest mW. -/
def Governor.account (g : Governor) (t : GovSettings) (p : Nat) : Governor :=
  let full := 1000000000 * t.creditUj
  let credit := if t.alloc < p then g.creditFj - (p - t.alloc) else min full (g.creditFj + (t.alloc - p))
  let peak := if t.alloc < p then g.peakUs + 1 else g.peakUs
  { g with creditFj := credit, peakUs := if full ≤ credit then 0 else peak, above := decide (t.alloc < p)
           power := BitVec.ofNat 32 ((p + 500000) / 1000000) }

/-- The limit of R429. -/
def Governor.atLimit (g : Governor) (t : GovSettings) : Bool := decide (g.creditFj = 0 ∨ t.peakLimit ≤ g.peakUs)

/-! ### Throttling (R429, R430) -/

/-- The stages that a tick at the limit adds, in order, the fewest that bring the estimate to the allocation (R429); with
the estimate they leave. -/
def stagesAdded (act : Activity) (applied : BitVec 3) (allocation : Nat) : List Nat → Nat → List Nat × Nat
  | [], p => ([], p)
  | k :: rest, p =>
    if p ≤ allocation then ([], p)
    else if applied.getLsbD k then stagesAdded act applied allocation rest p
    else
      let (l, q) := stagesAdded act applied allocation rest (p - stageDraw act k)
      (k :: l, q)

/-- The mask of a list of stages. -/
def stageMask (l : List Nat) : BitVec 3 := l.foldl (fun m k => m ||| BitVec.ofNat 3 (2 ^ k)) 0

/-- What a stage does when it is applied (R429): Newt's moves halt and its slots leave the caps (R259, R743), the field test
pauses (R637), the Belfry units add no lines (R392). -/
def State.stageApply (s : State) (k : Nat) : State :=
  match k with
  | 0 => s.movesHalt
  | 1 => if s.ftu.target.isSome then { s with ftu := { s.ftu with result := 2 } } else s
  | _ => s

/-- A release under way ends, and its timer stops (R431; DESIGN CHOICE, log entry 100: the limit reached again during a release
ends it, and stages are released anew when the credit suffices again). -/
def State.releaseStop (s : State) : State :=
  if s.spr.gov.releasing then
    (s.onGov (fun g => { g with releasing := false })).onTimer s.govSettings.timer (fun x => { x with running := false, serial := x.serial + 1 })
  else s

/-- Stages are applied: all in one tick, one event, one trace record. -/
def State.throttle (s : State) (l : List Nat) : State :=
  if l.isEmpty then s
  else
    let mask := stageMask l
    let s := s.releaseStop.onGov (fun g => { g with stages := g.stages ||| mask })
    let s := l.foldl State.stageApply s
    let s := s.note 2 0x0B none 0 mask.toNat s.spr.gov.power.toNat s.spr.gov.credit
    s.raiseEvent 0x70 mask.toNat 2

/-- INSUFFICIENT follows R430; on becoming true it raises THROTTLE_INSUFFICIENT and reports class 15. -/
def State.insufficient (s : State) (now : Bool) : State :=
  let was := s.spr.gov.insufficient
  let s := s.onGov (fun g => { g with insufficient := now })
  if now && !was then (s.raiseEvent 0x72 7 2).report 15 2 0 else s

/-! ### Release (R431) -/

/-- What the release of a stage does: its consumer may rise again, through counted steps (R743). -/
def State.stageRelease (s : State) (k : Nat) : State :=
  match k with
  | 1 =>
    if s.ftu.target.isSome then
      { s with ftu := { s.ftu with result := 1 }, pwr := { s.pwr with testWait := 10 } }
    else s
  | 2 => { s with pwr := { s.pwr with belfryWait := 8 } }
  | _ => s

/-- The applied stage that is released next: the last in the order of R429. -/
def Governor.last (g : Governor) : Option Nat := [2, 1, 0].find? (fun k => g.stages.getLsbD k)

/-- Release one stage and raise THROTTLE_RELEASED. -/
def State.releaseOne (s : State) : State :=
  match s.spr.gov.last with
  | some k =>
    let s := s.onGov (fun g => { g with stages := g.stages &&& ~~~ BitVec.ofNat 3 (2 ^ k) })
    (s.stageRelease k).raiseEvent 0x71 (2 ^ k) 2
  | none => s

/-- Start the release timer while stages remain to be released, or end the release. No state machine (0 to 63) started it. -/
def State.releaseNext (s : State) : State :=
  let t := s.govSettings
  if s.spr.gov.stages = 0 then s.onGov (fun g => { g with releasing := false })
  else
    (s.onGov (fun g => { g with releasing := true })).onTimer t.timer (fun x =>
      { running := true, due := s.now + 1000 * t.stepUs, machine := 64, serial := x.serial + 1 })

/-- The credit has reached RELEASE_CREDIT_UJ (R431). -/
def State.release (s : State) : State :=
  if s.govSettings.timer = 0xFF then s.releaseOne.releaseOne.releaseOne else s.releaseOne.releaseNext

/-- Stages may be released: none is left to add, the estimate is within the allocation, and the credit suffices; with
CREDIT_UJ zero the credit is no condition (R426). -/
def State.mayRelease (s : State) (t : GovSettings) : Bool :=
  let g := s.spr.gov
  g.stages != 0 && !g.releasing && !g.above && (t.creditUj == 0 || decide (1000000000 * t.releaseUj ≤ g.creditFj))

/-- A governor tick (R427 to R431). -/
def State.governorTick (s : State) (act : Activity) : State :=
  let t := s.govSettings
  let p := estimate act
  let s := s.onGov (fun g => g.account t p)
  let s := if t.alloc < p then s.countFixed 2 13 else s
  if s.spr.gov.atLimit t ∧ t.alloc < p then
    let (l, q) := stagesAdded act s.spr.gov.stages t.alloc [0, 1, 2] p
    let s := s.throttle l
    s.insufficient (s.spr.gov.stages == 7 && decide (t.alloc < q))
  else
    let s := s.insufficient (s.spr.gov.insufficient && s.spr.gov.above)
    if s.mayRelease t then s.release else s

/-- GOVERNOR_TICK: the microsecond before it lasted `dt` clocks of the sender's making. -/
def execGovernorTick (dt : Nat) (act : Activity) (s : State) : Host.Outcome State Fault Refusal :=
  let s := (s.advance dt).atStep stepGovern
  .next (if s.live 2 then s.governorTick act else s)

/-- The release timer has run out (R431, R397): its event is raised, and the next stage is released. -/
def State.releaseExpiry (s : State) : State :=
  let n := s.govSettings.timer
  let x := s.spr.timers.get n
  if s.live 2 ∧ s.spr.gov.releasing ∧ n < 32 ∧ x.running ∧ x.due ≤ s.now then
    ((s.onTimer n (fun x => { x with running := false })).raiseEvent (0x40 + n) 0 2 x.serial).releaseOne.releaseNext
  else s

/-- RELEASE_TIMER_EXPIRY. -/
def execReleaseTimerExpiry (dt : Nat) (s : State) : Host.Outcome State Fault Refusal := 
  .next ((s.advance dt).atStep stepCompare).releaseExpiry

end Sys2Proof.Machine
end

