-- ==== Sys2Proof/Machine/Power.lean ====
section
/-!
DEFINITION. Load-step ramp: counted steps, issue caps and grants (spec/18_islands_clocks_power.md R737 to R744).
-/

namespace Sys2Proof.Machine

/-- The largest cap of a cluster: eight units for each active lane (R739). -/
def State.capLimit (s : State) (c : Nat) : Nat := 8 * (s.activeSockets c).length

/-- The clusters' demands of the window; a memory cluster whose slots Newt has lost under stage 1 leaves them at once
(R743; DESIGN CHOICE, log entry 62). -/
def State.setDemands (s : State) (demands : List (Nat × Nat)) : State :=
  demands.foldl (fun s d =>
    if isCluster d.1 then
      let n := BitVec.ofNat 8 (min d.2 (s.capLimit d.1))
      let cut := s.spr.gov.stages.getLsbD 0 && decide (3 ≤ d.1 ∧ d.1 ≤ 10)
      s.onCluster d.1 (fun x => { x with demand := n, cap := if cut && decide (n < x.cap) then n else x.cap })
    else s) s

/-- The cluster waits for a grant and has a lane, powered and past its self-test, for it (R740). -/
def State.waitsGrant (s : State) (c : Nat) : Bool :=
  let x := s.clusters.get c
  s.live c && decide (x.cap < x.demand ∧ x.cap.toNat < 8 * (s.issueSockets c).length)

/-- The clusters in ascending island index, in rotation after the one granted last (R740). -/
def grantOrder (last : Nat) : List Nat :=
  let l := (List.range 64).filter isCluster
  l.filter (last < ·) ++ l.filter (· ≤ last)

/-- The lockstep start that the window takes: the first order of Spire's queue that can begin (R744). -/
def State.windowSwap (s : State) : Option State :=
  (s.spr.swapQueue.findSome? (fun o => (s.swapBegin o.1 o.2.1 o.2.2).map (fun t => (o, t)))).map (fun (o, t) =>
    t.onSpr (fun p => { p with swapQueue := dropFirst (fun x => x.1 == o.1 && x.2.1 == o.2.1) p.swapQueue }))

/-- The grant that the window makes (R739, R740). -/
def State.windowGrant (s : State) : State :=
  match (grantOrder s.pwr.lastGrant).find? s.waitsGrant with
  | some c =>
    let limit := s.capLimit c
    let s := s.onCluster c (fun x => { x with cap := BitVec.ofNat 8 (min (x.cap.toNat + 8) limit) })
    { s with pwr := { s.pwr with lastGrant := c, stepTaken := true } }
  | none => s

/-- RAMP_WINDOW: a new window begins, and Spire takes at most one counted step in it (R738): a lockstep start, the resuming
of a Belfry unit, a tenth of the field test's rate, or a grant, in this order (DESIGN CHOICE, log entry 62). -/
def State.rampWindow (s : State) (demands : List (Nat × Nat)) : State :=
  let s := ({ s with pwr := { s.pwr with stepTaken := false, exempt := 0 } } : State).setDemands demands
  match s.windowSwap with
  | some t => t
  | none =>
    if 0 < s.pwr.belfryWait then { s with pwr := { s.pwr with belfryWait := s.pwr.belfryWait - 1, stepTaken := true } }
    else if 0 < s.pwr.testWait then { s with pwr := { s.pwr with testWait := s.pwr.testWait - 1, stepTaken := true } }
    else s.windowGrant

/-- RAMP_WINDOW. -/
def execRampWindow (demands : List (Nat × Nat)) (s : State) : Host.Outcome State Fault Refusal :=
  .next (if s.live 2 then s.rampWindow demands else s)

/-- CAP_HOLD_EXPIRY (R741): the cap falls to the demand that has stayed below it. -/
def execCapHoldExpiry (c : Cl) (s : State) : Host.Outcome State Fault Refusal :=
  .next (s.onCluster (c.val + 3) (fun x => { x with cap := if x.demand < x.cap then x.demand else x.cap }))

end Sys2Proof.Machine
end

