-- ==== Sys2Proof/Machine/Evidence.lean ====
section
/-!
DEFINITION. What the block says of itself: measurements, certificates and the Gendani Evidence Record
(spec/12_attestation.md R504 to R512).
-/

namespace Sys2Proof.Machine

/-! ### CBOR with the core deterministic encoding (RFC 8949; R508) -/

/-- The head of a data item: major type and argument in the shortest form. -/
def cborHead (major n : Nat) : Bytes :=
  let m := 32 * major
  if n < 24 then [BitVec.ofNat 8 (m + n)]
  else if n < 2 ^ 8 then BitVec.ofNat 8 (m + 24) :: toBe 1 n
  else if n < 2 ^ 16 then BitVec.ofNat 8 (m + 25) :: toBe 2 n
  else if n < 2 ^ 32 then BitVec.ofNat 8 (m + 26) :: toBe 4 n
  else BitVec.ofNat 8 (m + 27) :: toBe 8 n

/-- An unsigned integer. -/
def cborNat (n : Nat) : Bytes := cborHead 0 n
/-- A byte string. -/
def cborBytes (b : Bytes) : Bytes := cborHead 2 b.length ++ b
/-- A boolean. -/
def cborBool (b : Bool) : Bytes := [if b then 0xF5 else 0xF4]
/-- An array of encoded items. -/
def cborArray (l : List Bytes) : Bytes := cborHead 4 l.length ++ l.flatten
/-- A map with the keys 1, 2, … in order. -/
def cborMap (l : List Bytes) : Bytes := cborHead 5 l.length ++ (l.zipIdx.map (fun p => cborNat (p.2 + 1) ++ p.1)).flatten

/-! ### Measurements and certificates -/

/-- The committed stream, or an empty one before the first commit. -/
def State.committedSet (s : State) : StreamSet := s.str.active.getD {}

/-- The content of measurement `i` (R506). -/
def State.measurement (s : State) (i : Nat) : Bytes :=
  match i with
  | 1 => Config.romLoaderDigest
  | 2 => s.fw.digest
  | 3 => s.fw.svn
  | 4 => [0xA0, BitVec.ofNat 8 s.lc.state.toNat, BitVec.ofNat 8 (b2n s.lc.debug), BitVec.ofNat 8 (b2n s.lc.taint)]
  | 5 => s.committedSet.digest
  | 6 => s.committedSet.baseDigest
  | _ => toLe 4 s.dom.rootGen.toNat ++ Bytes.fit s.dom.rootId 16

/-- What an alias certificate certifies (R504, R505): DEVICE_ID, firmware digest and SVN, its debug flag, the alias key. -/
def State.aliasContents (s : State) (ecdsa : Bool) : Bytes :=
  let m := s.att.dice.aliasMaterial
  s.deviceId ++ s.fw.digest ++ s.fw.svn ++ [BitVec.ofNat 8 (b2n s.att.dice.aliasDebug)] ++
    (if ecdsa then Config.ecdsaPublic (Bytes.slice m 32 64) else Config.mldsaPublic (m.take 32))

/-- A chain of an algorithm (R504, R520): DeviceID then alias, DER; empty when the flash holds no DeviceID certificate. -/
def State.certChain (s : State) (ecdsa : Bool) : Bytes :=
  let d := Config.deviceIdCertificate (b2n ecdsa)
  if d.isEmpty then [] else d ++ Config.aliasCertificate (b2n ecdsa) (s.aliasContents ecdsa)

/-! ### The record (R507 to R510) -/

/-- The SHA-384 of a committed section; an omitted one hashes as the empty string. -/
def StreamSet.sectionDigest (x : StreamSet) (id : Nat) : Bytes :=
  match x.sections.find? (fun c => c.id == id) with
  | some c => Sha.sha384 c.body
  | none => Sha.sha384 []

/-- The master entries of a partition that are not FREE, in ascending START. -/
def State.partEntries (s : State) (p : Nat) : List (Nat × Entry) :=
  let l := s.own.master.cells.filter (fun c => Entry.state c.2 != 0 && Entry.part c.2 == p)
  l.mergeSort (fun a b => decide (Entry.start a.2 ≤ Entry.start b.2))

/-- A region entry (R509). -/
def State.layoutEntry (s : State) (e : Entry) : Bytes :=
  let x := s.slot e.keySlot
  let attr := b2n e.elide + 2 * b2n e.sign + 4 * b2n e.gecko + 8 * b2n e.writeDeny
  let set := if e.cls = 0 ∨ x.source ≠ 1 then [] else x.setId
  cborArray [cborNat e.start, cborNat e.length, cborNat e.cls, cborNat attr, cborNat e.owner,
    cborNat (if e.cls = 0 then 0xFF else x.source), cborBytes set]

/-- The TDIDs of a partition that a site's valid contexts carry, ascending. -/
def State.siteTdids (s : State) (i p : Nat) : List Nat :=
  (List.range 128).filter (fun t => (s.part p).tdids.getLsbD t && (List.range 256).any (fun n =>
    let v := s.sctEntry i n
    s.sctValid i v && fld v 38 32 == p && fld v 14 8 == t))

/-- A site entry (R510). -/
def State.siteEntry (s : State) (p i : Nat) : Bytes :=
  let x := s.site i
  cborArray [cborNat (s.siteState i), cborBytes x.occupant, cborBytes x.meas, cborNat x.admitSeq.toNat,
    cborArray (if p = 0 then [] else (s.siteTdids i p).map cborNat)]

/-- Partitions that exist. -/
def State.partCount (s : State) : Nat := s.prt.parts.countWhere (fun _ x => x.state != .none)

/-- The payload (R508) of a record of partition `p`, 0 for a device record. -/
def State.evidence (s : State) (p : Nat) (nonce : Bytes) : Bytes :=
  let c := s.committedSet
  cborMap [cborNat 1, cborBytes s.deviceId, cborBytes nonce, cborNat s.spr.time.counter.toNat, cborBool s.spr.time.locked,
    cborNat 0xA0, cborNat s.lc.state.toNat, cborBool s.lc.debug, cborBool s.lc.taint, cborBytes (s.measurement 1),
    cborBytes s.fw.digest, cborNat (Bytes.beNat s.fw.svn),
    cborMap [cborNat c.generation.toNat, cborBytes c.baseDigest, cborBytes c.digest, cborNat s.dom.streamFloor.toNat],
    cborMap [cborNat s.dom.rootGen.toNat, cborBytes (Bytes.fit s.dom.rootId 16), cborBool s.dom.rootFresh, cborNat s.dom.bootCount.toNat],
    cborMap [cborBool true, cborBool true, cborBytes (c.sectionDigest 0x0C), cborBytes (c.sectionDigest 0x0D)],
    cborBytes (if s.lc.digestValid then s.lc.operator else []), cborNat p,
    cborArray (if p = 0 then [] else (s.partEntries p).map (fun e => s.layoutEntry e.2)),
    cborArray ((List.range 12).map (s.siteEntry p)), cborNat s.partCount]

/-- A record (R507): payload and both signatures. -/
def State.record (s : State) (payload : Bytes) : Bytes :=
  cborArray [cborBytes payload, cborBytes (s.aliasMldsa "ONRUS-EVIDENCE" payload), cborBytes (s.aliasEcdsa payload)]

/-- The part of a record whose change calls for a new standing record (R511): layout, sites and stream. -/
def State.shownNow (s : State) (p : Nat) : Bytes :=
  s.committedSet.digest ++ cborArray ((s.partEntries p).map (fun e => s.layoutEntry e.2)) ++
    cborArray ((List.range 12).map (s.siteEntry p))

end Sys2Proof.Machine
end

