-- ==== Sys2Proof/Machine/Spdm.lean ====
section
/-!
DEFINITION. The SPDM responder, its sessions, the signing queue, augmentation and key delivery
(spec/12_attestation.md R511 to R526). Codes and bit places of SPDM messages are those of DMTF SPDM 1.3.
-/

namespace Sys2Proof.Machine

/-! ### Connections and responses (R514, R515) -/

/-- Change the attestation state. -/
def State.onAtt (s : State) (f : Attest → Attest) : State := { s with att := f s.att }

/-- Connection `n`. -/
def State.conn (s : State) (n : Nat) : Conn := s.att.conns.get n

/-- Change connection `n`. -/
def State.onConn (s : State) (n : Nat) (f : Conn → Conn) : State := s.onAtt (fun a => { a with conns := a.conns.modify n f })

/-- Session `k`. -/
def State.sess (s : State) (k : Nat) : Sess := s.att.sess.get k

/-- Change session `k`. -/
def State.onSess (s : State) (k : Nat) (f : Sess → Sess) : State := s.onAtt (fun a => { a with sess := a.sess.modify k f })

/-- A session ends and its store is zeroed (R526); what it still has queued for signing goes. -/
def State.sessEnd (s : State) (k : Nat) : State :=
  s.onAtt (fun a => { a with sess := a.sess.set k default, queue := a.queue.filter (fun r => r.sess != some k) })

/-- The SPDM_MSG of a relay connection that awaits its response. -/
def State.relayCmd (s : State) (n : Nat) (c : Cmd) : Bool := c.started && c.code == 0x18 && (s.conn n).mbx == some c.mbx

/-- A response leaves: by CP as an SPDM data object on connection 0, else at offset 4,096 of the relay's buffer, and
SPDM_MSG is answered with its length (R515, R603). Inside a session it is sealed. -/
def State.spdmOut (s : State) (n : Nat) (k : Option Nat) (b : Bytes) : State :=
  let out := match k with
    | some j => Config.spdmSeal (s.sess j).secret (s.sess j).sent b
    | none => b
  let s := match k with
    | some j => s.onSess j (fun x => { x with sent := x.sent + 1 })
    | none => s
  if n = 0 then s.emit (.spdm 0 out)
  else
    match s.cmds.find? (s.relayCmd n) with
    | some c =>
      let s := (s.dmaWrite (if c.part = 0 then 0 else s.lowestTdid c.part) ((s.conn n).buf + 4096) out).emit (.spdm n out)
      let ok := s.relayCmd n
      State.complete { s with cmds := dropFirst ok s.cmds } c 0 [BitVec.ofNat 32 out.length] none
    | none => s

/-- A response by its code and contents; one longer than 4,096 bytes is fetched in chunks. -/
def State.spdmReply (s : State) (n : Nat) (k : Option Nat) (code : Nat) (body : Bytes) : State :=
  let b := Config.spdmEncode code body
  if b.length ≤ 4096 then s.spdmOut n k b
  else (s.onConn n (fun c => { c with chunkOut := b })).spdmOut n k (Config.spdmEncode 0x7F [0x0F])

/-- ERROR with an error code. -/
def State.spdmError (s : State) (n : Nat) (k : Option Nat) (e : Nat) : State := s.spdmReply n k 0x7F [BitVec.ofNat 8 e]

/-- The session of a message, when it names one. -/
def sessOf (m : SpdmMsg) : Option Nat := m.sess.map (·.val)

/-- A request as it stands in the transcript. -/
def reqBytes (code : Nat) (m : SpdmMsg) : Bytes := [m.version, BitVec.ofNat 8 code, m.p1, m.p2] ++ m.body

/-- Connections served: the DOE mailbox, and a relay with a message waiting. -/
def State.connServed (s : State) (n : Nat) : Bool := n == 0 || s.cmds.any (s.relayCmd n)

/-- A request reaches the responder: its session must be open on its connection, and it needs a stage of negotiation
(R516 to R519). -/
def State.spdm (s : State) (m : SpdmMsg) (code stage : Nat) (body : State → State) : State :=
  let n := m.conn.val
  if !s.fwUp ∨ !s.connServed n then s
  else match m.sess with
    | some k =>
      if !(s.sess k.val).open_ ∨ (s.sess k.val).conn ≠ n then s.spdmError n none 2
      else body (s.onConn n (fun c => { c with transcript := c.transcript ++ reqBytes code m }))
    | none =>
      if (s.conn n).stage < stage then s.spdmError n none 4
      else body (s.onConn n (fun c => { c with transcript := c.transcript ++ reqBytes code m }))

/-- The state in which the responder works on a request that reaches it (`State.spdm`); none when Tower does not serve its
connection, its session is not open there, or the stage is not reached. -/
def State.spdmArrival (s : State) (m : SpdmMsg) (code stage : Nat) : Option State :=
  let n := m.conn.val
  let met := match m.sess with
    | some k => (s.sess k.val).open_ && (s.sess k.val).conn == n
    | none => decide (stage ≤ (s.conn n).stage)
  if s.fwUp && s.connServed n && met then some (s.onConn n (fun c => { c with transcript := c.transcript ++ reqBytes code m })) else none

/-- Answer a request. -/
def State.spdmAnswer (s : State) (m : SpdmMsg) (code : Nat) (body : Bytes) : State := s.spdmReply m.conn.val (sessOf m) code body

/-- Refuse a request. -/
def State.spdmRefuse (s : State) (m : SpdmMsg) (e : Nat) : State := s.spdmError m.conn.val (sessOf m) e

/-- Vendor-defined messages and KEY_EXCHANGE are accepted on 1.3 only (R516). -/
def State.spdm13 (s : State) (m : SpdmMsg) : Bool := (s.conn m.conn.val).version == 0x13

/-! ### The signing queue (R513, R514) -/

/-- A request joins the queue, or is answered Busy. -/
def State.signQueue (s : State) (m : SpdmMsg) (r : SignReq) : State :=
  if s.att.queue.length ≥ 512 then s.spdmRefuse m 3
  else s.onAtt (fun a => { a with queue := a.queue ++ [{ r with conn := m.conn.val, sess := sessOf m }] })

/-- A signed message is ready: it is sent, or kept for RESPOND_IF_READY. -/
def State.signDeliver (s : State) (r : SignReq) (body : Bytes) : State :=
  if (s.conn r.conn).awaited then
    s.onConn r.conn (fun c => { c with ready := some (Config.spdmEncode r.code body), awaited := false })
  else s.spdmReply r.conn r.sess r.code body

/-- SIGN_COMPLETE (R503, R513): the oldest request is signed; the record or message is returned. -/
def State.signComplete (s : State) : State :=
  match s.att.queue with
  | [] => s
  | r :: rest =>
    if !s.fwUp then s
    else
      let s := s.onAtt (fun a => { a with queue := rest })
      let counted (s : State) : State :=
        (s.onAtt (fun a => { a with signed := satInc a.signed })).countT 1 0x51 128
      if r.standing ≠ 0 then
        counted (s.onAtt (fun a => { a with standing := a.standing.set (r.standing - 1) (s.record r.payload) }))
      else if r.record then counted (s.signDeliver r (s.record r.payload))
      else if r.secret.isEmpty then s.signDeliver r (r.reply ++ s.aliasEcdsa r.payload)
      else
        let s := s.signDeliver r (r.reply ++ s.aliasMldsa r.context r.payload)
        match r.sess with
        | some k => s.onSess k (fun x => { x with
            secret := r.secret, augmented := true, keyDigest := r.keyDigest, updates := 0, sent := 0 })
        | none => s

/-- SIGN_COMPLETE. -/
def execSignComplete (s : State) : Host.Outcome State Fault Refusal := .next s.signComplete

/-! ### Negotiation (R516 to R518) -/

/-- GET_VERSION. -/
def execGetVersion (m : SpdmMsg) (s : State) : Host.Outcome State Fault Refusal :=
  .next (s.spdm m 0x84 0 (fun s =>
    (s.onConn m.conn.val (fun c => { c with
      version := 0, stage := 1, transcript := reqBytes 0x84 m, chunkIn := [], chunkOut := [], ready := none, awaited := false })).spdmAnswer
        m 0x04 [0x12, 0x13]))

/-- The capability flags of R517, in the places of DMTF SPDM 1.3: CERT, CHAL, MEAS (signed), ENCRYPT, MAC, MUT_AUTH, KEY_EX,
ENCAP, HBEAT, KEY_UPD, CHUNK, ALIAS_CERT. -/
def capFlags : Nat := ([1, 2, 4, 6, 7, 8, 9, 12, 13, 14, 17, 18].map (fun i => 2 ^ i)).sum

/-- GET_CAPABILITIES: CTExponent 12 and the fixed set. -/
def execGetCapabilities (m : SpdmMsg) (s : State) : Host.Outcome State Fault Refusal :=
  .next (s.spdm m 0xE1 1 (fun s =>
    if m.version = 0x12 ∨ m.version = 0x13 then
      (s.onConn m.conn.val (fun c => { c with version := m.version.toNat, stage := 2 })).spdmAnswer m 0x61 (12 :: toLe 4 capFlags)
    else s.spdmRefuse m 0x41))

/-- The algorithm structures of a NEGOTIATE_ALGORITHMS request: type and supported bits. -/
def algTable (m : SpdmMsg) : List (Nat × Nat) :=
  (List.range m.p1.toNat).map (fun i => (Bytes.at m.body (28 + 4 * i), Bytes.le m.body (30 + 4 * i) 2))

/-- The requester can use every algorithm of R518. -/
def algsUsable (m : SpdmMsg) : Bool :=
  let has (t b : Nat) : Bool := (algTable m).any (fun p => p.1 == t && bit p.2 b)
  bit (Bytes.at m.body 2) 0 && bit (Bytes.le m.body 4 4) 7 && bit (Bytes.le m.body 8 4) 1 &&
    has 2 4 && has 3 1 && has 4 7 && has 5 0

/-- NEGOTIATE_ALGORITHMS. -/
def execNegotiateAlgorithms (m : SpdmMsg) (s : State) : Host.Outcome State Fault Refusal :=
  .next (s.spdm m 0xE3 2 (fun s =>
    if algsUsable m then
      (s.onConn m.conn.val (fun c => { c with stage := 3 })).spdmAnswer m 0x63
        ([1, 0x02] ++ toLe 4 4 ++ toLe 4 0x80 ++ toLe 4 2 ++ [2, 0x20] ++ toLe 2 0x10 ++ [3, 0x20] ++ toLe 2 2 ++
          [4, 0x20] ++ toLe 2 0x80 ++ [5, 0x20] ++ toLe 2 1)
    else s.spdmRefuse m 1))

/-! ### Certificates, challenge, measurements (R506, R519) -/

/-- GET_DIGESTS: slot 0 alone. -/
def execGetDigests (m : SpdmMsg) (s : State) : Host.Outcome State Fault Refusal :=
  .next (s.spdm m 0x81 3 (fun s => s.spdmAnswer m 0x01 (1 :: Sha.sha384 (s.certChain true))))

/-- GET_CERTIFICATE: slot 0 alone, OFFSET and LENGTH in the body. -/
def execGetCertificate (m : SpdmMsg) (s : State) : Host.Outcome State Fault Refusal :=
  .next (s.spdm m 0x82 3 (fun s =>
    let chain := s.certChain true
    let off := Bytes.le m.body 0 2
    if m.p1 ≠ 0 ∨ chain.length < off then s.spdmRefuse m 1
    else
      let part := Bytes.slice chain off (Bytes.le m.body 2 2)
      s.spdmAnswer m 0x02 (toLe 2 part.length ++ toLe 2 (chain.length - off - part.length) ++ part)))

/-- The contents of a CHALLENGE_AUTH or a signed MEASUREMENTS before the signature, and what is signed. -/
def State.signedReply (s : State) (m : SpdmMsg) (code : Nat) (reply : Bytes) : State :=
  let t := (s.conn m.conn.val).transcript
  s.signQueue m { code := code, reply := reply, payload := t ++ Config.spdmEncode code reply }

/-- CHALLENGE. -/
def execChallenge (m : SpdmMsg) (s : State) : Host.Outcome State Fault Refusal :=
  .next (s.spdm m 0x83 3 (fun s =>
    if m.p1 ≠ 0 ∨ m.body.length < 32 then s.spdmRefuse m 1
    else
      let (nonce, s) := s.draw 32
      let sum := Sha.sha384 (([1, 2, 3, 4, 5, 6, 7].map s.measurement).flatten)
      s.signedReply m 0x03 (Sha.sha384 (s.certChain true) ++ nonce ++ (if m.p2 = 0 then [] else sum))))

/-- The measurement blocks a request names: all, or one. -/
def State.measBlocks (s : State) (ix : Nat) : Bytes :=
  (([1, 2, 3, 4, 5, 6, 7].filter (fun i => ix == 0xFF || ix == i)).map (fun i => Config.measurementBlock i (s.measurement i))).flatten

/-- GET_MEASUREMENTS: the count, all blocks or one of the seven; signed when asked. -/
def execGetMeasurements (m : SpdmMsg) (s : State) : Host.Outcome State Fault Refusal :=
  .next (s.spdm m 0xE0 3 (fun s =>
    let ix := m.p2.toNat
    if 7 < ix ∧ ix ≠ 0xFF then s.spdmRefuse m 1
    else
      let (nonce, s) := s.draw 32
      let reply := (if ix = 0 then [7] else [0]) ++ s.measBlocks ix ++ nonce
      if m.p1.getLsbD 0 then s.signedReply m 0x60 reply else s.spdmAnswer m 0x60 reply))

/-! ### Sessions (R515, R519, R526) -/

/-- The lowest session number not in use. -/
def State.freeSess (s : State) : Option Nat := firstFrom 0 128 (fun k => !(s.sess k).open_)

/-- KEY_EXCHANGE: an ephemeral key pair, a new session, and a signed response that asks for mutual authentication. -/
def State.keyExchange (s : State) (m : SpdmMsg) : State :=
  if !s.spdm13 m then s.spdmRefuse m 7
  else if m.p2 ≠ 0 ∨ m.body.length < 132 then s.spdmRefuse m 1
  else if s.att.queue.length ≥ 512 then s.spdmRefuse m 3
  else match s.freeSess with
    | none => s.spdmRefuse m 0x0A
    | some k =>
      let (rnd, s) := s.draw 64
      let (secret, share) := Config.ecdhShare (Bytes.slice m.body 36 96) (rnd.take 32)
      let reply := toLe 2 k ++ [1] ++ rnd.drop 32 ++ share
      let th := Sha.sha384 ((s.conn m.conn.val).transcript ++ reply)
      (s.onSess k (fun _ => { open_ := true, conn := m.conn.val, secret := Config.masterSecret secret th })).signedReply m 0x64 reply

/-- KEY_EXCHANGE. -/
def execKeyExchange (m : SpdmMsg) (s : State) : Host.Outcome State Fault Refusal := .next (s.spdm m 0xE4 3 (fun s => s.keyExchange m))

/-- FINISH: the body holds the requester's signature, its verify data, and the chain that the encapsulated GET_CERTIFICATE
flow brought; a failure ends the session. -/
def State.finish (s : State) (m : SpdmMsg) (k : Nat) : State :=
  let t := (s.conn m.conn.val).transcript
  match Config.requesterChain (m.body.drop 144) with
  | some pk =>
    if (s.sess k).finished then s.spdmRefuse m 4
    else if Config.ecdsaVerify pk (t.take (t.length - m.body.length)) (m.body.take 96) then
      (s.onSess k (fun x => { x with finished := true, th2 := Sha.sha384 t, reqKey := pk })).spdmAnswer m 0x65 []
    else (s.spdmRefuse m 6).sessEnd k
  | none => (s.spdmRefuse m 6).sessEnd k

/-- FINISH. -/
def execFinish (m : SpdmMsg) (s : State) : Host.Outcome State Fault Refusal :=
  .next (s.spdm m 0xE5 3 (fun s =>
    match m.sess with
    | some k => s.finish m k.val
    | none => s.spdmRefuse m 0x0B))

/-- A request that needs a finished session. -/
def State.inSession (s : State) (m : SpdmMsg) (body : State → Nat → State) : State :=
  match m.sess with
  | some k => if (s.sess k.val).finished then body s k.val else s.spdmRefuse m 4
  | none => s.spdmRefuse m 0x0B

/-- HEARTBEAT. -/
def execHeartbeat (m : SpdmMsg) (s : State) : Host.Outcome State Fault Refusal :=
  .next (s.spdm m 0xE8 3 (fun s => s.inSession m (fun s _ => s.spdmAnswer m 0x68 [])))

/-- HEARTBEAT_TIMEOUT (R526): the session's period has lapsed. -/
def execHeartbeatTimeout (sess : Fin 128) (s : State) : Host.Outcome State Fault Refusal :=
  .next (if (s.sess sess.val).finished then s.sessEnd sess.val else s)

/-- KEY_UPDATE: UpdateKey and UpdateAllKeys start new keys; VerifyNewKey changes nothing. -/
def execKeyUpdate (m : SpdmMsg) (s : State) : Host.Outcome State Fault Refusal :=
  .next (s.spdm m 0xE9 3 (fun s => s.inSession m (fun s k =>
    if m.p1 = 1 ∨ m.p1 = 2 then
      (s.spdmAnswer m 0x69 [m.p1, m.p2]).onSess k (fun x => { x with updates := x.updates + 1, sent := 0 })
    else if m.p1 = 3 then s.spdmAnswer m 0x69 [m.p1, m.p2]
    else s.spdmRefuse m 1)))

/-- END_SESSION (R526). -/
def execEndSession (m : SpdmMsg) (s : State) : Host.Outcome State Fault Refusal :=
  .next (s.spdm m 0xEC 3 (fun s => s.inSession m (fun s k => (s.spdmAnswer m 0x6C []).sessEnd k)))

/-! ### Late answers, chunks, anything else (R514, R519) -/

/-- RESPOND_IF_READY: the response that was not ready, or ResponseNotReady again. -/
def execRespondIfReady (m : SpdmMsg) (s : State) : Host.Outcome State Fault Refusal :=
  .next (s.spdm m 0xFF 0 (fun s =>
    let n := m.conn.val
    match (s.conn n).ready with
    | some b => (s.onConn n (fun c => { c with ready := none })).spdmOut n (sessOf m) b
    | none =>
      if s.att.queue.any (fun r => r.conn == n && r.standing == 0) then
        (s.onConn n (fun c => { c with awaited := true })).spdmRefuse m 0x42
      else s.spdmRefuse m 4))

/-- CHUNK_SEND: chunks are collected; the whole request then comes as its own step. -/
def execChunkSend (m : SpdmMsg) (s : State) : Host.Outcome State Fault Refusal :=
  .next (s.spdm m 0x85 0 (fun s =>
    let n := m.conn.val
    let first := Bytes.le m.body 0 2 == 0
    let part := Bytes.slice m.body (if first then 12 else 8) (Bytes.le m.body 4 4)
    let all := (if first then [] else (s.conn n).chunkIn) ++ part
    (s.onConn n (fun c => { c with chunkIn := if m.p1.getLsbD 0 then [] else all })).spdmAnswer m 0x05
      ([0, m.p2] ++ Bytes.slice m.body 0 2)))

/-- CHUNK_GET: the next piece of a long response. -/
def execChunkGet (m : SpdmMsg) (s : State) : Host.Outcome State Fault Refusal :=
  .next (s.spdm m 0x86 0 (fun s =>
    let n := m.conn.val
    let all := (s.conn n).chunkOut
    if all.isEmpty then s.spdmRefuse m 4
    else
      let piece := all.take 4064
      (s.onConn n (fun c => { c with chunkOut := all.drop 4064 })).spdmOut n (sessOf m)
        (Config.spdmEncode 0x06 (BitVec.ofNat 8 (b2n (decide (all.length ≤ 4064))) :: m.p2 :: Bytes.slice m.body 0 2 ++ piece))))

/-- SPDM_UNSUPPORTED_REQUEST. -/
def execSpdmUnsupportedRequest (m : SpdmMsg) (s : State) : Host.Outcome State Fault Refusal :=
  .next (s.spdm m 0 0 (fun s => s.spdmRefuse m 7))

/-! ### Etnaurn messages (R507, R511, R512, R520) -/

/-- A vendor message: on 1.3 alone, and with its reserved byte zero (R22, R520). -/
def State.vendor (s : State) (m : SpdmMsg) (body : State → State) : State :=
  s.spdm m 0xFE 3 (fun s => if !s.spdm13 m then s.spdmRefuse m 7 else if m.rsvd ≠ 0 then s.spdmRefuse m 1 else body s)

/-- GET_EVIDENCE: PARTITION, FLAGS, NONCE; a device record for partition 0. -/
def State.getEvidence (s : State) (m : SpdmMsg) : State :=
  let p := Bytes.at m.body 0
  let standing := Bytes.at m.body 1 == 1
  if m.body.length ≠ 34 ∨ 1 < Bytes.at m.body 1 ∨ 128 ≤ p then s.spdmRefuse m 1
  else if s.lc.state = 1 ∨ (s.lc.state = 8 ∧ p ≠ 0) then s.spdmRefuse m 7
  else if p ≠ 0 ∧ (s.part p).state = .none then s.spdmRefuse m 1
  else if standing then
    if p = 0 then s.spdmRefuse m 1
    else if (s.att.standing.get p).isEmpty then s.spdmRefuse m 0x42
    else s.spdmAnswer m 0x7E (s.att.standing.get p)
  else s.signQueue m { code := 0x7E, record := true, payload := s.evidence p (Bytes.slice m.body 2 32) }

/-- GET_EVIDENCE. -/
def execGetEvidence (m : SpdmMsg) (s : State) : Host.Outcome State Fault Refusal := .next (s.vendor m (fun s => s.getEvidence m))

/-- GET_MLDSA_CHAIN: OFFSET and LENGTH, most significant byte first. -/
def execGetMldsaChain (m : SpdmMsg) (s : State) : Host.Outcome State Fault Refusal :=
  .next (s.vendor m (fun s =>
    let len := Bytes.be m.body 4 4
    if m.body.length ≠ 8 ∨ 4096 < len then s.spdmRefuse m 1
    else s.spdmAnswer m 0x7E (Bytes.slice (s.certChain false) (Bytes.be m.body 0 4) len)))

/-- STANDING_RECORD_REGEN (R511, R512): the record of a partition whose layout, sites or stream have changed is encoded and
signed again. -/
def State.standingRegen (s : State) (p : Nat) : State :=
  let now := s.shownNow p
  if s.fwUp ∧ (s.part p).state ≠ .none ∧ s.lc.state ≠ 1 ∧ s.lc.state ≠ 8 ∧ s.att.shown.get p ≠ now ∧ s.att.queue.length < 512 then
    s.onAtt (fun a => { a with
      shown := a.shown.set p now, queue := a.queue ++ [{ standing := p + 1, payload := s.evidence p [] }] })
  else s

/-- STANDING_RECORD_REGEN. -/
def execStandingRecordRegen (part : Fin 128) (s : State) : Host.Outcome State Fault Refusal := .next (s.standingRegen part.val)

/-! ### Augmentation (R521, R522) -/

/-- HMAC-SHA-384 (RFC 2104), the HKDF-Extract of R521 with its salt as key. -/
def hmac384 (key msg : Bytes) : Bytes :=
  let k := Bytes.fit (if key.length ≤ 128 then key else Sha.sha384 key) 128
  Sha.sha384 (k.map (· ^^^ 0x5C) ++ Sha.sha384 (k.map (· ^^^ 0x36) ++ msg))

/-- KEM_AUGMENT (R521): the requester's ML-DSA signature over TH2, EK and its key; Encaps; the response is signed, and the
session's secrets are derived again once it has been sent. -/
def State.kemAugment (s : State) (m : SpdmMsg) (k : Nat) : State :=
  let x := s.sess k
  let ek := Bytes.slice m.body 0 1568
  let pk := Bytes.slice m.body 1568 1952
  let sig := Bytes.slice m.body 3520 3309
  let base := x.th2 ++ ek ++ pk
  if m.body.length ≠ 6829 then s.spdmRefuse m 1
  else if x.augmented ∨ s.att.queue.any (fun r => r.sess == some k && !r.secret.isEmpty) then s.spdmRefuse m 4
  else if !Config.mldsaVerify pk (ascii "ONRUS-KEM-REQ") base sig then (s.spdmRefuse m 6).sessEnd k
  else if s.att.queue.length ≥ 512 then s.spdmRefuse m 3
  else
    let (rnd, s) := s.draw 32
    let (ct, secret) := Config.kemEncaps ek rnd
    s.signQueue m { code := 0x7E, reply := ct, payload := base ++ ct, context := "ONRUS-KEM-RSP",
                    secret := hmac384 secret x.secret, keyDigest := Sha.sha384 (pk ++ x.reqKey) }

/-- KEM_AUGMENT. -/
def execKemAugment (m : SpdmMsg) (s : State) : Host.Outcome State Fault Refusal :=
  .next (s.vendor m (fun s => s.inSession m (fun s k => s.kemAugment m k)))

/-! ### Key delivery (R523 to R525, R538, R551) -/

/-- DELIVER_KEY: KIND and the checks of R524, in order; the first failure's STATUS. -/
def State.deliverCheck (s : State) (k : Nat) (b : Bytes) : Option Nat :=
  let kind := Bytes.at b 0
  let p := Bytes.at b 1
  let t := Bytes.at b 2
  let service := (s.part p).keyService
  if b.length ≠ 112 ∨ !(1 ≤ kind ∧ kind ≤ 3) ∨ 128 ≤ t ∨ 16 ≤ Bytes.at b 3 ∨ !Bytes.zeroAt b 104 8 ∨
      (kind ≠ 1 ∧ !Bytes.zeroAt b 8 64) then some 6
  else if !(s.sess k).augmented then some 1
  else if Bytes.allZero service ∨ (s.sess k).keyDigest ≠ service then some 2
  else if !s.ownsTdid p t then some 3
  else if s.lc.debug then some 7
  else if !bit (Bytes.at b 3) s.lcBit then some 8
  else if (s.slotForFill p).isNone then some 4
  else if kind = 1 ∧ (s.sets.countWhere (fun _ e => e.inUse) ≥ 64 ∨
      s.sets.countWhere (fun _ e => e.inUse && e.part.toNat == p) ≥ s.allot p 13) then some 5
  else none

/-- The attribute record of a delivered key (R525, R458). -/
def deliveredAttr (b : Bytes) (set : Nat) : BitVec 256 :=
  let kind := Bytes.at b 0
  SlotSpec.attr { purpose := if kind = 3 then 4 else 3, masters := 32, world := if kind = 3 then 1 else 2, lcMask := Bytes.at b 3
                  source := 2, part := Bytes.at b 1, tdid := Bytes.at b 2, expiry := Bytes.be b 4 4
                  setBound := kind == 1, set := set }

/-- DELIVER_KEY (R524, R525): the lowest EMPTY slot takes the key, and a SET_KEY the lowest FREE Set Table
entry; a new fabric root first closes the streams of the old one (R340). -/
def State.deliverKey (s : State) (m : SpdmMsg) (k : Nat) : State :=
  let b := m.body
  match s.deliverCheck k b with
  | some st => s.spdmAnswer m 0x7E [0, 0, BitVec.ofNat 8 st]
  | none =>
    let slot := (s.slotForFill (Bytes.at b 1)).getD 0
    let set := if Bytes.at b 0 = 1 then (firstFrom 0 64 (fun i => !(s.sets.get i).inUse)).getD 0 else 0
    let old := s.slots.keysWhere (fun _ x => x.fabricRoot && x.tdid == Bytes.at b 2 && x.part == Bytes.at b 1)
    let s := if Bytes.at b 0 = 3 then old.foldl (fun s n => s.retireAny n) s else s
    let s := (s.fillSlot slot (deliveredAttr b set) (Bytes.slice b 72 32)).slotObject slot 0 true
    let s := if Bytes.at b 0 = 1 then
        { s with sets := s.sets.set set { setId := Bytes.slice b 8 16, digest := Bytes.slice b 24 48
                                          slot := BitVec.ofNat 16 slot, part := BitVec.ofNat 8 (Bytes.at b 1), inUse := true } }
      else s
    s.spdmAnswer m 0x7E (toBe 2 slot ++ [0])

/-- DELIVER_KEY. -/
def execDeliverKey (m : SpdmMsg) (s : State) : Host.Outcome State Fault Refusal :=
  .next (s.vendor m (fun s => s.inSession m (fun s k => s.deliverKey m k)))

/-! ### Relays (R515, R599, R603) -/

/-- RELAY_BIND: a connection 1 to 31 is bound to a mailbox 3 to 159 and a buffer, or unbound. -/
def State.relayBind (s : State) (conn mbx addr : Nat) : Except (Nat × List Word32) State := do
  must (decide (1 ≤ conn ∧ conn ≤ 31 ∧ (mbx = 0xFF ∨ (3 ≤ mbx ∧ mbx ≤ 159)))) 1
  must (mbx == 0xFF || (s.relayOf mbx).all (fun c => c == conn)) 1
  pure (s.onConn conn (fun c => { c with mbx := if mbx = 0xFF then none else some mbx, buf := if mbx = 0xFF then 0 else addr }))

/-- RELAY_BIND. -/
def execRelayBind (h : Hdr) (conn mbx : Word32) (addr : BitVec 64) (s : State) : Host.Outcome State Fault Refusal :=
  .next (s.command h 0x11 ([conn, mbx] ++ addrWords addr) (fun s c =>
    match s.relayBind conn.toNat mbx.toNat addr.toNat with
    | .ok t => t.answer c 0
    | .error (st, ws) => s.answer c st ws))

/-- SPDM_MSG: the request is read from offset 0 of the buffer and given to the responder; the command is answered with the
response (`spdmOut`). -/
def State.spdmMsg (s : State) (c : Cmd) (len : Nat) (buf : Buf) : State :=
  match s.relayOf c.mbx with
  | none => s.answer c 3
  | some n =>
    if c.part ≠ 0 ∧ !s.gate c.part 0x18 then s.answer c 7
    else if len = 0 ∨ 4096 < len then s.answer c 1
    else
      let s := s.dmaRead (if c.part = 0 then 0 else s.lowestTdid c.part) (s.conn n).buf len
      match buf with
      | none => s.answer c 9
      | some b => (s.hold c).emit (.twr "SPDM" (BitVec.ofNat 8 n :: Bytes.fit b len))

/-- SPDM_MSG. -/
def execSpdmMsg (h : Hdr) (len : Word32) (buf : Buf) (s : State) : Host.Outcome State Fault Refusal :=
  .next (s.command h 0x18 [len] (fun s c => s.spdmMsg c len.toNat buf))

end Sys2Proof.Machine
end

