-- ==== Sys2Proof/Machine/Dispatch.lean ====
section
/-!
DEFINITION. The meaning of every command: one arm per constructor of `Instr`, each one direct call.
-/

namespace Sys2Proof.Machine

def exec (i : Instr) (s : State) : Host.Outcome State Fault Refusal :=
  match i with
  | .streamLoad h addr len buf dt => Sys2Proof.Machine.execStreamLoad h addr len buf dt s
  | .bootStreamLoad stream dt => Sys2Proof.Machine.execBootStreamLoad stream dt s
  | .streamRetry h => Sys2Proof.Machine.execStreamRetry h s
  | .commitTimeReached dt => Sys2Proof.Machine.execCommitTimeReached dt s
  | .islandPrepare isl => Sys2Proof.Machine.execIslandPrepare isl s
  | .boundaryReached isl => Sys2Proof.Machine.execBoundaryReached isl s
  | .preparedReceived isl => Sys2Proof.Machine.execPreparedReceived isl s
  | .refusedReceived isl => Sys2Proof.Machine.execRefusedReceived isl s
  | .prepareWindowExpiry => Sys2Proof.Machine.execPrepareWindowExpiry s
  | .islandCommit isl => Sys2Proof.Machine.execIslandCommit isl s
  | .islandAbort isl => Sys2Proof.Machine.execIslandAbort isl s
  | .committedReceived isl => Sys2Proof.Machine.execCommittedReceived isl s
  | .committedTimeout isl => Sys2Proof.Machine.execCommittedTimeout isl s
  | .archiveCopy => Sys2Proof.Machine.execArchiveCopy s
  | .islandSectionLoad isl archive => Sys2Proof.Machine.execIslandSectionLoad isl archive s
  | .laneKnownAnswerTest c sock pass => Sys2Proof.Machine.execLaneKnownAnswerTest c sock pass s
  | .laneGroupPowerOn => Sys2Proof.Machine.execLaneGroupPowerOn s
  | .auditWindowEnd c => Sys2Proof.Machine.execAuditWindowEnd c s
  | .laneOutput c id equal => Sys2Proof.Machine.execLaneOutput c id equal s
  | .laneVote c id third => Sys2Proof.Machine.execLaneVote c id third s
  | .laneSwapOrder c sock => Sys2Proof.Machine.execLaneSwapOrder c sock s
  | .lockstepComplete c => Sys2Proof.Machine.execLockstepComplete c s
  | .socketSwitch c => Sys2Proof.Machine.execSocketSwitch c s
  | .ageingReading c sock v => Sys2Proof.Machine.execAgeingReading c sock v s
  | .wearPeriod dt => Sys2Proof.Machine.execWearPeriod dt s
  | .scheduleFill c slot => Sys2Proof.Machine.execScheduleFill c slot s
  | .scheduleFillRefused c slot => Sys2Proof.Machine.execScheduleFillRefused c slot s
  | .scheduleInvalidate c slot => Sys2Proof.Machine.execScheduleInvalidate c slot s
  | .cpeStart addr desc aad inp aux => Sys2Proof.Machine.execCpeStart addr desc aad inp aux s
  | .cpeDone => Sys2Proof.Machine.execCpeDone s
  | .domeDerive kind slot => Sys2Proof.Machine.execDomeDerive kind slot s
  | .domeDeriveDone => Sys2Proof.Machine.execDomeDeriveDone s
  | .domeSeal slot sealId => Sys2Proof.Machine.execDomeSeal slot sealId s
  | .domeUnseal slot blob => Sys2Proof.Machine.execDomeUnseal slot blob s
  | .mccWriteRequest k q => Sys2Proof.Machine.execMccWriteRequest k q s
  | .mccReadRequest k q => Sys2Proof.Machine.execMccReadRequest k q s
  | .mccAtomicRequest k q => Sys2Proof.Machine.execMccAtomicRequest k q s
  | .mpDataArrival k id data err => Sys2Proof.Machine.execMpDataArrival k id data err s
  | .tagLineArrival k t data err => Sys2Proof.Machine.execTagLineArrival k t data err s
  | .readVerdict k id => Sys2Proof.Machine.execReadVerdict k id s
  | .mpWriteAccept k id => Sys2Proof.Machine.execMpWriteAccept k id s
  | .tagFlush k => Sys2Proof.Machine.execTagFlush k s
  | .lineInit k e => Sys2Proof.Machine.execLineInit k e s
  | .pccReadRequest p q => Sys2Proof.Machine.execPccReadRequest p q s
  | .pccWriteRequest p q => Sys2Proof.Machine.execPccWriteRequest p q s
  | .metadataArrival p off data err => Sys2Proof.Machine.execMetadataArrival p off data err s
  | .newtCopy ctx group lines => Sys2Proof.Machine.execNewtCopy ctx group lines s
  | .newtCommit ctx group n => Sys2Proof.Machine.execNewtCommit ctx group n s
  | .newtHoldTimeout ctx group => Sys2Proof.Machine.execNewtHoldTimeout ctx group s
  | .newtGroupRetire ctx => Sys2Proof.Machine.execNewtGroupRetire ctx s
  | .newtMoveComplete ctx => Sys2Proof.Machine.execNewtMoveComplete ctx s
  | .siteRequest isl q => Sys2Proof.Machine.execSiteRequest isl q s
  | .inboundSiteRequest isl link q => Sys2Proof.Machine.execInboundSiteRequest isl link q s
  | .siteCompletion isl tid ok data => Sys2Proof.Machine.execSiteCompletion isl tid ok data s
  | .rotUpdate r => Sys2Proof.Machine.execRotUpdate r s
  | .inflightZero r e => Sys2Proof.Machine.execInflightZero r e s
  | .drainDoneReceived r e => Sys2Proof.Machine.execDrainDoneReceived r e s
  | .iommuDone h part region => Sys2Proof.Machine.execIommuDone h part region s
  | .ownershipReport rep dt => Sys2Proof.Machine.execOwnershipReport rep dt s
  | .ownfRecordFree n => Sys2Proof.Machine.execOwnfRecordFree n s
  | .geckoDecay k => Sys2Proof.Machine.execGeckoDecay k s
  | .geckoWindowWrite k n v => Sys2Proof.Machine.execGeckoWindowWrite k n v s
  | .fabricSend f q => Sys2Proof.Machine.execFabricSend f q s
  | .pairKeyArrival f e => Sys2Proof.Machine.execPairKeyArrival f e s
  | .sendEpochChange f e => Sys2Proof.Machine.execSendEpochChange f e s
  | .packetReceive f pkt buf => Sys2Proof.Machine.execPacketReceive f pkt buf s
  | .receiveEpochChange f e => Sys2Proof.Machine.execReceiveEpochChange f e s
  | .packetRelease f e => Sys2Proof.Machine.execPacketRelease f e s
  | .packetDone f e seq ok => Sys2Proof.Machine.execPacketDone f e seq ok s
  | .ackSend f e => Sys2Proof.Machine.execAckSend f e s
  | .ackIntervalExpiry f e => Sys2Proof.Machine.execAckIntervalExpiry f e s
  | .atomicResult f e seq ok old => Sys2Proof.Machine.execAtomicResult f e seq ok old s
  | .retryTimeout f e => Sys2Proof.Machine.execRetryTimeout f e s
  | .retrySpanExpiry f e => Sys2Proof.Machine.execRetrySpanExpiry f e s
  | .replyHoldExpiry f n => Sys2Proof.Machine.execReplyHoldExpiry f n s
  | .replyCacheAgeTick f => Sys2Proof.Machine.execReplyCacheAgeTick f s
  | .hostInboundTlp ctx tlp => Sys2Proof.Machine.execHostInboundTlp ctx tlp s
  | .hostOutboundRequest q => Sys2Proof.Machine.execHostOutboundRequest q s
  | .ideKmQuery m => Sys2Proof.Machine.execIdeKmQuery m s
  | .ideKmKeyProg m => Sys2Proof.Machine.execIdeKmKeyProg m s
  | .ideKmKSetGo m => Sys2Proof.Machine.execIdeKmKSetGo m s
  | .ideKmKSetStop m => Sys2Proof.Machine.execIdeKmKSetStop m s
  | .getTdispVersion part => Sys2Proof.Machine.execGetTdispVersion part s
  | .getTdispCapabilities part => Sys2Proof.Machine.execGetTdispCapabilities part s
  | .lockInterfaceRequest part stream => Sys2Proof.Machine.execLockInterfaceRequest part stream s
  | .getDeviceInterfaceReport part => Sys2Proof.Machine.execGetDeviceInterfaceReport part s
  | .getDeviceInterfaceState part => Sys2Proof.Machine.execGetDeviceInterfaceState part s
  | .startInterfaceRequest part nonce => Sys2Proof.Machine.execStartInterfaceRequest part nonce s
  | .stopInterfaceRequest part => Sys2Proof.Machine.execStopInterfaceRequest part s
  | .sigOpen h addr buf => Sys2Proof.Machine.execSigOpen h addr buf s
  | .sigClose h sig => Sys2Proof.Machine.execSigClose h sig s
  | .sigFree h sig => Sys2Proof.Machine.execSigFree h sig s
  | .partialReady k idx => Sys2Proof.Machine.execPartialReady k idx s
  | .mergeComplete => Sys2Proof.Machine.execMergeComplete s
  | .checkSubmit h addr buf => Sys2Proof.Machine.execCheckSubmit h addr buf s
  | .checkStart => Sys2Proof.Machine.execCheckStart s
  | .checkComplete => Sys2Proof.Machine.execCheckComplete s
  | .faultReport rep dt => Sys2Proof.Machine.execFaultReport rep dt s
  | .captureSealed => Sys2Proof.Machine.execCaptureSealed s
  | .captureWaitExpiry dt => Sys2Proof.Machine.execCaptureWaitExpiry dt s
  | .captureRecordWrite dt => Sys2Proof.Machine.execCaptureRecordWrite dt s
  | .domainStatusNotice => Sys2Proof.Machine.execDomainStatusNotice s
  | .faultAck c => Sys2Proof.Machine.execFaultAck c s
  | .eventDispatch dt => Sys2Proof.Machine.execEventDispatch dt s
  | .eventPost tower v => Sys2Proof.Machine.execEventPost tower v s
  | .fsmTimerExpiry n dt => Sys2Proof.Machine.execFsmTimerExpiry n dt s
  | .scheduleArm n hi => Sys2Proof.Machine.execScheduleArm n hi s
  | .scheduleSlotFire n dt => Sys2Proof.Machine.execScheduleSlotFire n dt s
  | .ppsEdge dt => Sys2Proof.Machine.execPpsEdge dt s
  | .ppsMissed dt => Sys2Proof.Machine.execPpsMissed dt s
  | .timeSeed v => Sys2Proof.Machine.execTimeSeed v s
  | .curveSample n dt => Sys2Proof.Machine.execCurveSample n dt s
  | .governorTick dt act => Sys2Proof.Machine.execGovernorTick dt act s
  | .releaseTimerExpiry dt => Sys2Proof.Machine.execReleaseTimerExpiry dt s
  | .islandHang isl => Sys2Proof.Machine.execIslandHang isl s
  | .towerServiceHang isl slot => Sys2Proof.Machine.execTowerServiceHang isl slot s
  | .memoryHang isl w => Sys2Proof.Machine.execMemoryHang isl w s
  | .commandHang w => Sys2Proof.Machine.execCommandHang w s
  | .lateResponse isl => Sys2Proof.Machine.execLateResponse isl s
  | .clockMonitorWindow isl good => Sys2Proof.Machine.execClockMonitorWindow isl good s
  | .fifoParityError isl w => Sys2Proof.Machine.execFifoParityError isl w s
  | .badParityBeat p => Sys2Proof.Machine.execBadParityBeat p s
  | .railUp => Sys2Proof.Machine.execRailUp s
  | .railDown => Sys2Proof.Machine.execRailDown s
  | .vbatApply => Sys2Proof.Machine.execVbatApply s
  | .hresetFall => Sys2Proof.Machine.execHresetFall s
  | .hresetRise => Sys2Proof.Machine.execHresetRise s
  | .romLoaderStart image => Sys2Proof.Machine.execRomLoaderStart image s
  | .recoveryWord w buf => Sys2Proof.Machine.execRecoveryWord w buf s
  | .tamperInput n => Sys2Proof.Machine.execTamperInput n s
  | .vbatLowTimeout => Sys2Proof.Machine.execVbatLowTimeout s
  | .noiseFail => Sys2Proof.Machine.execNoiseFail s
  | .latchedClear v => Sys2Proof.Machine.execLatchedClear v s
  | .slotExpiry slot => Sys2Proof.Machine.execSlotExpiry slot s
  | .slotInvalidationAcked slot => Sys2Proof.Machine.execSlotInvalidationAcked slot s
  | .blobUnwrap h wrap addr buf => Sys2Proof.Machine.execBlobUnwrap h wrap addr buf s
  | .slotRetire h slot => Sys2Proof.Machine.execSlotRetire h slot s
  | .lcChallenge h => Sys2Proof.Machine.execLcChallenge h s
  | .lcTransition h addr token => Sys2Proof.Machine.execLcTransition h addr token s
  | .debugOpen h addr token => Sys2Proof.Machine.execDebugOpen h addr token s
  | .lcStatus h => Sys2Proof.Machine.execLcStatus h s
  | .getVersion m => Sys2Proof.Machine.execGetVersion m s
  | .getCapabilities m => Sys2Proof.Machine.execGetCapabilities m s
  | .negotiateAlgorithms m => Sys2Proof.Machine.execNegotiateAlgorithms m s
  | .getDigests m => Sys2Proof.Machine.execGetDigests m s
  | .getCertificate m => Sys2Proof.Machine.execGetCertificate m s
  | .challenge m => Sys2Proof.Machine.execChallenge m s
  | .getMeasurements m => Sys2Proof.Machine.execGetMeasurements m s
  | .keyExchange m => Sys2Proof.Machine.execKeyExchange m s
  | .finish m => Sys2Proof.Machine.execFinish m s
  | .heartbeat m => Sys2Proof.Machine.execHeartbeat m s
  | .heartbeatTimeout sess => Sys2Proof.Machine.execHeartbeatTimeout sess s
  | .keyUpdate m => Sys2Proof.Machine.execKeyUpdate m s
  | .endSession m => Sys2Proof.Machine.execEndSession m s
  | .respondIfReady m => Sys2Proof.Machine.execRespondIfReady m s
  | .chunkSend m => Sys2Proof.Machine.execChunkSend m s
  | .chunkGet m => Sys2Proof.Machine.execChunkGet m s
  | .spdmUnsupportedRequest m => Sys2Proof.Machine.execSpdmUnsupportedRequest m s
  | .getEvidence m => Sys2Proof.Machine.execGetEvidence m s
  | .getMldsaChain m => Sys2Proof.Machine.execGetMldsaChain m s
  | .kemAugment m => Sys2Proof.Machine.execKemAugment m s
  | .deliverKey m => Sys2Proof.Machine.execDeliverKey m s
  | .signComplete => Sys2Proof.Machine.execSignComplete s
  | .standingRecordRegen part => Sys2Proof.Machine.execStandingRecordRegen part s
  | .sitePolicy h site addr buf => Sys2Proof.Machine.execSitePolicy h site addr buf s
  | .siteAdmit h site => Sys2Proof.Machine.execSiteAdmit h site s
  | .admissionResponse site msg => Sys2Proof.Machine.execAdmissionResponse site msg s
  | .admissionTimeout site => Sys2Proof.Machine.execAdmissionTimeout site s
  | .remeasureTimer site => Sys2Proof.Machine.execRemeasureTimer site s
  | .siteLinkDown site => Sys2Proof.Machine.execSiteLinkDown site s
  | .siteLinkUp site => Sys2Proof.Machine.execSiteLinkUp site s
  | .siteEvict h site => Sys2Proof.Machine.execSiteEvict h site s
  | .siteContext h part sel entry => Sys2Proof.Machine.execSiteContext h part sel entry s
  | .relayBind h conn mbx addr => Sys2Proof.Machine.execRelayBind h conn mbx addr s
  | .spdmMsg h len buf => Sys2Proof.Machine.execSpdmMsg h len buf s
  | .partCreate h addr buf => Sys2Proof.Machine.execPartCreate h addr buf s
  | .quiesce h part fence value => Sys2Proof.Machine.execQuiesce h part fence value s
  | .quiescenceReached part => Sys2Proof.Machine.execQuiescenceReached part s
  | .resume h part => Sys2Proof.Machine.execResume h part s
  | .freeze h part => Sys2Proof.Machine.execFreeze h part s
  | .remove h part => Sys2Proof.Machine.execRemove h part s
  | .processExit h part tag => Sys2Proof.Machine.execProcessExit h part tag s
  | .retain h handle => Sys2Proof.Machine.execRetain h handle s
  | .release h handle => Sys2Proof.Machine.execRelease h handle s
  | .regionCreate h addr buf => Sys2Proof.Machine.execRegionCreate h addr buf s
  | .regionDestroy h region => Sys2Proof.Machine.execRegionDestroy h region s
  | .regionClear h region fence value => Sys2Proof.Machine.execRegionClear h region fence value s
  | .regionAttr h region attr => Sys2Proof.Machine.execRegionAttr h region attr s
  | .fenceCreate h kindTdid loc stream initial => Sys2Proof.Machine.execFenceCreate h kindTdid loc stream initial s
  | .fenceWriteError fence => Sys2Proof.Machine.execFenceWriteError fence s
  | .streamOpen h sel peer root => Sys2Proof.Machine.execStreamOpen h sel peer root s
  | .streamClose h stream fence value => Sys2Proof.Machine.execStreamClose h stream fence value s
  | .streamFence h stream fence value => Sys2Proof.Machine.execStreamFence h stream fence value s
  | .streamRekey h stream => Sys2Proof.Machine.execStreamRekey h stream s
  | .partExport h wrap addr len buf => Sys2Proof.Machine.execPartExport h wrap addr len buf s
  | .partImport h wrap addr place buf placement => Sys2Proof.Machine.execPartImport h wrap addr place buf placement s
  | .migrateSend h region stream dest fence value => Sys2Proof.Machine.execMigrateSend h region stream dest fence value s
  | .unknownCommand mbx => Sys2Proof.Machine.execUnknownCommand mbx s
  | .commandCollision mbx => Sys2Proof.Machine.execCommandCollision mbx s
  | .mbxTxWrite mbx w => Sys2Proof.Machine.execMbxTxWrite mbx w s
  | .mbxTake mbx v => Sys2Proof.Machine.execMbxTake mbx v s
  | .mbxRxWrite mbx => Sys2Proof.Machine.execMbxRxWrite mbx s
  | .mbxTowerTake mbx => Sys2Proof.Machine.execMbxTowerTake mbx s
  | .noticeWrite => Sys2Proof.Machine.execNoticeWrite s
  | .towerSleep => Sys2Proof.Machine.execTowerSleep s
  | .towerWake => Sys2Proof.Machine.execTowerWake s
  | .lockstepMismatch => Sys2Proof.Machine.execLockstepMismatch s
  | .fieldTestStart v header => Sys2Proof.Machine.execFieldTestStart v header s
  | .fieldTestBeat beat response => Sys2Proof.Machine.execFieldTestBeat beat response s
  | .fieldTestEnd flashOk => Sys2Proof.Machine.execFieldTestEnd flashOk s
  | .fieldTestAbort => Sys2Proof.Machine.execFieldTestAbort s
  | .counterFlush isl => Sys2Proof.Machine.execCounterFlush isl s
  | .freezeTrigger => Sys2Proof.Machine.execFreezeTrigger s
  | .periodicFreeze dt => Sys2Proof.Machine.execPeriodicFreeze dt s
  | .freezeComplete isl => Sys2Proof.Machine.execFreezeComplete isl s
  | .thaw => Sys2Proof.Machine.execThaw s
  | .snapshotDone ok => Sys2Proof.Machine.execSnapshotDone ok s
  | .traceRecord isl => Sys2Proof.Machine.execTraceRecord isl s
  | .traceTrigger => Sys2Proof.Machine.execTraceTrigger s
  | .traceRelease => Sys2Proof.Machine.execTraceRelease s
  | .traceDrain => Sys2Proof.Machine.execTraceDrain s
  | .traceDrainDone ok => Sys2Proof.Machine.execTraceDrainDone ok s
  | .trigIoEdge => Sys2Proof.Machine.execTrigIoEdge s
  | .trigIoPulseEnd => Sys2Proof.Machine.execTrigIoPulseEnd s
  | .wakePulseEnd => Sys2Proof.Machine.execWakePulseEnd s
  | .rampWindow demands => Sys2Proof.Machine.execRampWindow demands s
  | .capHoldExpiry c => Sys2Proof.Machine.execCapHoldExpiry c s
  | .loRegisterRead tower island off => Sys2Proof.Machine.execLoRegisterRead tower island off s
  | .entryLowWordRead tower island off => Sys2Proof.Machine.execEntryLowWordRead tower island off s
  | .registerWrite tower island off v => Sys2Proof.Machine.execRegisterWrite tower island off v s
  | .fuseProgramDone => Sys2Proof.Machine.execFuseProgramDone s
  | .islandPllLock isl => Sys2Proof.Machine.execIslandPllLock isl s
  | .vbatLowChange low => Sys2Proof.Machine.execVbatLowChange low s
  | .noiseHealthRestored => Sys2Proof.Machine.execNoiseHealthRestored s
  | .ppDataArrival p id data err => Sys2Proof.Machine.execPpDataArrival p id data err s
  | .ppWriteAccept p id => Sys2Proof.Machine.execPpWriteAccept p id s
  | .pccAtomicRequest p q => Sys2Proof.Machine.execPccAtomicRequest p q s

end Sys2Proof.Machine
end

