-- ==== Sys2Proof/Safety.lean ====
section
/-!
DEFINITION. What a safe state is, in the terms of the statements, and the order between states that no command undoes.
-/

namespace Sys2Proof

open Sys2Proof.Machine

/-- A safe state: the firmware RAM is in its canonical form (R578), Spire's event queue holds at most its 256 events
(R398), and OBS's trace at most its 32,768 records (spec/16_observation.md, Trace buffer). -/
def Safe (s : State) : Prop :=
  Memory.wf s.ram = true ∧ s.spr.queue.length ≤ 256 ∧ s.obs.records.length ≤ 32768

/-- `t` has every fuse blown that `s` has: the life-cycle row and both copies of the operator digest (R477, R480). -/
def FusesKept (s t : State) : Prop :=
  s.lc.otp &&& t.lc.otp = s.lc.otp ∧ s.lc.digest &&& t.lc.digest = s.lc.digest ∧
    s.lc.digestInv &&& t.lc.digestInv = s.lc.digestInv

end Sys2Proof
end

