-- ==== Sys2Proof/Certificates/Slice0/Obligations.lean ====
section
/-!
DEFINITION. What is to be proved of the model: one closed proposition per obligation, listed in OBLIGATIONS.json.
Every statement holds for every state that meets its hypotheses, whether or not a run reaches it; a result given as a
whole state says also that everything it does not name is unchanged.
-/

open Sys2Proof Sys2Proof.Machine

/-- O1 (tier 1, stated; R590). A TAKE removes the COUNT oldest RX words exactly when SEQ is the oldest word's and COUNT words are present -/
def Obligations.MailboxTakeFollowsSequence : Prop :=
  ∀ (n : Fin 160) (v : Word32) (s : State), s.live 1 = true →
    (∀ x rest, (s.mbx.get n.val).rx = x :: rest → x.seq.toNat = fld v 7 0 → 1 ≤ fld v 11 8 →
      fld v 11 8 ≤ (x :: rest).length →
      exec (.mbxTake n v) s = .next (s.onMbx n.val (fun m => { m with rx := m.rx.drop (fld v 11 8) }))) ∧
    (∀ x rest, (s.mbx.get n.val).rx = x :: rest →
      (x.seq.toNat ≠ fld v 7 0 ∨ (x :: rest).length < fld v 11 8 ∨ fld v 11 8 = 0) → exec (.mbxTake n v) s = .next s) ∧
    ((s.mbx.get n.val).rx = [] → exec (.mbxTake n v) s = .next s)

/-- O2 (tier 1, stated; R589). A write to a full mailbox direction replaces its newest word, takes the next sequence value and sets COLLISION -/
def Obligations.FullMailboxWriteReplacesNewest : Prop :=
  ∀ (n : Fin 160) (w : Word32) (s : State), s.live 1 = true →
    ((s.mbx.get n.val).tx.length < (s.mbx.get n.val).room →
      exec (.mbxTxWrite n w) s =
        .next (s.onMbx n.val (fun m => { m with tx := m.tx ++ [{ word := w, seq := m.txSeq + 1 }], txSeq := m.txSeq + 1 }))) ∧
    ((s.mbx.get n.val).room ≤ (s.mbx.get n.val).tx.length →
      exec (.mbxTxWrite n w) s =
        .next (s.onMbx n.val (fun m =>
          { m with tx := m.tx.dropLast ++ [{ word := w, seq := m.txSeq + 1 }], txSeq := m.txSeq + 1, collTx := true }))) ∧
    ((s.mbx.get n.val).room ≤ (s.mbx.get n.val).rx.length →
      ((s.rxPush n.val w).mbx.get n.val).rx =
        (s.mbx.get n.val).rx.dropLast ++ [{ word := w, seq := (s.mbx.get n.val).rxSeq + 1 }] ∧
      ((s.rxPush n.val w).mbx.get n.val).collRx = true)

/-- O3 (tier 1, stated; R598). Tower finds COLLISION_TX set: the flag is cleared, every word is taken, and COLLISION is answered under 0xFFFF -/
def Obligations.CollisionIsAnswered : Prop :=
  ∀ (n : Fin 160) (s : State), s.fwUp = true → (s.mbx.get n.val).collTx = true → n.val ≠ 0 → n.val ≠ 2 →
    exec (.commandCollision n) s =
      .next ((((s.onMbx n.val (fun m => { m with collTx := false, tx := [] })).onMbx n.val (fun m =>
        { m with resp := m.resp ++ [[BitVec.ofNat 32 (0x0A * 2 ^ 24 + 0xFFFF)]] }))).emptyIrq n.val)

/-- O4 (tier 1, derived; R561, R577, R579, R591, R592, R596, R597, R599, R601, R607, R770). Tower's mailbox and core commands take, answer, notify, sleep, wake and halt as R561 and R577 to R607 say -/
def Obligations.TowerMailboxCommandsComplete : Prop :=
  (∀ (n : Fin 160) (s : State) w ws rest, (s.mbx.get n.val).resp = (w :: ws) :: rest → s.fwUp = true →
    (s.mbx.get n.val).rx.length + ws.length < (s.mbx.get n.val).room →
    exec (.mbxRxWrite n) s =
      .next ((s.rxPush n.val w).onMbx n.val (fun m => { m with resp := if ws.isEmpty then rest else ws :: rest }))) ∧
  (∀ (n : Fin 160) (s : State) (k : Nat), s.fwUp = true → s.fw.sleep = false → (s.isl.get 1).swap = .run →
    n.val ≠ 0 → n.val ≠ 2 → (s.mbx.get n.val).collTx = false → (s.mbx.get n.val).head = some (k, none) →
    ∀ ws, ws = ((s.mbx.get n.val).tx.take k).map (·.word) →
    (s.txTake n.val k).refusal n.val (fld (ws[0]?.getD 0) 31 24) (fld (ws[1]?.getD 0) 23 0) = none →
    exec (.mbxTowerTake n) s =
      .next (State.acceptC { s.txTake n.val k with cmds := (s.txTake n.val k).cmds ++
        [{ mbx := n.val, code := BitVec.ofNat 8 (fld (ws[0]?.getD 0) 31 24), cmdId := BitVec.ofNat 16 (fld (ws[0]?.getD 0) 15 0)
           tag := BitVec.ofNat 24 (fld (ws[1]?.getD 0) 23 0), args := ws.drop 2, part := (s.txTake n.val k).mbxPart n.val
           names := (s.txTake n.val k).namedKeys (fld (ws[0]?.getD 0) 31 24) (ws.drop 2) }] } (fld (ws[0]?.getD 0) 31 24))) ∧
  (∀ s : State, s.fwUp = true → s.fw.sleep = false → (s.isl.get 1).swap = .run →
    exec (.mbxTowerTake 2) s = .next (s.txTake 2 8)) ∧
  (∀ (n : Fin 160) (s : State) (k st : Nat) x rest, s.fwUp = true → n.val ≠ 0 → n.val ≠ 2 →
    (s.mbx.get n.val).collTx = false → (s.mbx.get n.val).head = some (k, some st) → (s.mbx.get n.val).tx = x :: rest →
    exec (.unknownCommand n) s = .next ((s.txTake n.val k).respond n.val st (fld x.word 15 0) [])) ∧
  (∀ (s : State) a b rest, s.cap.words = (a, b) :: rest → s.fwUp = true →
    exec .noticeWrite s = .next ((State.rxPush { s with cap := { s.cap with words := rest } } 2 a).rxPush 2 b)) ∧
  (∀ s : State, s.fwUp = true → (∀ c ∈ s.mbx.cells, c.2.tx = []) →
    exec .towerSleep s = .next { s with fw := { s.fw with sleep := true } }) ∧
  (∀ (s : State) c, c ∈ s.mbx.cells → c.2.tx ≠ [] → exec .towerWake s = .next { s with fw := { s.fw with sleep := false } }) ∧
  (∀ s : State, s.fwUp = true →
    exec .lockstepMismatch s = .next (State.report { s with fw := { s.fw with halted := true } } 12 1 0)) ∧
  (∀ (f : Fin 16384) (s : State), (s.obj (objKey 6 f.val)).used = true →
    exec (.fenceWriteError f) s =
      .next (((s.onFence f.val (fun x => { x with lost := true })).onPrt (fun q => { q with fenceLost := true })).countFixed 1 8))

/-- O5 (tier 1, derived; R69, R70, R71, R72, R88, R735, R762). STREAM_LOAD, BOOT_STREAM_LOAD and STREAM_RETRY end in VALIDATED, SWAPPING or REJECTED as the validation says -/
def Obligations.StreamLoadingCommandsComplete : Prop :=
  (∀ (h : Hdr) (addr : BitVec 64) (len : Word32) (b : Bytes) (dt : Nat) (s t : State) (c : Cmd),
    (s.advance dt).arrival h 1 (addrWords addr ++ [len]) = some (t, c) → t.str.busy = false → t.lc.running = none → t.noArchive = false →
    ∀ u, u = (t.dmaRead (t.bufferTdid c) addr.toNat len.toNat).dropShadows →
    exec (.streamLoad h addr len (some b) dt) s = .next ((s.advance dt).thenReap
      (match u.validate (Bytes.fit b len.toNat) len.toNat with
      | .ok x => ((u.writeShadows x).onStr (fun y =>
          { y with state := 2, reason := 0, section_ := 0, island := 0x3F, detail := 0, shadow := some x })).hold c
      | .error r => ((u.streamReject r).hold c).streamAnswer))) ∧
  (∀ (h : Hdr) (addr : BitVec 64) (len : Word32) (b : Buf) (dt : Nat) (s t : State) (c : Cmd),
    (s.advance dt).arrival h 1 (addrWords addr ++ [len]) = some (t, c) →
    ((t.str.busy = true ∨ t.lc.running ≠ none) → exec (.streamLoad h addr len b dt) s = .next ((s.advance dt).thenReap (t.answer c 5))) ∧
    (t.str.busy = false → t.lc.running = none → t.noArchive = true →
      exec (.streamLoad h addr len b dt) s = .next ((s.advance dt).thenReap (t.answer c 8 [1])))) ∧
  (∀ (b : Bytes) (dt : Nat) (s t : State), t = s.advance dt → t.fwUp = true → t.str.busy = false → t.pwr.committed = false →
    ∀ u, u = (if t.dom.queue.isEmpty && (t.slot 0).state == 0 then t.reservedKeys else t).dropShadows →
    exec (.bootStreamLoad (some b) dt) s = .next
      (match u.validate b b.length with
      | .ok x => (u.writeShadows x).onStr (fun y =>
          { y with state := 2, reason := 0, section_ := 0, island := 0x3F, detail := 0, shadow := some x })
      | .error r => u.streamReject r)) ∧
  (∀ (h : Hdr) (s t : State) (c : Cmd) (x : StreamSet), s.arrival h 2 [] = some (t, c) → t.str.state = 6 →
    t.str.shadow = some x →
    exec (.streamRetry h) s = .next (s.thenReap
      (match t.laterSteps x with
      | .ok _ => ((t.onStr (fun y => { y with reason := 0, section_ := 0, island := 0x3F, detail := 0 })).hold c).prepareStart
      | .error r => ((t.hold c).streamReject r).streamAnswer))) ∧
  (∀ (h : Hdr) (s t : State) (c : Cmd), s.arrival h 2 [] = some (t, c) → t.str.state ≠ 6 →
    exec (.streamRetry h) s = .next (s.thenReap (t.answer c 7)))

/-- O6 (tier 1, derived; R71, R74, R76, R78, R80, R81, R82, R95). The swap coordinator broadcasts PREPARE; islands drain, answer or refuse; a refusal or the window's end aborts -/
def Obligations.SwapPreparesAndAborts : Prop :=
  (∀ (dt : Nat) (s t u : State) (x : StreamSet), t = (s.advance dt).atStep stepCompare → t.str.shadow = some x → t.str.state = 2 →
    t.spr.coord = .idle → t.live 2 = true → (x.commitTime = 0 ∨ x.commitTime.toNat ≤ t.spr.time.counter.toNat) →
    u = (t.writeShadows x).onStr (fun y => { y with state := 3 }) → u.spireRefuses x = false →
    exec (.commitTimeReached dt) s = .next (u.onSpr (fun p =>
      { p with coord := .collecting, participants := u.swapParticipants, prepared := [], committed := [], refused := [] }))) ∧
  (∀ (i : Fin 46) (s : State) (x : StreamSet), s.str.shadow = some x → s.spr.coord = .collecting →
    i.val ∈ s.spr.participants → (s.isl.get i.val).swap = .run → (∀ r ∈ s.spr.refused, r.1 ≠ i.val) → i.val ∉ s.spr.abortTo →
    exec (.islandPrepare i) s = .next
      (match s.refusesSwap i.val x with
      | some (reason, sec) => s.onSpr (fun p => { p with refused := p.refused ++ [(i.val, 256 * reason + sec)] })
      | none => s.onIsl i.val (fun r => { r with swap := .draining }))) ∧
  (∀ (i : Fin 46) (s u : State), (s.isl.get i.val).swap = .draining → s.atBoundary i.val = true →
    u = s.onIsl i.val (fun r => { r with swap := .prepared }) →
    exec (.boundaryReached i) s = .next
      (if i.val = 44 ∧ ownerIn (u.isl.get i.val).active 1 0 ≠ ownerIn (u.isl.get i.val).shadow 1 0 then u.trigDrive false else u)) ∧
  (∀ (i : Fin 46) (u s : State) (j v : Nat), s = u.atStep stepArrive → s.spr.coord = .collecting →
    s.spr.refused.find? (fun r => r.1 == i.val) = some (j, v) →
    exec (.refusedReceived i) u = .next (s.swapAbort (v / 256) (v % 256) i.val)) ∧
  (∀ u s : State, s = u.atStep stepCompare → s.spr.coord = .collecting →
    exec .prepareWindowExpiry u =
      .next (s.swapAbort 0x11 0 ((s.spr.participants.find? (fun i => !s.spr.prepared.contains i)).getD 0x3F))) ∧
  (∀ (i : Fin 46) (s : State), i.val ∈ s.spr.abortTo → (s.isl.get i.val).swap ≠ .run →
    exec (.islandAbort i) s = .next ((s.onSpr (fun p => { p with abortTo := p.abortTo.erase i.val })).admitWork i.val)) ∧
  (∀ (s : State) (reason sec island : Nat),
    s.swapAbort reason sec island = (((s.onSpr (fun p => { p with
      coord := .idle, abortTo := p.abortTo ++ p.participants.filter (fun i => !p.abortTo.contains i), participants := []
      prepared := [], refused := [] })).onStr (fun x => { x with
      state := 6, reason := BitVec.ofNat 8 reason, section_ := BitVec.ofNat 8 sec, island := BitVec.ofNat 6 island })).streamAnswer))

/-- O7 (tier 1, derived; R80, R81, R83, R86, R87, R275, R755, R756, R760). The last PREPARED commits the set; each island takes its sections; the archive is copied and reloaded from -/
def Obligations.SwapCommitsAndReloads : Prop :=
  (∀ (i : Fin 46) (v s u : State), s = v.atStep stepArrive → s.spr.coord = .collecting → i.val ∈ s.spr.participants → i.val ∉ s.spr.prepared →
    (s.isl.get i.val).swap = .prepared → u = s.onSpr (fun p => { p with prepared := p.prepared ++ [i.val] }) →
    exec (.preparedReceived i) v = .next (if ∀ j ∈ u.spr.participants, j ∈ u.spr.prepared then u.commitBroadcast else u)) ∧
  (∀ (i : Fin 46) (s : State) (x : StreamSet), s.str.active = some x → i.val ∈ s.spr.commitTo →
    (s.isl.get i.val).swap = .prepared →
    exec (.islandCommit i) s =
      .next (((s.onSpr (fun p => { p with commitTo := p.commitTo.erase i.val })).takeSections i.val x).admitWork i.val)) ∧
  (∀ (s : State) (i : Nat) (x : StreamSet),
    ((s.takeSections i x).isl.get i).active = x.forIsland i ∧ ((s.takeSections i x).isl.get i).shadow = [] ∧
    ((s.takeSections i x).isl.get i).generation = x.generation ∧ ((s.takeSections i x).isl.get i).loaded = true) ∧
  (∀ (i : Fin 46) (v s : State), s = v.atStep stepArrive → s.awaitsCommitted i.val = true → i.val ∉ s.spr.commitTo →
    exec (.committedReceived i) v = .next (s.countCommitted i.val)) ∧
  (∀ (i : Fin 46) (v s : State), s = v.atStep stepCompare → s.awaitsCommitted i.val = true →
    exec (.committedTimeout i) v = .next ((s.report 11 i.val 0).countCommitted i.val)) ∧
  (∀ (s u : State) (i : Nat), u = s.onSpr (fun p => { p with committed := p.committed ++ [i] }) →
    s.countCommitted i = if ∀ j ∈ u.spr.participants, j ∈ u.spr.committed then
        ((u.onSpr (fun p => { p with coord := .idle, participants := [], prepared := [], committed := [] })).onStr (fun x =>
          { x with state := 4, reason := 0, section_ := 0, island := 0x3F })).streamAnswer
      else u) ∧
  (∀ (s : State) (x : StreamSet), s.str.active = some x → s.fwUp = true → (s.region archiveRegion).entries = [0] →
    (s.region archiveRegion).phase = .live → s.str.copied = false →
    exec .archiveCopy s = .next ((((Bytes.chunks x.bytes 4096).zipIdx).foldl (fun s p =>
      s.archiveWrite (s.str.base.toNat + 4096 * p.2) p.1) s).onStr (fun y => { y with archive := x.digests, copied := true }))) ∧
  (∀ (i : Fin 46) (a : Buf) (s : State) (x : StreamSet), s.str.active = some x → i.val ≠ 0 → s.live i.val = true →
    s.loading i.val = true → s.live 1 = true → s.archiveGood (x.forIsland i.val) a = true →
    exec (.islandSectionLoad i a) s = .next ((State.takeSections
      (if s.str.rwl.any (fun r => r.1 == i.val) then s.rwlRestore i.val else s) i.val x).admitWork i.val))

/-- O8 (tier 1, derived; R31, R137, R138, R140, R621, R622, R738, R742). Known-answer tests, power-on groups, ageing readings, wear periods and audit windows do what R137 to R140, R621, R622 and R742 say -/
def Obligations.LaneTestsAndWearComplete : Prop :=
  (∀ (c : Cl) (n : Fin 16) (s u : State), n.val < socketCount (c.val + 3) → (s.socket (c.val + 3) n.val).powered = true →
    u = s.report 1 (c.val + 3) n.val →
    exec (.laneKnownAnswerTest c n true) s = .next (State.lanesAfter (s.onSocket (c.val + 3) n.val (fun x =>
      { x with tested := true, activity := if x.tested then x.activity else 0 })) (c.val + 3)) ∧
    ((s.socket (c.val + 3) n.val).role ≠ 0 →
      exec (.laneKnownAnswerTest c n false) s = .next ((u.faultLane (c.val + 3) n.val).lanesAfter (c.val + 3))) ∧
    ((s.socket (c.val + 3) n.val).role = 0 → ∀ k rest, u.freshSpares (c.val + 3) = k :: rest →
      exec (.laneKnownAnswerTest c n false) s = .next (State.lanesAfter (((u.exchangeLanes (c.val + 3) n.val k).faultLane
        (c.val + 3) k).onSocket (c.val + 3) n.val (fun x => { x with activity := if x.tested then 0 else 3 })) (c.val + 3))) ∧
    ((s.socket (c.val + 3) n.val).role = 0 → u.freshSpares (c.val + 3) = [] →
      exec (.laneKnownAnswerTest c n false) s =
        .next (((u.faultLane (c.val + 3) n.val).report 2 (c.val + 3) n.val).lanesAfter (c.val + 3)))) ∧
  (∀ s : State, s.pwr.committed = true → s.pwr.exempt ≤ 1 →
    exec .laneGroupPowerOn s =
      .next ((s.unpowered.take 8).foldl (fun s p => s.onSocket p.1 p.2 (fun x => { x with powered := true }))
        { s with pwr := { s.pwr with exempt := s.pwr.exempt + 4 } })) ∧
  (∀ s : State, (s.pwr.committed = false ∨ 1 < s.pwr.exempt) → exec .laneGroupPowerOn s = .next s) ∧
  (∀ (c : Cl) (s : State) (spares : List Nat) (w : Nat), spares = s.availableSpares (c.val + 3) →
    w = (if (s.clusters.get (c.val + 3)).auditSpares = spares then (s.clusters.get (c.val + 3)).window + 1 else 0) →
    exec (.auditWindowEnd c) s =
      .next (spares.zipIdx.foldl (fun t p =>
        match (auditTargets (s.activeSockets (c.val + 3)) p.2 spares.length)[w %
            (auditTargets (s.activeSockets (c.val + 3)) p.2 spares.length).length]? with
        | some a => t.onSocket (c.val + 3) p.1 (fun k => { k with activity := 1, target := BitVec.ofNat 4 a })
        | none => t.onSocket (c.val + 3) p.1 (fun k => { k with activity := 0 }))
        (s.onCluster (c.val + 3) (fun x => { x with window := w, auditSpares := spares })))) ∧
  (∀ (c : Cl) (n : Fin 16) (v : BitVec 8) (s u : State), n.val < socketCount (c.val + 3) →
    u = s.onSocket (c.val + 3) n.val (fun x => { x with ageing := v }) →
    (v.toNat < 0xC0 → exec (.ageingReading c n v) s = .next u) ∧
    (0xC0 ≤ v.toNat → n.val ∈ u.activeSockets (c.val + 3) → u.healthySpares (c.val + 3) ≠ [] →
      (∀ o ∈ u.spr.swapQueue, ¬ (o.1 = c.val + 3 ∧ o.2.1 = n.val)) →
      (∀ x, (u.clusters.get (c.val + 3)).swap = some x → x.socket ≠ n.val) →
      exec (.ageingReading c n v) s = .next (u.orderSwap (c.val + 3) n.val))) ∧
  (∀ (dt : Nat) (s t : State), t = s.advance dt →
    (t.spr.wearAt + 3600000000000 ≤ t.now → exec (.wearPeriod dt) s =
      .next (((List.range 27).map (· + 3)).foldl State.wearCluster (t.onSpr (fun p => { p with wearAt := t.now })))) ∧
    (t.now < t.spr.wearAt + 3600000000000 → exec (.wearPeriod dt) s = .next t))

/-- O9 (tier 1, derived; R139, R141, R142, R143, R144, R145, R146, R148, R636, R744). Withheld outputs are compared and voted on, swaps begin, run in lockstep and switch sockets as R138 to R148 say -/
def Obligations.LaneComparisonAndSwapComplete : Prop :=
  (∀ (c : Cl) (id : Nat) (s : State) (x : Item), s.item (c.val + 3) id = some x → x.voting = false →
    exec (.laneOutput c id true) s =
      .next (((((s.dropItem (c.val + 3) id).releaseItem (c.val + 3) x.kind).lanesGone (c.val + 3)).clusterPump
        (c.val + 3)).settle.removals) ∧
    (∀ u, u = ((s.mismatch (c.val + 3) x.active).mismatch (c.val + 3) x.spare).countT (c.val + 3) 0x0F 128 →
      (∀ n, u.thirdLane (c.val + 3) x = some n →
        exec (.laneOutput c id false) s = .next (u.onCluster (c.val + 3) (fun y =>
          { y with items := mapWhere (fun z => z.id == id) (fun z => { z with voting := true, third := some n }) y.items }))) ∧
      (u.thirdLane (c.val + 3) x = none →
        exec (.laneOutput c id false) s = .next ((u.undecided (c.val + 3) x).itemEnds (c.val + 3) id .discard)))) ∧
  (∀ (c : Cl) (id : Nat) (s u : State) (x : Item), s.item (c.val + 3) id = some x → x.voting = true →
    u = s.note (c.val + 3) 0x0A none 0 2 ((s.laneSocket (c.val + 3) x.active).getD 0) x.active →
    exec (.laneVote c id .active) s =
      .next (((u.laneReport (c.val + 3) x.spare).laneFaulty (c.val + 3) x.spare x.lockstep).itemEnds (c.val + 3) id .release) ∧
    exec (.laneVote c id .spare) s =
      .next (((u.laneReport (c.val + 3) x.active).laneFaulty (c.val + 3) x.active x.lockstep).itemEnds (c.val + 3) id .release) ∧
    exec (.laneVote c id .neither) s =
      .next ((((u.laneReport (c.val + 3) x.active).laneFaulty (c.val + 3) x.spare x.lockstep).laneFaulty (c.val + 3) x.active
        x.lockstep).itemEnds (c.val + 3) id .discard)) ∧
  (∀ (s : State) (c lane n : Nat) (lockstep : Bool), s.laneSocket c lane = some n →
    s.laneReport c lane = s.report 0 c n ∧
    ((s.socket c n).role = 0 → s.laneFaulty c lane lockstep = s.replaceActive c n lockstep) ∧
    ((s.socket c n).role = 1 → s.laneFaulty c lane lockstep = s.spareFaulty c n)) ∧
  (∀ (c : Cl) (n : Fin 16) (s : State) (k : Nat) (rest : List Nat), (∀ o ∈ s.spr.swapQueue, o.1 ≠ c.val + 3) →
    s.pwr.stepTaken = false → s.spr.coord = .idle → (s.clusters.get (c.val + 3)).swap = none →
    n.val ∈ s.activeSockets (c.val + 3) → s.availableSpares (c.val + 3) = k :: rest →
    exec (.laneSwapOrder c n) s = .next (State.onSpr
      { (s.onCluster (c.val + 3) (fun x => { x with swap := some { socket := n.val, spare := k } })).onSocket (c.val + 3) k
          (fun x => { x with activity := 2 }) with pwr := { s.pwr with stepTaken := true } }
      (fun p => { p with swapQueue := dropFirst (fun o => o.1 == c.val + 3 && o.2.1 == n.val) p.swapQueue }))) ∧
  (∀ (c : Cl) (s : State),
    exec (.lockstepComplete c) s = .next (s.onCluster (c.val + 3) (fun x =>
      { x with swap := x.swap.map (fun w => { w with lockstepDone := true }) }))) ∧
  (∀ (c : Cl) (s u v y : State) (w : Swap), (s.clusters.get (c.val + 3)).swap = some w → (w.lockstepDone = true ∨ w.atOnce = true) →
    u = s.exchangeLanes (c.val + 3) w.socket w.spare →
    v = ((u.note (c.val + 3) 0x0A none 0 1 w.socket (u.socket (c.val + 3) w.socket).lane.toNat).onCluster (c.val + 3)
      (fun x => { x with swap := none })).onSocket (c.val + 3) w.socket (fun x => { x with activity := 0 }) →
    y = v.onSocket (c.val + 3) w.spare (fun x => { x with
      underTest := x.underTest || v.ftu.target == some (1, c.val + 3, (v.socket (c.val + 3) w.spare).lane.toNat) }) →
    exec (.socketSwitch c) s = .next (((State.raiseEvent
      (if w.faulty then y.faultLane (c.val + 3) w.spare else y.onSocket (c.val + 3) w.spare (fun x => { x with activity := 0 }))
      0x88 (256 * (c.val + 3) + w.socket) 2).ordersLost (c.val + 3)).lanesAfter (c.val + 3)))

/-- O10 (tier 1, derived; R110, R111, R112, R113, R207, R450, R463, R464). A schedule fill that may be served installs the key; one that may not is refused; an invalidation is applied -/
def Obligations.KeyScheduleCommandsComplete : Prop :=
  (∀ (c : Cl) (slot : Nat) (s : State), s.live (c.val + 3) = true → slot ∈ (s.clusters.get (c.val + 3)).awaiting →
    (c.val + 3, slot) ∉ s.invals →
    (s.fillOk (c.val + 3) slot = true →
      exec (.scheduleFill c slot) s = .next ((s.installSchedule (c.val + 3) slot).clusterPump (c.val + 3))) ∧
    (s.fillOk (c.val + 3) slot = false → exec (.scheduleFill c slot) s = .next (s.fillRefused (c.val + 3) slot))) ∧
  (∀ (c : Cl) (slot : Nat) (s : State), slot ∈ (s.clusters.get (c.val + 3)).awaiting → s.fillOk (c.val + 3) slot = false →
    exec (.scheduleFillRefused c slot) s = .next (s.fillRefused (c.val + 3) slot)) ∧
  (∀ (c : Cl) (slot : Nat) (s : State), (c.val + 3, slot) ∈ s.invals →
    exec (.scheduleInvalidate c slot) s =
      .next ((s.invalidateSchedule (c.val + 3) slot).clusterPump (c.val + 3)).settle.removals) ∧
  (∀ (s : State) (c slot : Nat), ∃ x rest,
    ((s.installSchedule c slot).clusters.get c).sched = x :: rest ∧ x.slot = slot ∧ x.key = (s.slot slot).key ∧
    x.epoch = (s.slot slot).epoch ∧ x.writes = !(s.slot slot).writeClosed ∧ x.dead = false) ∧
  (∀ (s : State) (c d slot : Nat), d ≠ c → (s.installSchedule c slot).clusters.get d = s.clusters.get d)

/-- O11 (tier 1, derived; R150, R156, R157, R158, R159, R163, R444, R446, R451, R453, R454). The control-plane engine starts and delivers, and Dome queues derivations, ends them, seals and unseals -/
def Obligations.EngineAndDerivationCommandsComplete : Prop :=
  (∀ (addr : Word32) (desc aad inp aux : Buf) (s u : State), u = s.cpePlaced addr.toNat desc aad inp aux →
    (s.cpe.busy = false → exec (.cpeStart addr desc aad inp aux) s = .next { u with cpe := { u.cpe with
      busy := true, error := 0, out := some (u.cpeOutcome addr.toNat).1, slots := (u.cpeOutcome addr.toNat).2 } }) ∧
    (s.cpe.busy = true → exec (.cpeStart addr desc aad inp aux) s = .next s)) ∧
  (∀ (s : State) (o : CpeOut), s.cpe.out = some o →
    exec .cpeDone s = .next (((State.cpeDeliver { s with cpe := { s.cpe with
      busy := false, done := true, error := BitVec.ofNat 8 o.error, out := none, slots := [] } } o).retireWaiting.retireRoots).settle.removals)) ∧
  (∀ (slot : Fin 4096) (s : State), s.domeReady = true → (s.slot slot.val).state = 0 → (∀ k ∈ s.dom.queue, k.slot ≠ slot.val) →
    (slot.val = 0 → exec (.domeDerive 0 slot) s = .next (s.deriveQueue .archive)) ∧
    (slot.val = 1 ∨ slot.val = 2 → exec (.domeDerive 1 slot) s = .next (s.deriveQueue (.tree (slot.val - 1)))) ∧
    (32 ≤ slot.val → exec (.domeDerive 2 slot) s =
      .next (s.deriveQueue (.region slot.val (s.slot slot.val).purpose (s.slot slot.val).tdid)))) ∧
  (∀ (s : State) k rest, s.dom.queue = k :: rest → exec .domeDeriveDone s = .next (s.deriveEnd.slotReady k.slot).removals) ∧
  (∀ (slot : Fin 4096) (id : Bytes) (s : State), s.domeReady = true → (s.slot slot.val).state = 1 →
    (s.slot slot.val).mayLeave = true → (s.slot slot.val).setBound = false → bit (s.slot slot.val).lcMask s.lcBit = true →
    s.notExpired (s.slot slot.val) = true →
    exec (.domeSeal slot id) s = .next (s.emit (.twr "DOME_SEAL" (s.domeBlob slot.val id)))) ∧
  (∀ (slot : Fin 4096) (b : Bytes) (s : State), s.domeReady = true → (s.slot slot.val).state = 0 →
    (∀ k ∈ s.dom.queue, k.slot ≠ slot.val) →
    exec (.domeUnseal slot b) s = .next
      (match s.domeOpen (s.slot slot.val).purpose b with
      | some k => ((s.fillSlot slot.val (s.slot slot.val).attr k).slotObject slot.val 0 true).emit (.twr "DOME_UNSEAL" [1])
      | none => s.emit (.twr "DOME_UNSEAL" [0])))

/-- O12 (tier 1, derived; R441, R442, R490, R494, R582, R583, R584, R731, R733, R734, R735, R736). The rail, VBAT, HRESET_N, firmware images and PLL locks move the block through its resets as R441, R442, R490, R582 and R730 to R736 say -/
def Obligations.PowerAndResetCommandsComplete : Prop :=
  (∀ s : State, s.dom.railPresent = false → exec .railUp s = .next (State.domeStart (State.blockReset
    { s.onDom (fun d => { d with railPresent := true }) with pwr := { s.pwr with railFell := true } }))) ∧
  (∀ s u : State, u = (if s.pads.trayReq then s.emit (.pad "TRAY_REQ_N" true) else s) →
    exec .railDown s = .next (((State.blockReset { u with
        pwr := { u.pwr with hresetLow := true, railFell := true }, pads := { u.pads with trayReq := false } }).onLc (fun l =>
      { l with debug := false, phase := 0, running := none })).onDom (fun d =>
      { d with railPresent := false, rootState := 0, vbatLow := false, lowDone := false }))) ∧
  (∀ s : State, s.dom.railPresent = false →
    exec .vbatApply s = .next { s with dom := { railPresent := false }, lc := { s.lc with taint := false } }) ∧
  (∀ s : State, exec .hresetFall s = .next (State.blockReset { s with pwr := { s.pwr with hresetLow := true } })) ∧
  (∀ s u : State, s.dom.railPresent = true → s.pwr.hresetLow = true → u = { s with pwr := { s.pwr with hresetLow := false } } →
    exec .hresetRise s = .next (if s.pwr.rootStepsDone then u else u.domeStart)) ∧
  (∀ (b : Buf) (s : State), s.romReady = true → s.fw.running = false → s.fw.recovery = false →
    exec (.romLoaderStart b) s = .next (if bufFailure b = 0 then s.startImage (b.getD [])
      else { s with fw := { s.fw with recovery := true, lastStep := BitVec.ofNat 8 (bufFailure b), words := [] } })) ∧
  (∀ (w : Word32) (b : Buf) (s u : State) (x : MbxWord) (rest : List MbxWord), s.fw.recovery = true → s.live 1 = true →
    u = (if (s.mbx.get 0).tx = [] then s.mbxTxWrite 0 w else s) → (u.mbx.get 0).tx = x :: rest →
    ((u.fw.words ++ [x.word]).length < 3 → exec (.recoveryWord w b) s =
      .next { u.txTake 0 1 with fw := { u.fw with words := u.fw.words ++ [x.word] } }) ∧
    (∀ lo hi, u.fw.words = [lo, hi] → exec (.recoveryWord w b) s =
      .next ((((u.txTake 0 1).dmaRead 0 (lo.toNat + 2 ^ 32 * hi.toNat) x.word.toNat).tryImage b).rxPush 0
        (BitVec.ofNat 32 (bufFailure b))))) ∧
  (∀ (i : Fin 46) (s u : State), s.pwr.hresetLow = false → s.dom.railPresent = true → (s.isl.get i.val).inReset = true →
    (s.isl.get i.val).clockHeld = false → s.clamped i.val = false →
    u = s.onIsl i.val (fun r => { r with inReset := false, loaded := r.loaded ||
      ((i.val == 1 || i.val == 2 || i.val == 44) && !s.pwr.committed) }) →
    exec (.islandPllLock i) s = .next (if i.val = 2 ∧ u.spr.resetDone = false then
      (u.onSpr (fun p => { p with resetDone := true })).raiseEvent 0x02 0 2 else u))

/-- O13 (tier 1, derived; R737, R738, R739, R740, R741, R743, R744). A ramp window takes at most one counted step, and a cap falls to a demand that stays below it -/
def Obligations.RampCommandsComplete : Prop :=
  (∀ (ds : List (Nat × Nat)) (s u : State), s.live 2 = true →
    u = ({ s with pwr := { s.pwr with stepTaken := false, exempt := 0 } } : State).setDemands ds →
    (∀ t, u.windowSwap = some t → exec (.rampWindow ds) s = .next t) ∧
    (u.windowSwap = none → 0 < u.pwr.belfryWait →
      exec (.rampWindow ds) s = .next { u with pwr := { u.pwr with belfryWait := u.pwr.belfryWait - 1, stepTaken := true } }) ∧
    (u.windowSwap = none → u.pwr.belfryWait = 0 → 0 < u.pwr.testWait →
      exec (.rampWindow ds) s = .next { u with pwr := { u.pwr with testWait := u.pwr.testWait - 1, stepTaken := true } }) ∧
    (∀ c, u.windowSwap = none → u.pwr.belfryWait = 0 → u.pwr.testWait = 0 →
      (grantOrder u.pwr.lastGrant).find? u.waitsGrant = some c →
      exec (.rampWindow ds) s = .next { u.onCluster c (fun x => { x with cap := BitVec.ofNat 8 (min (x.cap.toNat + 8) (u.capLimit c)) }) with
        pwr := { u.pwr with lastGrant := c, stepTaken := true } })) ∧
  (∀ (c : Cl) (s : State), exec (.capHoldExpiry c) s =
    .next (s.onCluster (c.val + 3) (fun x => { x with cap := if x.demand < x.cap then x.demand else x.cap })))

/-- O14 (tier 1, derived; R440, R465, R466, R469, R470, R487, R608). Enabled tamper inputs and a low VBAT zeroise; noise health and VBAT_LOW are recorded; LATCHED clears only under a READY root -/
def Obligations.TamperAndNoiseCommandsComplete : Prop :=
  (∀ (n : Fin 4) (s : State), s.dom.enable.getLsbD n.val = true → exec (.tamperInput n) s = .next (s.tamper 1 (2 ^ n.val))) ∧
  (∀ s : State, s.dom.vbatLow = true → s.dom.railPresent = true → (s.dom.lowDone = false ∨ s.dom.hasRoot = true) →
    exec .vbatLowTimeout s = .next ((s.tamper 2 0).onDom (fun d => { d with lowDone := true }))) ∧
  (∀ s : State, exec .noiseFail s = .next (State.domeReport (s.onDom (fun d => { d with noiseFail := true })))) ∧
  (∀ s : State, exec .noiseHealthRestored s = .next (s.onDom (fun d => { d with noiseFail := false }))) ∧
  (∀ (low : Bool) (s u : State), s.dom.railPresent = true → s.dom.vbatLow ≠ low →
    u = s.onDom (fun d => { d with vbatLow := low, lowDone := false }) →
    exec (.vbatLowChange low) s = .next (if low then u.domeReport else u)) ∧
  (∀ (v : Word32) (s : State), v.getLsbD 31 = true → s.dom.latched = true →
    (s.dom.rootState = 2 → exec (.latchedClear v) s =
      .next ((s.onDom (fun d => { d with latched := false })).emit (.pad "TAMPER_OUT_N" true))) ∧
    (s.dom.rootState ≠ 2 → exec (.latchedClear v) s = .next s))

/-- O15 (tier 1, derived; R481, R484, R485, R486, R487, R488, R490, R493, R603). LC_CHALLENGE, LC_REQUEST, LC_STATUS and each blown fuse act as R481 to R490 and R493 say -/
def Obligations.LifeCycleCommandsComplete : Prop :=
  (∀ (h : Hdr) (s t : State) (c : Cmd), s.arrival h 3 [] = some (t, c) →
    exec (.lcChallenge h) s = .next (s.thenReap ((({ t with free := t.free + 1 } : State).onLc (fun l =>
      { l with challenge := some (Config.freeBytes t.free 32) })).answer c 0))) ∧
  (∀ (h : Hdr) (s t : State) (c : Cmd), s.arrival h 5 [] = some (t, c) →
    exec (.lcStatus h) s = .next (s.thenReap (t.answer c 0 [t.lc.statusWord]))) ∧
  (∀ (h : Hdr) (addr : BitVec 64) (b : Bytes) (s t u : State) (c : Cmd), s.arrival h 4 (addrWords addr) = some (t, c) →
    tokenFormed b = true → t.lcBusy = none → t.lc.challenge = some (Bytes.slice b 8 32) →
    u = (t.readToken addr).onLc (fun l => { l with challenge := none }) →
    ∀ i, i = .lcTransition h addr (some b) ∨ i = .debugOpen h addr (some b) →
    exec i s = .next (s.thenReap (
      if Bytes.at b 6 = 2 ∧ u.lc.debug = true then u.answer c 1
      else if u.tokenSigned b = false ∨ u.tokenRefused b = true then u.freeReason c
      else if Bytes.at b 6 = 2 then u.debugStart c
      else u.transitionStart c b))) ∧
  (∀ (s : State) (t : Transition) f rest, s.dom.railPresent = true → s.lc.running = some t → t.fuses = f :: rest →
    exec .fuseProgramDone s =
      .next (State.transitionGo 4 (s.onLc (fun l => { l.blow f with running := some { t with fuses := rest } }))))

/-- O16 (tier 1, derived; R450, R452, R455, R456, R457, R460, R461, R551, R768). Keys arrive in blobs, expire, retire and die as R450 to R463 and R768 say -/
def Obligations.KeySlotCommandsComplete : Prop :=
  (∀ (n : Fin 4096) (s : State), (s.slot n.val).state = 1 → (s.slot n.val).expiry ≠ 0 → s.spr.time.locked = true →
    (s.slot n.val).expiry ≤ s.seconds →
    exec (.slotExpiry n) s = .next ((s.retireAny n.val).notice 4 (s.slot n.val).part n.val)) ∧
  (∀ (h : Hdr) (w : Word32) (s t : State) (c : Cmd) (n : Nat), s.arrival h 0x26 [w] = some (t, c) → t.named c 4 w = .ok n →
    t.gate (t.actsFor c (objKey 4 n)) 0x26 = true →
    exec (.slotRetire h w) s = .next (s.thenReap ((if (t.slot n).state = 1 then t.retireAny n else t).answer c 0))) ∧
  (∀ (n : Fin 4096) (s : State), (s.slot n.val).state = 2 → (∀ i ∈ s.invals, i.2 ≠ n.val) →
    exec (.slotInvalidationAcked n) s = .next ((s.slotDead n.val).slotEmpty n.val).settle.tryRekey.removals) ∧
  (∀ (h : Hdr) (w : Word32) (addr : BitVec 64) (b x : Bytes) (s t u : State) (c : Cmd) (n d p : Nat),
    s.arrival h 0x25 ([w] ++ addrWords addr) = some (t, c) → t.named c 4 w = .ok n → p = t.actsFor c (objKey 4 n) →
    t.gate p 0x25 = true → x = Bytes.fit b (104 + purposeLen (Bytes.at b 6)) →
    u = t.dmaRead (t.bufferTdid c) addr.toNat (104 + purposeLen (Bytes.at b 6)) → u.lc.rootless = false →
    Bytes.at x 7 < 2 → Bytes.at x 8 < 128 → Bytes.at x 9 < 16 → u.slotForFill p = some d → u.prt.refs.length < 32768 →
    u.blobHeaderOk p x = true → u.wrapOk n = true → (u.slot n).part = p → u.blobSetOk n x = true →
    exec (.blobUnwrap h w addr (some b)) s = .next (s.thenReap
      (match keyUnwrap (u.blobKek n (x.take 96)) (Bytes.slice x 96 (purposeLen (Bytes.at x 6) + 8)) with
      | some key =>
        if key.length = purposeLen (Bytes.at x 6) then
          let v := ((u.fillSlot d (SlotSpec.attr {
            purpose := Bytes.at x 6, masters := purposeMasters (Bytes.at x 6), world := purposeWorld (Bytes.at x 6)
            lcMask := Bytes.at x 9, source := 1, part := p, tdid := Bytes.at x 8, expiry := Bytes.le x 12 4
            leave := bit (Bytes.at x 7) 0 && !(u.slot n).setBound }) key).onSlot d (fun y =>
              { y with setId := if (u.slot n).setBound then Bytes.slice x 16 16 else [] })).newObj (objKey 4 d) p c.tag.toNat true
          v.answer c 0 [v.handle (objKey 4 d)]
        else u.answer c 8 [5]
      | none => u.answer c 8 [5])))

/-- O17 (tier 1, derived; R43, R191, R193, R196, R197, R203, R254, R277, R292, R311, R672, R769). An MCC request passes the ordered ownership tests before its lines are admitted; a failed test completes it with ERROR -/
def Obligations.MccRequestsAreCheckedAndAdmitted : Prop :=
  ∀ (k : Fin 8) (q Q : MemReq) (kind : OpKind) (i : Instr) (c : Nat) (s : State), c = mccIx k.val → Q = reqNorm q kind →
    ((kind = .rd ∧ i = .mccReadRequest k q) ∨ (kind = .wr ∧ i = .mccWriteRequest k q) ∨ (kind = .at_ ∧ i = .mccAtomicRequest k q)) →
    (s.isl.get c).swap = .run → s.present c = true →
    ((kind = .rd ∨ s.newtHolds k.val Q = false) →
      (∀ (e : Nat) (ent : BitVec 128) (u v : State) (sig : Option Nat), Q.form = 0 →
        s.ownCheck c Q.addr.toNat (reqSpan Q kind) Q.tdid.toNat Q.tower (kind != .rd) = .pass e ent →
        (kind = .at_ → atopOk Q.atop = true ∧ atomicAligned Q.addr.toNat Q.wide = true) →
        u = (if Entry.gecko ent then (linesOf Q.addr.toNat Q.len).foldl (fun s _ =>
          s.onMcc k.val (fun m => m.geckoCount e ent (Q.addr.toNat / 4096))) s else s) →
        sig = (if Entry.sign ent = true ∧ kind ≠ .rd then u.sigFor k.val e (Entry.signature ent) else none) →
        v = (match kind, sig with
          | .at_, some h => u.belfryAtomic h Q.addr.toNat
          | _, _ => u) →
        exec i s = .next (((v.admitReq c (reqFrom Q c) Q kind e ent sig).mccPump k.val).mccAfter k.val)) ∧
      (∀ (n e : Nat), Q.form = 0 →
        s.ownCheck c Q.addr.toNat (reqSpan Q kind) Q.tdid.toNat Q.tower (kind != .rd) = .fail n e →
        exec i s = .next (((s.checkFailed c n e Q.addr.toNat Q.tdid.toNat).refuseReq c (reqFrom Q c) Q kind).mccAfter k.val)) ∧
      (∀ (e : Nat) (ent : BitVec 128), Q.form = 0 →
        s.ownCheck c Q.addr.toNat (reqSpan Q kind) Q.tdid.toNat Q.tower (kind != .rd) = .pass e ent →
        kind = .at_ → (atopOk Q.atop = false ∨ atomicAligned Q.addr.toNat Q.wide = false) →
        exec i s = .next ((s.refuseReq c (reqFrom Q c) Q kind).mccAfter k.val)) ∧
      (Q.form ≠ 0 →
        exec i s = .next (((s.report 20 c 0 (some Q.tdid)).refuseReq c (reqFrom Q c) Q kind).mccAfter k.val))) ∧
    (kind ≠ .rd → s.newtHolds k.val Q = true →
      exec i s = .next ((State.countT { s with nwt := { s.nwt with held := s.nwt.held ++
        [(k.val, .net (b2n (kind == .at_)), q)] } } 42 0x61 128).mccAfter k.val))

/-- O18 (tier 1, derived; R36, R107, R181, R184, R192, R195, R196, R202, R203, R677). Data, tag lines, verdicts, write acceptances and flushes move a line of an MCC on, and an uncorrectable error fails it closed -/
def Obligations.MccDataAndWritesComplete : Prop :=
  ∀ (k : Fin 8) (c : Nat) (s : State), c = mccIx k.val →
    (∀ (id : Nat) (data : Bytes) (o : LineOp), s.op c id = some o → o.phase = .fetch → o.raw = none →
      (Entry.cls o.ent = 0 → o.kind = .rd → exec (.mpDataArrival k id data .none) s =
        .next ((((s.countT c 0x03 (Entry.owner o.ent)).finishOp c o true (o.result (Bytes.fit data 64))).mccPump k.val).mccAfter k.val)) ∧
      (Entry.cls o.ent = 0 → o.kind ≠ .rd → exec (.mpDataArrival k id data .none) s =
        .next (((State.onOp ((s.countT c 0x03 (Entry.owner o.ent) 2).emit (.memWrite c id 0 (64 * o.line)
            (o.newLine (Bytes.fit data 64)) ((List.range 64).map (fun i => decide (o.off ≤ i ∧ i < o.off + o.atomicBytes)))))
          c id (fun o => { o with plain := Bytes.fit data 64, phase := .sent, mpDone := true })).mccPump k.val).mccAfter k.val)) ∧
      (Entry.cls o.ent ≠ 0 → exec (.mpDataArrival k id data .none) s =
        .next (((s.onOp c id (fun o => { o with raw := some (Bytes.fit data 64) })).mccPump k.val).mccAfter k.val)) ∧
      exec (.mpDataArrival k id data .uncorrectable) s =
        .next ((((s.countT c 0x0C 128).failOp c o 4).mccPump k.val).mccAfter k.val)) ∧
    (∀ (t : Nat) (data : Bytes) (x : TagLine) (u : State) (words : List Nat), t ∈ (s.mcc.get k.val).fetching →
      x = (match (s.mcc.get k.val).tagKey t with
        | some key => (s.mcc.get k.val).tags.get key
        | none => { line := t, words := List.replicate 8 0 }) →
      u = s.onMcc k.val (fun m => { m with fetching := m.fetching.erase t }) →
      words = (List.range 8).map (fun i => if x.valid.getLsbD i then (x.words[i]?).getD 0
        else (((Bytes.chunks (Bytes.fit data 64) 8).map Bytes.leNat)[i]?).getD 0) →
      exec (.tagLineArrival k t data .none) s = .next (((((s.tagWaiters k.val t).foldl (fun u o =>
        u.onOp c o.id (fun o => { o with tagIn := words[(s.mcc.get k.val).localLine o.line % 8]? })) u).tagPut k.val
        { x with valid := 0xFF, words := words }).mccPump k.val).mccAfter k.val) ∧
      exec (.tagLineArrival k t data .uncorrectable) s =
        .next ((((s.tagWaiters k.val t).foldl (fun u o => u.failOp c o 4) (u.countT c 0x0C 128)).mccPump k.val).mccAfter k.val)) ∧
    (∀ (id : Nat) (o : LineOp) (u : State), s.op c id = some o → o.phase = .verdict →
      u = (s.countT c 0x04 (Entry.owner o.ent)).countT c 0x02 (Entry.owner o.ent) →
      (o.ok = true → o.kind = .rd → exec (.readVerdict k id) s =
        .next (((u.finishOp c o true (o.result o.plain)).mccPump k.val).mccAfter k.val)) ∧
      (o.ok = true → o.kind ≠ .rd → exec (.readVerdict k id) s = .next (((u.onOp c id (fun o =>
        { o with phase := .toWrite, raw := some o.plain, plain := o.newLine o.plain, opnd := o.oldValue o.plain })).mccPump k.val).mccAfter
          k.val)) ∧
      (o.ok = false → exec (.readVerdict k id) s =
        .next ((((s.countT c 0x05 (Entry.owner o.ent)).failOp c o 3).mccPump k.val).mccAfter k.val))) ∧
    (∀ (id : Nat) (o : LineOp), id ≠ 0 → s.op c id = some o → o.phase = .sent →
      exec (.mpWriteAccept k id) s = .next (((s.finishOp c o true (if o.kind = .at_ then
        (if Entry.cls o.ent = 0 then o.result o.plain else toLe 8 o.opnd) else [])).mccPump k.val).mccAfter k.val)) ∧
    exec (.mpWriteAccept k 0) s = .next ((s.onMcc k.val (fun m => { m with flushLeft := m.flushLeft - 1 })).mccAfter k.val) ∧
    (s.regUp c = true →
      (∀ l, (s.mcc.get k.val).flushLeft = 0 → l = (s.mcc.get k.val).tags.cells.filter (fun x => x.2.dirty != 0) →
        exec (.tagFlush k) s = .next ((l.foldl (fun s x => s.tagWriteBack k.val 0 x.2) s).onMcc k.val (fun m =>
          { m with flushLeft := l.length, tags := m.tags.mapKeys (fun _ x => { x with dirty := 0 }) }))) ∧
      ((s.mcc.get k.val).flushLeft ≠ 0 → exec (.tagFlush k) s = .next s))

/-- O19 (tier 1, derived; R202, R203, R228, R232, R233, R234, R236, R238, R277, R311, R672, R769). A PCC checks and admits requests, takes data, metadata and write acceptances, and fails a line closed on an error -/
def Obligations.PccRequestsAndDataComplete : Prop :=
  ∀ (p : Fin 2) (c : Nat) (s : State), c = pccIx p.val →
    (∀ (q Q : MemReq) (kind : OpKind) (i : Instr), Q = reqNorm q kind →
      ((kind = .rd ∧ i = .pccReadRequest p q) ∨ (kind = .wr ∧ i = .pccWriteRequest p q) ∨ (kind = .at_ ∧ i = .pccAtomicRequest p q)) →
      (s.isl.get c).swap = .run → s.present c = true →
      (∀ (e : Nat) (ent : BitVec 128), Q.form = 0 →
        s.ownCheck c Q.addr.toNat (reqSpan Q kind) Q.tdid.toNat Q.tower (kind != .rd) = .pass e ent →
        ((kind = .at_ → atopOk Q.atop = true ∧ atomicAligned Q.addr.toNat Q.wide = true) →
          exec i s = .next (((s.admitReq c (reqFrom Q c) Q kind e ent none).pccPump p.val).pccAfter p.val)) ∧
        (kind = .at_ → (atopOk Q.atop = false ∨ atomicAligned Q.addr.toNat Q.wide = false) →
          exec i s = .next ((s.refuseReq c (reqFrom Q c) Q kind).pccAfter p.val))) ∧
      (∀ (n e : Nat), Q.form = 0 →
        s.ownCheck c Q.addr.toNat (reqSpan Q kind) Q.tdid.toNat Q.tower (kind != .rd) = .fail n e →
        exec i s = .next (((s.checkFailed c n e Q.addr.toNat Q.tdid.toNat).refuseReq c (reqFrom Q c) Q kind).pccAfter p.val)) ∧
      (Q.form ≠ 0 → exec i s = .next (((s.report 20 c 0 (some Q.tdid)).refuseReq c (reqFrom Q c) Q kind).pccAfter p.val))) ∧
    (∀ (id : Nat) (data : Bytes) (o : LineOp), s.op c id = some o → o.phase = .fetch → o.raw = none →
      (Entry.cls o.ent = 0 →
        exec (.ppDataArrival p id data .none) s = .next (((s.ppOpen p.val o (Bytes.fit data 64)).pccPump p.val).pccAfter p.val) ∧
        exec (.ppDataArrival p id data .uncorrectable) s =
          .next ((((s.countT c 0x0C 128).failOp c o 4).pccPump p.val).pccAfter p.val)) ∧
      (Entry.cls o.ent ≠ 0 →
        exec (.ppDataArrival p id data .none) s =
          .next (((s.onOp c id (fun o => { o with raw := some (Bytes.fit data 64) })).pccPump p.val).pccAfter p.val) ∧
        exec (.ppDataArrival p id data .uncorrectable) s = .next ((((s.countT c 0x0C 128).onOp c id (fun o =>
          { o with raw := some (Bytes.fit data 64), lost := true })).pccPump p.val).pccAfter p.val))) ∧
    (∀ (o : LineOp) (data : Bytes), o.kind = .rd →
      s.ppOpen p.val o data = (s.countT c 0x03 (Entry.owner o.ent)).finishOp c o true (o.result data)) ∧
    (∀ (o : LineOp) (data : Bytes), o.kind ≠ .rd →
      s.ppOpen p.val o data = State.onOp ((s.countT c 0x03 (Entry.owner o.ent) 2).emit (.memWrite c o.id 0 (64 * o.line)
          (o.newLine data) ((List.range 64).map (fun i => decide (o.off ≤ i ∧ i < o.off + o.atomicBytes)))))
        c o.id (fun o => { o with opnd := o.oldValue data, phase := .sent, mpDone := true })) ∧
    (∀ (off : Nat) (data : Bytes) (f : MetaFetch),
      (s.pcc.get p.val).fetches.find? (fun f => f.off == off / 64 && f.got.isNone) = some f →
      (f.node = true → exec (.metadataArrival p off data .none) s =
        .next (((s.onFetch p.val (off / 64) (fun g => { g with got := some (Bytes.fit data 64) })).pccPump p.val).pccAfter p.val)) ∧
      (f.node = false → ∀ (l : MetaLine) (word : Nat → Nat),
        l = ((s.pcc.get p.val).metaLine (off / 64)).getD { off := off / 64, data := zeros 64 } →
        (∀ i, word i = ((s.pcc.get p.val).tagWord (off / 64) i).getD (Bytes.le (Bytes.fit data 64) (8 * i) 8)) →
        exec (.metadataArrival p off data .none) s = .next ((((((s.metaFetchEnd p.val (off / 64)).tagWordsTaken p.val (off / 64)
          word).metaPut p.val { l with valid := 0xFF, data := ((List.range 8).map (fun i => toLe 8 (word i))).flatten }).1).pccPump
            p.val).pccAfter p.val)) ∧
      exec (.metadataArrival p off data .uncorrectable) s =
        .next ((((s.countT c 0x0C 128).metaLost p.val f).pccPump p.val).pccAfter p.val)) ∧
    (∀ (id : Nat) (o : LineOp), id < 2 ^ 49 → s.op c id = some o → o.phase = .sent →
      exec (.ppWriteAccept p id) s =
        .next (((s.finishOp c o true (if o.kind = .at_ then toLe 8 o.opnd else [])).pccPump p.val).pccAfter p.val))

/-- O20 (tier 1, derived; R208, R209, R249, R250, R253, R254, R256, R258, R259, R260, R261, R573). Newt copies, commits, times out, retires groups and completes moves as R249 to R261 and R573 say -/
def Obligations.NewtCommandsComplete : Prop :=
  (∀ (x : Fin 4) (g : Nat) (ls : List (Nat × Bytes × Bytes × MemErr)) (s : State) (m : Move), m = s.nwt.moves.get x.val → m.state ≠ 0 →
    (∀ d, m.send = some d → ((s.streams.get d.stream).state = 1 ∨ (s.streams.get d.stream).state = 2) →
      (s.streams.get d.stream).closing = false → s.spr.gov.stages.getLsbD 0 = false →
      exec (.newtCopy x g ls) s =
        .next ((ls.filter (fun y => y.1 / 8 == g)).foldl (fun s y => s.sendLine x.val y) s).settle) ∧
    (m.send = none → s.live 42 = true →
      (s.groupMay m g = true → exec (.newtCopy x g ls) s = .next (ls.foldl (fun s l => s.copyLine x.val g l)
        ((s.onMove x.val (fun m => { m with state := 1 })).groupBegin x.val g)).settle) ∧
      (s.groupMay m g = false → exec (.newtCopy x g ls) s = .next (s.moveHalt x.val).settle))) ∧
  (∀ (x : Fin 4) (g : Nat) (n : Fin 9) (s u : State) (m : Move) (r : Motion) (ready : Nat → Bool), m = s.nwt.moves.get x.val →
    m.state ≠ 0 → m.send = none → s.motionOf x.val (8 * g) = some r → u = s.onMove x.val (fun m => { m with state := 1 }) →
    (∀ k, ready k = ((s.clearLines r k).all (fun l => r.copies.any (fun y => y.1 == l)) && s.newtWorks k true)) →
    (s.groupMay m g = true → exec (.newtCommit x g n) s = .next (State.tryRekey
      (((((r.copies.filterMap (fun y => match u.hbmPort (64 * y.1) with
        | some k => if ready k && !u.lineBusy k y.1 then some (y.1, k, y.2) else none
        | none => none)).mergeSort (fun a b => decide (a.1 ≤ b.1))).take n.val).foldl (fun s y => s.commitLine x.val y.2.1 y.1 y.2.2)
          u).commitEnds x.val g))) ∧
    (s.groupMay m g = false → exec (.newtCommit x g n) s = .next (s.moveHalt x.val).tryRekey)) ∧
  (∀ (x : Fin 4) (g : Nat) (s : State) (r : Motion), s.motionOf x.val (8 * g) = some r → r.commit ≠ [] →
    exec (.newtHoldTimeout x g) s = .next (s.onMotion x.val g (fun r =>
      if r.commit.isEmpty then r else { r with commit := [], copies := [] })).releaseHeld) ∧
  (∀ (x : Fin 4) (s : State) (r : Motion) (b : Nat), s.motionOf x.val ((s.nwt.moves.get x.val).bound / 64) = some r → r.newkey = 0xFF →
    r.installed = 0xFF → b = nextGroup (s.regionSpans (s.nwt.moves.get x.val).region) (s.nwt.moves.get x.val).bound →
    exec (.newtGroupRetire x) s = .next (State.groupRetire 255 x.val
      (let t := s.onMove x.val (fun m => { m with bound := b, front := max m.front b })
       { t with nwt := { t.nwt with motion := t.nwt.motion.filter (fun y => !(y.ctx == x.val && y.group == r.group)) } }))) ∧
  (∀ (x : Fin 4) (s u : State) (m : Move), m = s.nwt.moves.get x.val → m.state ≠ 0 → m.send = none →
    (s.region m.region).dead = false → (s.region m.region).slot = some m.oldSlot.toNat →
    inSpans (s.regionSpans m.region) m.bound = false → (∀ g ∈ s.nwt.motion, g.ctx ≠ x.val) →
    u = ((((s.region m.region).entries.foldl (fun s e => s.entrySlot m.newSlot.toNat e) s).onRegion m.region (fun y =>
      { y with slot := some m.newSlot.toNat })).onMove x.val (fun _ => default)) →
    exec (.newtMoveComplete x) s = .next ((State.retireSlot { u with nwt := { u.nwt with
      waiting := u.nwt.waiting.erase m.oldSlot.toNat } } m.oldSlot.toNat).reap.settle.tryRekey))

/-- O21 (tier 1, derived; R198, R199, R201, R247, R293, R294, R751). LINE_INIT writes the next line of a region's part, and the Gecko commands decay and set windows -/
def Obligations.InitialisationAndGeckoComplete : Prop :=
  (∀ (k : Fin 8) (e : Fin 8192) (s : State) (r lo top l : Nat) (x : Region), s.regionOf e.val = some r → x = s.region r →
    x.phase = .scrubbing → s.present (mccIx k.val) = true → (s.repEntry (mccIx k.val) e.val).state = 3 →
    mccIx k.val ∈ s.rangeParts (s.master e.val).start (s.master e.val).length → s.initHeld (mccIx k.val) e.val = false →
    (lo, top) = s.mccPart k.val (s.master e.val).start (s.master e.val).length →
    l = (s.mcc.get k.val).nextLine (max ((s.mcc.get k.val).initAt.get e.val) lo) →
    (x.cls = 0 → l < top → exec (.lineInit ⟨k.val, by omega⟩ e) s = .next ((((s.writeId (mccIx k.val)).2.emit
      (.memWrite (mccIx k.val) (s.writeId (mccIx k.val)).1 0 (64 * l) (zeros 64) (List.replicate 64 true))).lineDone
        k.val r e.val l).tryRekey.removals)) ∧
    (∀ (n : Nat) (t : State) (y : Sched), x.cls = 1 → x.slot = some n → (s.slot n).state = 1 → (s.slot n).writeClosed = false →
      s.laneReady (mccIx k.val) = true → (mccIx k.val, n) ∉ s.invals → s.fillOk (mccIx k.val) n = true →
      s.readySched (mccIx k.val) n = (t, some y) → y.writes = true → l < top →
      exec (.lineInit ⟨k.val, by omega⟩ e) s = .next (((t.lineWritten (mccIx k.val) y.id).issueThen (mccIx k.val)
        (.init e.val l n (xtsEncrypt y.key y.epoch x.tdid l 0xF (zeros 64)).1 (xtsEncrypt y.key y.epoch x.tdid l 0xF (zeros 64)).2) y.id
        (fun s => s.initStored k.val e.val l (xtsEncrypt y.key y.epoch x.tdid l 0xF (zeros 64)).1
          (xtsEncrypt y.key y.epoch x.tdid l 0xF (zeros 64)).2)).tryRekey.removals)) ∧
    ((x.cls = 0 ∨ x.cls = 1 ∧ (s.slot (x.slot.getD 0)).state = 1 ∧ (s.slot (x.slot.getD 0)).writeClosed = false ∧
        s.laneReady (mccIx k.val) = true ∧ (mccIx k.val, x.slot.getD 0) ∉ s.invals ∧ s.fillOk (mccIx k.val) (x.slot.getD 0) = true) →
      top ≤ l → exec (.lineInit ⟨k.val, by omega⟩ e) s = .next ((s.partDone r (mccIx k.val) e.val).tryRekey.removals))) ∧
  (∀ (p : Fin 2) (e : Fin 8192) (s : State) (r lo hi l : Nat) (x : Region), s.regionOf e.val = some r → x = s.region r →
    x.phase = .scrubbing → s.present (pccIx p.val) = true → (s.repEntry (pccIx p.val) e.val).state = 3 →
    pccIx p.val ∈ s.rangeParts (s.master e.val).start (s.master e.val).length →
    (x.cls ≠ 0 → (s.slot (x.slot.getD 0)).state = 1 ∧ (s.slot (x.slot.getD 0)).writeClosed = false ∧
      s.laneReady (pccIx p.val) = true ∧ (pccIx p.val, x.slot.getD 0) ∉ s.invals ∧
      s.fillOk (pccIx p.val) (if x.cls = 1 then x.slot.getD 0 else p.val + 1) = true) →
    (lo, hi) = s.partOf (s.pcc.get p.val).poolBase.toNat (s.master e.val).start (s.master e.val).length →
    l = max ((s.pcc.get p.val).initAt.get e.val) (lo / 64) →
    (hi / 64 ≤ l → exec (.lineInit ⟨p.val + 8, by omega⟩ e) s = .next ((s.partDone r (pccIx p.val) e.val).tryRekey.removals)) ∧
    (∀ (t : State) (next : Nat) (ok : Bool), l < hi / 64 →
    (t, ok) = (if x.cls = 0 then ((s.writeId (pccIx p.val)).2.emit (.memWrite (pccIx p.val) (s.writeId (pccIx p.val)).1 0 (64 * l)
      (zeros 64) (List.replicate 64 true)), true) else s.counterLineInit p.val ((s.pcc.get p.val).groupOf l)) →
    next = (if x.cls = 0 then l + 1 else l + 64) →
    exec (.lineInit ⟨p.val + 8, by omega⟩ e) s = .next (State.removals (State.tryRekey (if ok then
      (if hi / 64 ≤ next then State.partDone ((t.countT (pccIx p.val) 0x0E x.tdid).onPcc p.val (fun m =>
          { m with initAt := m.initAt.set e.val next })) r (pccIx p.val) e.val
        else (t.countT (pccIx p.val) 0x0E x.tdid).onPcc p.val (fun m => { m with initAt := m.initAt.set e.val next }))
      else t))))) ∧
  (∀ (k : Fin 8) (s : State),
    ((s.mcc.get k.val).geckoCtrl ≠ 31 →
      exec (.geckoDecay k) s = .next (s.onMcc k.val (fun m => { m with geckoCnt := m.geckoCnt.mapKeys (fun _ c => c / 2) }))) ∧
    ((s.mcc.get k.val).geckoCtrl = 31 → exec (.geckoDecay k) s = .next (s.onMcc k.val (fun m => m)))) ∧
  (∀ (k : Fin 8) (n : Fin 64) (v : Word32) (s : State), s.regUp (mccIx k.val) = true →
    (fld v 20 16 ≤ 28 → exec (.geckoWindowWrite k n v) s = .next (s.onMcc k.val (fun m => { m with
      geckoWin := m.geckoWin.set n.val (v &&& 0x801F1FFF)
      geckoCnt := (List.range 16).foldl (fun t b => t.set (16 * n.val + b) 0) m.geckoCnt }))) ∧
    (28 < fld v 20 16 → exec (.geckoWindowWrite k n v) s = .next (s.onMcc k.val (fun m => { m with
      geckoWin := m.geckoWin.set n.val ((v &&& 0x80001FFF) ||| (m.geckoWin.get n.val &&& 0x001F0000))
      geckoCnt := (List.range 16).foldl (fun t b => t.set (16 * n.val + b) 0) m.geckoCnt }))))

/-- O22 (tier 1, derived; R273, R274, R281, R282, R283, R287). Replicas apply updates in order and report their drains; Tower takes DRAIN_DONE; IOMMU_DONE clears STALE_VALID -/
def Obligations.OwnershipTableCommandsComplete : Prop :=
  (∀ (r : Fin 10) (s u : State) (e : Nat) (m : RotMsg), s.nextUpdate (r.val + 3) = some (e, m) →
    u = (let v := State.repApply { s with own := { s.own with inFlight := dropFirst (fun u => u.1 == r.val + 3) s.own.inFlight } } (r.val + 3) e m
      if r.val < 8 then v.sigCleared r.val else v) →
    exec (.rotUpdate r) s = .next (State.removals (State.afterOwnership (match m with
      | .live _ => { u with own := { u.own with drains := u.own.drains.map (fun d =>
          if d.entry == e then { d with liveAwait := d.liveAwait.erase (r.val + 3) } else d) } }
      | _ => u)))) ∧
  (∀ (r : Fin 10) (e : Fin 8192) (s : State), (r.val + 3, e.val) ∈ s.own.owes → s.inflight (r.val + 3) e.val = 0 →
    exec (.inflightZero r e) s = .next { s with own := { s.own with
      owes := s.own.owes.erase (r.val + 3, e.val), drainDone := s.own.drainDone ++ [(r.val + 3, e.val)] } }) ∧
  (∀ (r : Fin 10) (e : Fin 8192) (s : State), (r.val + 3, e.val) ∈ s.own.drainDone →
    exec (.drainDoneReceived r e) s = .next (State.settle { s with own := { s.own with
      drainDone := s.own.drainDone.erase (r.val + 3, e.val)
      drains := mapWhere (fun d => d.entry == e.val) (fun d => { d with awaiting := d.awaiting.erase (r.val + 3) }) s.own.drains } }).removals) ∧
  (∀ (h : Hdr) (part region : Word32) (s t : State) (c : Cmd) (r : Nat), s.arrival h 0x10 [part, region] = some (t, c) →
    t.namedRegion c region = .ok r → t.regionPart r = part.toNat → t.gate part.toNat 0x10 = true →
    exec (.iommuDone h part region) s = .next (s.thenReap (((t.region r).entries.foldl (fun s e =>
      (s.setMaster e (setFld (s.master e) 108 108 0)).rotSend e (.fields (setFld (s.master e) 108 108 0))) t).answer c 0))) ∧
  (∀ (s : State) (i e : Nat), (s.repEntry i e).state = 1 → setFld (s.repEntry i e) 96 94 2 ≠ default →
    (s.repApply i e .draining).repEntry i e = setFld (s.repEntry i e) 96 94 2)

/-- O23 (tier 1, derived; R262, R263, R264, R267, R268, R269, R270, R678, R682). A site guard stamps or refuses requests, delivers inbound ones, and matches completions as R262 to R270 say -/
def Obligations.SiteGuardRequestsComplete : Prop :=
  (∀ (i : Fin 12) (kind tdid : Nat) (r : SiteReq) (s u : State),
    u = (if r.q.posted then s else s.emit (.done (.site i.val) r.q.tid.toNat false (siteError r.op r.q.len))) →
    s.siteRefuse i.val kind tdid r = (((u.countS (sguIx i.val) 0x49 kind tdid).note (sguIx i.val) 2 (some tdid) 0 kind r.ctx.toNat 0).reportOwn
      { kind := BitVec.ofNat 4 kind, tdid := BitVec.ofNat 7 tdid, gran := BitVec.ofNat 40 r.ctx.toNat,
        site := some i, island := asIsland (sguIx i.val) })) ∧
  (∀ (i : Fin 12) (r : SiteReq) (s : State), (s.isl.get (sguIx i.val)).swap = .run → s.present (sguIx i.val) = true →
    (r.op = .msg → exec (.siteRequest i r) s = .next (s.emit (.twr "SITE_MSG" (BitVec.ofNat 8 i.val :: r.q.data)))) ∧
    (r.op ≠ .msg → s.siteState i.val ≠ 2 → exec (.siteRequest i r) s = .next (s.siteRefuse i.val 8 0 r)) ∧
    (∀ v, r.op ≠ .msg → s.siteState i.val = 2 → v = s.sctEntry i.val r.ctx.toNat →
      (s.sctValid i.val v = false → exec (.siteRequest i r) s = .next (s.siteRefuse i.val 6 (fld v 14 8) r)) ∧
      (s.sctValid i.val v = true → (sctAllows v r.op = false ∨ (r.q.form = 3 ∧ v.getLsbD 19 = false) ∨ (r.host = true ∧ v.getLsbD 20 = false)) →
        exec (.siteRequest i r) s = .next (s.siteRefuse i.val 7 (fld v 14 8) r)) ∧
      (s.sctValid i.val v = true → sctAllows v r.op = true → (r.q.form = 3 → v.getLsbD 19 = true) → (r.host = true → v.getLsbD 20 = true) →
        ∀ q u, q = { r.q with tdid := BitVec.ofNat 7 (fld v 14 8), tower := false, link := asIsland (sguIx i.val) } →
        u = (s.countT (sguIx i.val) 0x48 (fld v 14 8)).emit (.hubReq (sguIx i.val) r.op r.host q) →
        exec (.siteRequest i r) s = .next (if q.posted then u else { u with siteFlights := u.siteFlights ++
          [{ site := i.val, tid := q.tid.toNat, read := decide (r.op = .read), len := q.len }] })))) ∧
  (∀ (i : Fin 12) (link : Nat) (q : MemReq) (s : State), (s.isl.get (sguIx i.val)).swap = .run → s.present (sguIx i.val) = true →
    ((s.siteState i.val = 2 ∧ ∃ n < 256, s.sctValid i.val (s.sctEntry i.val n) = true ∧ (s.sctEntry i.val n).getLsbD 21 = true ∧
        fld (s.sctEntry i.val n) 14 8 = q.tdid.toNat) →
      exec (.inboundSiteRequest i link q) s = .next (s.emit (.siteReq i.val (memOp q) q))) ∧
    (¬ (s.siteState i.val = 2 ∧ ∃ n < 256, s.sctValid i.val (s.sctEntry i.val n) = true ∧ (s.sctEntry i.val n).getLsbD 21 = true ∧
        fld (s.sctEntry i.val n) 14 8 = q.tdid.toNat) →
      ∀ u, u = (if q.posted then s else s.done (reqFrom q link) q.tid.toNat false (siteError (memOp q) q.len)) →
      exec (.inboundSiteRequest i link q) s = .next ((u.note (sguIx i.val) 2 (some q.tdid.toNat) 0 9 0 0).reportOwn
        { kind := 9, tdid := q.tdid, site := some (Fin.ofNat 12 i.val), island := asIsland (sguIx i.val) }))) ∧
  (∀ (i : Fin 12) (tid : BitVec 16) (ok : Bool) (data : Bytes) (s : State) (f : SiteFlight),
    s.siteFlights.find? (fun f => f.site == i.val && f.tid == tid.toNat) = some f →
    exec (.siteCompletion i tid ok data) s = .next (State.emit
      { s with siteFlights := dropFirst (fun f => f.site == i.val && f.tid == tid.toNat) s.siteFlights }
      (.done (.site i.val) tid.toNat ok (if ok = false ∧ f.read = true then List.replicate f.len 0xFF else data))))

/-- O24 (tier 1, derived; R263, R265, R528, R529, R530, R531, R532, R533, R534, R536, R768). Policies, admissions, their responses and timeouts, re-measurement, links, evictions and contexts act as R528 to R534 say -/
def Obligations.SiteAdmissionCommandsComplete : Prop :=
  (∀ (h : Hdr) (site : Word32) (addr : BitVec 64) (b : Bytes) (s t u : State) (c : Cmd),
    s.arrival h 0x0C (site :: addrWords addr) = some (t, c) → site.toNat < 12 →
    u = t.dmaRead (t.bufferTdid c) addr.toNat b.length →
    exec (.sitePolicy h site addr (some b)) s = .next (s.thenReap (match Config.admissionPolicy (Bytes.fit b b.length) with
      | some (roots, meas) => if roots.length ≤ 4 ∧ meas.length ≤ 16 then
          (u.onSite site.toNat (fun x => { x with policy := some (roots, meas) })).answer c 0 else u.answer c 1
      | none => u.answer c 1))) ∧
  (∀ (h : Hdr) (site : Word32) (s t : State) (c : Cmd), s.arrival h 0x0D [site] = some (t, c) → site.toNat < 12 →
    exec (.siteAdmit h site) s = .next (s.thenReap ((t.hold { c with what := site.toNat }).admitStart site.toNat))) ∧
  (∀ (i : Fin 12) (m : Bytes) (s : State), s.fwUp = true → (s.site i.val).phase ≠ 0 → m.length ≤ 4096 → Bytes.at m 1 ≠ 0x06 →
    ¬ (Bytes.at m 1 = 0x7F ∧ Bytes.at m 2 = 0x0F) → exec (.admissionResponse i m) s = .next (s.admitStep i.val m)) ∧
  (∀ (i : Fin 12) (s : State), s.fwUp = true → (s.site i.val).phase = 1 →
    exec (.admissionTimeout i) s = .next ((s.admitFailed i.val 1).admitAnswer i.val)) ∧
  (∀ (i : Fin 12) (s : State), s.fwUp = true → s.siteState i.val = 2 → (s.site i.val).phase = 0 → fld (s.site i.val).ctrl 31 16 ≠ 0 →
    exec (.remeasureTimer i) s = .next ((s.onSite i.val (fun x => { x with phase := 2 })).admitNonce i.val 7 0xE0)) ∧
  (∀ (i : Fin 12) (s : State), exec (.siteLinkDown i) s =
    .next (State.evict (s.onSite i.val (fun x => { x with linkUp := false })) i.val 8 false)) ∧
  (∀ (i : Fin 12) (s u : State), u = s.onSite i.val (fun x => { x with linkUp := true }) → u.fwUp = true →
    u.present (sguIx i.val) = true → exec (.siteLinkUp i) s = .next (u.admitStart i.val)) ∧
  (∀ (h : Hdr) (site : Word32) (s t : State) (c : Cmd), s.arrival h 0x0E [site] = some (t, c) → site.toNat < 12 →
    exec (.siteEvict h site) s = .next (s.thenReap ((t.evict site.toNat 0x0A true).answer c 0))) ∧
  (∀ (h : Hdr) (part sel entry : Word32) (s t : State) (c : Cmd) (i n p : Nat) (old : BitVec 64),
    s.arrival h 0x0F [part, sel, entry] = some (t, c) → i = fld sel 11 8 → n = fld sel 7 0 → p = part.toNat → sel.toNat < 4096 →
    i < 12 → 1 ≤ p → p < 128 → fld entry 7 1 = 0 → entry.getLsbD 15 = false → fld entry 23 22 = 0 →
    t.ownsTdid p (fld entry 14 8) = true → t.contextOther i n p = false → t.gate p 0x0F = true → t.admittedInto i p = true →
    old = t.sctEntry i n → ((t.sctValid i old && fld old 38 32 == p) = true ∨ entry.getLsbD 0 = false ∨ t.contextsOf p < t.allot p 6) →
    exec (.siteContext h part sel entry) s = .next (s.thenReap ((t.setSct i n
      (setFld (setFld (entry.setWidth 64) 31 24 (t.site i).admitSeq.toNat) 38 32 p)).answer c 0)))

/-- O25 (tier 1, derived; R301, R302, R303, R304, R305, R308, R313, R314, R318, R319). An FCC refuses or accepts requests, takes pair keys, changes epochs, resends and loses streams as R301 to R319 say -/
def Obligations.FabricSendingComplete : Prop :=
  (∀ (f : Fin 16) (q : MemReq) (s : State), (s.isl.get (fccIx f.val)).swap = .run → s.live (fccIx f.val) = true →
    (q.form ≠ 3 → exec (.fabricSend f q) s = .next ((s.report 20 (fccIx f.val) 0 (some q.tdid)).refuseSend f.val q)) ∧
    (q.form = 3 → q.atop = 0 → q.be = [] → exec (.fabricSend f q) s = .next (s.refuseSend f.val q)) ∧
    (q.form = 3 → (q.atop ≠ 0 ∨ q.be ≠ []) →
      (s.sendEntry f.val q.node.toNat q.tdid.toNat = none → exec (.fabricSend f q) s = .next (s.refuseSend f.val q)) ∧
      (∀ e u, s.sendEntry f.val q.node.toNat q.tdid.toNat = some e → (s.entry f.val e).closing = false → (s.fccNode f.val).isSome = true →
        q.addr.toNat % 4096 + (if q.atop = 0 then q.len else if q.wide then 8 else 4) ≤ 4096 →
        (q.atop ≠ 0 → q.addr.toNat % (if q.wide then 8 else 4) = 0 ∧ q.atop.toNat ≤ 6) →
        u = s.onEntry f.val e (fun x => { x with waiting := x.waiting ++ [q] }) →
        exec (.fabricSend f q) s = .next (State.sendWaiting (if (u.entry f.val e).keyValid then u else u.askKey f.val e) f.val e)) ∧
      (∀ e, s.sendEntry f.val q.node.toNat q.tdid.toNat = some e → ((s.entry f.val e).closing = true ∨
        4096 < q.addr.toNat % 4096 + (if q.atop = 0 then q.len else if q.wide then 8 else 4) ∨
        (q.atop ≠ 0 ∧ (q.addr.toNat % (if q.wide then 8 else 4) ≠ 0 ∨ 6 < q.atop.toNat)) ∨ (s.fccNode f.val).isNone = true) → exec (.fabricSend f q) s = .next (s.refuseSend f.val q)))) ∧
  (∀ (f : Fin 16) (e : Fin 2048) (s : State) (x : FccEntry), x = s.entry f.val e.val → x.asked = true → x.keyValid = false →
    x.state ≠ 0 → x.state ≠ 3 →
    (∀ k, s.rootUsable x.root = true → s.cpe.busy = false →
      k = s.pairKey x.root (s.streamNodes f.val x).1 (s.streamNodes f.val x).2 x.tdid.toNat x.epoch.toNat →
      exec (.pairKeyArrival f e) s = .next (State.authWaiting (State.sendWaiting ((s.stageKey x.tdid.toNat k).onEntry f.val e.val
        (fun y => { y with asked := false, keyValid := true, key := k })) f.val e.val) f.val e.val)) ∧
    (s.rootUsable x.root = false → exec (.pairKeyArrival f e) s = .next (State.onEntry (x.waitAuth.foldl (fun s p => s.dropPacket f.val p.2 3)
      (x.waiting.foldl (fun s q => s.refuseSend f.val q) (s.report 7 (fccIx f.val) 0 (some x.tdid)))) f.val e.val
      (fun y => { y with asked := false, waiting := [], waitAuth := [] })))) ∧
  (∀ (f : Fin 16) (e : Fin 2048) (s u : State) (x : FccEntry) (src dst : Nat), x = s.entry f.val e.val → x.recv = false → x.state = 2 →
    x.unacked = 0 → x.kept = [] → s.rootUsable x.root = true → s.cpe.busy = false → (src, dst) = s.streamNodes f.val x →
    u = (((s.fenceCheck f.val e.val).dropSchedule f.val e.val).stageKey x.tdid.toNat
      (s.pairKey x.root src dst x.tdid.toNat (x.epoch.toNat + 1))).onEntry f.val e.val (fun y => { y with
      epoch := y.epoch + 1, key := s.pairKey x.root src dst x.tdid.toNat (x.epoch.toNat + 1), keyValid := true, asked := false
      nextSeq := 0, ackSeq := 0, state := 1 }) →
    exec (.sendEpochChange f e) s = .next (State.sendWaiting (((({ u with
      epochs := u.epochs ++ [(src, dst, x.tdid.toNat, x.epoch.toNat + 1)] } : State).countT (fccIx f.val) 0x38 x.tdid.toNat).noteStream
        f.val e.val)) f.val e.val)) ∧
  (∀ (f : Fin 16) (e : Fin 2048) (s : State), exec (.retryTimeout f e) s =
    .next (((s.entry f.val e.val).kept.filter (·.sent)).foldl (fun u p =>
      (u.emit (.txp f.val 1 p.handle [])).countT (fccIx f.val) 0x32 (s.entry f.val e.val).tdid.toNat) s)) ∧
  (∀ (f : Fin 16) (e : Fin 2048) (s : State), (s.entry f.val e.val).kept ≠ [] → (s.entry f.val e.val).state ≠ 3 →
    exec (.retrySpanExpiry f e) s = .next (s.streamLost f.val e.val).removals)

/-- O26 (tier 1, derived; R320, R321, R322, R323, R325, R326, R327, R328, R332, R333, R334, R336). An FCC tests, holds, releases and finishes packets, answers atomics and ages its reply cache as R320 to R334 say -/
def Obligations.FabricReceivingComplete : Prop :=
  (∀ (f : Fin 16) (p : Bytes) (b : BitVec 16) (s : State) (me : Nat), (s.isl.get (fccIx f.val)).swap = .run → s.live (fccIx f.val) = true →
    s.fccNode f.val = some me →
    (pktWellFormed p = false → exec (.packetReceive f p b) s = .next (s.dropPacket f.val b.toNat 1).removals) ∧
    (pktWellFormed p = true → pktDst p ≠ me → exec (.packetReceive f p b) s = .next (s.dropPacket f.val b.toNat 2).removals) ∧
    (pktWellFormed p = true → pktDst p = me → s.packetEntry f.val p = none →
      exec (.packetReceive f p b) s = .next (s.dropPacket f.val b.toNat 3).removals) ∧
    (∀ e x, pktWellFormed p = true → pktDst p = me → s.packetEntry f.val p = some e → x = s.entry f.val e →
      (3 ≤ pktType p → exec (.packetReceive f p b) s = .next (State.removals
        (if pktEpoch p ≠ x.epoch.toNat then s.dropPacket f.val b.toNat 4 else s.authNow f.val e p b.toNat))) ∧
      (pktType p < 3 → pktEpoch p = x.epoch.toNat →
        (pktSeq p < x.expected.toNat → exec (.packetReceive f p b) s = .next (s.authNow f.val e p b.toNat).removals) ∧
        (x.expected.toNat + 256 ≤ pktSeq p → exec (.packetReceive f p b) s = .next (s.dropPacket f.val b.toNat 5).removals) ∧
        (x.expected.toNat ≤ pktSeq p → pktSeq p < x.expected.toNat + 256 →
          (x.held.any (fun h => h.seq == pktSeq p && pktEpoch h.pkt == x.epoch.toNat) = true →
            exec (.packetReceive f p b) s = .next (s.dropPacket f.val b.toNat 6).removals) ∧
          (x.held.any (fun h => h.seq == pktSeq p && pktEpoch h.pkt == x.epoch.toNat) = false →
            ((if pktSeq p = x.expected.toNat then 256 else 240) ≤ s.descriptors f.val →
              exec (.packetReceive f p b) s = .next (s.dropPacket f.val b.toNat 7).removals) ∧
            (s.descriptors f.val < (if pktSeq p = x.expected.toNat then 256 else 240) → ∀ u,
              u = s.onEntry f.val e (fun x => { x with held := x.held ++ [{ seq := pktSeq p, pkt := p, buf := b.toNat }] }) →
              exec (.packetReceive f p b) s = .next (State.removals (if x.keyValid then u else u.askKey f.val e)))))) ∧
      (pktType p < 3 → pktEpoch p = x.epoch.toNat + 1 → pktSeq p = 0 → x.rel = [] →
        (x.held.any (fun h => pktEpoch h.pkt == x.epoch.toNat + 1) = true →
          exec (.packetReceive f p b) s = .next (s.dropPacket f.val b.toNat 6).removals) ∧
        (x.held.any (fun h => pktEpoch h.pkt == x.epoch.toNat + 1) = false →
          (240 ≤ s.descriptors f.val → exec (.packetReceive f p b) s = .next (s.dropPacket f.val b.toNat 7).removals) ∧
          (s.descriptors f.val < 240 → ∀ u,
            u = s.onEntry f.val e (fun x => { x with held := x.held ++ [{ seq := 0, pkt := p, buf := b.toNat }] }) →
            exec (.packetReceive f p b) s = .next (State.removals
              (if (u.fcc.get f.val).candidate = none then u.nextCandidate f.val else u))))) ∧
      (pktType p < 3 → pktEpoch p ≠ x.epoch.toNat → (pktEpoch p ≠ x.epoch.toNat + 1 ∨ pktSeq p ≠ 0 ∨ x.rel ≠ []) →
        exec (.packetReceive f p b) s = .next (s.dropPacket f.val b.toNat 4).removals))) ∧
  (∀ (f : Fin 16) (e : Fin 2048) (s t u : State) (x : FccEntry) (h : HeldPkt) (id : Nat), x = s.entry f.val e.val →
    x.held.find? (fun h => h.seq == x.expected.toNat && pktEpoch h.pkt == x.epoch.toNat) = some h → x.recv = true →
    s.fabricReady f.val e.val = (t, some id) → (pktType h.pkt = 2 → (s.fcc.get f.val).reply.countWhere (fun _ r => r.valid) < 8192) →
    u = (t.emit (.rxc f.val 0 h.buf)).onEntry f.val e.val (fun x => { x with held := dropFirst (fun z => z == h) x.held }) →
    exec (.packetRelease f e) s = .next (match openPacket x.key h.pkt with
      | none => u.authFailed f.val e.val
      | some body => u.releasePacket f.val e.val h.pkt body id)) ∧
  (∀ (f : Fin 16) (e : Fin 2048) (q : BitVec 48) (ok : Bool) (s : State), (∃ r ∈ (s.entry f.val e.val).rel, r.seq = q.toNat ∧ r.entered = true ∧ r.atomic = false) →
    exec (.packetDone f e q ok) s = .next (s.packetFinished f.val e.val q.toNat ok)) ∧
  (∀ (f : Fin 16) (e : Fin 2048) (q : BitVec 48) (ok : Bool) (old : BitVec 64) (s u : State) (x : FccEntry) (n : Nat), x = s.entry f.val e.val →
    (∃ r ∈ x.rel, r.seq = q.toNat ∧ r.entered = true ∧ r.atomic = true) → s.replyMatch f.val x.peer.toNat x.tdid.toNat q.toNat = some n →
    u = s.onFcc f.val (fun y => { y with reply := y.reply.modify n (fun r =>
      { r with pending := false, error := !ok, result := if ok then old else 0, age := 0, owed := r.owed + 1 }) }) →
    exec (.atomicResult f e q ok old) s = .next ((u.payReplies f.val e.val).packetFinished f.val e.val q.toNat ok)) ∧
  (∀ (f : Fin 16) (e : Fin 2048) (s t u : State) (x : FccEntry) (h : HeldPkt) (k : Bytes) (src dst : Nat), x = s.entry f.val e.val →
    (src, dst) = s.streamNodes f.val x →
    x.held.find? (fun h => pktEpoch h.pkt == x.epoch.toNat + 1) = some h → (s.fcc.get f.val).candidate = some e.val → s.rootUsable x.root = true →
    s.cpe.busy = false → s.laneReady (fccIx f.val) = true → k = s.pairKey x.root src dst x.tdid.toNat (x.epoch.toNat + 1) →
    t = s.stageKey x.tdid.toNat k →
    u = (t.emit (.rxc f.val 0 h.buf)).onEntry f.val e.val (fun x => { x with asked := false, held := dropFirst (fun z => z == h) x.held }) →
    exec (.receiveEpochChange f e) s = .next (match openPacket k h.pkt with
      | none => (u.authFailed f.val e.val).nextCandidate f.val
      | some _ => ((t.epochTaken f.val e.val k).packetRelease f.val e.val).nextCandidate f.val)) ∧
  (∀ (f : Fin 16) (e : Fin 2048) (s : State), s.ackDue f.val e.val = true → exec (.ackSend f e) s = .next (s.sendAck f.val e.val)) ∧
  (∀ (f : Fin 16) (e : Fin 2048) (s : State), (s.entry f.val e.val).recv = true → (s.entry f.val e.val).state ≠ 0 →
    (s.entry f.val e.val).unackedDone ≠ [] →
    exec (.ackIntervalExpiry f e) s = .next ((s.onEntry f.val e.val (fun x => { x with intervalUp := true })).ackIfDue f.val e.val)) ∧
  (∀ (f : Fin 16) (n : Fin 8192) (s : State), ((s.fcc.get f.val).reply.get n.val).valid = true → ((s.fcc.get f.val).reply.get n.val).pending = false →
    fld (s.fcc.get f.val).span 31 24 ≤ ((s.fcc.get f.val).reply.get n.val).age.toNat →
    exec (.replyHoldExpiry f n) s = .next (s.onFcc f.val (fun y => { y with reply := y.reply.set n.val default }))) ∧
  (∀ (f : Fin 16) (s : State), exec (.replyCacheAgeTick f) s =
    .next (s.onFcc f.val (fun y => { y with reply := y.reply.mapKeys (fun _ r => if r.valid && !r.pending then { r with age := satInc r.age } else r) })))

/-- O27 (tier 1, derived; R299, R305, R308, R331, R338, R339, R340, R604). STREAM_OPEN, STREAM_CLOSE, STREAM_FENCE and STREAM_REKEY act as R299, R305, R331 and R338 to R340 say -/
def Obligations.StreamCommandsComplete : Prop :=
  (∀ (h : Hdr) (sel peer root : Word32) (s t : State) (c : Cmd) (f tdid p n e : Nat), s.arrival h 0x27 [sel, peer, root] = some (t, c) →
    f = fld sel 3 0 → tdid = fld sel 14 8 → p = t.tdidPart tdid → fld sel 7 5 = 0 → sel.getLsbD 15 = false → fld sel 31 24 = 0 →
    fld peer 31 16 = 0 → p ≠ 0 → (c.part = 0 ∨ c.part = p) → t.named c 4 root = .ok n → t.gate p 0x27 = true →
    (t.slot n).fabricRoot = true → (t.slot n).tdid = tdid → (t.fccNode f).isSome = true → t.live (fccIx f) = true →
    (sel.getLsbD 4 = false → t.epochUsed ((t.fccNode f).getD 0) (fld peer 15 0) tdid (fld sel 23 16) = false) →
    t.objCount 5 p < t.allot p 7 →
    firstFrom 0 2048 (fun e => (t.entry f e).state == 0 && !(t.obj (objKey 5 (streamKey f e))).used) = some e →
    exec (.streamOpen h sel peer root) s =
      .next (s.thenReap (t.openEntry c f e (sel.getLsbD 4) tdid (fld sel 23 16) (fld peer 15 0) n))) ∧
  (∀ (h : Hdr) (st fe v : Word32) (s t : State) (c : Cmd) (f e x : Nat), s.arrival h 0x28 [st, fe, v] = some (t, c) →
    t.streamAndFence c st fe 0x28 = .ok (f, e, x) →
    exec (.streamClose h st fe v) s = .next (s.thenReap ((t.acceptA (c.onStream f e x v) []).closeStream f e))) ∧
  (∀ (h : Hdr) (st fe v : Word32) (s t : State) (c : Cmd) (f e x : Nat), s.arrival h 0x29 [st, fe, v] = some (t, c) →
    t.streamAndFence c st fe 0x29 = .ok (f, e, x) → (t.entry f e).recv = false →
    exec (.streamFence h st fe v) s = .next (s.thenReap (
      if (t.entry f e).state = 0 ∨ (t.entry f e).state = 3 then
        (t.acceptA (c.onStream f e x v) []).streamFenceEnd (streamKey f e) x v.toNat (some 0x12)
      else ((t.acceptA (c.onStream f e x v) []).onEntry f e (fun y => { y with fenceQ := y.fenceQ ++ [(x, v.toNat)] })).fenceCheck f e))) ∧
  (∀ (h : Hdr) (st : Word32) (s t : State) (c : Cmd) (f e : Nat), s.arrival h 0x2A [st] = some (t, c) → t.namedStream c st = .ok (f, e) →
    t.gate (t.actsFor c (objKey 5 (streamKey f e))) 0x2A = true → (t.entry f e).recv = false → (t.entry f e).state = 1 →
    exec (.streamRekey h st) s = .next (s.thenReap ((t.startChange f e).answer c 0))) ∧
  (∀ (s : State) (f e : Nat), (s.entry f e).state = 1 → (s.entry f e).epoch ≠ 255 → ((s.startChange f e).entry f e).state = 2 ∧
    ((s.startChange f e).entry f e).epoch = (s.entry f e).epoch ∧ ((s.startChange f e).entry f e).waiting = (s.entry f e).waiting)

/-- O28 (tier 1, derived; R38, R39, R111, R127, R131, R133, R343, R345, R346). HCC sends outbound requests and takes inbound TLPs in the clear or under IDE as R38, R39, R127 to R133 and R343 to R346 say -/
def Obligations.HostTrafficComplete : Prop :=
  (∀ (q : MemReq) (s u : State), (s.isl.get hccIx).swap = .run → u = s.hccRetry → u.present hccIx = true →
    (q.tdid = 0 → exec (.hostOutboundRequest q) s = .next ((u.hostFlight q none).tlpOut none 0 (hostHeader q ++ hostBody q))) ∧
    (q.tdid ≠ 0 → ∀ t, t = u.tdi (u.tdidPart q.tdid.toNat) →
      ((t.state ≠ 2 ∨ t.stream = none) → exec (.hostOutboundRequest q) s = .next (u.refuseHost q)) ∧
      (∀ v, t.state = 2 → t.stream = some v → u.ideCtx v = none → exec (.hostOutboundRequest q) s = .next (u.refuseHost q)) ∧
      (∀ v n sub, t.state = 2 → t.stream = some v → u.ideCtx v = some n → sub = (if q.posted then (0 : BitVec 2) else 1) →
        (((u.hcc.ctxs.get n).state ≠ 2 ∨ laneTakes (Config.ideAad (hostHeader q)) (hostBody q) = false) →
          exec (.hostOutboundRequest q) s = .next (u.refuseHost q)) ∧
        ((u.hcc.ctxs.get n).state = 2 → laneTakes (Config.ideAad (hostHeader q)) (hostBody q) = true →
          (2 ^ 64 - 1 ≤ (u.hcc.ctxs.get n).counter sub false →
            exec (.hostOutboundRequest q) s = .next ((u.ideFailed n).refuseHost q)) ∧
          ((u.hcc.ctxs.get n).counter sub false < 2 ^ 64 - 1 → ∀ w,
            (u.ideKey n sub false = (w, .wait) → exec (.hostOutboundRequest q) s = .next (w.onHcc (fun h => { h with waitOut := h.waitOut ++ [q] }))) ∧
            (u.ideKey n sub false = (w, .missing) → exec (.hostOutboundRequest q) s = .next (w.refuseHost q)) ∧
            (∀ z, u.ideKey n sub false = (w, .ready z) → exec (.hostOutboundRequest q) s = .next
              ((w.hostFlight q (some v)).tlpSend n sub z q.tdid.toNat (hostHeader q) (hostBody q)))))))) ∧
  (∀ (x : Tlp) (s u : State), (s.isl.get hccIx).swap = .run → u = s.hccRetry → u.present hccIx = true →
    exec (.hostInboundTlp none x) s = .next (if x.completion then u.hostCompletion none x x.body else u.hostEnter none x x.body 0)) ∧
  (∀ (v : BitVec 8) (x : Tlp) (s u : State), (s.isl.get hccIx).swap = .run → u = s.hccRetry → u.present hccIx = true →
    (u.ideCtx v = none → exec (.hostInboundTlp (some v) x) s = .next u) ∧
    (∀ n, u.ideCtx v = some n →
      ((u.hcc.ctxs.get n).state ≠ 2 → exec (.hostInboundTlp (some v) x) s = .next u) ∧
      ((u.hcc.ctxs.get n).state = 2 →
        ((2 ^ 64 - 1 ≤ (u.hcc.ctxs.get n).counter x.sub true ∨ laneTakes (Config.ideAad x.aad) x.body = false) →
          exec (.hostInboundTlp (some v) x) s = .next (u.ideFailed n)) ∧
        ((u.hcc.ctxs.get n).counter x.sub true < 2 ^ 64 - 1 → laneTakes (Config.ideAad x.aad) x.body = true → ∀ w,
          (u.ideKey n x.sub true = (w, .wait) → exec (.hostInboundTlp (some v) x) s = .next (w.onHcc (fun h => { h with waitIn := h.waitIn ++ [(v, x)] }))) ∧
          (u.ideKey n x.sub true = (w, .missing) → exec (.hostInboundTlp (some v) x) s = .next (w.ideFailed n)) ∧
          (∀ z body, u.ideKey n x.sub true = (w, .ready z) →
            body = ideOpen (z.key.take 32) v ((u.hcc.ctxs.get n).counter x.sub true) x →
            exec (.hostInboundTlp (some v) x) s = .next
              (w.issueThen hccIx (.tlp v x body) z.id (fun s => s.tlpOpened v x body))))))) ∧
  (∀ (v : BitVec 8) (x : Tlp) (s : State) (n d : Nat), s.ideCtx v = some n → (s.hcc.ctxs.get n).state = 2 →
    d = (s.boundPart v).elim 0 (fun p => s.boundTdid p) →
    s.tlpOpened v x none = (s.countT hccIx 0x05 d).ideFailed n ∧
    (∀ b y, y = (((s.countS hccIx 0x40 2).countT hccIx 0x04 d).countT hccIx 0x02 d (dataUnits b.length)).ideCounted n x.sub true →
      s.tlpOpened v x (some b) = (if x.completion then y.hostCompletion (some v) x b else y.hostStamp v x b)))

/-- O29 (tier 1, derived; R341, R342, R343, R344, R345, R548). IDE_KM programs, starts and stops key sets, and TDISP locks, reports, starts and stops interfaces as R341 to R345 say -/
def Obligations.KeyManagementAndTdispComplete : Prop :=
  (∀ (m : KmMsg) (s : State), s.kmUp = true → exec (.ideKmQuery m) s = .next (s.kmAnswer 1 (kmEcho m))) ∧
  (∀ (m : KmMsg) (s u : State) (n slot ix : Nat), s.kmUp = true → s.ctxFor m.stream = some n → s.slotForFill m.part.val = some slot →
    (s.part m.part.val).state ≠ .none → m.sub ≠ 3 → m.key.length = 32 →
    ((s.hcc.ctxs.get n).valid = true → (s.hcc.ctxs.get n).part = m.part.val) → ix = keyIx m.sub m.rx m.kset →
    (s.hcc.ctxs.get n).going.contains ix = false →
    u = (if (s.hcc.ctxs.get n).keys.get ix = 0 then s else s.ideDrop ((s.hcc.ctxs.get n).keys.get ix)) →
    exec (.ideKmKeyProg m) s = .next ((((u.fillSlot slot (u.ideAttr m.part.val) m.key).slotObject slot 0 true).onCtx n (fun x => { x with
      valid := true, stream := m.stream, part := m.part.val, state := if x.state = 0 then 1 else x.state
      keys := x.keys.set ix slot, count := x.count.set ix 0 })).kmAnswer 3 (kmEcho m ++ [0]))) ∧
  (∀ (m : KmMsg) (s : State) (n ix : Nat), s.kmUp = true → s.ideCtx m.stream = some n → ix = keyIx m.sub m.rx m.kset →
    (s.hcc.ctxs.get n).keys.get ix ≠ 0 →
    exec (.ideKmKSetGo m) s = .next ((s.onCtx n (fun x =>
      let y := { x with
        going := x.going.filter (fun g => g != keyIx m.sub m.rx !m.kset && g != ix) ++ [ix]
        ksetRx := if m.rx then m.kset else x.ksetRx, ksetTx := if m.rx then x.ksetTx else m.kset }
      if y.allGo then { y with state := 2 } else y)).kmAnswer 6 (kmEcho m))) ∧
  (∀ (m : KmMsg) (s u : State) (n ix : Nat), s.kmUp = true → s.ideCtx m.stream = some n → ix = keyIx m.sub m.rx m.kset →
    u = (if (s.hcc.ctxs.get n).keys.get ix = 0 then s else s.ideDrop ((s.hcc.ctxs.get n).keys.get ix)).onCtx n (fun x => { x with
      keys := x.keys.set ix 0, count := x.count.set ix 0, going := x.going.filter (· != ix) }) →
    exec (.ideKmKSetStop m) s = .next ((State.ctxTidy
      (if (s.hcc.ctxs.get n).state = 2 ∧ (s.hcc.ctxs.get n).going.contains ix then u.streamInsecure n else u) n).kmAnswer 6 (kmEcho m))) ∧
  (∀ (m : KmMsg) (s : State), s.kmUp = true →
    (s.ctxFor m.stream = none ∨ s.slotForFill m.part.val = none ∨ (∃ n, s.ctxFor m.stream = some n ∧
      ((s.part m.part.val).state = .none ∨ m.sub = 3 ∨ m.key.length ≠ 32 ∨
        ((s.hcc.ctxs.get n).valid = true ∧ (s.hcc.ctxs.get n).part ≠ m.part.val) ∨
        (s.hcc.ctxs.get n).going.contains (keyIx m.sub m.rx m.kset) = true))) →
    exec (.ideKmKeyProg m) s = .next (s.kmAnswer 3 (kmEcho m ++ [4]))) ∧
  (∀ (p : Fin 128) (v : BitVec 8) (x : Bytes) (s u : State), s.fwUp = true → (s.part p.val).state = .none →
    u = s.tdispAnswer 0x7F (toLe 4 0x101) →
    exec (.getTdispVersion p) s = .next u ∧ exec (.getTdispCapabilities p) s = .next u ∧ exec (.getDeviceInterfaceReport p) s = .next u ∧
    exec (.getDeviceInterfaceState p) s = .next u ∧ exec (.stopInterfaceRequest p) s = .next u ∧
    exec (.lockInterfaceRequest p v) s = .next u ∧ exec (.startInterfaceRequest p x) s = .next u) ∧
  (∀ (p : Fin 128) (s : State), s.fwUp = true → (s.part p.val).state ≠ .none →
    exec (.getTdispVersion p) s = .next (s.tdispAnswer 1 [1, 0x10]) ∧
    exec (.getTdispCapabilities p) s = .next (s.tdispAnswer 2 []) ∧
    exec (.getDeviceInterfaceReport p) s =
      .next (s.tdispAnswer 4 (Config.mmioRanges p.val ++ Sha.sha384 (s.att.standing.get p.val))) ∧
    exec (.getDeviceInterfaceState p) s = .next (s.tdispAnswer 5 [BitVec.ofNat 8 (s.tdi p.val).state.toNat]) ∧
    exec (.stopInterfaceRequest p) s = .next ((s.onTdi p.val (fun _ => {})).tdispAnswer 7 []) ∧
    (∀ v n, s.boundTdid p.val ≠ 0 → (s.tdi p.val).state = 0 → s.ideCtx v = some n → (s.hcc.ctxs.get n).state = 2 →
      (s.hcc.ctxs.get n).part = p.val → s.boundPart v = none →
      exec (.lockInterfaceRequest p v) s = .next ((({ s with free := s.free + 1 } : State).onTdi p.val (fun _ =>
        { state := 1, stream := some v, nonce := Config.freeBytes s.free 32 })).tdispAnswer 3 (Config.freeBytes s.free 32))) ∧
    (∀ x, (s.tdi p.val).state = 1 → (s.tdi p.val).nonce = x →
      exec (.startInterfaceRequest p x) s = .next ((s.onTdi p.val (fun t => { t with state := 2, nonce := [] })).tdispAnswer 6 [])) ∧
    (∀ v, (s.boundTdid p.val = 0 ∨ (s.tdi p.val).state ≠ 0 ∨ s.ideCtx v = none ∨ (∃ q, s.boundPart v = some q) ∨
      (∃ n, s.ideCtx v = some n ∧ ((s.hcc.ctxs.get n).state ≠ 2 ∨ (s.hcc.ctxs.get n).part ≠ p.val))) →
      exec (.lockInterfaceRequest p v) s = .next (s.tdispAnswer 0x7F (toLe 4 4))) ∧
    (∀ x, ((s.tdi p.val).state ≠ 1 ∨ (s.tdi p.val).nonce ≠ x) → exec (.startInterfaceRequest p x) s =
      .next (s.tdispAnswer 0x7F (toLe 4 (if (s.tdi p.val).state = 1 then 0x102 else 4)))))

/-- O30 (tier 1, derived; R355, R356, R357, R372, R373, R374, R375, R376). Signatures open, close, are freed, gather partials and merge as R355 to R357 and R372 to R376 say -/
def Obligations.SignatureCommandsComplete : Prop :=
  (∀ (h : Hdr) (addr : BitVec 64) (b x : Bytes) (s t u : State) (c : Cmd) (p i n : Nat) (f : Format), s.arrival h 0x2B (addrWords addr) = some (t, c) →
    x = Bytes.fit b 32 → u = t.dmaRead (t.bufferTdid c) addr.toNat 32 → p = (if c.part = 0 then u.tdidPart (sigOfDesc x).tdid else c.part) →
    sigDescFormed x = true → p ≠ 0 → u.ownsTdid p (sigOfDesc x).tdid = true → u.gate p 0x2B = true → u.sigFormat (sigOfDesc x) = some f →
    u.sigLimit p (sigOfDesc x) = false → u.sigPlace = some (i, n) →
    exec (.sigOpen h addr (some b)) s = .next (s.thenReap (u.sigMake c p (sigOfDesc x) f i n))) ∧
  (∀ (h : Hdr) (w : Word32) (s t : State) (c : Cmd) (n : Nat), s.arrival h 0x2C [w] = some (t, c) → t.namedSig c w = .ok n →
    t.gate (t.bel.sigs.get n).part 0x2C = true → (t.bel.sigs.get n).state = .opened →
    exec (.sigClose h w) s = .next (s.thenReap
      (((List.range 8).foldl State.sigCleared ((t.clearSign (t.bel.sigs.get n)).onSig n (fun g =>
        { g with state := .closing, ready := [], cleared := [] }))).answer c 0))) ∧
  (∀ (h : Hdr) (w : Word32) (s t : State) (c : Cmd) (n : Nat), s.arrival h 0x2D [w] = some (t, c) → t.namedSig c w = .ok n →
    t.gate (t.bel.sigs.get n).part 0x2D = true →
    exec (.sigFree h w) s = .next (s.thenReap (((t.onSig n (fun g => { g with freeWanted := true })).sigRelease n).answer c 0))) ∧
  (∀ (k : Fin 8) (i : Fin 64) (s u v : State) (h : Nat), s.markedSig k.val i.val = some h →
    u = s.onSig h (fun g => { g with ready := g.ready ++ [k.val] }) → v = (u.onSig h (fun g => { g with state := .merging })).scalesRest →
    exec (.partialReady k i) s = .next (if (List.range 8).all (fun x => !u.live (mccIx x) || (u.bel.sigs.get h).ready.contains x) then
      State.combine { v with bel := { v.bel with ready := v.bel.ready ++ [.merge h] } } else u)) ∧
  (∀ (s : State) (h : Nat), s.bel.running = some (.merge h) → exec .mergeComplete s = .next (State.reap
    ((State.combine (State.countT { s with bel := { s.bel with sigs := s.bel.sigs.modify h Sig.merged, running := none } } 43 0x68 128)).sigRelease
      h))) ∧
  (∀ (s : State) (h : Nat), (s.bel.sigs.get h).freeWanted = true → s.sigRefs h = 0 → (s.bel.sigs.get h).state = .closed →
    s.sigRelease h = State.scalesRest { s with
      bel := { s.bel with sigs := s.bel.sigs.set h default }
      mem := s.mem.mapKeys (fun _ m => { m with ops := m.ops.map (fun o => if o.sig == some h then { o with sig := none } else o) }) })

/-- O31 (tier 1, derived; R379, R380, R381, R382, R383, R387). Checks are submitted, start when the combiner is idle, and deliver their verdicts as R379 to R387 say -/
def Obligations.CheckCommandsComplete : Prop :=
  (∀ (h : Hdr) (addr : BitVec 64) (b x : Bytes) (s t u : State) (c : Cmd) (p n a d e fe : Nat), s.arrival h 0x2E (addrWords addr) = some (t, c) →
    x = Bytes.fit b 64 → u = t.dmaRead (t.bufferTdid c) addr.toNat 64 → checkFormed x = true →
    u.namedSig c (BitVec.ofNat 32 (Bytes.le x 4 2)) = .ok a → u.namedSig c (BitVec.ofNat 32 (Bytes.le x 6 2)) = .ok d →
    u.namedSig c (BitVec.ofNat 32 (Bytes.le x 8 2)) = .ok e → u.namedFence c (BitVec.ofNat 32 (Bytes.le x 12 4)) = .ok fe →
    p = u.checkPart c a → (u.bel.sigs.get a).part = p → (u.bel.sigs.get d).part = p → (u.bel.sigs.get e).part = p →
    (u.obj (objKey 6 fe)).part = p → u.gate p 0x2E = true → (u.bel.sigs.get a).kind ≠ 0 → (u.bel.sigs.get d).kind ≠ 0 →
    (u.bel.sigs.get a).vlen = (u.bel.sigs.get d).vlen → (u.tolerance (Bytes.at x 2) 1).isSome = true →
    u.objCount 7 p < u.allot p 11 → u.freeIndex 7 = some n →
    exec (.checkSubmit h addr (some b)) s = .next (s.thenReap (u.checkMake c p n fe addr x))) ∧
  (∀ (s : State) (n : Nat) (rest : List BfcWork), s.combine.bel.running = none → s.combine.bel.ready = .check n :: rest →
    (s.combine.isl.get 43).swap = .run → s.combine.present 43 = true →
    exec .checkStart s = .next { s.combine with bel := { s.combine.bel with ready := rest, running := some (.check n) } }) ∧
  (∀ (s : State) (n : Nat) (r : CheckRes), s.bel.running = some (.check n) → r = s.checkResult n →
    exec .checkComplete s = .next (State.removals (State.combine
      (State.checkDeliver { s with bel := { s.bel with running := none } } n r.verdict r.ratio r.k r.bytes)))) ∧
  (∀ (a b c : Sig) (y floor : Word32) (fl : BitVec 4), fl = a.flags ||| b.flags ||| c.flags →
    (fl.getLsbD 0 = true → (decideCheck a b c y floor).verdict = 4) ∧
    (fl.getLsbD 0 = false → fl.getLsbD 2 = true → (decideCheck a b c y floor).verdict = 3) ∧
    (fl.getLsbD 0 = false → fl.getLsbD 2 = false → (fl.getLsbD 1 = true ∨ fl.getLsbD 3 = true) → (decideCheck a b c y floor).verdict = 5)) ∧
  verdictError 1 true = none ∧ verdictError 1 false = none ∧ verdictError 5 false = none ∧ verdictError 5 true = some 5 ∧
  (∀ v e, v ≠ 1 → v ≠ 5 → verdictError v e = some v)

/-- O32 (tier 1, derived; R288, R289, R290, R418, R419, R620, R679, R716, R725). Reports coalesce or raise faults, records are freed, classes acknowledged, and clock and parity errors act as R288 to R290, R418, R419, R679, R716 and R725 say -/
def Obligations.FaultReportsAndAcknowledgements : Prop :=
  (∀ (r : FaultRep) (dt : Nat) (s u v w : State), u = (s.advance dt).atStep (stepReport r.island.val r.unit.toNat) → u.live 2 = true →
    r.cls ≠ 6 → u.behind r.island.val (.fault r) = false → v = u.crossed r.island.val (.fault r) →
    w = (v.countReport r.cls.val).onEsc (fun e => { e with windows := e.windows.filter (fun x =>
      !(x.cls == r.cls && x.island == r.island && x.unit == r.unit)) ++ [{ cls := r.cls, island := r.island, unit := r.unit, since := v.now }] }) →
    exec (.faultReport r dt) s = .next (if v.coalesces r then v.countReport r.cls.val
      else w.raiseFault r.cls r.island r.unit r.tdid none (w.classPending r.cls.val))) ∧
  (∀ (r : OwnRep) (dt : Nat) (s u v : State), u = (s.advance dt).atStep (stepReport r.island.val 0) → u.live 2 = true →
    u.behind r.island.val (.own r) = false → v = (u.crossed r.island.val (.own r)).countReport 6 →
    (∀ n, firstFrom 0 16 (fun n => (v.spr.esc.ownf.get n).takes r v.now) = some n →
      exec (.ownershipReport r dt) s = .next (v.onEsc (fun e => { e with ownf := e.ownf.modify n (fun x =>
        { x with count := satInc x.count, clusters := x.clusters ||| (ownfOpen r v.now).clusters }) }))) ∧
    (∀ n, firstFrom 0 16 (fun n => (v.spr.esc.ownf.get n).takes r v.now) = none →
      firstFrom 0 16 (fun n => !(v.spr.esc.ownf.get n).valid) = some n →
      exec (.ownershipReport r dt) s = .next (State.raiseFault (v.onEsc (fun e => { e with ownf := e.ownf.set n (ownfOpen r v.now) }))
        6 r.island 0 (if r.kind = 8 then none else some r.tdid) (if siteKind r.kind.toNat then r.site else none) (v.classPending 6))) ∧
    (firstFrom 0 16 (fun n => (v.spr.esc.ownf.get n).takes r v.now) = none → firstFrom 0 16 (fun n => !(v.spr.esc.ownf.get n).valid) = none →
      exec (.ownershipReport r dt) s = .next (State.raiseFault (v.onEsc (fun e => { e with ownfLost := satInc e.ownfLost, own2 := true }))
        6 r.island 0 (if r.kind = 8 then none else some r.tdid) (if siteKind r.kind.toNat then r.site else none) (v.classPending 6)))) ∧
  (∀ (n : Fin 16) (s u : State), u = s.atStep stepArrive → u.live 2 = true → (u.spr.esc.ownf.get n.val).valid = true →
    exec (.ownfRecordFree n) s = .next ((u.onEsc (fun e => { e with ownf := e.ownf.modify n.val (fun x => { x with valid := false }) })).acked 6 true)) ∧
  (∀ (c : Fin 24) (s u : State), u = s.atStep stepArrive → u.live 2 = true → exec (.faultAck c) s =
    .next ((u.onEsc (fun e => if c.val = 6 then { e with own2 := false }
      else { e with classes := e.classes.modify c.val (fun x => { x with pending := false }) })).acked c.val (u.classPending c.val))) ∧
  (∀ (g : Bool) (s : State), exec (.clockMonitorWindow 0 g) s =
    .next (if g ∨ s.dom.railPresent = false then s else s.deriveStop.report 21 0 0)) ∧
  (∀ (i : Fin 46) (s : State), i.val ≠ 0 →
    ((s.isl.get i.val).clockHeld = false → exec (.clockMonitorWindow i true) s = .next s) ∧
    ((s.isl.get i.val).clockHeld = false → s.live i.val = true → exec (.clockMonitorWindow i false) s = .next (s.report 21 i.val 0)) ∧
    ((s.isl.get i.val).clockHeld = true → exec (.clockMonitorWindow i false) s = .next (s.onIsl i.val (fun r => { r with goodWindows := 0 }))) ∧
    ((s.isl.get i.val).clockHeld = true → (s.isl.get i.val).goodWindows = 0 →
      exec (.clockMonitorWindow i true) s = .next (s.onIsl i.val (fun r => { r with goodWindows := 1 }))) ∧
    ((s.isl.get i.val).clockHeld = true → (s.isl.get i.val).goodWindows ≠ 0 →
      exec (.clockMonitorWindow i true) s = .next (State.pllLock (s.onIsl i.val (fun r => { r with clockHeld := false, goodWindows := 0 })) i.val))) ∧
  (∀ (p : Fin 39) (s : State) (i : Nat), (List.range 46).find? (fun i => portOf i == some p.val) = some i → s.live i = true →
    exec (.badParityBeat p) s = .next ((s.onIsl i (fun r => { r with parity := satInc r.parity })).report 20 i p.val)) ∧
  (∀ (i : Fin 46) (s u : State), s.live i.val = true → u = s.onIsl i.val (fun r => { r with parity := satInc r.parity }) →
    exec (.fifoParityError i none) s = .next (u.report 20 i.val 0) ∧
    (∀ w t, u.waitFail i.val w = some t → exec (.fifoParityError i (some w)) s = .next ((t.waitOver i.val).report 20 i.val 0))) ∧
  (∀ (i : Fin 46) (s : State), s.live i.val = true → exec (.lateResponse i) s = .next (s.countFixed i.val 9))

/-- O33 (tier 1, derived; R286, R416, R617, R618, R619, R624, R626, R627, R630, R631, R632, R725). Waits that time out fail closed and are reported; capture records and notices leave; the resets that wait for them come, as R416, R617 to R632 say -/
def Obligations.HangsCapturesAndNotices : Prop :=
  (∀ (i : Fin 46) (w : Waiting) (s t : State), s.waitFail i.val w = some t →
    exec (.memoryHang i w) s = .next ((t.waitOver i.val).hangReport 2 11 i.val)) ∧
  (∀ (i : Fin 46) (s : State), s.owesSpire i.val = true → exec (.islandHang i) s = .next (s.hangReport 0 11 i.val)) ∧
  (∀ (i : Fin 46) (n : Fin 4096) (s : State),
    (∀ t, isCluster i.val = true → s.fillHang i.val n.val = some t →
      exec (.towerServiceHang i n) s = .next ((t.waitOver i.val).hangReport 1 13 i.val)) ∧
    ((isCluster i.val = false ∨ s.fillHang i.val n.val = none) →
      ((i.val, n.val) ∈ s.invals ∨ (s.live i.val = true ∧ s.loading i.val = true ∧ i.val ≠ 0)) →
      exec (.towerServiceHang i n) s = .next (s.hangReport 1 13 i.val))) ∧
  (∀ (timer : Nat) (cls : Fin 24) (i : Nat) (s : State) (t : Nat × Nat × Nat), t = (timer, i, s.now / hangTick timer) →
    (t ∈ s.spr.esc.hung → s.hangReport timer cls i = s) ∧
    (t ∉ s.spr.esc.hung → s.hangReport timer cls i = (s.report cls i 0).onEsc (fun e =>
      { e with hung := e.hung.filter (fun x => !(x.1 == timer && x.2.1 == i)) ++ [t] }))) ∧
  (∀ (b : Fin 160) (id : BitVec 16) (s : State), (∃ c ∈ s.cmds, c.started = false ∧ c.mbx = b.val ∧ c.cmdId = id) →
    exec (.commandHang (.command b id)) s = .next ((s.completeWhere (fun c => !c.started && c.mbx == b.val && c.cmdId == id) 0x0B []
      (some 0x16)).hangReport 3 13 1)) ∧
  (∀ s : State, s.cpe.busy = true → exec (.commandHang .cpe) s = .next ((State.retireRoots (State.retireWaiting
    { s with cpe := { s.cpe with busy := false, out := none, slots := [] } })).hangReport 3 13 1)) ∧
  (∀ (s : State) (k : DeriveKind) (rest : List DeriveKind), s.dom.queue = k :: rest →
    exec (.commandHang .dome) s = .next ((s.domeAbandon k).settle.hangReport 3 13 1)) ∧
  (∀ (dt : Nat) (s u : State) (a : FaultAct) (rest : List FaultAct), u = s.advance dt → u.cap.queue = a :: rest → u.fwUp = true → u.captureOn = true →
    exec (.captureRecordWrite dt) s = .next (
      let v := (u.dmaWrite 0 (u.cap.base.toNat + u.cap.next.toNat * (4096 * u.cap.slotPages.toNat)) (u.captureRecord a
        (4096 * u.cap.slotPages.toNat))).dmaWrite 0 (u.cap.base.toNat + u.cap.next.toNat * (4096 * u.cap.slotPages.toNat) + 6) [1]
      { v with cap := { v.cap with queue := rest, count := satInc v.cap.count, next := v.cap.next + 1 } })) ∧
  (∀ (s u : State) (a : FaultAct), u = s.atStep stepArrive → u.spr.esc.waiting.find? (fun a => !u.cap.queue.contains a) = some a →
    exec .captureSealed s = .next (u.faultReset a)) ∧
  (∀ (dt : Nat) (s u : State) (a : FaultAct), u = (s.advance dt).atStep stepCompare →
    u.spr.esc.waiting.find? (fun a => decide (a.clock + 1000 * a.waitUs ≤ u.now)) = some a →
    exec (.captureWaitExpiry dt) s = .next (u.faultReset a)) ∧
  (∀ (s : State) (n : NoticeReq) (rest : List NoticeReq), s.cap.notices = n :: rest → s.fwUp = true →
    exec .domainStatusNotice s = .next (
      let v := if s.cap.noticeBase = 0 then s
        else s.dmaWrite 0 (s.cap.noticeBase.toNat + s.cap.noticeNo.toNat % 16 * 8192) (s.noticeBytes n)
      State.noticeWords { v with cap := { v.cap with notices := rest, noticeNo := v.cap.noticeNo + 1 } }
        (BitVec.ofNat 32 (0x03000000 + s.cap.noticeNo.toNat)) 0xDD0))

/-- O34 (tier 1, derived; R397, R399, R401, R402, R407, R412, R421, R422, R423, R424, R425). Spire dispatches events, expires timers, samples curves and keeps secure time as R399 to R425 say -/
def Obligations.EventsTimersAndSecureTime : Prop :=
  (∀ (dt : Nat) (s u v : State) (e : SpEvent) (rest : List SpEvent), u = (s.advance dt).atStep stepArrive → u.spr.queue = e :: rest →
    v = u.onSpr (fun p => { p with queue := rest }) →
    exec (.eventDispatch dt) s = .next (if v.staleTimer e then v else (List.range 64).foldl (fun s m => s.fsmStep e.code.toNat e.arg.toNat m) v)) ∧
  (∀ (tower : Bool) (x : Word32) (s : State), (if tower then 0xE0 ≤ x.toNat % 256 else 0xC0 ≤ x.toNat % 256 ∧ x.toNat % 256 ≤ 0xDF) →
    exec (.eventPost tower x) s = .next (((s.atStep stepArrive).raiseEvent (x.toNat % 256) (bits x.toNat 23 8) (if tower then 1 else 2)).note 2 0x0D none 0
      (x.toNat % 2 ^ 24) 0 0)) ∧
  (∀ (n : Fin 32) (dt : Nat) (s u : State), u = (s.advance dt).atStep stepCompare → 4 ≤ n.val → u.timerOwner n.val ≠ 6 → (u.spr.timers.get n.val).running = true →
    (u.spr.timers.get n.val).due ≤ u.now →
    exec (.fsmTimerExpiry n dt) s =
      .next ((u.onTimer n.val (fun t => { t with running := false })).raiseEvent (0x40 + n.val) 0 2 (u.spr.timers.get n.val).serial)) ∧
  (∀ (n : Fin 64) (dt : Nat) (s u v : State) (e : Bytes) (q y h : Int), u = (s.advance dt).atStep stepCompare →
    (u.entriesOf 2 8).find? (fun e => Bytes.at e 0 == n.val) = some e →
    (u.now < u.spr.curveDue.get n.val → exec (.curveSample n dt) s = .next u) ∧
    (u.spr.curveDue.get n.val ≤ u.now →
      v = u.onSpr (fun p => { p with curveDue := p.curveDue.modify n.val (fun d => d + 1000 * Bytes.le e 12 4) }) →
      q = (v.source (Bytes.at e 3) (Bytes.at e 2) (Bytes.le e 12 4) : Int) * 2 ^ 32 →
      y = threshold e ((v.source (Bytes.at e 5) (Bytes.at e 4) (Bytes.le e 12 4) : Int) * 2 ^ 32) →
      h = toQ32 (Bytes.at e 6 / 16) (Bytes.le e 8 4) →
      exec (.curveSample n dt) s = .next (
        if v.spr.curves.get n.val then
          if q < y - h then (v.onSpr (fun p => { p with curves := p.curves.set n.val false })).raiseEvent 0x81 (256 * n.val + Bytes.at e 2) 2 else v
        else if q > y then (v.onSpr (fun p => { p with curves := p.curves.set n.val true })).raiseEvent 0x80 (256 * n.val + Bytes.at e 2) 2 else v))) ∧
  (∀ (dt : Nat) (s u : State), u = (s.advance dt).atStep stepArrive →
    (u.spr.time.seedPending = true → u.spr.time.counter.toNat ≤ u.spr.time.seed.toNat * 1000000000 →
      exec (.ppsEdge dt) s = .next (u.onTime (fun t => { t with
        counter := BitVec.ofNat 64 (u.spr.time.seed.toNat * 1000000000), locked := true, seedPending := false, run := 0, slewError := 0, slewPos := 0
        lastAccepted := u.now, missAt := u.now + 1001000000 }))) ∧
    (u.spr.time.seedPending = true → u.spr.time.seed.toNat * 1000000000 < u.spr.time.counter.toNat → u.spr.time.locked = false →
      exec (.ppsEdge dt) s = .next (u.onTime (fun t => { t with seedPending := false, seedRejected := true }))) ∧
    (u.spr.time.seedPending = true → u.spr.time.seed.toNat * 1000000000 < u.spr.time.counter.toNat → u.spr.time.locked = true →
      exec (.ppsEdge dt) s = .next (u.onTime (fun t => { t with seedPending := false, seedRejected := true })).ppsLocked) ∧
    (u.spr.time.seedPending = false → u.spr.time.locked = true → exec (.ppsEdge dt) s = .next u.ppsLocked) ∧
    (u.spr.time.seedPending = false → u.spr.time.locked = false → exec (.ppsEdge dt) s = .next u)) ∧
  (∀ u : State, 999000000 ≤ u.now - u.spr.time.lastAccepted → u.now - u.spr.time.lastAccepted ≤ 1001000000 →
    (phaseError u.spr.time.counter).natAbs ≤ u.spr.time.slewMax →
    u.ppsLocked = (u.onTime (fun t => { t with slewError := phaseError u.spr.time.counter, slewPos := 0, run := 0
                                               lastError := BitVec.ofInt 20 (phaseError u.spr.time.counter), lastAccepted := u.now
                                               missAt := u.now + 1001000000 })).raiseEvent 0x68 0 2) ∧
  (∀ u : State, (u.now - u.spr.time.lastAccepted < 999000000 ∨ 1001000000 < u.now - u.spr.time.lastAccepted ∨
    u.spr.time.slewMax < (phaseError u.spr.time.counter).natAbs) → u.ppsLocked = (u.onTime SecTime.strike).raiseEvent 0x69 0 2) ∧
  (∀ (dt : Nat) (s u : State), u = (s.advance dt).atStep stepCompare → u.spr.time.missAt ≠ 0 → u.spr.time.missAt < u.now →
    exec (.ppsMissed dt) s = .next ((u.onTime (fun t => { t.strike with missAt := t.missAt + 1000000000 })).raiseEvent 0x6A 0 2)) ∧
  (∀ (x : Word32) (s : State), exec (.timeSeed x) s = .next ((s.atStep stepArrive).onTime (fun t => { t with seed := x, seedPending := true, seedRejected := false }))) ∧
  (∀ (n : Fin 8) (x : Word32) (s u : State), u = s.atStep stepArrive → (u.schedOwner n.val = 8 ∨ u.schedOwner n.val = 9) →
    exec (.scheduleArm n x) s = .next (u.onTime (fun t => { t with sched := t.sched.modify n.val (fun y =>
      { y with armed := x.getLsbD 31, hi := x.setWidth 31 }) }))) ∧
  (∀ (n : Fin 8) (dt : Nat) (s u v : State), u = (s.advance dt).atStep stepCompare → u.live 2 = true → (u.spr.time.sched.get n.val).armed = true →
    (u.spr.time.sched.get n.val).target ≤ u.spr.time.counter.toNat →
    v = (u.onTime (fun t => { t with sched := t.sched.modify n.val (fun x => { x with armed := false }) })).raiseEvent (0x60 + n.val) 0 2 →
    exec (.scheduleSlotFire n dt) s = .next (if v.schedOwner n.val = 8 then v.freeze 3 else v))

/-- O35 (tier 1, derived; R506, R513, R514, R516, R517, R518, R519). The SPDM responder negotiates, shows its certificates, is challenged and measured, and chunks messages as R514 to R519 say -/
def Obligations.SpdmNegotiationComplete : Prop :=
  (∀ (m : SpdmMsg) (s t : State), s.spdmArrival m 0x84 0 = some t → exec (.getVersion m) s = .next ((t.onConn m.conn.val (fun c => { c with
      version := 0, stage := 1, transcript := reqBytes 0x84 m, chunkIn := [], chunkOut := [], ready := none, awaited := false })).spdmAnswer
        m 0x04 [0x12, 0x13])) ∧
  (∀ (m : SpdmMsg) (s t : State), s.spdmArrival m 0xE1 1 = some t → (m.version = 0x12 ∨ m.version = 0x13) →
    exec (.getCapabilities m) s = .next ((t.onConn m.conn.val (fun c => { c with version := m.version.toNat, stage := 2 })).spdmAnswer
      m 0x61 (12 :: toLe 4 capFlags))) ∧
  (∀ (m : SpdmMsg) (s t : State), s.spdmArrival m 0xE3 2 = some t → algsUsable m = true →
    exec (.negotiateAlgorithms m) s = .next ((t.onConn m.conn.val (fun c => { c with stage := 3 })).spdmAnswer m 0x63
        ([1, 0x02] ++ toLe 4 4 ++ toLe 4 0x80 ++ toLe 4 2 ++ [2, 0x20] ++ toLe 2 0x10 ++ [3, 0x20] ++ toLe 2 2 ++
          [4, 0x20] ++ toLe 2 0x80 ++ [5, 0x20] ++ toLe 2 1))) ∧
  (∀ (m : SpdmMsg) (s t : State), s.spdmArrival m 0x81 3 = some t →
    exec (.getDigests m) s = .next (t.spdmAnswer m 0x01 (1 :: Sha.sha384 (t.certChain true)))) ∧
  (∀ (m : SpdmMsg) (s t : State) (part : Bytes), s.spdmArrival m 0x82 3 = some t → m.p1 = 0 → Bytes.le m.body 0 2 ≤ (t.certChain true).length →
    part = Bytes.slice (t.certChain true) (Bytes.le m.body 0 2) (Bytes.le m.body 2 2) →
    exec (.getCertificate m) s = .next (t.spdmAnswer m 0x02
      (toLe 2 part.length ++ toLe 2 ((t.certChain true).length - Bytes.le m.body 0 2 - part.length) ++ part))) ∧
  (∀ (m : SpdmMsg) (s t u : State), s.spdmArrival m 0x83 3 = some t → m.p1 = 0 → 32 ≤ m.body.length →
    u = { t with free := t.free + 1 } →
    exec (.challenge m) s = .next (u.signedReply m 0x03 (Sha.sha384 (u.certChain true) ++ Config.freeBytes t.free 32 ++
      (if m.p2 = 0 then [] else Sha.sha384 (([1, 2, 3, 4, 5, 6, 7].map u.measurement).flatten))))) ∧
  (∀ (m : SpdmMsg) (s t u : State) (reply : Bytes), s.spdmArrival m 0xE0 3 = some t → (m.p2.toNat ≤ 7 ∨ m.p2.toNat = 0xFF) →
    u = { t with free := t.free + 1 } →
    reply = (if m.p2.toNat = 0 then [7] else [0]) ++ u.measBlocks m.p2.toNat ++ Config.freeBytes t.free 32 →
    exec (.getMeasurements m) s = .next (if m.p1.getLsbD 0 then u.signedReply m 0x60 reply else u.spdmAnswer m 0x60 reply)) ∧
  (∀ (m : SpdmMsg) (s t : State) (all : Bytes), s.spdmArrival m 0x85 0 = some t →
    all = (if Bytes.le m.body 0 2 == 0 then [] else (t.conn m.conn.val).chunkIn) ++
      Bytes.slice m.body (if Bytes.le m.body 0 2 == 0 then 12 else 8) (Bytes.le m.body 4 4) →
    exec (.chunkSend m) s = .next ((t.onConn m.conn.val (fun c => { c with chunkIn := if m.p1.getLsbD 0 then [] else all })).spdmAnswer m 0x05
      ([0, m.p2] ++ Bytes.slice m.body 0 2))) ∧
  (∀ (m : SpdmMsg) (s t : State) (all : Bytes), s.spdmArrival m 0x86 0 = some t → all = (t.conn m.conn.val).chunkOut → all ≠ [] →
    exec (.chunkGet m) s = .next ((t.onConn m.conn.val (fun c => { c with chunkOut := all.drop 4064 })).spdmOut m.conn.val (sessOf m)
      (Config.spdmEncode 0x06 (BitVec.ofNat 8 (b2n (decide (all.length ≤ 4064))) :: m.p2 :: Bytes.slice m.body 0 2 ++ all.take 4064)))) ∧
  (∀ (m : SpdmMsg) (s t : State) (b : Bytes), s.spdmArrival m 0xFF 0 = some t → (t.conn m.conn.val).ready = some b →
    exec (.respondIfReady m) s = .next ((t.onConn m.conn.val (fun c => { c with ready := none })).spdmOut m.conn.val (sessOf m) b)) ∧
  (∀ (m : SpdmMsg) (s t : State), s.spdmArrival m 0 0 = some t →
    exec (.spdmUnsupportedRequest m) s = .next (t.spdmError m.conn.val (sessOf m) 7))

/-- O36 (tier 1, derived; R513, R515, R516, R519, R526). Sessions open, finish, beat, change keys and end, and messages are signed as R513, R515, R519, R521 and R526 say -/
def Obligations.SpdmSessionsComplete : Prop :=
  (∀ (m : SpdmMsg) (s t u : State) (k : Nat) (reply : Bytes), s.spdmArrival m 0xE4 3 = some t → t.spdm13 m = true → m.p2 = 0 → 132 ≤ m.body.length →
    t.att.queue.length < 512 → t.freeSess = some k → u = { t with free := t.free + 1 } →
    reply = toLe 2 k ++ [1] ++ (Config.freeBytes t.free 64).drop 32 ++
      (Config.ecdhShare (Bytes.slice m.body 36 96) ((Config.freeBytes t.free 64).take 32)).2 →
    exec (.keyExchange m) s = .next ((u.onSess k (fun _ => { open_ := true, conn := m.conn.val, secret := Config.masterSecret (Config.ecdhShare (Bytes.slice m.body 36 96) ((Config.freeBytes t.free 64).take 32)).1 (Sha.sha384 ((u.conn m.conn.val).transcript ++ reply)) })).signedReply m 0x64 reply)) ∧
  (∀ (m : SpdmMsg) (s t : State) (k : Fin 128), s.spdmArrival m 0xE5 3 = some t → m.sess = some k → (t.sess k.val).finished = false →
    exec (.finish m) s = .next (match Config.requesterChain (m.body.drop 144) with
      | some pk =>
        if Config.ecdsaVerify pk ((t.conn m.conn.val).transcript.take ((t.conn m.conn.val).transcript.length - m.body.length)) (m.body.take 96) then
          (t.onSess k.val (fun x => { x with finished := true, th2 := Sha.sha384 (t.conn m.conn.val).transcript, reqKey := pk })).spdmAnswer m 0x65 []
        else (t.spdmRefuse m 6).sessEnd k.val
      | none => (t.spdmRefuse m 6).sessEnd k.val)) ∧
  (∀ (m : SpdmMsg) (s t : State) (k : Fin 128), s.spdmArrival m 0xE8 3 = some t → m.sess = some k → (t.sess k.val).finished = true →
    exec (.heartbeat m) s = .next (t.spdmAnswer m 0x68 [])) ∧
  (∀ (k : Fin 128) (s : State), (s.sess k.val).finished = true → exec (.heartbeatTimeout k) s = .next (s.sessEnd k.val)) ∧
  (∀ (m : SpdmMsg) (s t : State) (k : Fin 128), s.spdmArrival m 0xE9 3 = some t → m.sess = some k → (t.sess k.val).finished = true →
    (m.p1 = 1 ∨ m.p1 = 2) → exec (.keyUpdate m) s =
      .next ((t.spdmAnswer m 0x69 [m.p1, m.p2]).onSess k.val (fun x => { x with updates := x.updates + 1, sent := 0 }))) ∧
  (∀ (m : SpdmMsg) (s t : State) (k : Fin 128), s.spdmArrival m 0xEC 3 = some t → m.sess = some k → (t.sess k.val).finished = true →
    exec (.endSession m) s = .next ((t.spdmAnswer m 0x6C []).sessEnd k.val)) ∧
  (∀ (s u : State) (r : SignReq) (rest : List SignReq), s.att.queue = r :: rest → s.fwUp = true →
    u = s.onAtt (fun a => { a with queue := rest }) →
    (r.standing ≠ 0 → exec .signComplete s = .next (((u.onAtt (fun a => { a with
      standing := a.standing.set (r.standing - 1) (u.record r.payload) })).onAtt (fun a => { a with signed := satInc a.signed })).countT 1 0x51 128)) ∧
    (r.standing = 0 → r.record = true → exec .signComplete s =
      .next (((u.signDeliver r (u.record r.payload)).onAtt (fun a => { a with signed := satInc a.signed })).countT 1 0x51 128)) ∧
    (r.standing = 0 → r.record = false → r.secret = [] → exec .signComplete s = .next (u.signDeliver r (r.reply ++ u.aliasEcdsa r.payload))) ∧
    (∀ k, r.standing = 0 → r.record = false → r.secret ≠ [] → r.sess = some k → exec .signComplete s =
      .next ((u.signDeliver r (r.reply ++ u.aliasMldsa r.context r.payload)).onSess k (fun x => { x with
        secret := r.secret, augmented := true, keyDigest := r.keyDigest, updates := 0, sent := 0 })))) ∧
  (∀ (s : State) (k : Nat), (s.sessEnd k).att.sess = s.att.sess.set k default ∧ (∀ r ∈ (s.sessEnd k).att.queue, r.sess ≠ some k))

/-- O37 (tier 1, derived; R504, R507, R511, R512, R515, R520, R521, R523, R524, R525, R526, R603). Evidence, chains, augmentation, delivered keys, standing records and relays act as R504 to R525 say -/
def Obligations.EvidenceAndKeyDeliveryComplete : Prop :=
  (∀ (m : SpdmMsg) (s t u : State), s.spdmArrival m 0xFE 3 = some t →
    (t.spdm13 m = false ∧ u = t.spdmRefuse m 7 ∨ t.spdm13 m = true ∧ m.rsvd ≠ 0 ∧ u = t.spdmRefuse m 1) →
    exec (.getEvidence m) s = .next u ∧ exec (.getMldsaChain m) s = .next u ∧ exec (.kemAugment m) s = .next u ∧
    exec (.deliverKey m) s = .next u) ∧
  (∀ (m : SpdmMsg) (s t : State) (p : Nat), s.spdmArrival m 0xFE 3 = some t → t.spdm13 m = true → m.rsvd = 0 → p = Bytes.at m.body 0 → m.body.length = 34 → p < 128 →
    t.lc.state ≠ 1 → (t.lc.state = 8 → p = 0) → (p ≠ 0 → (t.part p).state ≠ .none) →
    (Bytes.at m.body 1 = 0 → exec (.getEvidence m) s =
      .next (t.signQueue m { code := 0x7E, record := true, payload := t.evidence p (Bytes.slice m.body 2 32) })) ∧
    (Bytes.at m.body 1 = 1 → p ≠ 0 → exec (.getEvidence m) s =
      .next (if (t.att.standing.get p).isEmpty then t.spdmRefuse m 0x42 else t.spdmAnswer m 0x7E (t.att.standing.get p)))) ∧
  (∀ (m : SpdmMsg) (s t : State), s.spdmArrival m 0xFE 3 = some t → t.spdm13 m = true → m.rsvd = 0 → m.body.length = 8 → Bytes.be m.body 4 4 ≤ 4096 →
    exec (.getMldsaChain m) s = .next (t.spdmAnswer m 0x7E (Bytes.slice (t.certChain false) (Bytes.be m.body 0 4) (Bytes.be m.body 4 4)))) ∧
  (∀ (m : SpdmMsg) (s t : State) (k : Fin 128) (ek pk base : Bytes), s.spdmArrival m 0xFE 3 = some t → t.spdm13 m = true → m.rsvd = 0 → m.sess = some k →
    (t.sess k.val).finished = true → m.body.length = 6829 → (t.sess k.val).augmented = false →
    (∀ r ∈ t.att.queue, r.sess = some k.val → r.secret = []) → t.att.queue.length < 512 →
    ek = Bytes.slice m.body 0 1568 → pk = Bytes.slice m.body 1568 1952 → base = (t.sess k.val).th2 ++ ek ++ pk →
    exec (.kemAugment m) s = .next (
      if Config.mldsaVerify pk (ascii "ONRUS-KEM-REQ") base (Bytes.slice m.body 3520 3309) then
        State.signQueue { t with free := t.free + 1 } m {
          code := 0x7E, reply := (Config.kemEncaps ek (Config.freeBytes t.free 32)).1,
          payload := base ++ (Config.kemEncaps ek (Config.freeBytes t.free 32)).1, context := "ONRUS-KEM-RSP",
          secret := hmac384 (Config.kemEncaps ek (Config.freeBytes t.free 32)).2 (t.sess k.val).secret,
          keyDigest := Sha.sha384 (pk ++ (t.sess k.val).reqKey) }
      else (t.spdmRefuse m 6).sessEnd k.val)) ∧
  (∀ (m : SpdmMsg) (s t : State) (k : Fin 128), s.spdmArrival m 0xFE 3 = some t → t.spdm13 m = true → m.rsvd = 0 → m.sess = some k →
    (t.sess k.val).finished = true →
    (∀ e, t.deliverCheck k.val m.body = some e → exec (.deliverKey m) s = .next (t.spdmAnswer m 0x7E [0, 0, BitVec.ofNat 8 e])) ∧
    (∀ n, t.deliverCheck k.val m.body = none → t.slotForFill (Bytes.at m.body 1) = some n → Bytes.at m.body 0 = 2 →
      exec (.deliverKey m) s = .next (((t.fillSlot n (deliveredAttr m.body 0) (Bytes.slice m.body 72 32)).slotObject n 0 true).spdmAnswer m 0x7E
        (toBe 2 n ++ [0]))) ∧
    (∀ n i u, t.deliverCheck k.val m.body = none → t.slotForFill (Bytes.at m.body 1) = some n → Bytes.at m.body 0 = 1 →
      firstFrom 0 64 (fun i => !(t.sets.get i).inUse) = some i →
      u = (t.fillSlot n (deliveredAttr m.body i) (Bytes.slice m.body 72 32)).slotObject n 0 true →
      exec (.deliverKey m) s = .next (State.spdmAnswer { u with
        sets := u.sets.set i { setId := Bytes.slice m.body 8 16, digest := Bytes.slice m.body 24 48, slot := BitVec.ofNat 16 n,
                               part := BitVec.ofNat 8 (Bytes.at m.body 1), inUse := true } } m 0x7E (toBe 2 n ++ [0]))) ∧
    (∀ n u, t.deliverCheck k.val m.body = none → t.slotForFill (Bytes.at m.body 1) = some n → Bytes.at m.body 0 = 3 →
      u = (t.slots.keysWhere (fun _ x => x.fabricRoot && x.tdid == Bytes.at m.body 2 && x.part == Bytes.at m.body 1)).foldl
        (fun s n => s.retireAny n) t →
      exec (.deliverKey m) s = .next (((u.fillSlot n (deliveredAttr m.body 0) (Bytes.slice m.body 72 32)).slotObject n 0 true).spdmAnswer m 0x7E
        (toBe 2 n ++ [0])))) ∧
  (∀ (p : Fin 128) (s : State), s.fwUp = true → (s.part p.val).state ≠ .none → s.lc.state ≠ 1 → s.lc.state ≠ 8 →
    s.att.shown.get p.val ≠ s.shownNow p.val → s.att.queue.length < 512 →
    exec (.standingRecordRegen p) s = .next (s.onAtt (fun a => { a with
      shown := a.shown.set p.val (s.shownNow p.val), queue := a.queue ++ [{ standing := p.val + 1, payload := s.evidence p.val [] }] }))) ∧
  (∀ (h : Hdr) (conn mbx : Word32) (addr : BitVec 64) (s t : State) (c : Cmd), s.arrival h 0x11 ([conn, mbx] ++ addrWords addr) = some (t, c) →
    1 ≤ conn.toNat → conn.toNat ≤ 31 →
    (mbx.toNat = 0xFF → exec (.relayBind h conn mbx addr) s =
      .next (s.thenReap ((t.onConn conn.toNat (fun c => { c with mbx := none, buf := 0 })).answer c 0))) ∧
    (3 ≤ mbx.toNat → mbx.toNat ≤ 159 → (t.relayOf mbx.toNat = none ∨ t.relayOf mbx.toNat = some conn.toNat) →
      exec (.relayBind h conn mbx addr) s =
        .next (s.thenReap ((t.onConn conn.toNat (fun c => { c with mbx := some mbx.toNat, buf := addr.toNat })).answer c 0)))) ∧
  (∀ (h : Hdr) (len : Word32) (b : Bytes) (s t : State) (c : Cmd) (n : Nat), s.arrival h 0x18 [len] = some (t, c) → t.relayOf c.mbx = some n →
    (c.part ≠ 0 → t.gate c.part 0x18 = true) → 1 ≤ len.toNat → len.toNat ≤ 4096 →
    exec (.spdmMsg h len (some b)) s = .next (s.thenReap (((t.dmaRead (if c.part = 0 then 0 else t.lowestTdid c.part) (t.conn n).buf
      len.toNat).hold c).emit (.twr "SPDM" (BitVec.ofNat 8 n :: Bytes.fit b len.toNat)))))

/-- O38 (tier 1, derived; R540, R541, R543, R544, R545, R546, R551, R552, R554, R556, R568, R569). Partitions are created, quiesce, resume, freeze, are removed, and their references come and go as R540 to R556, R568 and R769 say -/
def Obligations.PartitionCommandsComplete : Prop :=
  (∀ (h : Hdr) (addr : BitVec 64) (b x : Bytes) (s t u : State) (c : Cmd) (p k e m g : Nat), s.arrival h 0x06 (addrWords addr) = some (t, c) →
    x = Bytes.fit b 896 → u = t.dmaRead (t.bufferTdid c) addr.toNat 896 → u.partChecks x = .ok (p, k, e, m, g) →
    exec (.partCreate h addr (some b)) s = .next (s.thenReap ((u.partMake x p k e m g).answer c 0 [BitVec.ofNat 32 p]))) ∧
  (∀ (h : Hdr) (part fence value : Word32) (s t : State) (c : Cmd) (p fe : Nat), s.arrival h 0x07 [part, fence, value] = some (t, c) →
    p = part.toNat → 1 ≤ p → p < 128 → t.namedFence c fence = .ok fe → (t.obj (objKey 6 fe)).part = p → (t.part p).state = .active →
    exec (.quiesce h part fence value) s = .next (s.thenReap (((t.quiesceStart p).onPart p (fun x => { x with quiesce := some (fe, value.toNat) })).acceptA
      { c with what := p, fence := some (fe, value.toNat), names := [objKey 6 fe] } []))) ∧
  (∀ (p : Fin 128) (s : State), (s.part p.val).state = .quiescing → s.quiescent p.val = true → exec (.quiescenceReached p) s =
    .next ((s.onPart p.val (fun x => { x with state := .quiesced, quiesce := none })).completeWhere
      (fun c => c.started && c.code == 0x07 && c.what == p.val) 0 [] none)) ∧
  (∀ (h : Hdr) (part : Word32) (s t : State) (c : Cmd) (p : Nat), s.arrival h 0x08 [part] = some (t, c) → p = part.toNat → 1 ≤ p → p < 128 →
    ((t.part p).state = .quiescing ∨ (t.part p).state = .quiesced ∨ (t.part p).state = .frozen) →
    exec (.resume h part) s = .next (s.thenReap (
      let u := ((t.contextsRestore p).completeWhere (fun c => c.started && c.code == 0x07 && c.what == p) 0 [] (some 0x17)).onPart p (fun x =>
        { x with state := .active, fenced := false, quiesce := none })
      State.answer (if (t.part p).fenced then { u with cap := { u.cap with notices := u.cap.notices ++ [{ kind := 4, mask := (t.part p).tdids }] } } else u)
        c 0))) ∧
  (∀ (h : Hdr) (part : Word32) (s t : State) (c : Cmd) (p : Nat), s.arrival h 0x09 [part] = some (t, c) → p = part.toNat → 1 ≤ p → p < 128 →
    (t.part p).state = .quiesced → t.freezeOk p = true →
    exec (.freeze h part) s = .next (s.thenReap ((t.onPart p (fun x => { x with state := .frozen })).answer c 0))) ∧
  (∀ (h : Hdr) (part : Word32) (s t : State) (c : Cmd) (p : Nat), s.arrival h 0x0A [part] = some (t, c) → p = part.toNat → 1 ≤ p → p < 128 →
    ((t.part p).state = .quiesced ∨ (t.part p).state = .frozen) → exec (.remove h part) s = .next (s.thenReap (t.removeStart c p))) ∧
  (∀ (h : Hdr) (part tag : Word32) (s t : State) (c : Cmd) (p : Nat), s.arrival h 0x0B [part, tag] = some (t, c) → p = part.toNat → 1 ≤ p → p < 128 →
    tag.toNat < 2 ^ 24 → t.gate p 0x0B = true →
    exec (.processExit h part tag) s = .next (s.thenReap ((t.processExit p tag.toNat).answer c 0))) ∧
  (∀ (h : Hdr) (w : Word32) (s t : State) (c : Cmd) (ty i k : Nat), s.arrival h 0x30 [w] = some (t, c) → ty = fld w 31 28 → (3 ≤ ty ∧ ty ≤ 6) →
    (if ty = 3 then t.namedRegion c w else t.named c ty w) = .ok i → k = objKey ty i → t.gate (t.actsFor c k) 0x30 = true → t.href k < 0xFFFF →
    t.prt.refs.length < 32768 → exec (.retain h w) s = .next (s.thenReap ((t.addRef k (t.obj k).part c.tag.toNat).answer c 0))) ∧
  (∀ (h : Hdr) (w : Word32) (s t : State) (c : Cmd) (ty i k : Nat), s.arrival h 0x31 [w] = some (t, c) → ty = fld w 31 28 → (2 ≤ ty ∧ ty ≤ 7) →
    t.named c ty w = .ok i → k = objKey ty i → t.gate (t.actsFor c k) 0x31 = true → (∃ r ∈ t.prt.refs, r.key = k ∧ r.tag = c.tag.toNat) →
    exec (.release h w) s = .next (s.thenReap ((t.dropRef k c.tag.toNat).reap.answer c 0).settle))

/-- O39 (tier 1, derived; R189, R200, R260, R274, R284, R557, R562, R563, R564, R566, R768). Regions are created, destroyed, cleared and changed, and fences created, as R200, R274, R284, R557, R562 to R566 and R768 say -/
def Obligations.RegionCommandsComplete : Prop :=
  (∀ (h : Hdr) (addr : BitVec 64) (b x : Bytes) (s t u : State) (c : Cmd) (p r fe n : Nat) (es : List Nat) (slot : Option Nat) (fresh : Bool),
    s.arrival h 0x20 (addrWords addr) = some (t, c) → n = 32 + 16 * min (Bytes.at b 5) 16 → x = Bytes.fit b n →
    u = t.dmaRead (t.bufferTdid c) addr.toNat n → p = (if c.part = 0 then u.tdidPart (regionSpec x).tdid else c.part) → regionFormed x = true → p ≠ 0 →
    u.ownsTdid p (regionSpec x).tdid = true → u.gate p 0x20 = true → u.namedFence c (regionSpec x).fence = .ok fe →
    u.regionChecks c p (regionSpec x) = .ok (r, es, slot, fresh) → ∀ v, v = u.regionMake p c.tag.toNat (regionSpec x) r es slot fresh →
    exec (.regionCreate h addr (some b)) s = .next (s.thenReap ((State.regionGo (v.acceptA
      { c with what := r, fence := some (fe, (regionSpec x).value), names := [objKey 3 r, objKey 6 fe] } [v.handle (objKey 3 r)]) p r).settle))) ∧
  (∀ (h : Hdr) (w : Word32) (s t : State) (c : Cmd) (r : Nat), s.arrival h 0x21 [w] = some (t, c) → t.namedRegion c w = .ok r →
    t.gate (t.actsFor c (objKey 3 r)) 0x21 = true → exec (.regionDestroy h w) s = .next (s.thenReap (t.regionDestroy c r))) ∧
  (∀ (h : Hdr) (w f v : Word32) (s t u : State) (c : Cmd) (r fe : Nat), s.arrival h 0x22 [w, f, v] = some (t, c) → t.namedRegion c w = .ok r →
    t.namedFence c f = .ok fe → t.gate (t.actsFor c (objKey 3 r)) 0x22 = true →
    (t.moveCovers r = true → exec (.regionClear h w f v) s = .next (s.thenReap (t.freeReason c))) ∧
    (t.moveCovers r = false →
    u = t.acceptA { c with what := r, stage := b2n ((t.region r).entries.any (fun e => t.drainWaits e)),
                           fence := some (fe, v.toNat), names := [objKey 3 r, objKey 6 fe] } [] →
    exec (.regionClear h w f v) s = .next (s.thenReap (
      if (t.region r).slot.any (fun n => (u.slot n).state != 1) ∧ !(t.region r).entries.any (fun e => t.drainWaits e) then
        u.regionDone r (some 0x11)
      else ((t.region r).entries.foldl (fun s e => s.drain e .clear) u).settle)))) ∧
  (∀ (h : Hdr) (w a : Word32) (s t : State) (c : Cmd) (r : Nat), s.arrival h 0x23 [w, a] = some (t, c) → fld a 31 2 = 0 → t.namedRegion c w = .ok r →
    t.gate (t.actsFor c (objKey 3 r)) 0x23 = true → (a.getLsbD 0 = true → (t.region r).cls = 1) →
    exec (.regionAttr h w a) s = .next (s.thenReap ((((t.region r).entries.foldl (fun s e => s.rotFields e (fun v =>
      setFld (setFld v 97 97 (b2n (a.getLsbD 0))) 105 105 (b2n (a.getLsbD 1)))) t).onRegion r (fun x =>
        { x with attr := x.attr / 2 % 2 * 2 + b2n (a.getLsbD 0) + 4 * b2n (a.getLsbD 1) })).answer c 0))) ∧
  (∀ (h : Hdr) (kt : Word32) (loc i : BitVec 64) (s t : State) (c : Cmd) (d p f : Nat) (x : Fence),
    s.arrival h 0x24 ([kt] ++ addrWords loc ++ [0] ++ addrWords i) = some (t, c) → fld kt 1 0 = 1 → fld kt 7 2 = 0 → fld kt 31 15 = 0 →
    d = fld kt 14 8 → p = (if c.part = 0 then t.tdidPart d else c.part) → p ≠ 0 → t.ownsTdid p d = true → t.gate p 0x24 = true →
    t.objCount 6 p < t.allot p 8 → t.prt.refs.length < 32768 → t.freeIndex 6 = some f →
    x = { kind := 1, tdid := d, loc := loc.toNat, node := 0, holder := none, initial := i.toNat, last := i.toNat } →
    exec (.fenceCreate h kt loc 0 i) s = .next (s.thenReap (
      let u := (t.newObj (objKey 6 f) p c.tag.toNat true).onFence f (fun _ => x)
      (u.fenceWrite x i.toNat).answer c 0 [u.handle (objKey 6 f)])))

/-- O40 (tier 1, stated; R190). A REGION_ATTR that sets ELIDE on a region of class OPEN or R is refused with reason 0x01 and changes no attribute, as R190 says -/
def Obligations.ElideIsRefusedOutsideClassC : Prop :=
  ∀ (h : Hdr) (w a : Word32) (s t : State) (c : Cmd) (r : Nat), s.arrival h 0x23 [w, a] = some (t, c) → fld a 31 2 = 0 →
    t.namedRegion c w = .ok r → t.gate (t.actsFor c (objKey 3 r)) 0x23 = true → a.getLsbD 0 = true → (t.region r).cls ≠ 1 →
    exec (.regionAttr h w a) s = .next (s.thenReap (t.answer c 8 [1])) ∧
    ∃ m u, t.answer c 8 [1] = { t with mbx := m, isl := u }

/-- O41 (tier 1, derived; R454, R570, R571, R572, R573, R574, R604). EXPORT seals a package, IMPORT makes its records and MIGRATE_SEND begins to send a region, as R570 to R574 say -/
def Obligations.MigrationCommandsComplete : Prop :=
  (∀ (h : Hdr) (wrap len : Word32) (addr : BitVec 64) (b body mid hdr iv : Bytes) (s t u v : State) (c : Cmd) (n p total : Nat),
    s.arrival h 0x32 ([wrap] ++ addrWords addr ++ [len]) = some (t, c) → t.named c 4 wrap = .ok n →
    u = t.dmaRead (t.bufferTdid c) addr.toNat 80 → p = u.actsFor c (objKey 4 n) → (u.part p).state = .frozen → u.noExport p = false →
    u.wrapOk n = true → body = Config.migrateEncode (u.migrateRecords p) → total = 128 + body.length → total ≤ len.toNat →
    mid = Bytes.slice (Bytes.fit b 80) 64 16 → (iv, v) = u.draw 12 → hdr = v.packageHeader (u.migrateRecords p).length total mid iv →
    exec (.partExport h wrap addr len (some b)) s = .next (s.thenReap (
      let sealed_ := gcmEncrypt (v.blobKek n hdr) (Bytes.fit iv 12) hdr body
      (State.onPart (v.dmaWrite (v.bufferTdid c) addr.toNat (hdr ++ sealed_.1 ++ sealed_.2)) p (fun x => { x with migrationId := mid })).answer
        c 0 [BitVec.ofNat 32 total]))) ∧
  (∀ (h : Hdr) (wrap : Word32) (addr place : BitVec 64) (b pl : Bytes) (rs : List (List Nat)) (s t u v : State) (c : Cmd) (n p i : Nat)
      (made : List Nat), s.arrival h 0x33 ([wrap] ++ addrWords addr ++ addrWords place) = some (t, c) → t.named c 4 wrap = .ok n →
    (t.part (t.actsFor c (objKey 4 n))).state = .frozen → (t.part (t.actsFor c (objKey 4 n))).importing = true →
    u = (t.dmaRead (t.bufferTdid c) addr.toNat (Bytes.le b 8 8)).dmaRead (t.bufferTdid c) place.toNat pl.length → packageFormed b = true →
    u.wrapOk n = true → u.openPackage n b = some rs → p = u.actsFor c (objKey 4 n) →
    (rs.filterMap (fun r => match r with | [0, t] => some t | _ => none)).foldl (fun (m : BitVec 128) t => m ||| BitVec.ofNat 128 (2 ^ t)) 0 =
      (u.part p).tdids → rs.foldlM (State.importRecord c p pl) (u, [], 0) = .ok (v, made, i) →
    exec (.partImport h wrap addr place (some b) (some pl)) s = .next (s.thenReap (
      if made.isEmpty then v.answer c 0
      else
        let w := v.hold { c with names := objKey 4 n :: made }
        State.settle ((made.filter (fun k => (w.region (k % 2 ^ 20)).dead)).foldl (fun t k => t.importStep (k % 2 ^ 20) true) w)))) ∧
  (∀ (h : Hdr) (region stream fence value : Word32) (dest : BitVec 64) (s t : State) (c : Cmd) (r f e fe : Nat),
    s.arrival h 0x34 ([region, stream] ++ addrWords dest ++ [fence, value]) = some (t, c) → dest.toNat < 2 ^ 48 → dest.toNat % 4096 = 0 →
    t.namedRegion c region = .ok r → t.namedStream c stream = .ok (f, e) → t.namedFence c fence = .ok fe →
    t.gate (t.actsFor c (objKey 3 r)) 0x34 = true → (t.region r).cls ≠ 2 → ((t.region r).cls = 0 → (t.region r).tdid ≠ 0) →
    (t.region r).phase = .live → (t.entry f e).recv = false → (t.entry f e).state = 1 → (t.entry f e).tdid.toNat = (t.region r).tdid →
    (∀ n, (t.region r).slot = some n → (t.slot n).state = 1) →
    exec (.migrateSend h region stream dest fence value) s = .next (s.thenReap (State.settle (t.acceptA
      { c with what := streamKey f e, fence := some (fe, value.toNat), names := [objKey 3 r, objKey 5 (streamKey f e), objKey 6 fe] } []))))

/-- O42 (tier 1, derived; R634, R635, R636, R637, R638). A field test starts, takes its beats and ends with its RESULT as R634 to R638 say -/
def Obligations.FieldTestCommandsComplete : Prop :=
  (∀ (v : Word32) (header : Buf) (s u : State) (kind island unit : Nat), s.regUp 45 = true → v.getLsbD 31 = true → u = s.regPut 45 0x5000 v →
    kind = fld v 1 0 → island = fld v 7 2 → unit = fld v 15 8 →
    (∀ r, u.testRefused kind island unit (v.getLsbD 29) header = some r →
      exec (.fieldTestStart v header) s = .next { u with ftu := { u.ftu with result := 7, reason := BitVec.ofNat 8 r } }) ∧
    (u.testRefused kind island unit (v.getLsbD 29) header = none → ∀ w, w = u.powerOn 45 →
      exec (.fieldTestStart v header) s = .next (State.testTake
      { w with
        obs := { w.obs with trace := .lent, records := [], postLeft := 0, droppedCount := 0, releaseWait := false }
        ftu := { w.ftu with
          result := (if w.spr.gov.stages.getLsbD 1 then 2 else 1), reason := 0, beatsDone := 0, firstFail := 0xFFFFFFFF, failCount := 0
          target := some (if kind = 1 then (kind, island, (u.socket island unit).lane.toNat) else (kind, island, unit))
          wasFaulted := decide (kind = 1 ∧ (u.socket island unit).role = 2), header := header.getD [], beats := [] } } kind island unit))) ∧
  (∀ (beat response : Bytes) (s : State), s.testReady = true → s.spr.gov.stages.getLsbD 1 = false → s.present 45 = true →
    beat.length = Bytes.le s.ftu.header 8 4 → s.ftu.beatsDone.toNat < Bytes.le s.ftu.header 12 4 →
    exec (.fieldTestBeat beat response) s = .next (State.countT { s with ftu := { s.ftu with
      beats := s.ftu.beats ++ beat, beatsDone := s.ftu.beatsDone + 1
      failCount := (if beatMatches beat response then s.ftu.failCount else satInc s.ftu.failCount)
      firstFail := (if !beatMatches beat response ∧ s.ftu.failCount = 0 then s.ftu.beatsDone else s.ftu.firstFail) } } 45 0x70 128)) ∧
  (∀ (s : State) (go : BitVec 4 → State), s.ftu.target.isSome = true →
    (∀ r, go r = let v := s.testReturn (r == 4)
      { v with obs := { v.obs with trace := .recording, records := [], postLeft := 0, droppedCount := 0, releaseWait := false }
               ftu := { v.ftu with result := r, reason := 0, target := none, wasFaulted := false, header := [], beats := [] } }) →
    exec (.fieldTestEnd false) s = .next (go 5) ∧ (s.regUp 45 = true → exec .fieldTestAbort s = .next (go 5)) ∧
    (s.ftu.beatsDone.toNat = Bytes.le s.ftu.header 12 4 → exec (.fieldTestEnd true) s = .next (go (
      if Bytes.slice s.ftu.header 64 48 ≠ Sha.sha384 s.ftu.beats then 6 else if s.ftu.failCount = 0 then 3 else 4))))

/-- O43 (tier 1, derived; R426, R427, R428, R429, R430, R431). A governor tick accounts the estimate, throttles in order at the limit and releases in the reverse order, as R426 to R431 say -/
def Obligations.GovernorThrottlesAndReleases : Prop :=
  (∀ act : Activity, estimate act = Config.govStatic + Config.govCoeff 0 * act.memBytes + Config.govCoeff 1 * act.linkBytes +
    Config.govCoeff 2 * act.newtBytes + Config.govCoeff 3 * act.belfryLines + Config.govCoeff 4 * act.testBeats) ∧
  (∀ (dt : Nat) (act : Activity) (s u v : State) (t : GovSettings) (p a full credit : Nat), u = (s.advance dt).atStep stepGovern →
    u.live 2 = true → t = u.govSettings → p = estimate act → a = 1000000 * t.allocation → full = 1000000000 * t.creditUj →
    credit = (if a < p then u.spr.gov.creditFj - (p - a) else min full (u.spr.gov.creditFj + (a - p))) →
    v = (let w := u.onGov (fun g => { g with
          creditFj := credit, peakUs := (if full ≤ credit then 0 else if a < p then g.peakUs + 1 else g.peakUs)
          above := decide (a < p), power := BitVec.ofNat 32 ((p + 500000) / 1000000) })
         if a < p then w.countFixed 2 13 else w) →
    ((v.spr.gov.creditFj = 0 ∨ t.peakLimit ≤ v.spr.gov.peakUs) → a < p →
      ∀ l q, stagesAdded act v.spr.gov.stages a [0, 1, 2] p = (l, q) → exec (.governorTick dt act) s =
        .next ((v.throttle l).insufficient ((v.throttle l).spr.gov.stages == 7 && decide (a < q)))) ∧
    (¬ ((v.spr.gov.creditFj = 0 ∨ t.peakLimit ≤ v.spr.gov.peakUs) ∧ a < p) →
      ∀ w, w = v.insufficient (v.spr.gov.insufficient && v.spr.gov.above) →
        exec (.governorTick dt act) s = .next (
          if w.spr.gov.stages ≠ 0 ∧ w.spr.gov.releasing = false ∧ w.spr.gov.above = false ∧
            (t.creditUj = 0 ∨ 1000000000 * t.releaseUj ≤ w.spr.gov.creditFj) then
            (if w.govSettings.timer = 0xFF then w.releaseOne.releaseOne.releaseOne else w.releaseOne.releaseNext) else w))) ∧
  (∀ (dt : Nat) (s u : State) (n : Nat), u = (s.advance dt).atStep stepCompare → n = u.govSettings.timer → u.live 2 = true →
    u.spr.gov.releasing = true → n < 32 → (u.spr.timers.get n).running = true → (u.spr.timers.get n).due ≤ u.now →
    exec (.releaseTimerExpiry dt) s = .next (State.releaseNext (State.releaseOne
      ((u.onTimer n (fun x => { x with running := false })).raiseEvent (0x40 + n) 0 2 (u.spr.timers.get n).serial)))) ∧
  (∀ s : State, s.spr.gov.stages = 0 → s.releaseNext = s.onGov (fun g => { g with releasing := false })) ∧
  (∀ s : State, s.spr.gov.stages ≠ 0 → s.releaseNext = (s.onGov (fun g => { g with releasing := true })).onTimer s.govSettings.timer (fun x =>
    { running := true, due := s.now + 1000 * s.govSettings.stepUs, machine := 64, serial := x.serial + 1 }))

/-- O44 (tier 1, derived; R641, R643, R647, R648, R649, R651, R653, R655, R656, R686, R710, R711). Accumulators reach the banks, freezes and snapshots run and end, pads pulse as R640 to R657, R686, R710 and R711 say -/
def Obligations.CountersFreezesAndSnapshots : Prop :=
  (∀ (i : Fin 46) (s : State), s.live 44 = true → exec (.counterFlush i) s = .next (
    let acc := (s.isl.get i.val).acc
    let live := acc.foldl (bumpEvent (s.selections i.val) i.val) (s.obs.live, s.obs.liveHist)
    let froz := if s.obs.markers.contains i.val then acc.foldl (bumpEvent (s.selections i.val) i.val) (s.obs.froz, s.obs.frozHist)
                else (s.obs.froz, s.obs.frozHist)
    { s with isl := s.isl.modify i.val (fun r => { r with acc := [] })
             obs := { s.obs with live := live.1, liveHist := live.2, froz := froz.1, frozHist := froz.2 } })) ∧
  (∀ (s u v : State) (k : Nat), s.live 44 = true → u = (State.countFixed { s with obs := { s.obs with
      froz := s.obs.live, frozHist := s.obs.liveHist
      markers := (List.range 46).filter (fun i => i != 0 && s.live i && s.powered i), source := BitVec.ofNat 3 k
      time := s.spr.time.counter, timeLocked := s.spr.time.locked, generation := (s.isl.get 44).generation } } 44 0) →
    v = (if bit u.traceSetup.mask 0 then u.traceFire 1 else u) →
    (s.obs.frozen = false → s.obs.markers = [] →
      (k = 2 → s.regUp 44 = true → exec .freezeTrigger s = .next v) ∧
      (∀ r : State, s = r.atStep stepArrive → k = 1 → s.owner 44 1 0 0 = 1 → exec .trigIoEdge r = .next v)) ∧
    ((s.obs.frozen = true ∨ s.obs.markers ≠ []) → (s.regUp 44 = true → exec .freezeTrigger s = .next (s.countFixed 44 1)) ∧
      (∀ r : State, s = r.atStep stepArrive → s.owner 44 1 0 0 = 1 → exec .trigIoEdge r = .next (s.countFixed 44 1)))) ∧
  (∀ s u : State, u = s.atStep stepArrive → u.owner 44 1 0 0 ≠ 1 → u.live 2 = true → u.owner 2 1 0 0 = 3 →
    exec .trigIoEdge s = .next (u.raiseEvent 0x6B 0 2)) ∧
  (∀ (dt : Nat) (s u v : State) (p : Nat), u = s.advance dt → u.live 44 = true → p = fld u.obs.snapCtrl 19 0 * 1000000 → p ≠ 0 →
    u.spr.time.locked = true → u.obs.lastPeriod / p < u.spr.time.counter.toNat / p →
    v = { u with obs := { u.obs with lastPeriod := u.spr.time.counter.toNat } } →
    exec (.periodicFreeze dt) s = .next (if u.obs.frozen ∨ !u.obs.markers.isEmpty then v.countFixed 44 3 else v.freeze 4)) ∧
  (∀ (i : Fin 46) (s u : State), s.obs.markers.contains i.val = true → u = (s.flush i.val).onObs (fun o => { o with markers := o.markers.erase i.val }) →
    exec (.freezeComplete i) s = .next (if u.obs.markers.isEmpty then (u.onObs (fun o => { o with frozen := true })).snapshotStart else u)) ∧
  (∀ s : State, s.regUp 44 = true → s.obs.frozen = true → exec .thaw s = .next { s with obs :=
    if s.obs.snapBusy then { s.obs with thawWait := true } else { s.obs with frozen := false, thawWait := false } }) ∧
  (∀ (ok : Bool) (s u : State), s.obs.snapBusy = true →
    u = (let v := { s with obs := { s.obs with snapBusy := false, seq := (if ok then s.obs.seq + 1 else s.obs.seq) } }
         if ok then v.countFixed 44 2 else State.countFixed (v.countFixed 44 3) 44 11) →
    exec (.snapshotDone ok) s = .next (if s.obs.snapCtrl.getLsbD 30 = true ∨ s.obs.thawWait = true then
      u.onObs (fun o => { o with frozen := false, thawWait := false }) else u)) ∧
  (∀ s : State, s.pads.trigOut = true → exec .trigIoPulseEnd s = .next (let t := s.emit (.pad "TRIG_IO" false)
    { t with pads := { t.pads with trigOut := false } })) ∧
  (∀ s : State, s.pads.wake = true → exec .wakePulseEnd s = .next (let t := s.emit (.wake false)
    { t with pads := { t.pads with wake := false } }))

/-- O45 (tier 1, derived; R78, R655, R656, R658, R660, R661, R664, R665, R666, R667). Records reach the trace, triggers fire and captures are released and drained as R658 to R667 say -/
def Obligations.TraceCommandsComplete : Prop :=
  (∀ (i : Fin 46) (s u v : State) (b : BitVec 192) (rest : List (BitVec 192)), (s.isl.get i.val).trace = b :: rest → s.live 44 = true →
    (s.isl.get 44).swap ≠ .prepared → u = s.onIsl i.val (fun r => { r with trace := rest }) →
    v = (if u.traceSetup.takes b then u.traceArrive b else u) →
    exec (.traceRecord i) s = .next (match u.traceSetup.fires b with | src :: _ => v.traceFire src | [] => v)) ∧
  (∀ (s u : State) (b : BitVec 192), u = s.traceWrite b →
    (s.obs.trace = .recording → s.traceArrive b = if s.traceSetup.stop = true ∧ 32768 - s.traceSetup.post ≤ u.obs.records.length then
      { u with obs := { u.obs with trace := .stopped } } else u) ∧
    (s.obs.trace = .post → s.traceArrive b = { u with obs := { u.obs with
      postLeft := u.obs.postLeft - 1, trace := if u.obs.postLeft ≤ 1 then .frozen else .post } }) ∧
    ((s.obs.trace = .stopped ∨ s.obs.trace = .frozen ∨ s.obs.trace = .lent) → s.traceArrive b =
      State.countFixed { s with obs := { s.obs with dropped := true, droppedCount := satInc s.obs.droppedCount } } 44 6)) ∧
  (∀ (s u v : State), s.regUp 44 = true → bit s.traceSetup.mask 3 = true → u = s.traceWrite (traceBody 44 0x0E none 0 4 0 0) →
    v = { u with obs := { u.obs with trace := .post, postLeft := u.traceSetup.post - 1, triggerTime := u.spr.time.counter } } →
    ((s.obs.trace = .recording ∨ s.obs.trace = .stopped) → exec .traceTrigger s = .next v.trigPulse) ∧
    (s.obs.trace ≠ .recording → s.obs.trace ≠ .stopped → exec .traceTrigger s = .next (s.countFixed 44 7))) ∧
  (∀ s : State, s.regUp 44 = true →
    ((s.obs.trace = .stopped ∨ s.obs.trace = .post ∨ s.obs.trace = .frozen ∧ s.obs.draining = false) → exec .traceRelease s = .next { s with obs :=
      { s.obs with trace := .recording, records := [], postLeft := 0, droppedCount := 0, releaseWait := false } }) ∧
    (s.obs.trace = .frozen → s.obs.draining = true → exec .traceRelease s = .next { s with obs := { s.obs with releaseWait := true } })) ∧
  (∀ s : State, s.regUp 44 = true → s.obs.trace = .frozen → s.obs.draining = false → exec .traceDrain s = .next (
    if (s.dmaChannel 4).isSome then
      let d := s.drainImage
      State.onObs (s.emit (.hubReq 44 .write true
        { tid := 0, addr := BitVec.ofNat 52 s.obs.traceBase.toNat, len := d.length, tdid := 0, data := d, be := List.replicate d.length true, link := 44 }))
        (fun o => { o with draining := true, traceNoChannel := false })
    else { s with obs := { s.obs with traceNoChannel := true } })) ∧
  (∀ (ok : Bool) (s u : State), s.obs.draining = true →
    u = (let v := { s with obs := { s.obs with draining := false, drained := s.obs.drained || ok } }
         if ok then v else v.countFixed 44 11) →
    exec (.traceDrainDone ok) s = .next (if s.obs.releaseWait = true then { u with obs :=
      { u.obs with trace := .recording, records := [], postLeft := 0, droppedCount := 0, releaseWait := false } } else u))

/-- O46 (tier 2, derived; R18, R20, R335, R684, R746, R747, R748, R749, R751, R753, R754, R755). A register read answers its value with its latches, and a write sets only writable fields, in range and unlocked, as R20, R684, R746 to R748, R751 to R755 say -/
def Obligations.RegistersReadAndTakeWrites : Prop :=
  (∀ (tower : Bool) (i : Fin 64) (off : BitVec 20) (s : State) (c : Instr) (k : Option Word32), off.toNat % 4 = 0 →
    (c = .loRegisterRead tower i off ∨ c = .entryLowWordRead tower i off) →
    k = (s.latches.find? (fun l => l.tower == tower && l.island == i.val && l.off == off.toNat)).map (·.value) →
    (s.regUp i.val = false → exec c s = .next (s.emit (.regRead (2 ^ 20 * i.val + off.toNat) 0))) ∧
    (∀ h, s.regUp i.val = true → hiOf i.val off.toNat = some h → exec c s = .next (State.emit { s with latches :=
        (s.latches.filter (fun x => !(x.tower == tower && x.island == i.val && x.off == h))) ++
          [{ tower := tower, island := i.val, off := h, value := s.regValue tower i.val h }] }
        (.regRead (2 ^ 20 * i.val + off.toNat) (s.regValue tower i.val off.toNat)))) ∧
    (s.regUp i.val = true → hiOf i.val off.toNat = none → 4 ≤ off.toNat → hiOf i.val (off.toNat - 4) = some off.toNat →
      exec c s = .next (s.emit (.regRead (2 ^ 20 * i.val + off.toNat) (k.getD 0)))) ∧
    (s.regUp i.val = true → hiOf i.val off.toNat = none → (off.toNat < 4 ∨ hiOf i.val (off.toNat - 4) ≠ some off.toNat) →
      (∀ n, entryOf i.val off.toNat = some (off.toNat, n) → exec c s = .next (State.emit { s with latches :=
        (s.latches.filter (fun x => !(x.tower == tower && (entryOf x.island x.off).isSome))) ++
          ((List.range (n - 1)).map (fun k => Latch.mk tower i.val (off.toNat + 4 * (k + 1)) (s.regValue tower i.val (off.toNat + 4 * (k + 1))))) }
        (.regRead (2 ^ 20 * i.val + off.toNat) (s.regValue tower i.val off.toNat)))) ∧
      (∀ b n, entryOf i.val off.toNat = some (b, n) → off.toNat ≠ b →
        exec c s = .next (s.emit (.regRead (2 ^ 20 * i.val + off.toNat) (k.getD (s.regValue tower i.val off.toNat))))) ∧
      (entryOf i.val off.toNat = none →
        exec c s = .next (s.emit (.regRead (2 ^ 20 * i.val + off.toNat) (s.regValue tower i.val off.toNat)))))) ∧
  (∀ (i : Fin 64) (s : State), 46 ≤ i.val → s.regUp i.val = false) ∧
  (∀ (tower : Bool) (i : Fin 64) (lo hi : BitVec 20) (s t : State), lo.toNat % 4 = 0 → s.regUp i.val = true → hi.toNat = lo.toNat + 4 →
    hiOf i.val lo.toNat = some hi.toNat → hiOf i.val hi.toNat = none → exec (.loRegisterRead tower i lo) s = .next t →
    ∀ u, u.latches = t.latches → u.regUp i.val = true →
      exec (.loRegisterRead tower i hi) u = .next (u.emit (.regRead (2 ^ 20 * i.val + hi.toNat) (s.regValue tower i.val hi.toNat)))) ∧
  (∀ (tower : Bool) (i : Fin 64) (off : BitVec 20) (v : Word32) (s : State), off.toNat % 4 ≠ 0 →
    ∀ t, t = (if tower then s else s.emit (.cpError (2 ^ 20 * i.val + off.toNat))) → exec (.loRegisterRead tower i off) s = .next t ∧
      exec (.entryLowWordRead tower i off) s = .next t ∧ exec (.registerWrite tower i off v) s = .next t) ∧
  (∀ (tower : Bool) (i : Fin 64) (off : BitVec 20) (v : Word32) (s : State), off.toNat % 4 = 0 →
    (s.regUp i.val = false → exec (.registerWrite tower i off v) s = .next s) ∧
    (tower = false → towerOnly i.val off.toNat = true → exec (.registerWrite tower i off v) s = .next s) ∧
    (s.regUp i.val = true → (towerOnly i.val off.toNat = true → tower = true) → ∀ fs,
      fs = (if (s.isl.get i.val).locked then [] else rwlFields i.val off.toNat) ++ rwFields i.val off.toNat →
      (fs = [] → exec (.registerWrite tower i off v) s = .next (if w1cMask i.val off.toNat = 0 then s else s.regClear i.val off.toNat v)) ∧
      (fs ≠ [] → (i.val = 0 → s.dom.tamperLock = false) → ∀ w, w = writeFields fs (s.regValue true i.val off.toNat) v →
        exec (.registerWrite tower i off v) s = .next (if comboOk i.val off.toNat w then s.regPut i.val off.toNat w else s)) ∧
      (fs ≠ [] → i.val = 0 → s.dom.tamperLock = true → exec (.registerWrite tower i off v) s = .next s)))

/-- O47 (tier 1, derived; R393, R420). A step takes the command at the front of the queue and runs it with the queue's rest; on an empty queue one Spire clock passes -/
def Obligations.StepRunsTheFrontCommand : Prop :=
  (∀ (c : Instr) (rest : List Instr) (s : State), step { s with pending := c :: rest } = exec c { s with pending := rest }) ∧
  (∀ s : State, s.pending = [] → ∃ t, step s = .next t ∧ t = s.advance 1 ∧ t.now = s.now + 1 ∧ t.pending = [] ∧ t.out = s.out ∧
    t.lc = s.lc ∧ t.ram = s.ram) ∧
  (∀ (c : Instr) (s : State), ∃ t, exec c s = .next t)

/-- O48 (tier 3, derived; R398, R578, R658). Every step keeps the firmware RAM canonical, Spire's event queue within its 256 events and the trace within its 32,768 records -/
def Obligations.EveryStepKeepsSafe : Prop :=
  ∀ s t : State, Safe s → step s = .next t → Safe t

/-- O49 (tier 1, derived; R398, R578, R658). The reset state is safe, with nothing waiting, nothing in the event queue, no record in the trace and the firmware RAM empty -/
def Obligations.ResetIsSafe : Prop :=
  Safe State.reset ∧ State.reset.pending = [] ∧ State.reset.spr.queue = [] ∧ State.reset.obs.records = [] ∧ State.reset.ram = []

/-- O50 (tier 3, derived; R477, R478, R479, R480, R420). Whatever a step does, no fuse is unblown, the decoded life cycle of the row never goes back, time does not, and no output is taken back -/
def Obligations.NoStepUnblowsAFuseOrTakesBackAnOutput : Prop :=
  ∀ s t : State, step s = .next t →
    FusesKept s t ∧ decodeState s.lc.otp ≤ decodeState t.lc.otp ∧ s.now ≤ t.now ∧ (∃ more, t.out = s.out ++ more) ∧
      t.pending = s.pending.tail

/-- O51 (tier 2, derived; R578, R582). A byte of the firmware RAM reads back what was last written to it, a write touches no other byte and keeps the canonical form -/
def Obligations.FirmwareRamReadsBackWhatWasWritten : Prop :=
  (∀ (m : List Host.Cell) (x : Nat) (v : Byte), Memory.wf m = true → Ram.read (Ram.write m x v) x = v) ∧
  (∀ (m : List Host.Cell) (x y : Nat) (v : Byte), y ≠ x → Ram.read (Ram.write m x v) y = Ram.read m y) ∧
  (∀ (m : List Host.Cell) (x : Nat) (l : Bytes), Memory.wf m = true → Memory.wf (Ram.writeBytes m x l) = true) ∧
  (∀ (m : List Host.Cell) (x i : Nat) (l : Bytes), Memory.wf m = true →
    Ram.read (Ram.writeBytes m x l) i = if x ≤ i ∧ i < x + l.length then l.getD (i - x) 0 else Ram.read m i) ∧
  (∀ m n : List Host.Cell, Memory.wf m = true → Memory.wf n = true → (∀ x, Ram.read m x = Ram.read n x) → m = n)

/-- O52 (tier 2, derived; R465, R466, R468, R469, R474). After an enabled tamper input Dome holds no secret and the rest of the block neither, while the monotonic counters and the tamper set-up stay -/
def Obligations.ZeroisationLeavesNoSecret : Prop :=
  ∀ (n : Fin 4) (s : State), s.dom.enable.getLsbD n.val = true → (s.lc.running = none ∨ s.lc.phase ≠ 1) →
    ∃ t, exec (.tamperInput n) s = .next t ∧
      (t.dom.shareA = [] ∧ t.dom.shareB = [] ∧ t.dom.check = [] ∧ t.dom.scramble = [] ∧ t.dom.hasRoot = false ∧ t.dom.queue = []) ∧
      (t.dom.rootState = (if s.lc.rootless then 0 else 3) ∧ t.dom.latched = true ∧ t.dom.cause = 1 ∧
        t.dom.inputs = BitVec.ofNat 4 (2 ^ n.val) ∧ t.dom.zeroCount = satInc s.dom.zeroCount) ∧
      (t.dom.bootCount = s.dom.bootCount ∧ t.dom.rootGen = s.dom.rootGen ∧ t.dom.keyGen = s.dom.keyGen ∧
        t.dom.streamFloor = s.dom.streamFloor ∧ t.dom.enable = s.dom.enable ∧ t.dom.polarity = s.dom.polarity ∧
        t.dom.tamperLock = s.dom.tamperLock ∧ t.lc.otp = s.lc.otp ∧ t.lc.digest = s.lc.digest ∧ t.lc.digestInv = s.lc.digestInv) ∧
      (s.dom.railPresent = true → t.slots = {} ∧ t.sets = {} ∧ t.att.sess = {} ∧ ∀ k, (t.clusters.get k).sched = [])

/-- O53 (tier 2, derived; R125, R126, R127, R128, R131, R216). A class R line and a GCM message come back under the key, counter or IV and tag they were protected with -/
def Obligations.LinesAndPacketsComeBackUnderTheirKey : Prop :=
  (∀ (key line : Bytes) (major minor tdid la : Nat), line.length = 64 →
    ctrDecrypt key major minor tdid la (ctrEncrypt key major minor tdid la line).2 (ctrEncrypt key major minor tdid la line).1 =
      (line, true)) ∧
  (∀ key iv aad pt : Bytes, gcmDecrypt key iv aad (gcmEncrypt key iv aad pt).1 (gcmEncrypt key iv aad pt).2 = some pt ∧
    gcmDecrypt key iv aad (gcmEncrypt key iv aad pt).1 ((gcmEncrypt key iv aad pt).2.take 12) = some pt)

/-- O54 (tier 3, derived; R102, R103, R117, R119, R122, R123, R187). The inverse cipher undoes AES-256, so a class C line comes back under its key, epoch and tag word, its elided sectors as zeros -/
def Obligations.ClassCLinesComeBackUnderTheirKey : Prop :=
  (∀ (key : Bytes) (b : Block), b.length = 16 → Aes.dec key (Aes.enc key b) = b) ∧
  (∀ (key line : Bytes) (epoch tdid la map : Nat), line.length = 64 → map < 16 →
    (∀ j, j < 4 → bit map j = true → sector line j = zeros 16) →
    xtsDecrypt key epoch tdid la (xtsEncrypt key epoch tdid la map line).2 (xtsEncrypt key epoch tdid la map line).1 = (line, true)) ∧
  (∀ line : Bytes, line.length = 64 → zeroMap line < 16 ∧ ∀ j, j < 4 → bit (zeroMap line) j = true → sector line j = zeros 16)

/-- O55 (tier 1, stated; R478). A group of four fuses reads as blown when at least one of its fuses reads blown -/
def Obligations.FuseGroupsReadBlown : Prop :=
  ∀ (otp : Word32) (g : Nat), g < 8 → (groupBlown otp g = true ↔ ∃ i, i < 4 ∧ otp.getLsbD (4 * g + i) = true)

/-- O56 (tier 1, stated; R398). The event queue holds 256 events; an event at a full queue is dropped, sets LOST and counts, and leaves escalation alone -/
def Obligations.FullEventQueueDropsTheEvent : Prop :=
  ∀ (s : State) (code arg island serial : Nat),
    (s.spr.queue.length < 256 → s.raiseEvent code arg island serial = { s with spr := { s.spr with queue := s.spr.queue ++
      [{ code := BitVec.ofNat 8 code, arg := BitVec.ofNat 16 arg, island := asIsland island, serial := serial }] } }) ∧
    (256 ≤ s.spr.queue.length → s.raiseEvent code arg island serial =
      { s with isl := s.isl.modify 2 (fun r => { r with acc := r.acc ++ [{ code := 256 + 10 }] })
               spr := { s.spr with lost := true, dropped := satInc s.spr.dropped } })
end

