-- ==== Sys2Proof/Laws/Aes.lean ====
section
/-!
SUPPORT. Lengths of the block cipher and exclusive or of equally long strings.
-/

namespace Sys2Proof.Laws

open Sys2Proof.Machine

theorem xorB_length (a b : Bytes) : (xorB a b).length = min a.length b.length := List.length_zipWith

/-- The same mask twice gives the string back. -/
theorem xorB_cancel : ∀ (a b : Bytes), a.length ≤ b.length → xorB (xorB a b) b = a
  | [], _, _ => rfl
  | x :: a, [], h => by simp at h
  | x :: a, y :: b, h => by
    have ih := xorB_cancel a b (by simpa using h)
    unfold xorB at ih ⊢
    simp only [List.zipWith_cons_cons, ih, BitVec.xor_assoc, BitVec.xor_self, BitVec.xor_zero]

theorem fit_of_length {b : Bytes} {n : Nat} (h : b.length = n) : Bytes.fit b n = b := by
  unfold Bytes.fit
  rw [List.take_append_of_le_length (by omega), List.take_of_length_le (by omega)]

theorem fit_length (b : Bytes) (n : Nat) : (Bytes.fit b n).length = n := by
  unfold Bytes.fit zeros
  rw [List.length_take, List.length_append, List.length_replicate]
  omega

theorem toLe_length : ∀ (n v : Nat), (toLe n v).length = n
  | 0, _ => rfl
  | n + 1, v => by simp [toLe, toLe_length n]

theorem toBe_length (n v : Nat) : (toBe n v).length = n := by unfold toBe; rw [List.length_reverse, toLe_length]

/-- The pieces of a string whose length is a multiple. -/
theorem chunksOf_lengths (n : Nat) (hn : 0 < n) : ∀ (k f : Nat) (b : Bytes), k < f → b.length = k * n →
    (chunksOf f n b).length = k ∧ ∀ c ∈ chunksOf f n b, c.length = n := by
  intro k
  induction k with
  | zero =>
    intro f b hf hb
    have hb : b = [] := List.eq_nil_of_length_eq_zero (by simpa using hb)
    subst hb
    cases f <;> simp [chunksOf]
  | succ k ih =>
    intro f b hf hb
    cases f with
    | zero => omega
    | succ f =>
      have h0 : b ≠ [] := by
        intro e
        have := Nat.mul_pos (Nat.succ_pos k) hn
        rw [e, List.length_nil] at hb
        exact absurd hb (Nat.ne_of_lt this)
      have hlen : n ≤ b.length := by rw [hb]; exact Nat.le_mul_of_pos_left n (Nat.succ_pos k)
      have hdrop : (b.drop n).length = k * n := by
        rw [List.length_drop, hb, Nat.succ_mul]; omega
      obtain ⟨h1, h2⟩ := ih f (b.drop n) (by omega) hdrop
      have h0' : b.isEmpty = false := by simpa using h0
      simp only [chunksOf, h0', Bool.false_eq_true, if_false, List.length_cons, h1, List.mem_cons, forall_eq_or_imp,
        true_and]
      exact ⟨by rw [List.length_take]; omega, h2⟩

theorem chunks_lengths {n k : Nat} (hn : 0 < n) {b : Bytes} (hb : b.length = k * n) :
    (Bytes.chunks b n).length = k ∧ ∀ c ∈ Bytes.chunks b n, c.length = n :=
  chunksOf_lengths n hn k _ b (by rw [hb]; exact Nat.lt_succ_of_le (Nat.le_mul_of_pos_right k hn)) hb

/-- Key expansion makes words of four bytes. -/
theorem expandFrom_lengths : ∀ (n i : Nat) (r : Byte) (ws : List Bytes), 8 ≤ ws.length → (∀ w ∈ ws, w.length = 4) →
    (Aes.expandFrom n i r ws).length = n + ws.length ∧ ∀ w ∈ Aes.expandFrom n i r ws, w.length = 4 := by
  intro n
  induction n with
  | zero => intro i r ws _ h; exact ⟨by simp [Aes.expandFrom], h⟩
  | succ n ih =>
    intro i r ws hl h
    have g : ∀ j, j < 8 → ((ws[j]?).getD []).length = 4 := by
      intro j hj
      rw [List.getElem?_eq_getElem (by omega), Option.getD_some]
      exact h _ (List.getElem_mem _)
    have h0 := g 0 (by omega)
    have h7 := g 7 (by omega)
    simp only [Aes.expandFrom]
    generalize (ws[0]?).getD [] = prev at h0
    match prev, h0 with
    | [a, b, c, d], _ =>
      have key : ∀ t : Bytes, t.length = 4 → ∀ r, (Aes.expandFrom n (i + 1) r (xorB ((ws[7]?).getD []) t :: ws)).length = n + 1 + ws.length ∧
          ∀ w ∈ Aes.expandFrom n (i + 1) r (xorB ((ws[7]?).getD []) t :: ws), w.length = 4 := by
        intro t ht r
        obtain ⟨e1, e2⟩ := ih (i + 1) r (xorB ((ws[7]?).getD []) t :: ws) (by simp; omega) (by
          intro w hw
          rcases List.mem_cons.mp hw with hw | hw
          · rw [hw, xorB_length, h7, ht]; rfl
          · exact h w hw)
        exact ⟨by rw [e1, List.length_cons]; omega, e2⟩
      apply key
      split
      · rfl
      · split <;> simp

/-- Fifteen round keys of sixteen bytes. -/
theorem schedule_lengths (key : Bytes) : (Aes.schedule key).length = 15 ∧ ∀ k ∈ Aes.schedule key, k.length = 16 := by
  unfold Aes.schedule
  obtain ⟨c1, c2⟩ := chunks_lengths (n := 4) (k := 8) (by omega) (fit_length key 32)
  obtain ⟨e1, e2⟩ := expandFrom_lengths 52 8 1 (Bytes.chunks (Bytes.fit key 32) 4).reverse (Nat.le_of_eq (by rw [List.length_reverse, c1]))
    (fun w hw => c2 w (List.mem_reverse.mp hw))
  rw [List.length_reverse, c1] at e1
  have hl : ∀ l : List Bytes, (∀ w ∈ l, w.length = 4) → l.flatten.length = 4 * l.length := by
    intro l
    induction l with
    | nil => intro _; rfl
    | cons x l ih =>
      intro h
      rw [List.flatten_cons, List.length_append, h x (by simp), ih (fun w hw => h w (by simp [hw])), List.length_cons]; omega
  exact chunks_lengths (n := 16) (k := 15) (by omega) (by
    rw [hl _ (fun w hw => e2 w (List.mem_reverse.mp hw)), List.length_reverse, e1])

theorem mixColumns_length {k0 k1 k2 k3 : Nat} {b : Bytes} (h : b.length = 16) : (Aes.mixColumns k0 k1 k2 k3 b).length = 16 := by
  match b, h with
  | [_, _, _, _, _, _, _, _, _, _, _, _, _, _, _, _], _ => rfl

theorem shiftRows_length (b : Bytes) : (Aes.shiftRows b).length = 16 := rfl

theorem encRounds_length : ∀ (ks : List Bytes) (b : Bytes), (∀ k ∈ ks, k.length = 16) → b.length = 16 → (Aes.encRounds ks b).length = 16
  | [], _, _, hb => hb
  | [k], b, hk, _ => by
    simp only [Aes.encRounds, xorB_length, shiftRows_length, hk k (by simp)]; rfl
  | k :: k' :: ks, b, hk, _ => by
    simp only [Aes.encRounds]
    exact encRounds_length (k' :: ks) _ (fun x hx => hk x (List.mem_cons_of_mem _ hx)) (by
      rw [xorB_length, mixColumns_length (shiftRows_length _), hk k (by simp)]; rfl)

/-- The block cipher gives sixteen bytes, whatever its key and input. -/
theorem enc_length (key b : Bytes) : (Aes.enc key b).length = 16 := by
  unfold Aes.enc
  obtain ⟨h1, h2⟩ := schedule_lengths key
  split
  · rename_i k0 ks e
    rw [e] at h2
    exact encRounds_length ks _ (fun k hk => h2 k (by simp [hk])) (by
      rw [xorB_length, fit_length, h2 k0 (by simp)]; rfl)
  · rename_i e
    rw [e] at h1; simp at h1

end Sys2Proof.Laws
end

