-- ==== Sys2Proof/Laws/Ops.lean ====
section
/-!
SUPPORT. What the shared operations of Machine/Ops.lean can do: each is an update of the fields named here and of nothing
else.
-/

namespace Sys2Proof.Laws

open Sys2Proof.Machine

/-- Counting an event changes the islands' records only (R642). -/
theorem count_eq (s : State) (i : Nat) (e : CountEv) : ∃ t, s.count i e = { s with isl := t } := by
  unfold State.count
  split
  · exact ⟨s.isl, rfl⟩
  · exact ⟨_, rfl⟩

/-- Making a trace record changes the islands' records only (R659, R660). -/
theorem note_eq (s : State) (i kind : Nat) (tdid : Option Nat) (unit a b c : Nat) :
    ∃ t, s.note i kind tdid unit a b c = { s with isl := t } := by
  unfold State.note
  simp only
  generalize (if (s.isl.get i).traceDropped = 0 then [] else
    [traceBody i 0x0F none 0 (s.isl.get i).traceDropped 0 0]) = drop
  split
  · exact ⟨_, rfl⟩
  · obtain ⟨t, h⟩ := count_eq (s.onIsl i (fun r => { r with traceDropped := r.traceDropped + 1 })) i { code := 256 + 6, n := 1 }
    exact ⟨t, h⟩

/-- Raising an event changes Spire and, when the queue is full, the counters (R397, R398). -/
theorem raiseEvent_eq (s : State) (code arg island serial : Nat) :
    ∃ p t, s.raiseEvent code arg island serial = { s with spr := p, isl := t } := by
  unfold State.raiseEvent
  split
  · obtain ⟨t, h⟩ := count_eq (s.onSpr (fun p => { p with lost := true, dropped := satInc p.dropped })) 2 { code := 256 + 10, n := 1 }
    exact ⟨_, t, h⟩
  · exact ⟨_, s.isl, rfl⟩

end Sys2Proof.Laws
end

