-- ==== Sys2Proof/Laws/Commands.lean ====
section
/-!
SUPPORT. What every mailbox command does around its operation.
-/

namespace Sys2Proof.Laws

open Sys2Proof.Machine

/-- A command whose message is accepted runs its operation in the state that `State.arrival` gives. -/
theorem command_arrival (s t : State) (h : Hdr) (code : Nat) (args : List Word32) (c : Cmd)
    (body : State → Cmd → State) (ha : s.arrival h code args = some (t, c)) :
    s.command h code args body = s.thenReap (body t c) := by
  have key : s.commandRaw h code args body = body t c := by
    unfold State.commandRaw
    unfold State.arrival at ha
    cases hf : s.fwUp with
    | false => simp [hf] at ha
    | true =>
      by_cases hw : (s.isl.get 1).swap = .run
      · simp only [hf, hw, Bool.not_true, Bool.false_eq_true, if_false, ne_eq, not_true_eq_false, or_self] at ha ⊢
        cases hx : s.cmds.find? (fun x =>
            !x.started && x.mbx == h.mbx.val && x.code.toNat == code && x.cmdId == h.cmdId && x.tag == h.tag) with
        | some x =>
          simp only [hx, Option.some.injEq, Prod.mk.injEq] at ha
          obtain ⟨rfl, rfl⟩ := ha
          rfl
        | none =>
          cases hr : s.refusal h.mbx.val code h.tag.toNat with
          | some st => simp [hx, hr] at ha
          | none =>
            simp only [hx, hr, Bool.false_eq_true, if_false, Option.isSome_none, Option.some.injEq, Prod.mk.injEq] at ha
            obtain ⟨rfl, rfl⟩ := ha
            have hr2 : State.refusal { s with fw := { s.fw with sleep := false } } h.mbx.val code h.tag.toNat = none := hr
            simp only [hr2]
            rfl
      · simp [hw] at ha
  simp only [State.command, State.thenReap, key]

/-- Answering a command writes its response and leaves a trace record, nothing else (R600, R659). -/
theorem answer_eq (s : State) (c : Cmd) (status : Nat) (words : List Word32) :
    ∃ m t, s.answer c status words = { s with mbx := m, isl := t } := by
  unfold State.answer State.noteCommand
  obtain ⟨t2, h2⟩ := note_eq (s.respond c.mbx status c.cmdId.toNat words) 1 9 none 0
    (256 * c.code.toNat + status) (2 ^ 16 * c.part + c.cmdId.toNat) c.tag.toNat
  rw [h2]
  exact ⟨_, _, rfl⟩

end Sys2Proof.Laws
end

