-- ==== Sys2Proof/Laws/Keeps.lean ====
section
/-!
SUPPORT. `Keeps s t`: what no operation of the machine undoes. The queue of commands stays, the clock does not go back, no
output is taken back, no fuse is unblown, and the firmware RAM's canonical form and the bounds of Spire's event queue and of
the trace hold on. The lemmas here build it over the shapes that operations have.
-/

namespace Sys2Proof.Laws

open Sys2Proof.Machine

/-- What no operation undoes. -/
structure Keeps (s t : State) : Prop where
  pending : t.pending = s.pending
  now : s.now ≤ t.now
  out : s.out <+: t.out
  row : s.lc.otp &&& t.lc.otp = s.lc.otp
  digest : s.lc.digest &&& t.lc.digest = s.lc.digest
  inverse : s.lc.digestInv &&& t.lc.digestInv = s.lc.digestInv
  ram : Memory.wf s.ram = true → Memory.wf t.ram = true
  events : s.spr.queue.length ≤ 256 → t.spr.queue.length ≤ 256
  trace : s.obs.records.length ≤ 32768 → t.obs.records.length ≤ 32768

/-- The fuses of a life cycle: the row and the two copies of the operator digest (R471, R472). -/
abbrev fuses (l : LifeCycle) : Word32 × BitVec 384 × BitVec 384 := (l.otp, l.digest, l.digestInv)

/-- The same of an answer that may be absent or an error. -/
def KeepsO (s : State) (x : Option State) : Prop := ∀ t, x = some t → Keeps s t
def KeepsE {ε : Type} (s : State) (x : Except ε State) : Prop := ∀ t, x = .ok t → Keeps s t
def KeepsN (s : State) (x : Host.Outcome State Fault Refusal) : Prop := ∀ t, x = .next t → Keeps s t

/-- The same of a state that comes with a result. -/
def KeepsP {α : Type} (s : State) (x : State × α) : Prop := Keeps s x.1

variable {s t u : State}

theorem keeps_refl : Keeps s s :=
  ⟨rfl, Nat.le_refl _, List.prefix_refl _, BitVec.and_self, BitVec.and_self, BitVec.and_self, id, id, id⟩

theorem and_trans {w : Nat} {a b c : BitVec w} (h : a &&& b = a) (k : b &&& c = b) : a &&& c = a := by
  rw [← h, BitVec.and_assoc, k]

theorem keeps_trans (h : Keeps s t) (k : Keeps t u) : Keeps s u :=
  ⟨k.1.trans h.1, Nat.le_trans h.2 k.2, h.3.trans k.3, and_trans h.4 k.4, and_trans h.5 k.5, and_trans h.6 k.6, fun x => k.7 (h.7 x),
    fun x => k.8 (h.8 x), fun x => k.9 (h.9 x)⟩

/-- A change to other fields. -/
theorem keeps_of (h : Keeps s t) (e1 : u.pending = t.pending) (e2 : u.now = t.now) (e3 : u.out = t.out) (e4 : fuses u.lc = fuses t.lc)
    (e5 : u.ram = t.ram) (e6 : u.spr.queue = t.spr.queue) (e7 : u.obs.records = t.obs.records) : Keeps s u := by
  simp only [Prod.mk.injEq] at e4
  exact ⟨e1 ▸ h.1, e2 ▸ h.2, e3 ▸ h.3, e4.1 ▸ h.4, e4.2.1 ▸ h.5, e4.2.2 ▸ h.6, fun x => e5 ▸ h.7 x, fun x => e6 ▸ h.8 x, fun x => e7 ▸ h.9 x⟩

/-- A state written out, which changes other fields than the kept ones of `t`. -/
theorem keeps_mk (h : Keeps s t) {a0 a1 a2 a3 a4 a5 a6 a7 a8 a9 a10 a11 a12 a13 a14 a15 a16 a17 a18 a19 a20 a21 a22 a23 a24 a25 a26 a27 a28
    a29 a30 a31 a32 a33 a34 a35 a36 a37 a38 a39 a40} (e1 : a40 = t.pending) (e2 : a0 = t.now) (e3 : a2 = t.out) (e4 : fuses a24 = fuses t.lc)
    (e5 : a11 = t.ram) (e6 : a7.queue = t.spr.queue) (e7 : a32.records = t.obs.records) : Keeps s (State.mk a0 a1 a2 a3 a4 a5 a6 a7 a8 a9
    a10 a11 a12 a13 a14 a15 a16 a17 a18 a19 a20 a21 a22 a23 a24 a25 a26 a27 a28 a29 a30 a31 a32 a33 a34 a35 a36 a37 a38 a39 a40) := keeps_of
    h e1 e2 e3 e4 e5 e6 e7

/-- Changes inside the parts that hold a kept field. -/
theorem keeps_onSpr (h : Keeps s t) (f : Spr → Spr) (hf : ∀ p, (f p).queue = p.queue) : Keeps s (t.onSpr f) :=
  keeps_of h rfl rfl rfl rfl rfl (hf _) rfl

theorem keeps_onObs (h : Keeps s t) (f : Obs → Obs) (hf : ∀ o, (f o).records = o.records) : Keeps s (t.onObs f) :=
  keeps_of h rfl rfl rfl rfl rfl rfl (hf _)

theorem keeps_onLc (h : Keeps s t) (f : LifeCycle → LifeCycle) (hf : ∀ l, fuses (f l) = fuses l) : Keeps s (t.onLc f) :=
  keeps_of h rfl rfl rfl (hf _) rfl rfl rfl

theorem keeps_emit (h : Keeps s t) (o : PortOut) : Keeps s (t.emit o) :=
  keeps_trans h ⟨rfl, Nat.le_refl _, List.prefix_append _ _, BitVec.and_self, BitVec.and_self, BitVec.and_self, id, id, id⟩

/-- A shorter or equally long event queue. -/
theorem keeps_events (h : Keeps s t) (f : Spr → Spr) (hf : t.spr.queue.length ≤ 256 → (f t.spr).queue.length ≤ 256) : Keeps s (t.onSpr f) :=
  keeps_trans h ⟨rfl, Nat.le_refl _, List.prefix_refl _, BitVec.and_self, BitVec.and_self, BitVec.and_self, id, hf, id⟩

/-- A trace that stays in its bound. -/
theorem keeps_trace (h : Keeps s t) (f : Obs → Obs) (hf : t.obs.records.length ≤ 32768 → (f t.obs).records.length ≤ 32768) :
    Keeps s (t.onObs f) :=
  keeps_trans h ⟨rfl, Nat.le_refl _, List.prefix_refl _, BitVec.and_self, BitVec.and_self, BitVec.and_self, id, id, hf⟩

/-- More fuses blown. -/
theorem keeps_fuses (h : Keeps s t) (f : LifeCycle → LifeCycle) (h1 : t.lc.otp &&& (f t.lc).otp = t.lc.otp)
    (h2 : t.lc.digest &&& (f t.lc).digest = t.lc.digest) (h3 : t.lc.digestInv &&& (f t.lc).digestInv = t.lc.digestInv) : Keeps s (t.onLc f) :=
  keeps_trans h ⟨rfl, Nat.le_refl _, List.prefix_refl _, h1, h2, h3, id, id, id⟩

theorem keeps_ite {c : Prop} {i : Decidable c} (h : Keeps s u) (k : Keeps s u → Keeps s t) : Keeps s (@ite State c i t u) := by
  split
  · exact k h
  · exact h

theorem keeps_foldl {α : Type} {f : State → α → State} (hf : ∀ t a, Keeps s t → Keeps s (f t a)) :
    ∀ (l : List α) {t : State}, Keeps s t → Keeps s (l.foldl f t)
  | [], _, h => h
  | a :: l, _, h => keeps_foldl hf l (hf _ a h)

theorem keepsN_next (h : Keeps s t) : KeepsN s (.next t) := by
  intro u e
  simp only [Host.Outcome.next.injEq] at e
  exact e ▸ h

theorem keepsO_some (h : Keeps s t) : KeepsO s (some t) := by
  intro u e
  simp only [Option.some.injEq] at e
  exact e ▸ h

theorem keepsP_mk {α : Type} {a : α} (h : Keeps s t) : KeepsP s (t, a) := h

theorem keepsP_ite {α : Type} {c : Prop} {i : Decidable c} {x y : State × α} (h : KeepsP s x) (k : KeepsP s y) :
    KeepsP s (@ite _ c i x y) := by
  split
  · exact h
  · exact k

theorem keepsP_fst {α : Type} {x : State × α} (h : KeepsP s x) : Keeps s x.1 := h

theorem keepsP_eq {α : Type} {x : State × α} (h : KeepsP s x) {a : α} (e : x = (t, a)) : Keeps s t := by
  rw [e] at h
  exact h

theorem keepsO_none : KeepsO s none := fun _ e => by simp at e

theorem keepsE_ok {ε : Type} (h : Keeps s t) : KeepsE s (.ok t : Except ε State) := by
  intro u e
  simp only [Except.ok.injEq] at e
  exact e ▸ h

theorem keepsE_pure {ε : Type} (h : Keeps s t) : KeepsE s (pure t : Except ε State) := keepsE_ok h

theorem keepsE_error {ε : Type} {e : ε} : KeepsE s (.error e) := fun _ h => by simp at h

theorem keepsE_bind {ε α : Type} {x : Except ε α} {f : α → Except ε State} (h : ∀ a, KeepsE s (f a)) : KeepsE s (x >>= f) := by
  cases x with
  | error e => exact keepsE_error
  | ok a => exact h a

theorem keepsE_ite {ε : Type} {c : Prop} {i : Decidable c} {x y : Except ε State} (h : KeepsE s x) (k : KeepsE s y) :
    KeepsE s (@ite _ c i x y) := by
  split
  · exact h
  · exact k

end Sys2Proof.Laws
end

