-- ==== Sys2Proof/Laws/Ram.lean ====
section
/-!
SUPPORT. Tower's firmware RAM: reading after writing, and the canonical form, which every operation keeps.
-/

namespace Sys2Proof.Laws

open Sys2Proof.Machine

/-- A write leaves every other address alone. -/
theorem ram_read_write_other (m : List Host.Cell) (x y : Nat) (v : Byte) (h : y ≠ x) : Ram.read (Ram.write m x v) y = Ram.read m y := by
  unfold Ram.write
  split
  · induction m with
    | nil => rfl
    | cons c rest ih =>
      obtain ⟨a, w⟩ := c
      simp only [Ram.erase]
      split
      · rename_i e
        subst e
        simp [Ram.read, Ne.symm h]
      · simp only [Ram.read, ih]
  · induction m with
    | nil => simp [Ram.insert, Ram.read, Ne.symm h]
    | cons c rest ih =>
      obtain ⟨a, w⟩ := c
      simp only [Ram.insert]
      split
      · simp [Ram.read, Ne.symm h]
      · split
        · rename_i e
          subst e
          simp [Ram.read, Ne.symm h]
        · simp only [Ram.read, ih]

theorem ram_read_of_wfFrom : ∀ (m : List Host.Cell) (b : Nat), Ram.wfFrom (some b) m = true → ∀ x, x ≤ b → Ram.read m x = 0
  | [], _, _, _, _ => rfl
  | (a, v) :: rest, b, h, x, hx => by
    simp only [Ram.wfFrom, Bool.and_eq_true, decide_eq_true_eq] at h
    have e : a ≠ x := by omega
    simp only [Ram.read, e, if_false]
    exact ram_read_of_wfFrom rest a h.2 x (by omega)

theorem ram_wfFrom_weaken {m : List Host.Cell} {a b : Nat} (h : Ram.wfFrom (some a) m = true) (k : b ≤ a) : Ram.wfFrom (some b) m = true := by
  cases m with
  | nil => rfl
  | cons c rest =>
    obtain ⟨x, v⟩ := c
    simp only [Ram.wfFrom, Bool.and_eq_true, decide_eq_true_eq] at h ⊢
    exact ⟨⟨by omega, h.1.2⟩, h.2⟩

theorem ram_wfFrom_none {m : List Host.Cell} {a : Nat} (h : Ram.wfFrom (some a) m = true) : Ram.wfFrom none m = true := by
  cases m with
  | nil => rfl
  | cons c rest =>
    obtain ⟨x, v⟩ := c
    simp only [Ram.wfFrom, Bool.and_eq_true, decide_eq_true_eq] at h ⊢
    exact ⟨⟨trivial, h.1.2⟩, h.2⟩

/-- A byte just written reads back, in a memory in canonical form. -/
theorem ram_read_write_same (m : List Host.Cell) (x : Nat) (v : Byte) (h : Memory.wf m = true) : Ram.read (Ram.write m x v) x = v := by
  unfold Memory.wf at h
  unfold Ram.write
  split
  · rename_i hv
    subst hv
    induction m with
    | nil => rfl
    | cons c rest ih =>
      obtain ⟨a, w⟩ := c
      simp only [Ram.wfFrom, Bool.and_eq_true] at h
      simp only [Ram.erase]
      split
      · rename_i e
        subst e
        exact ram_read_of_wfFrom rest a h.2 a (Nat.le_refl _)
      · rename_i e
        simp only [Ram.read, e, if_false]
        exact ih (ram_wfFrom_none h.2)
  · clear h
    induction m with
    | nil => simp [Ram.insert, Ram.read]
    | cons c rest ih =>
      obtain ⟨a, w⟩ := c
      simp only [Ram.insert]
      split
      · simp [Ram.read]
      · split
        · simp [Ram.read]
        · rename_i e
          simp only [Ram.read, e, if_false, ih]

theorem ram_wfFrom_erase : ∀ (m : List Host.Cell) (b : Option Nat) (x : Nat), Ram.wfFrom b m = true → Ram.wfFrom b (Ram.erase m x) = true
  | [], _, _, _ => rfl
  | (a, v) :: rest, b, x, h => by
    simp only [Ram.wfFrom, Bool.and_eq_true] at h
    simp only [Ram.erase]
    split
    · cases b with
      | none => exact ram_wfFrom_none h.2
      | some j =>
        have hj := h.1.1
        simp only [decide_eq_true_eq] at hj
        exact ram_wfFrom_weaken h.2 (by omega)
    · simp only [Ram.wfFrom, Bool.and_eq_true]
      exact ⟨h.1, ram_wfFrom_erase rest (some a) x h.2⟩

theorem ram_wfFrom_insert : ∀ (m : List Host.Cell) (b : Option Nat) (x : Nat) (v : Byte), v ≠ 0 → (∀ j, b = some j → j < x) →
    Ram.wfFrom b m = true → Ram.wfFrom b (Ram.insert m x v) = true
  | [], b, x, v, hv, hb, _ => by
    simp only [Ram.insert, Ram.wfFrom, Bool.and_eq_true, hv, decide_false, Bool.not_false, and_true]
    cases b with
    | none => rfl
    | some j => exact decide_eq_true (hb j rfl)
  | (a, w) :: rest, b, x, v, hv, hb, h => by
    have h' := h
    simp only [Ram.wfFrom, Bool.and_eq_true] at h
    simp only [Ram.insert]
    split
    · rename_i hlt
      simp only [Ram.wfFrom, Bool.and_eq_true, hv, decide_false, Bool.not_false, and_true]
      exact ⟨by cases b with | none => rfl | some j => exact decide_eq_true (hb j rfl),
        ⟨decide_eq_true hlt, h.1.2⟩, h.2⟩
    · split
      · rename_i e
        subst e
        simp only [Ram.wfFrom, Bool.and_eq_true, hv, decide_false, Bool.not_false, and_true]
        exact ⟨by cases b with | none => rfl | some j => exact decide_eq_true (hb j rfl), h.2⟩
      · simp only [Ram.wfFrom, Bool.and_eq_true]
        refine ⟨h.1, ram_wfFrom_insert rest (some a) x v hv ?_ h.2⟩
        intro j hj
        simp only [Option.some.injEq] at hj
        omega

/-- A write keeps the canonical form. -/
theorem ram_wf_write (m : List Host.Cell) (x : Nat) (v : Byte) (h : Memory.wf m = true) : Memory.wf (Ram.write m x v) = true := by
  unfold Ram.write
  split
  · exact ram_wfFrom_erase m none x h
  · rename_i hv
    exact ram_wfFrom_insert m none x v hv (fun _ e => by simp at e) h

/-- A write of several bytes keeps the canonical form. -/
theorem ram_wf_writeBytes : ∀ (l : Bytes) (m : List Host.Cell) (x : Nat), Memory.wf m = true → Memory.wf (Ram.writeBytes m x l) = true
  | [], _, _, h => h
  | v :: l, m, x, h => ram_wf_writeBytes l _ (x + 1) (ram_wf_write m x v h)

theorem ram_wfFrom_ofBytes : ∀ (l : Bytes) (x : Nat) (b : Option Nat), (∀ j, b = some j → j < x) → Ram.wfFrom b (Ram.ofBytes x l) = true
  | [], _, _, _ => rfl
  | v :: l, x, b, hb => by
    simp only [Ram.ofBytes]
    split
    · exact ram_wfFrom_ofBytes l (x + 1) b (fun j hj => Nat.lt_succ_of_lt (hb j hj))
    · rename_i hv
      simp only [Ram.wfFrom, Bool.and_eq_true, hv, decide_false, Bool.not_false, and_true]
      refine ⟨?_, ram_wfFrom_ofBytes l (x + 1) (some x) (fun j hj => ?_)⟩
      · cases b with
        | none => rfl
        | some j => exact decide_eq_true (hb j rfl)
      · simp only [Option.some.injEq] at hj
        omega

/-- The cells of a string are in canonical form. -/
theorem ram_wf_ofBytes (l : Bytes) (x : Nat) : Memory.wf (Ram.ofBytes x l) = true :=
  ram_wfFrom_ofBytes l x none (fun _ e => by simp at e)

end Sys2Proof.Laws
end

