-- ==== Sys2Proof/Laws/KeepsA.lean ====
section
/-!
SUPPORT. One lemma for each operation of the machine: what it keeps (Laws/Keeps.lean). Part A of four, in the order in which
the operations use one another.
-/

set_option maxRecDepth 4000
set_option linter.unusedTactic false
set_option linter.unreachableTactic false

namespace Sys2Proof.Laws

open Sys2Proof.Machine

theorem keeps_advance {s t : State} (h : Keeps s t) : ∀ n, Keeps s (t.advance n) := by
  intro n
  have k : ∀ u : State, u.pending = t.pending → u.now = t.now + n → u.out = t.out → u.lc = t.lc → u.ram = t.ram → u.spr.queue = t.spr.queue →
      u.obs = t.obs → Keeps s u := by
    intro u e1 e2 e3 e4 e5 e6 e7
    exact keeps_trans h ⟨e1, by omega, e3 ▸ List.prefix_refl _, by rw [e4, BitVec.and_self], by rw [e4, BitVec.and_self],
      by rw [e4, BitVec.and_self], fun x => e5 ▸ x, fun x => e6 ▸ x, fun x => e7 ▸ x⟩
  unfold State.advance
  split
  · exact k _ rfl rfl rfl rfl rfl rfl rfl
  · exact k _ rfl rfl rfl rfl rfl rfl rfl

theorem keeps_onIsl {s t : State} (h : Keeps s t) : ∀ a1 a2, Keeps s (@State.onIsl t a1 a2) := by
  intro a1 a2
  unfold State.onIsl
  repeat' first
    | with_reducible assumption | fail_if_no_progress (with_reducible refine keeps_mk ?_ rfl rfl rfl rfl rfl rfl rfl) | dsimp only

theorem keeps_atIngress {s t : State} (h : Keeps s t) (i : Nat) (c : Instr) (go : State → State) (hg : ∀ u, Keeps s u → Keeps s (go u)) :
    Keeps s (t.atIngress i c go) := by
  unfold State.atIngress
  split
  · exact hg _ h
  · exact keeps_onIsl h _ _

theorem keeps_atStep {s t : State} (h : Keeps s t) : ∀ a1, Keeps s (@State.atStep t a1) := by
  intro a1
  unfold State.atStep
  repeat' first
    | with_reducible assumption | with_reducible refine keeps_ite ?_ (fun _ => ?_) | with_reducible refine keeps_advance ?_ _
    | fail_if_no_progress (with_reducible refine keeps_mk ?_ rfl rfl rfl rfl rfl rfl rfl) | split | dsimp only

theorem keeps_count {s t : State} (h : Keeps s t) : ∀ a1 a2, Keeps s (@State.count t a1 a2) := by
  intro a1 a2
  unfold State.count
  repeat' first
    | with_reducible assumption | with_reducible refine keeps_ite ?_ (fun _ => ?_) | with_reducible refine keeps_onIsl ?_ _ _ | split | dsimp only

theorem keeps_countFixed {s t : State} (h : Keeps s t) : ∀ a1 a2 a3, Keeps s (@State.countFixed t a1 a2 a3) := by
  intro a1 a2 a3
  unfold State.countFixed
  repeat' first
    | with_reducible assumption | with_reducible refine keeps_count ?_ _ _

theorem keeps_countS {s t : State} (h : Keeps s t) : ∀ a1 a2 a3 a4, Keeps s (@State.countS t a1 a2 a3 a4) := by
  intro a1 a2 a3 a4
  unfold State.countS
  repeat' first
    | with_reducible assumption | with_reducible refine keeps_count ?_ _ _

theorem keeps_countT {s t : State} (h : Keeps s t) : ∀ a1 a2 a3 a4, Keeps s (@State.countT t a1 a2 a3 a4) := by
  intro a1 a2 a3 a4
  unfold State.countT
  repeat' first
    | with_reducible assumption | with_reducible refine keeps_count ?_ _ _

theorem keeps_onEsc {s t : State} (h : Keeps s t) : ∀ a1, Keeps s (@State.onEsc t a1) := by
  intro a1
  unfold State.onEsc
  repeat' first
    | with_reducible assumption | fail_if_no_progress (with_reducible refine keeps_mk ?_ rfl rfl rfl rfl rfl rfl rfl) | dsimp only

theorem keeps_crossed {s t : State} (h : Keeps s t) : ∀ a1 a2, Keeps s (@State.crossed t a1 a2) := by
  intro a1 a2
  unfold State.crossed
  repeat' first
    | with_reducible assumption | with_reducible refine keeps_ite ?_ (fun _ => ?_) | with_reducible refine keeps_onEsc ?_ _ | split | dsimp only

theorem keeps_draw {s t : State} (h : Keeps s t) : ∀ n, Keeps s (State.draw t n).2 := by
  intro n
  unfold State.draw
  exact keeps_of h rfl rfl rfl rfl rfl rfl rfl

theorem keeps_draw_eq {s t : State} (h : Keeps s t) : ∀ n x y, State.draw t n = (x, y) → Keeps s y := by
  intro n x y e
  have k := keeps_draw h n
  rw [e] at k
  exact k

theorem keeps_irq {s t : State} (h : Keeps s t) : ∀ a1, Keeps s (@State.irq t a1) := by
  intro a1
  unfold State.irq
  repeat' first
    | with_reducible assumption | with_reducible refine keeps_emit ?_ _

theorem keeps_note {s t : State} (h : Keeps s t) : ∀ a1 a2 a3 a4 a5 a6 a7, Keeps s (@State.note t a1 a2 a3 a4 a5 a6 a7) := by
  intro a1 a2 a3 a4 a5 a6 a7
  unfold State.note
  repeat' first
    | with_reducible assumption | with_reducible refine keeps_ite ?_ (fun _ => ?_) | with_reducible refine keeps_countFixed ?_ _ _ _
    | with_reducible refine keeps_onIsl ?_ _ _ | split | dsimp only

theorem keeps_onCluster {s t : State} (h : Keeps s t) : ∀ a1 a2, Keeps s (@State.onCluster t a1 a2) := by
  intro a1 a2
  unfold State.onCluster
  repeat' first
    | with_reducible assumption | fail_if_no_progress (with_reducible refine keeps_mk ?_ rfl rfl rfl rfl rfl rfl rfl) | dsimp only

theorem keeps_onDom {s t : State} (h : Keeps s t) : ∀ a1, Keeps s (@State.onDom t a1) := by
  intro a1
  unfold State.onDom
  repeat' first
    | with_reducible assumption | fail_if_no_progress (with_reducible refine keeps_mk ?_ rfl rfl rfl rfl rfl rfl rfl) | dsimp only

theorem keeps_onMcc {s t : State} (h : Keeps s t) : ∀ a1 a2, Keeps s (@State.onMcc t a1 a2) := by
  intro a1 a2
  unfold State.onMcc
  repeat' first
    | with_reducible assumption | fail_if_no_progress (with_reducible refine keeps_mk ?_ rfl rfl rfl rfl rfl rfl rfl) | dsimp only

theorem keeps_onMem {s t : State} (h : Keeps s t) : ∀ a1 a2, Keeps s (@State.onMem t a1 a2) := by
  intro a1 a2
  unfold State.onMem
  repeat' first
    | with_reducible assumption | fail_if_no_progress (with_reducible refine keeps_mk ?_ rfl rfl rfl rfl rfl rfl rfl) | dsimp only

theorem keeps_onPcc {s t : State} (h : Keeps s t) : ∀ a1 a2, Keeps s (@State.onPcc t a1 a2) := by
  intro a1 a2
  unfold State.onPcc
  repeat' first
    | with_reducible assumption | fail_if_no_progress (with_reducible refine keeps_mk ?_ rfl rfl rfl rfl rfl rfl rfl) | dsimp only

theorem keeps_onSocket {s t : State} (h : Keeps s t) : ∀ a1 a2 a3, Keeps s (@State.onSocket t a1 a2 a3) := by
  intro a1 a2 a3
  unfold State.onSocket
  repeat' first
    | with_reducible assumption | fail_if_no_progress (with_reducible refine keeps_mk ?_ rfl rfl rfl rfl rfl rfl rfl) | dsimp only

theorem keeps_onTime {s t : State} (h : Keeps s t) : ∀ a1, Keeps s (@State.onTime t a1) := by
  intro a1
  unfold State.onTime
  repeat' first
    | with_reducible assumption | fail_if_no_progress (with_reducible refine keeps_mk ?_ rfl rfl rfl rfl rfl rfl rfl) | dsimp only

theorem keeps_powerOn {s t : State} (h : Keeps s t) : ∀ a1, Keeps s (@State.powerOn t a1) := by
  intro a1
  unfold State.powerOn
  repeat' first
    | with_reducible assumption | with_reducible refine keeps_ite ?_ (fun _ => ?_) | with_reducible refine keeps_onIsl ?_ _ _
    | fail_if_no_progress (with_reducible refine keeps_mk ?_ rfl rfl rfl rfl rfl rfl rfl) | split | dsimp only

theorem keeps_raiseEvent {s t : State} (h : Keeps s t) : ∀ a b c d, Keeps s (t.raiseEvent a b c d) := by
  intro a b c d
  unfold State.raiseEvent
  split
  · refine keeps_countFixed ?_ _ _ _
    exact keeps_onSpr h _ (fun _ => rfl)
  · rename_i n
    exact keeps_events h _ (fun _ => by simp only [List.length_append, List.length_cons, List.length_nil]; omega)

theorem keeps_toSpire {s t : State} (h : Keeps s t) : ∀ a1 a2, Keeps s (@State.toSpire t a1 a2) := by
  intro a1 a2
  unfold State.toSpire
  repeat' first
    | with_reducible assumption | with_reducible refine keeps_onEsc ?_ _

theorem keeps_report {s t : State} (h : Keeps s t) : ∀ a1 a2 a3 a4, Keeps s (@State.report t a1 a2 a3 a4) := by
  intro a1 a2 a3 a4
  unfold State.report
  repeat' first
    | with_reducible assumption | with_reducible refine keeps_toSpire ?_ _ _

theorem keeps_reportOwn {s t : State} (h : Keeps s t) : ∀ a1, Keeps s (@State.reportOwn t a1) := by
  intro a1
  unfold State.reportOwn
  repeat' first
    | with_reducible assumption | with_reducible refine keeps_toSpire ?_ _ _

theorem keeps_trigDrive {s t : State} (h : Keeps s t) : ∀ a1, Keeps s (@State.trigDrive t a1) := by
  intro a1
  unfold State.trigDrive
  repeat' first
    | with_reducible assumption | with_reducible refine keeps_ite ?_ (fun _ => ?_) | with_reducible refine keeps_emit ?_ _
    | fail_if_no_progress (with_reducible refine keeps_mk ?_ rfl rfl rfl rfl rfl rfl rfl) | split | dsimp only

theorem keeps_unclamp {s t : State} (h : Keeps s t) : ∀ a1, Keeps s (@State.unclamp t a1) := by
  intro a1
  unfold State.unclamp
  repeat' first
    | with_reducible assumption | with_reducible refine keeps_ite ?_ (fun _ => ?_) | with_reducible refine keeps_onIsl ?_ _ _ | split | dsimp only

theorem keeps_updateFaultN {s t : State} (h : Keeps s t) : Keeps s (@State.updateFaultN t) := by
  unfold State.updateFaultN
  repeat' first
    | with_reducible assumption | with_reducible refine keeps_ite ?_ (fun _ => ?_) | with_reducible refine keeps_emit ?_ _
    | fail_if_no_progress (with_reducible refine keeps_mk ?_ rfl rfl rfl rfl rfl rfl rfl) | split | dsimp only

theorem keeps_curveSample {s t : State} (h : Keeps s t) : ∀ a1, Keeps s (@State.curveSample t a1) := by
  intro a1
  unfold State.curveSample
  repeat' first
    | with_reducible assumption | with_reducible refine keeps_ite ?_ (fun _ => ?_)
    | (with_reducible refine keeps_onSpr ?_ _ ?_) <;> [skip; exact fun _ => rfl] | with_reducible refine keeps_raiseEvent ?_ _ _ _ _ | split
    | dsimp only

theorem keeps_onTimer {s t : State} (h : Keeps s t) : ∀ a1 a2, Keeps s (@State.onTimer t a1 a2) := by
  intro a1 a2
  unfold State.onTimer
  repeat' first
    | with_reducible assumption | (with_reducible refine keeps_onSpr ?_ _ ?_) <;> [skip; exact fun _ => rfl]

theorem keeps_timerMeets {s t : State} (h : Keeps s t) : ∀ a1, Keeps s (@State.timerMeets t a1) := by
  intro a1
  unfold State.timerMeets
  repeat' first
    | with_reducible assumption | with_reducible refine keeps_ite ?_ (fun _ => ?_) | with_reducible refine keeps_raiseEvent ?_ _ _ _ _ | split
    | dsimp only

theorem keeps_timerStart {s t : State} (h : Keeps s t) : ∀ a1 a2 a3, Keeps s (@State.timerStart t a1 a2 a3) := by
  intro a1 a2 a3
  unfold State.timerStart
  repeat' first
    | with_reducible assumption | with_reducible refine keeps_ite ?_ (fun _ => ?_) | with_reducible refine keeps_timerMeets ?_ _
    | with_reducible refine keeps_onTimer ?_ _ _ | split | dsimp only

theorem keeps_timerStop {s t : State} (h : Keeps s t) : ∀ a1, Keeps s (@State.timerStop t a1) := by
  intro a1
  unfold State.timerStop
  repeat' first
    | with_reducible assumption | with_reducible refine keeps_ite ?_ (fun _ => ?_) | with_reducible refine keeps_timerMeets ?_ _
    | with_reducible refine keeps_onTimer ?_ _ _ | split | dsimp only

theorem keeps_onFsm {s t : State} (h : Keeps s t) : ∀ a1 a2, Keeps s (@State.onFsm t a1 a2) := by
  intro a1 a2
  unfold State.onFsm
  repeat' first
    | with_reducible assumption | (with_reducible refine keeps_onSpr ?_ _ ?_) <;> [skip; exact fun _ => rfl]

theorem keeps_orderSwap {s t : State} (h : Keeps s t) : ∀ a1 a2, Keeps s (@State.orderSwap t a1 a2) := by
  intro a1 a2
  unfold State.orderSwap
  repeat' first
    | with_reducible assumption | (with_reducible refine keeps_onSpr ?_ _ ?_) <;> [skip; exact fun _ => rfl]

theorem keeps_wearSwap {s t : State} (h : Keeps s t) : ∀ a1 a2 a3, Keeps s (@State.wearSwap t a1 a2 a3) := by
  intro a1 a2 a3
  unfold State.wearSwap
  repeat' first
    | with_reducible assumption | with_reducible refine keeps_ite ?_ (fun _ => ?_) | with_reducible refine keeps_orderSwap ?_ _ _ | split
    | dsimp only

theorem keeps_fsmAction {s t : State} (h : Keeps s t) : ∀ a1 a2 a3, Keeps s (@State.fsmAction t a1 a2 a3) := by
  intro a1 a2 a3
  unfold State.fsmAction
  repeat' first
    | with_reducible assumption | with_reducible refine keeps_ite ?_ (fun _ => ?_)
    | (with_reducible refine keeps_onSpr ?_ _ ?_) <;> [skip; exact fun _ => rfl] | with_reducible refine keeps_irq ?_ _
    | with_reducible refine keeps_wearSwap ?_ _ _ _ | with_reducible refine keeps_draw_eq ?_ _ _ _ (by assumption)
    | with_reducible refine keeps_draw ?_ _ | with_reducible refine keeps_onFsm ?_ _ _ | with_reducible refine keeps_raiseEvent ?_ _ _ _ _
    | with_reducible refine keeps_timerStop ?_ _ | with_reducible refine keeps_timerStart ?_ _ _ _
    | fail_if_no_progress (with_reducible refine keeps_mk ?_ rfl rfl rfl rfl rfl rfl rfl) | split | dsimp only

theorem keeps_fsmStep {s t : State} (h : Keeps s t) : ∀ a1 a2 a3, Keeps s (@State.fsmStep t a1 a2 a3) := by
  intro a1 a2 a3
  unfold State.fsmStep
  repeat' first
    | with_reducible assumption | with_reducible refine keeps_ite ?_ (fun _ => ?_) | with_reducible refine keeps_foldl (fun _ _ _ => ?_) _ ?_
    | with_reducible refine keeps_onFsm ?_ _ _ | with_reducible refine keeps_fsmAction ?_ _ _ _ | split | dsimp only

theorem keeps_dispatch {s t : State} (h : Keeps s t) : Keeps s t.dispatch := by
  unfold State.dispatch
  split
  · exact h
  · rename_i e rest hq
    have k : Keeps s (t.onSpr (fun p => { p with queue := rest })) :=
      keeps_events h _ (fun x => by rw [hq] at x; simp only [List.length_cons] at x; show rest.length ≤ 256; omega)
    revert k
    generalize t.onSpr (fun p => { p with queue := rest }) = u
    intro k
    with_reducible refine keeps_ite ?_ (fun _ => ?_)
    · exact keeps_foldl (fun _ _ k => keeps_fsmStep k _ _ _) _ k
    · exact k

theorem keeps_postEvent {s t : State} (h : Keeps s t) : ∀ a1 a2, Keeps s (@State.postEvent t a1 a2) := by
  intro a1 a2
  unfold State.postEvent
  repeat' first
    | with_reducible assumption | with_reducible refine keeps_ite ?_ (fun _ => ?_) | with_reducible refine keeps_raiseEvent ?_ _ _ _ _
    | with_reducible refine keeps_note ?_ _ _ _ _ _ _ _ | split | dsimp only

theorem keeps_ppsLocked {s t : State} (h : Keeps s t) : Keeps s (@State.ppsLocked t) := by
  unfold State.ppsLocked
  repeat' first
    | with_reducible assumption | with_reducible refine keeps_ite ?_ (fun _ => ?_) | with_reducible refine keeps_onTime ?_ _
    | with_reducible refine keeps_raiseEvent ?_ _ _ _ _ | split | dsimp only

theorem keeps_ppsEdge {s t : State} (h : Keeps s t) : Keeps s (@State.ppsEdge t) := by
  unfold State.ppsEdge
  repeat' first
    | with_reducible assumption | with_reducible refine keeps_ite ?_ (fun _ => ?_) | with_reducible refine keeps_ppsLocked ?_
    | with_reducible refine keeps_onTime ?_ _ | split | dsimp only

theorem keeps_ppsMissed {s t : State} (h : Keeps s t) : Keeps s (@State.ppsMissed t) := by
  unfold State.ppsMissed
  repeat' first
    | with_reducible assumption | with_reducible refine keeps_ite ?_ (fun _ => ?_) | with_reducible refine keeps_onTime ?_ _
    | with_reducible refine keeps_raiseEvent ?_ _ _ _ _ | split | dsimp only

theorem keeps_schedWriteHi {s t : State} (h : Keeps s t) : ∀ a1 a2, Keeps s (@State.schedWriteHi t a1 a2) := by
  intro a1 a2
  unfold State.schedWriteHi
  repeat' first
    | with_reducible assumption | with_reducible refine keeps_ite ?_ (fun _ => ?_) | with_reducible refine keeps_onTime ?_ _ | split | dsimp only

theorem keeps_schedWriteLo {s t : State} (h : Keeps s t) : ∀ a1 a2, Keeps s (@State.schedWriteLo t a1 a2) := by
  intro a1 a2
  unfold State.schedWriteLo
  repeat' first
    | with_reducible assumption | with_reducible refine keeps_ite ?_ (fun _ => ?_) | with_reducible refine keeps_onTime ?_ _ | split | dsimp only

theorem keeps_timerExpire {s t : State} (h : Keeps s t) : ∀ a1, Keeps s (@State.timerExpire t a1) := by
  intro a1
  unfold State.timerExpire
  repeat' first
    | with_reducible assumption | with_reducible refine keeps_ite ?_ (fun _ => ?_) | with_reducible refine keeps_onTimer ?_ _ _
    | with_reducible refine keeps_raiseEvent ?_ _ _ _ _ | split | dsimp only

theorem keeps_execCurveSample {s t : State} (h : Keeps s t) : ∀ a1 a2, KeepsN s (@execCurveSample a1 a2 t) := by
  intro a1 a2
  unfold execCurveSample
  repeat' first
    | with_reducible assumption | with_reducible refine keepsN_next ?_ | with_reducible refine keeps_advance ?_ _
    | with_reducible refine keeps_atStep ?_ _ | with_reducible refine keeps_curveSample ?_ _

theorem keeps_execEventDispatch {s t : State} (h : Keeps s t) : ∀ a1, KeepsN s (@execEventDispatch a1 t) := by
  intro a1
  unfold execEventDispatch
  repeat' first
    | with_reducible assumption | with_reducible refine keepsN_next ?_ | with_reducible refine keeps_advance ?_ _
    | with_reducible refine keeps_atStep ?_ _ | with_reducible refine keeps_dispatch ?_

theorem keeps_execEventPost {s t : State} (h : Keeps s t) : ∀ a1 a2, KeepsN s (@execEventPost a1 a2 t) := by
  intro a1 a2
  unfold execEventPost
  repeat' first
    | with_reducible assumption | with_reducible refine keepsN_next ?_ | with_reducible refine keeps_atStep ?_ _
    | with_reducible refine keeps_postEvent ?_ _ _

theorem keeps_execFsmTimerExpiry {s t : State} (h : Keeps s t) : ∀ a1 a2, KeepsN s (@execFsmTimerExpiry a1 a2 t) := by
  intro a1 a2
  unfold execFsmTimerExpiry
  repeat' first
    | with_reducible assumption | with_reducible refine keepsN_next ?_ | with_reducible refine keeps_advance ?_ _
    | with_reducible refine keeps_atStep ?_ _ | with_reducible refine keeps_timerExpire ?_ _

theorem keeps_execPpsEdge {s t : State} (h : Keeps s t) : ∀ a1, KeepsN s (@execPpsEdge a1 t) := by
  intro a1
  unfold execPpsEdge
  repeat' first
    | with_reducible assumption | with_reducible refine keepsN_next ?_ | with_reducible refine keeps_advance ?_ _
    | with_reducible refine keeps_atStep ?_ _ | with_reducible refine keeps_ppsEdge ?_

theorem keeps_execPpsMissed {s t : State} (h : Keeps s t) : ∀ a1, KeepsN s (@execPpsMissed a1 t) := by
  intro a1
  unfold execPpsMissed
  repeat' first
    | with_reducible assumption | with_reducible refine keepsN_next ?_ | with_reducible refine keeps_advance ?_ _
    | with_reducible refine keeps_atStep ?_ _ | with_reducible refine keeps_ppsMissed ?_

theorem keeps_execScheduleArm {s t : State} (h : Keeps s t) : ∀ a1 a2, KeepsN s (@execScheduleArm a1 a2 t) := by
  intro a1 a2
  unfold execScheduleArm
  repeat' first
    | with_reducible assumption | with_reducible refine keepsN_next ?_ | with_reducible refine keeps_atStep ?_ _
    | with_reducible refine keeps_schedWriteHi ?_ _ _

theorem keeps_execTimeSeed {s t : State} (h : Keeps s t) : ∀ a1, KeepsN s (@execTimeSeed a1 t) := by
  intro a1
  unfold execTimeSeed
  repeat' first
    | with_reducible assumption | with_reducible refine keepsN_next ?_ | with_reducible refine keeps_atStep ?_ _
    | with_reducible refine keeps_onTime ?_ _

theorem keeps_onSlot {s t : State} (h : Keeps s t) : ∀ a1 a2, Keeps s (@State.onSlot t a1 a2) := by
  intro a1 a2
  unfold State.onSlot
  repeat' first
    | with_reducible assumption | fail_if_no_progress (with_reducible refine keeps_mk ?_ rfl rfl rfl rfl rfl rfl rfl) | dsimp only

theorem keeps_invalidate {s t : State} (h : Keeps s t) : ∀ a1 a2, Keeps s (@State.invalidate t a1 a2) := by
  intro a1 a2
  unfold State.invalidate
  repeat' first
    | with_reducible assumption | fail_if_no_progress (with_reducible refine keeps_mk ?_ rfl rfl rfl rfl rfl rfl rfl) | dsimp only

theorem keeps_addWrites {s t : State} (h : Keeps s t) : ∀ a1 a2, Keeps s (@State.addWrites t a1 a2) := by
  intro a1 a2
  unfold State.addWrites
  repeat' first
    | with_reducible assumption | with_reducible refine keeps_ite ?_ (fun _ => ?_) | with_reducible refine keeps_invalidate ?_ _ _
    | with_reducible refine keeps_onSlot ?_ _ _ | fail_if_no_progress (with_reducible refine keeps_mk ?_ rfl rfl rfl rfl rfl rfl rfl) | split
    | dsimp only

theorem keeps_fillSlot {s t : State} (h : Keeps s t) : ∀ a1 a2 a3, Keeps s (@State.fillSlot t a1 a2 a3) := by
  intro a1 a2 a3
  unfold State.fillSlot
  repeat' first
    | with_reducible assumption | with_reducible refine keeps_countT ?_ _ _ _ _ | with_reducible refine keeps_note ?_ _ _ _ _ _ _ _
    | with_reducible refine keeps_onSlot ?_ _ _

theorem keeps_retireSlot {s t : State} (h : Keeps s t) : ∀ a1, Keeps s (@State.retireSlot t a1) := by
  intro a1
  unfold State.retireSlot
  repeat' first
    | with_reducible assumption | with_reducible refine keeps_ite ?_ (fun _ => ?_) | with_reducible refine keeps_note ?_ _ _ _ _ _ _ _
    | with_reducible refine keeps_onSlot ?_ _ _ | with_reducible refine keeps_invalidate ?_ _ _
    | fail_if_no_progress (with_reducible refine keeps_mk ?_ rfl rfl rfl rfl rfl rfl rfl) | split | dsimp only

theorem keeps_slotDead {s t : State} (h : Keeps s t) : ∀ a1, Keeps s (@State.slotDead t a1) := by
  intro a1
  unfold State.slotDead
  repeat' first
    | with_reducible assumption | with_reducible refine keeps_ite ?_ (fun _ => ?_) | with_reducible refine keeps_note ?_ _ _ _ _ _ _ _
    | with_reducible refine keeps_onSlot ?_ _ _ | fail_if_no_progress (with_reducible refine keeps_mk ?_ rfl rfl rfl rfl rfl rfl rfl) | split
    | dsimp only

theorem keeps_countCommand {s t : State} (h : Keeps s t) : ∀ a1, Keeps s (@State.countCommand t a1) := by
  intro a1
  unfold State.countCommand
  repeat' first
    | with_reducible assumption | with_reducible refine keeps_countS ?_ _ _ _ _

theorem keeps_acceptC {s t : State} (h : Keeps s t) : ∀ a1, Keeps s (@State.acceptC t a1) := by
  intro a1
  unfold State.acceptC
  repeat' first
    | with_reducible assumption | with_reducible refine keeps_ite ?_ (fun _ => ?_) | with_reducible refine keeps_countCommand ?_ _ | split
    | dsimp only

theorem keeps_noteCommand {s t : State} (h : Keeps s t) : ∀ a1 a2, Keeps s (@State.noteCommand t a1 a2) := by
  intro a1 a2
  unfold State.noteCommand
  repeat' first
    | with_reducible assumption | with_reducible refine keeps_note ?_ _ _ _ _ _ _ _

theorem keeps_onMbx {s t : State} (h : Keeps s t) : ∀ a1 a2, Keeps s (@State.onMbx t a1 a2) := by
  intro a1 a2
  unfold State.onMbx
  repeat' first
    | with_reducible assumption | fail_if_no_progress (with_reducible refine keeps_mk ?_ rfl rfl rfl rfl rfl rfl rfl) | dsimp only

theorem keeps_respond {s t : State} (h : Keeps s t) : ∀ a1 a2 a3 a4, Keeps s (@State.respond t a1 a2 a3 a4) := by
  intro a1 a2 a3 a4
  unfold State.respond
  repeat' first
    | with_reducible assumption | with_reducible refine keeps_onMbx ?_ _ _

theorem keeps_answer {s t : State} (h : Keeps s t) : ∀ a1 a2 a3, Keeps s (@State.answer t a1 a2 a3) := by
  intro a1 a2 a3
  unfold State.answer
  repeat' first
    | with_reducible assumption | with_reducible refine keeps_respond ?_ _ _ _ _ | with_reducible refine keeps_noteCommand ?_ _ _

theorem keeps_emptyIrq {s t : State} (h : Keeps s t) : ∀ a1, Keeps s (@State.emptyIrq t a1) := by
  intro a1
  unfold State.emptyIrq
  repeat' first
    | with_reducible assumption | with_reducible refine keeps_ite ?_ (fun _ => ?_) | with_reducible refine keeps_irq ?_ _ | split | dsimp only

theorem keeps_commandCollision {s t : State} (h : Keeps s t) : ∀ a1, Keeps s (@State.commandCollision t a1) := by
  intro a1
  unfold State.commandCollision
  repeat' first
    | with_reducible assumption | with_reducible refine keeps_ite ?_ (fun _ => ?_) | with_reducible refine keeps_onMbx ?_ _ _
    | with_reducible refine keeps_respond ?_ _ _ _ _ | with_reducible refine keeps_emptyIrq ?_ _ | split | dsimp only

theorem keeps_mbxTxWrite {s t : State} (h : Keeps s t) : ∀ a1 a2, Keeps s (@State.mbxTxWrite t a1 a2) := by
  intro a1 a2
  unfold State.mbxTxWrite
  repeat' first
    | with_reducible assumption | with_reducible refine keeps_ite ?_ (fun _ => ?_) | with_reducible refine keeps_onMbx ?_ _ _ | split | dsimp only

theorem keeps_commandRaw {s t : State} (h : Keeps s t) (m : Hdr) (code : Nat) (args : List Word32) (body : State → Cmd → State)
    (hb : ∀ u c, Keeps s u → Keeps s (body u c)) : Keeps s (t.commandRaw m code args body) := by
  unfold State.commandRaw
  have k : Keeps s { t with fw := { t.fw with sleep := false } } := keeps_of h rfl rfl rfl rfl rfl rfl rfl
  have kc : ∀ u : State, Keeps s u → Keeps s (u.acceptC code) := fun u h => by
    unfold State.acceptC State.countCommand
    split
    · exact h
    · exact keeps_countS h _ _ _ _
  split
  · exact h
  · revert k
    dsimp only
    intro k
    split
    · split
      · exact h
      · exact keeps_foldl (fun _ _ h => keeps_mbxTxWrite h _ _) _ h
    · split
      · exact hb _ _ (keeps_of k rfl rfl rfl rfl rfl rfl rfl)
      · split
        · exact keeps_respond k _ _ _ _
        · exact hb _ _ (kc _ k)

theorem keeps_hold {s t : State} (h : Keeps s t) : ∀ a1, Keeps s (@State.hold t a1) := by
  intro a1
  unfold State.hold
  repeat' first
    | with_reducible assumption | fail_if_no_progress (with_reducible refine keeps_mk ?_ rfl rfl rfl rfl rfl rfl rfl) | dsimp only

theorem keeps_hostWake {s t : State} (h : Keeps s t) : Keeps s (@State.hostWake t) := by
  unfold State.hostWake
  repeat' first
    | with_reducible assumption | with_reducible refine keeps_ite ?_ (fun _ => ?_) | with_reducible refine keeps_emit ?_ _
    | fail_if_no_progress (with_reducible refine keeps_mk ?_ rfl rfl rfl rfl rfl rfl rfl) | split | dsimp only

theorem keeps_lockstepMismatch {s t : State} (h : Keeps s t) : Keeps s (@State.lockstepMismatch t) := by
  unfold State.lockstepMismatch
  repeat' first
    | with_reducible assumption | with_reducible refine keeps_ite ?_ (fun _ => ?_) | with_reducible refine keeps_report ?_ _ _ _ _
    | fail_if_no_progress (with_reducible refine keeps_mk ?_ rfl rfl rfl rfl rfl rfl rfl) | split | dsimp only

theorem keeps_rxPush {s t : State} (h : Keeps s t) : ∀ a1 a2, Keeps s (@State.rxPush t a1 a2) := by
  intro a1 a2
  unfold State.rxPush
  repeat' first
    | with_reducible assumption | with_reducible refine keeps_ite ?_ (fun _ => ?_) | with_reducible refine keeps_irq ?_ _
    | with_reducible refine keeps_hostWake ?_ | with_reducible refine keeps_onMbx ?_ _ _ | split | dsimp only

theorem keeps_mbxRxWrite {s t : State} (h : Keeps s t) : ∀ a1, Keeps s (@State.mbxRxWrite t a1) := by
  intro a1
  unfold State.mbxRxWrite
  repeat' first
    | with_reducible assumption | with_reducible refine keeps_ite ?_ (fun _ => ?_) | with_reducible refine keeps_rxPush ?_ _ _
    | with_reducible refine keeps_onMbx ?_ _ _ | split | dsimp only

theorem keeps_mbxTake {s t : State} (h : Keeps s t) : ∀ a1 a2, Keeps s (@State.mbxTake t a1 a2) := by
  intro a1 a2
  unfold State.mbxTake
  repeat' first
    | with_reducible assumption | with_reducible refine keeps_ite ?_ (fun _ => ?_) | with_reducible refine keeps_onMbx ?_ _ _ | split | dsimp only

theorem keeps_txTake {s t : State} (h : Keeps s t) : ∀ a1 a2, Keeps s (@State.txTake t a1 a2) := by
  intro a1 a2
  unfold State.txTake
  repeat' first
    | with_reducible assumption | with_reducible refine keeps_ite ?_ (fun _ => ?_) | with_reducible refine keeps_onMbx ?_ _ _
    | with_reducible refine keeps_emptyIrq ?_ _ | split | dsimp only

theorem keeps_unknownCommand {s t : State} (h : Keeps s t) : ∀ a1, Keeps s (@State.unknownCommand t a1) := by
  intro a1
  unfold State.unknownCommand
  repeat' first
    | with_reducible assumption | with_reducible refine keeps_ite ?_ (fun _ => ?_) | with_reducible refine keeps_txTake ?_ _ _
    | with_reducible refine keeps_respond ?_ _ _ _ _ | split | dsimp only

theorem keeps_takeMessage {s t : State} (h : Keeps s t) : ∀ a1 a2, Keeps s (@State.takeMessage t a1 a2) := by
  intro a1 a2
  unfold State.takeMessage
  repeat' first
    | with_reducible assumption | with_reducible refine keeps_acceptC ?_ _ | with_reducible refine keeps_respond ?_ _ _ _ _
    | with_reducible refine keeps_txTake ?_ _ _ | fail_if_no_progress (with_reducible refine keeps_mk ?_ rfl rfl rfl rfl rfl rfl rfl) | split
    | dsimp only

theorem keeps_mbxTowerTake {s t : State} (h : Keeps s t) : ∀ a1, Keeps s (@State.mbxTowerTake t a1) := by
  intro a1
  unfold State.mbxTowerTake
  repeat' first
    | with_reducible assumption | with_reducible refine keeps_ite ?_ (fun _ => ?_) | with_reducible refine keeps_takeMessage ?_ _ _
    | with_reducible refine keeps_unknownCommand ?_ _ | with_reducible refine keeps_commandCollision ?_ _
    | with_reducible refine keeps_txTake ?_ _ _ | split | dsimp only

theorem keeps_notice {s t : State} (h : Keeps s t) : ∀ a1 a2 a3, Keeps s (@State.notice t a1 a2 a3) := by
  intro a1 a2 a3
  unfold State.notice
  repeat' first
    | with_reducible assumption | fail_if_no_progress (with_reducible refine keeps_mk ?_ rfl rfl rfl rfl rfl rfl rfl) | dsimp only

theorem keeps_noticeWords {s t : State} (h : Keeps s t) : ∀ a1 a2, Keeps s (@State.noticeWords t a1 a2) := by
  intro a1 a2
  unfold State.noticeWords
  repeat' first
    | with_reducible assumption | with_reducible refine keeps_rxPush ?_ _ _

theorem keeps_noticeWrite {s t : State} (h : Keeps s t) : Keeps s (@State.noticeWrite t) := by
  unfold State.noticeWrite
  repeat' first
    | with_reducible assumption | with_reducible refine keeps_ite ?_ (fun _ => ?_) | with_reducible refine keeps_noticeWords ?_ _ _
    | fail_if_no_progress (with_reducible refine keeps_mk ?_ rfl rfl rfl rfl rfl rfl rfl) | split | dsimp only

theorem keeps_towerSleep {s t : State} (h : Keeps s t) : Keeps s (@State.towerSleep t) := by
  unfold State.towerSleep
  repeat' first
    | with_reducible assumption | with_reducible refine keeps_ite ?_ (fun _ => ?_)
    | fail_if_no_progress (with_reducible refine keeps_mk ?_ rfl rfl rfl rfl rfl rfl rfl) | split | dsimp only

theorem keeps_towerWake {s t : State} (h : Keeps s t) : Keeps s (@State.towerWake t) := by
  unfold State.towerWake
  repeat' first
    | with_reducible assumption | with_reducible refine keeps_ite ?_ (fun _ => ?_)
    | fail_if_no_progress (with_reducible refine keeps_mk ?_ rfl rfl rfl rfl rfl rfl rfl) | split | dsimp only

theorem keeps_execCommandCollision {s t : State} (h : Keeps s t) : ∀ a1, KeepsN s (@execCommandCollision a1 t) := by
  intro a1
  unfold execCommandCollision
  repeat' first
    | with_reducible assumption | with_reducible refine keepsN_next ?_ | with_reducible refine keeps_commandCollision ?_ _

theorem keeps_execLockstepMismatch {s t : State} (h : Keeps s t) : KeepsN s (@execLockstepMismatch t) := by
  unfold execLockstepMismatch
  repeat' first
    | with_reducible assumption | with_reducible refine keepsN_next ?_ | with_reducible refine keeps_lockstepMismatch ?_

theorem keeps_execMbxRxWrite {s t : State} (h : Keeps s t) : ∀ a1, KeepsN s (@execMbxRxWrite a1 t) := by
  intro a1
  unfold execMbxRxWrite
  repeat' first
    | with_reducible assumption | with_reducible refine keepsN_next ?_ | with_reducible refine keeps_mbxRxWrite ?_ _

theorem keeps_execMbxTake {s t : State} (h : Keeps s t) : ∀ a1 a2, KeepsN s (@execMbxTake a1 a2 t) := by
  intro a1 a2
  unfold execMbxTake
  repeat' first
    | with_reducible assumption | with_reducible refine keepsN_next ?_ | with_reducible refine keeps_mbxTake ?_ _ _

theorem keeps_execMbxTowerTake {s t : State} (h : Keeps s t) : ∀ a1, KeepsN s (@execMbxTowerTake a1 t) := by
  intro a1
  unfold execMbxTowerTake
  repeat' first
    | with_reducible assumption | with_reducible refine keepsN_next ?_ | with_reducible refine keeps_mbxTowerTake ?_ _

theorem keeps_execMbxTxWrite {s t : State} (h : Keeps s t) : ∀ a1 a2, KeepsN s (@execMbxTxWrite a1 a2 t) := by
  intro a1 a2
  unfold execMbxTxWrite
  repeat' first
    | with_reducible assumption | with_reducible refine keepsN_next ?_ | with_reducible refine keeps_mbxTxWrite ?_ _ _

theorem keeps_execNoticeWrite {s t : State} (h : Keeps s t) : KeepsN s (@execNoticeWrite t) := by
  unfold execNoticeWrite
  repeat' first
    | with_reducible assumption | with_reducible refine keepsN_next ?_ | with_reducible refine keeps_noticeWrite ?_

theorem keeps_execTowerSleep {s t : State} (h : Keeps s t) : KeepsN s (@execTowerSleep t) := by
  unfold execTowerSleep
  repeat' first
    | with_reducible assumption | with_reducible refine keepsN_next ?_ | with_reducible refine keeps_towerSleep ?_

theorem keeps_execTowerWake {s t : State} (h : Keeps s t) : KeepsN s (@execTowerWake t) := by
  unfold execTowerWake
  repeat' first
    | with_reducible assumption | with_reducible refine keepsN_next ?_ | with_reducible refine keeps_towerWake ?_

theorem keeps_execUnknownCommand {s t : State} (h : Keeps s t) : ∀ a1, KeepsN s (@execUnknownCommand a1 t) := by
  intro a1
  unfold execUnknownCommand
  repeat' first
    | with_reducible assumption | with_reducible refine keepsN_next ?_ | with_reducible refine keeps_unknownCommand ?_ _

theorem keeps_checkFailed {s t : State} (h : Keeps s t) : ∀ a1 a2 a3 a4 a5, Keeps s (@State.checkFailed t a1 a2 a3 a4 a5) := by
  intro a1 a2 a3 a4 a5
  unfold State.checkFailed
  repeat' first
    | with_reducible assumption | with_reducible refine keeps_ite ?_ (fun _ => ?_) | with_reducible refine keeps_reportOwn ?_ _
    | with_reducible refine keeps_note ?_ _ _ _ _ _ _ _ | with_reducible refine keeps_countS ?_ _ _ _ _ | split | dsimp only

theorem keeps_drainIfIdle {s t : State} (h : Keeps s t) : ∀ a1 a2, Keeps s (@State.drainIfIdle t a1 a2) := by
  intro a1 a2
  unfold State.drainIfIdle
  repeat' first
    | with_reducible assumption | with_reducible refine keeps_ite ?_ (fun _ => ?_)
    | fail_if_no_progress (with_reducible refine keeps_mk ?_ rfl rfl rfl rfl rfl rfl rfl) | split | dsimp only

theorem keeps_setMaster {s t : State} (h : Keeps s t) : ∀ a1 a2, Keeps s (@State.setMaster t a1 a2) := by
  intro a1 a2
  unfold State.setMaster
  repeat' first
    | with_reducible assumption | fail_if_no_progress (with_reducible refine keeps_mk ?_ rfl rfl rfl rfl rfl rfl rfl) | dsimp only

theorem keeps_rotSend {s t : State} (h : Keeps s t) : ∀ a1 a2, Keeps s (@State.rotSend t a1 a2) := by
  intro a1 a2
  unfold State.rotSend
  repeat' first
    | with_reducible assumption | fail_if_no_progress (with_reducible refine keeps_mk ?_ rfl rfl rfl rfl rfl rfl rfl) | dsimp only

theorem keeps_drainStart {s t : State} (h : Keeps s t) : ∀ a1 a2, Keeps s (@State.drainStart t a1 a2) := by
  intro a1 a2
  unfold State.drainStart
  repeat' first
    | with_reducible assumption | with_reducible refine keeps_rotSend ?_ _ _ | with_reducible refine keeps_setMaster ?_ _ _
    | fail_if_no_progress (with_reducible refine keeps_mk ?_ rfl rfl rfl rfl rfl rfl rfl) | dsimp only

theorem keeps_setRep {s t : State} (h : Keeps s t) : ∀ a1 a2 a3, Keeps s (@State.setRep t a1 a2 a3) := by
  intro a1 a2 a3
  unfold State.setRep
  repeat' first
    | with_reducible assumption | fail_if_no_progress (with_reducible refine keeps_mk ?_ rfl rfl rfl rfl rfl rfl rfl) | dsimp only

theorem keeps_repApply {s t : State} (h : Keeps s t) : ∀ a1 a2 a3, Keeps s (@State.repApply t a1 a2 a3) := by
  intro a1 a2 a3
  unfold State.repApply
  repeat' first
    | with_reducible assumption | with_reducible refine keeps_ite ?_ (fun _ => ?_) | with_reducible refine keeps_drainIfIdle ?_ _ _
    | with_reducible refine keeps_setRep ?_ _ _ _ | fail_if_no_progress (with_reducible refine keeps_mk ?_ rfl rfl rfl rfl rfl rfl rfl) | split
    | dsimp only

theorem keeps_rotPublish {s t : State} (h : Keeps s t) : ∀ a1 a2 a3, Keeps s (@State.rotPublish t a1 a2 a3) := by
  intro a1 a2 a3
  unfold State.rotPublish
  repeat' first
    | with_reducible assumption | with_reducible refine keeps_setMaster ?_ _ _ | with_reducible refine keeps_rotSend ?_ _ _

theorem keeps_rotFields {s t : State} (h : Keeps s t) : ∀ a1 a2, Keeps s (@State.rotFields t a1 a2) := by
  intro a1 a2
  unfold State.rotFields
  repeat' first
    | with_reducible assumption | with_reducible refine keeps_rotPublish ?_ _ _ _

theorem keeps_sigCleared {s t : State} (h : Keeps s t) : ∀ a1, Keeps s (@State.sigCleared t a1) := by
  intro a1
  unfold State.sigCleared
  repeat' first
    | with_reducible assumption | with_reducible refine keeps_ite ?_ (fun _ => ?_)
    | fail_if_no_progress (with_reducible refine keeps_mk ?_ rfl rfl rfl rfl rfl rfl rfl) | split | dsimp only

theorem keeps_rotUpdate {s t : State} (h : Keeps s t) : ∀ a1, Keeps s (@State.rotUpdate t a1) := by
  intro a1
  unfold State.rotUpdate
  repeat' first
    | with_reducible assumption | with_reducible refine keeps_ite ?_ (fun _ => ?_) | with_reducible refine keeps_sigCleared ?_ _
    | with_reducible refine keeps_repApply ?_ _ _ _ | fail_if_no_progress (with_reducible refine keeps_mk ?_ rfl rfl rfl rfl rfl rfl rfl) | split
    | dsimp only

theorem keeps_execGeckoDecay {s t : State} (h : Keeps s t) : ∀ a1, KeepsN s (@execGeckoDecay a1 t) := by
  intro a1
  unfold execGeckoDecay
  repeat' first
    | with_reducible assumption | with_reducible refine keeps_ite ?_ (fun _ => ?_) | with_reducible refine keepsN_next ?_
    | with_reducible refine keeps_onMcc ?_ _ _ | split | dsimp only

theorem keeps_execGeckoWindowWrite {s t : State} (h : Keeps s t) : ∀ a1 a2 a3, KeepsN s (@execGeckoWindowWrite a1 a2 a3 t) := by
  intro a1 a2 a3
  unfold execGeckoWindowWrite
  repeat' first
    | with_reducible assumption | with_reducible refine keeps_ite ?_ (fun _ => ?_) | with_reducible refine keepsN_next ?_
    | with_reducible refine keeps_onMcc ?_ _ _ | split | dsimp only

theorem keeps_execInflightZero {s t : State} (h : Keeps s t) : ∀ a1 a2, KeepsN s (@execInflightZero a1 a2 t) := by
  intro a1 a2
  unfold execInflightZero
  repeat' first
    | with_reducible assumption | with_reducible refine keepsN_next ?_ | with_reducible refine keeps_drainIfIdle ?_ _ _

theorem keeps_acceptA {s t : State} (h : Keeps s t) : ∀ a1 a2, Keeps s (@State.acceptA t a1 a2) := by
  intro a1 a2
  unfold State.acceptA
  repeat' first
    | with_reducible assumption | with_reducible refine keeps_countCommand ?_ _ | with_reducible refine keeps_respond ?_ _ _ _ _
    | with_reducible refine keeps_noteCommand ?_ _ _ | with_reducible refine keeps_hold ?_ _

theorem keeps_onPrt {s t : State} (h : Keeps s t) : ∀ a1, Keeps s (@State.onPrt t a1) := by
  intro a1
  unfold State.onPrt
  repeat' first
    | with_reducible assumption | fail_if_no_progress (with_reducible refine keeps_mk ?_ rfl rfl rfl rfl rfl rfl rfl) | dsimp only

theorem keeps_addRef {s t : State} (h : Keeps s t) : ∀ a1 a2 a3, Keeps s (@State.addRef t a1 a2 a3) := by
  intro a1 a2 a3
  unfold State.addRef
  repeat' first
    | with_reducible assumption | with_reducible refine keeps_ite ?_ (fun _ => ?_) | with_reducible refine keeps_onPrt ?_ _ | split | dsimp only

theorem keeps_clearStarted {s t : State} (h : Keeps s t) : ∀ a1, Keeps s (@State.clearStarted t a1) := by
  intro a1
  unfold State.clearStarted
  repeat' first
    | with_reducible assumption | fail_if_no_progress (with_reducible refine keeps_mk ?_ rfl rfl rfl rfl rfl rfl rfl) | dsimp only

theorem keeps_signedDrain {s t : State} (h : Keeps s t) : ∀ a1, Keeps s (@State.signedDrain t a1) := by
  intro a1
  unfold State.signedDrain
  repeat' first
    | with_reducible assumption | with_reducible refine keeps_ite ?_ (fun _ => ?_)
    | fail_if_no_progress (with_reducible refine keeps_mk ?_ rfl rfl rfl rfl rfl rfl rfl) | split | dsimp only

theorem keeps_drain {s t : State} (h : Keeps s t) : ∀ a1 a2, Keeps s (@State.drain t a1 a2) := by
  intro a1 a2
  unfold State.drain
  repeat' first
    | with_reducible assumption | with_reducible refine keeps_ite ?_ (fun _ => ?_) | with_reducible refine keeps_drainStart ?_ _ _
    | with_reducible refine keeps_note ?_ _ _ _ _ _ _ _ | with_reducible refine keeps_signedDrain ?_ _
    | fail_if_no_progress (with_reducible refine keeps_mk ?_ rfl rfl rfl rfl rfl rfl rfl) | split | dsimp only

theorem keeps_destroyEntries {s t : State} (h : Keeps s t) : ∀ a1, Keeps s (@State.destroyEntries t a1) := by
  intro a1
  unfold State.destroyEntries
  repeat' first
    | with_reducible assumption | with_reducible refine keeps_ite ?_ (fun _ => ?_) | with_reducible refine keeps_foldl (fun _ _ _ => ?_) _ ?_
    | with_reducible refine keeps_drain ?_ _ _ | split | dsimp only

theorem keeps_endObj {s t : State} (h : Keeps s t) : ∀ a1, Keeps s (@State.endObj t a1) := by
  intro a1
  unfold State.endObj
  repeat' first
    | with_reducible assumption | with_reducible refine keeps_onPrt ?_ _

theorem keeps_slotEmpty {s t : State} (h : Keeps s t) : ∀ a1, Keeps s (@State.slotEmpty t a1) := by
  intro a1
  unfold State.slotEmpty
  repeat' first
    | with_reducible assumption | with_reducible refine keeps_ite ?_ (fun _ => ?_) | with_reducible refine keeps_onSlot ?_ _ _ | split | dsimp only

theorem keeps_freeObj {s t : State} (h : Keeps s t) : ∀ a1, Keeps s (@State.freeObj t a1) := by
  intro a1
  unfold State.freeObj
  repeat' first
    | with_reducible assumption | with_reducible refine keeps_ite ?_ (fun _ => ?_) | with_reducible refine keeps_retireSlot ?_ _
    | with_reducible refine keeps_slotEmpty ?_ _ | with_reducible refine keeps_endObj ?_ _ | with_reducible refine keeps_onPrt ?_ _
    | with_reducible refine keeps_destroyEntries ?_ _ | split | dsimp only

theorem keeps_reap {s t : State} (h : Keeps s t) : Keeps s (@State.reap t) := by
  unfold State.reap
  repeat' first
    | with_reducible assumption | with_reducible refine keeps_foldl (fun _ _ _ => ?_) _ ?_ | with_reducible refine keeps_freeObj ?_ _ | dsimp only

theorem keeps_command {s t : State} (h : Keeps s t) (m : Hdr) (code : Nat) (args : List Word32) (body : State → Cmd → State)
    (hb : ∀ u c, Keeps s u → Keeps s (body u c)) : Keeps s (t.command m code args body) := by
  unfold State.command
  have k := keeps_commandRaw h m code args body hb
  dsimp only
  split
  · exact keeps_reap k
  · exact k

theorem keeps_onFence {s t : State} (h : Keeps s t) : ∀ a1 a2, Keeps s (@State.onFence t a1 a2) := by
  intro a1 a2
  unfold State.onFence
  repeat' first
    | with_reducible assumption | with_reducible refine keeps_onPrt ?_ _

theorem keeps_fenceLost {s t : State} (h : Keeps s t) : ∀ a1, Keeps s (@State.fenceLost t a1) := by
  intro a1
  unfold State.fenceLost
  repeat' first
    | with_reducible assumption | with_reducible refine keeps_onFence ?_ _ _ | with_reducible refine keeps_onPrt ?_ _
    | with_reducible refine keeps_countFixed ?_ _ _ _

theorem keeps_fenceWrite {s t : State} (h : Keeps s t) : ∀ a1 a2, Keeps s (@State.fenceWrite t a1 a2) := by
  intro a1 a2
  unfold State.fenceWrite
  repeat' first
    | with_reducible assumption | with_reducible refine keeps_ite ?_ (fun _ => ?_) | with_reducible refine keeps_emit ?_ _ | split | dsimp only

theorem keeps_signal {s t : State} (h : Keeps s t) : ∀ a1 a2 a3, Keeps s (@State.signal t a1 a2 a3) := by
  intro a1 a2 a3
  unfold State.signal
  repeat' first
    | with_reducible assumption | with_reducible refine keeps_ite ?_ (fun _ => ?_) | with_reducible refine keeps_note ?_ _ _ _ _ _ _ _
    | with_reducible refine keeps_fenceWrite ?_ _ _ | with_reducible refine keeps_countT ?_ _ _ _ _ | with_reducible refine keeps_onFence ?_ _ _
    | with_reducible refine keeps_fenceLost ?_ _ | split | dsimp only

theorem keeps_complete {s t : State} (h : Keeps s t) : ∀ a1 a2 a3 a4, Keeps s (@State.complete t a1 a2 a3 a4) := by
  intro a1 a2 a3 a4
  unfold State.complete
  repeat' first
    | with_reducible assumption | with_reducible refine keeps_ite ?_ (fun _ => ?_) | with_reducible refine keeps_reap ?_
    | with_reducible refine keeps_respond ?_ _ _ _ _ | with_reducible refine keeps_noteCommand ?_ _ _ | with_reducible refine keeps_signal ?_ _ _ _
    | split | dsimp only

theorem keeps_completeWhere {s t : State} (h : Keeps s t) : ∀ a1 a2 a3 a4, Keeps s (@State.completeWhere t a1 a2 a3 a4) := by
  intro a1 a2 a3 a4
  unfold State.completeWhere
  repeat' first
    | with_reducible assumption | with_reducible refine keeps_foldl (fun _ _ _ => ?_) _ ?_ | with_reducible refine keeps_complete ?_ _ _ _ _
    | fail_if_no_progress (with_reducible refine keeps_mk ?_ rfl rfl rfl rfl rfl rfl rfl) | dsimp only

theorem keeps_dmaRead {s t : State} (h : Keeps s t) : ∀ a1 a2 a3, Keeps s (@State.dmaRead t a1 a2 a3) := by
  intro a1 a2 a3
  unfold State.dmaRead
  repeat' first
    | with_reducible assumption | with_reducible refine keeps_emit ?_ _

theorem keeps_dmaWrite {s t : State} (h : Keeps s t) : ∀ a1 a2 a3, Keeps s (@State.dmaWrite t a1 a2 a3) := by
  intro a1 a2 a3
  unfold State.dmaWrite
  repeat' first
    | with_reducible assumption | with_reducible refine keeps_emit ?_ _

theorem keeps_dropRef {s t : State} (h : Keeps s t) : ∀ a1 a2, Keeps s (@State.dropRef t a1 a2) := by
  intro a1 a2
  unfold State.dropRef
  repeat' first
    | with_reducible assumption | with_reducible refine keeps_onPrt ?_ _

theorem keeps_newObj {s t : State} (h : Keeps s t) : ∀ a1 a2 a3 a4, Keeps s (@State.newObj t a1 a2 a3 a4) := by
  intro a1 a2 a3 a4
  unfold State.newObj
  repeat' first
    | with_reducible assumption | with_reducible refine keeps_ite ?_ (fun _ => ?_) | with_reducible refine keeps_addRef ?_ _ _ _
    | with_reducible refine keeps_onPrt ?_ _ | split | dsimp only

theorem keeps_nextDrain {s t : State} (h : Keeps s t) : ∀ a1, Keeps s (@State.nextDrain t a1) := by
  intro a1
  unfold State.nextDrain
  repeat' first
    | with_reducible assumption | with_reducible refine keeps_drain ?_ _ _
    | fail_if_no_progress (with_reducible refine keeps_mk ?_ rfl rfl rfl rfl rfl rfl rfl) | split | dsimp only

theorem keeps_onPart {s t : State} (h : Keeps s t) : ∀ a1 a2, Keeps s (@State.onPart t a1 a2) := by
  intro a1 a2
  unfold State.onPart
  repeat' first
    | with_reducible assumption | with_reducible refine keeps_onPrt ?_ _

theorem keeps_onRegion {s t : State} (h : Keeps s t) : ∀ a1 a2, Keeps s (@State.onRegion t a1 a2) := by
  intro a1 a2
  unfold State.onRegion
  repeat' first
    | with_reducible assumption | with_reducible refine keeps_onPrt ?_ _

theorem keeps_outcome {s t : State} (h : Keeps s t) (c : Cmd) (r : Except (Nat × List Word32) State) (hr : KeepsE s r) :
    Keeps s (t.outcome c r) := by
  unfold State.outcome
  split
  · exact hr _ rfl
  · exact keeps_answer h _ _ _

theorem keeps_execFenceWriteError {s t : State} (h : Keeps s t) : ∀ a1, KeepsN s (@execFenceWriteError a1 t) := by
  intro a1
  unfold execFenceWriteError
  repeat' first
    | with_reducible assumption | with_reducible refine keeps_ite ?_ (fun _ => ?_) | with_reducible refine keepsN_next ?_
    | with_reducible refine keeps_fenceLost ?_ _ | split | dsimp only

theorem keeps_ageing {s t : State} (h : Keeps s t) : ∀ a1 a2 a3, Keeps s (@State.ageing t a1 a2 a3) := by
  intro a1 a2 a3
  unfold State.ageing
  repeat' first
    | with_reducible assumption | with_reducible refine keeps_ite ?_ (fun _ => ?_) | with_reducible refine keeps_orderSwap ?_ _ _
    | with_reducible refine keeps_onSocket ?_ _ _ _ | split | dsimp only

theorem keeps_auditWindow {s t : State} (h : Keeps s t) : ∀ a1, Keeps s (@State.auditWindow t a1) := by
  intro a1
  unfold State.auditWindow
  repeat' first
    | with_reducible assumption | with_reducible refine keeps_ite ?_ (fun _ => ?_) | with_reducible refine keeps_foldl (fun _ _ _ => ?_) _ ?_
    | with_reducible refine keeps_onSocket ?_ _ _ _ | with_reducible refine keeps_onCluster ?_ _ _ | split | dsimp only

theorem keeps_mismatch {s t : State} (h : Keeps s t) : ∀ a1 a2, Keeps s (@State.mismatch t a1 a2) := by
  intro a1 a2
  unfold State.mismatch
  repeat' first
    | with_reducible assumption | with_reducible refine keeps_onSocket ?_ _ _ _ | split | dsimp only

theorem keeps_faultLane {s t : State} (h : Keeps s t) : ∀ a1 a2, Keeps s (@State.faultLane t a1 a2) := by
  intro a1 a2
  unfold State.faultLane
  repeat' first
    | with_reducible assumption | with_reducible refine keeps_note ?_ _ _ _ _ _ _ _ | with_reducible refine keeps_onSocket ?_ _ _ _

theorem keeps_laneLost {s t : State} (h : Keeps s t) : ∀ a1 a2, Keeps s (@State.laneLost t a1 a2) := by
  intro a1 a2
  unfold State.laneLost
  repeat' first
    | with_reducible assumption | with_reducible refine keeps_faultLane ?_ _ _ | with_reducible refine keeps_report ?_ _ _ _ _

theorem keeps_ordersLost {s t : State} (h : Keeps s t) : ∀ a1, Keeps s (@State.ordersLost t a1) := by
  intro a1
  unfold State.ordersLost
  repeat' first
    | with_reducible assumption | with_reducible refine keeps_ite ?_ (fun _ => ?_) | with_reducible refine keeps_foldl (fun _ _ _ => ?_) _ ?_
    | (with_reducible refine keeps_onSpr ?_ _ ?_) <;> [skip; exact fun _ => rfl] | with_reducible refine keeps_laneLost ?_ _ _ | split | dsimp only

theorem keeps_replaceActive {s t : State} (h : Keeps s t) : ∀ a1 a2 a3, Keeps s (@State.replaceActive t a1 a2 a3) := by
  intro a1 a2 a3
  unfold State.replaceActive
  repeat' first
    | with_reducible assumption | with_reducible refine keeps_ite ?_ (fun _ => ?_)
    | (with_reducible refine keeps_onSpr ?_ _ ?_) <;> [skip; exact fun _ => rfl] | with_reducible refine keeps_ordersLost ?_ _
    | with_reducible refine keeps_onCluster ?_ _ _ | split | dsimp only

theorem keeps_spareFaulty {s t : State} (h : Keeps s t) : ∀ a1 a2, Keeps s (@State.spareFaulty t a1 a2) := by
  intro a1 a2
  unfold State.spareFaulty
  repeat' first
    | with_reducible assumption | (with_reducible refine keeps_onSpr ?_ _ ?_) <;> [skip; exact fun _ => rfl]
    | with_reducible refine keeps_onCluster ?_ _ _ | with_reducible refine keeps_ordersLost ?_ _ | with_reducible refine keeps_faultLane ?_ _ _
    | split | dsimp only

theorem keeps_laneFaulty {s t : State} (h : Keeps s t) : ∀ a1 a2 a3, Keeps s (@State.laneFaulty t a1 a2 a3) := by
  intro a1 a2 a3
  unfold State.laneFaulty
  repeat' first
    | with_reducible assumption | with_reducible refine keeps_ite ?_ (fun _ => ?_) | with_reducible refine keeps_spareFaulty ?_ _ _
    | with_reducible refine keeps_replaceActive ?_ _ _ _ | split | dsimp only

theorem keeps_laneReport {s t : State} (h : Keeps s t) : ∀ a1 a2, Keeps s (@State.laneReport t a1 a2) := by
  intro a1 a2
  unfold State.laneReport
  repeat' first
    | with_reducible assumption | with_reducible refine keeps_report ?_ _ _ _ _

theorem keeps_undecided {s t : State} (h : Keeps s t) : ∀ a1 a2, Keeps s (@State.undecided t a1 a2) := by
  intro a1 a2
  unfold State.undecided
  repeat' first
    | with_reducible assumption | with_reducible refine keeps_laneReport ?_ _ _ | with_reducible refine keeps_laneFaulty ?_ _ _ _

theorem keeps_compare {s t : State} (h : Keeps s t) : ∀ a1 a2 a3, Keeps s (@State.compare t a1 a2 a3).1 := by
  intro a1 a2 a3
  unfold State.compare
  repeat' first
    | with_reducible assumption | with_reducible refine keeps_ite ?_ (fun _ => ?_) | with_reducible refine keeps_undecided ?_ _ _
    | with_reducible refine keeps_onCluster ?_ _ _ | with_reducible refine keeps_mismatch ?_ _ _ | with_reducible refine keeps_countT ?_ _ _ _ _
    | split | dsimp only

theorem keeps_compare_eq {s t : State} (h : Keeps s t) : ∀ a1 a2 a3 x y, (@State.compare t a1 a2 a3) = (x, y) → Keeps s x := by
  intro a1 a2 a3 x y e
  have k := keeps_compare h a1 a2 a3
  rw [e] at k
  exact k

theorem keeps_reapSchedules {s t : State} (h : Keeps s t) : ∀ a1, Keeps s (@State.reapSchedules t a1) := by
  intro a1
  unfold State.reapSchedules
  repeat' first
    | with_reducible assumption | with_reducible refine keeps_ite ?_ (fun _ => ?_) | with_reducible refine keeps_onCluster ?_ _ _
    | fail_if_no_progress (with_reducible refine keeps_mk ?_ rfl rfl rfl rfl rfl rfl rfl) | split | dsimp only

theorem keeps_dropItem {s t : State} (h : Keeps s t) : ∀ a1 a2, Keeps s (@State.dropItem t a1 a2) := by
  intro a1 a2
  unfold State.dropItem
  repeat' first
    | with_reducible assumption | with_reducible refine keeps_onCluster ?_ _ _ | with_reducible refine keeps_reapSchedules ?_ _

theorem keeps_exchangeLanes {s t : State} (h : Keeps s t) : ∀ a1 a2 a3, Keeps s (@State.exchangeLanes t a1 a2 a3) := by
  intro a1 a2 a3
  unfold State.exchangeLanes
  repeat' first
    | with_reducible assumption | with_reducible refine keeps_onSocket ?_ _ _ _

theorem keeps_groupPowerOn {s t : State} (h : Keeps s t) : Keeps s (@State.groupPowerOn t) := by
  unfold State.groupPowerOn
  repeat' first
    | with_reducible assumption | with_reducible refine keeps_ite ?_ (fun _ => ?_) | with_reducible refine keeps_foldl (fun _ _ _ => ?_) _ ?_
    | with_reducible refine keeps_onSocket ?_ _ _ _ | fail_if_no_progress (with_reducible refine keeps_mk ?_ rfl rfl rfl rfl rfl rfl rfl) | split
    | dsimp only

theorem keeps_installSchedule {s t : State} (h : Keeps s t) : ∀ a1 a2, Keeps s (@State.installSchedule t a1 a2) := by
  intro a1 a2
  unfold State.installSchedule
  repeat' first
    | with_reducible assumption | with_reducible refine keeps_onCluster ?_ _ _

theorem keeps_reportWrites {s t : State} (h : Keeps s t) : ∀ a1 a2, Keeps s (@State.reportWrites t a1 a2) := by
  intro a1 a2
  unfold State.reportWrites
  repeat' first
    | with_reducible assumption | with_reducible refine keeps_ite ?_ (fun _ => ?_) | with_reducible refine keeps_onCluster ?_ _ _
    | with_reducible refine keeps_addWrites ?_ _ _ | split | dsimp only

theorem keeps_invalidateSchedule {s t : State} (h : Keeps s t) : ∀ a1 a2, Keeps s (@State.invalidateSchedule t a1 a2) := by
  intro a1 a2
  unfold State.invalidateSchedule
  repeat' first
    | with_reducible assumption | with_reducible refine keeps_ite ?_ (fun _ => ?_) | with_reducible refine keeps_foldl (fun _ _ _ => ?_) _ ?_
    | with_reducible refine keeps_reapSchedules ?_ _ | with_reducible refine keeps_onCluster ?_ _ _
    | with_reducible refine keeps_reportWrites ?_ _ _ | fail_if_no_progress (with_reducible refine keeps_mk ?_ rfl rfl rfl rfl rfl rfl rfl) | split
    | dsimp only

theorem keeps_issue {s t : State} (h : Keeps s t) : ∀ a1 a2 a3, Keeps s (@State.issue t a1 a2 a3).1 := by
  intro a1 a2 a3
  unfold State.issue
  repeat' first
    | with_reducible assumption | with_reducible refine keeps_onCluster ?_ _ _ | with_reducible refine keeps_onSocket ?_ _ _ _ | split | dsimp only

theorem keeps_issue_eq {s t : State} (h : Keeps s t) : ∀ a1 a2 a3 x y, (@State.issue t a1 a2 a3) = (x, y) → Keeps s x := by
  intro a1 a2 a3 x y e
  have k := keeps_issue h a1 a2 a3
  rw [e] at k
  exact k

theorem keeps_issueThen {s t : State} (h : Keeps s t) : ∀ a1 a2 a3 (f : State → State), (∀ u, Keeps s u → Keeps s (f u)) →
    Keeps s (t.issueThen a1 a2 a3 f) := by
  intro a1 a2 a3 f hf
  have k := keeps_issue h a1 a2 a3
  unfold State.issueThen
  split
  · next e => rw [e] at k; exact k
  · next e => rw [e] at k; exact hf _ k

theorem keeps_knownAnswer {s t : State} (h : Keeps s t) : ∀ a1 a2 a3, Keeps s (@State.knownAnswer t a1 a2 a3) := by
  intro a1 a2 a3
  unfold State.knownAnswer
  repeat' first
    | with_reducible assumption | with_reducible refine keeps_ite ?_ (fun _ => ?_) | with_reducible refine keeps_laneLost ?_ _ _
    | with_reducible refine keeps_exchangeLanes ?_ _ _ _ | with_reducible refine keeps_faultLane ?_ _ _
    | with_reducible refine keeps_report ?_ _ _ _ _ | with_reducible refine keeps_onSocket ?_ _ _ _ | split | dsimp only

theorem keeps_schedRoom {s t : State} (h : Keeps s t) : ∀ a1, Keeps s (@State.schedRoom t a1).1 := by
  intro a1
  unfold State.schedRoom
  repeat' first
    | with_reducible assumption | with_reducible refine keeps_ite ?_ (fun _ => ?_) | with_reducible refine keeps_reportWrites ?_ _ _
    | with_reducible refine keeps_onCluster ?_ _ _ | with_reducible refine keeps_reapSchedules ?_ _ | split | dsimp only

theorem keeps_schedRoom_eq {s t : State} (h : Keeps s t) : ∀ a1 x y, (@State.schedRoom t a1) = (x, y) → Keeps s x := by
  intro a1 x y e
  have k := keeps_schedRoom h a1
  rw [e] at k
  exact k

theorem keeps_wantSchedule {s t : State} (h : Keeps s t) : ∀ a1 a2, Keeps s (@State.wantSchedule t a1 a2) := by
  intro a1 a2
  unfold State.wantSchedule
  repeat' first
    | with_reducible assumption | with_reducible refine keeps_ite ?_ (fun _ => ?_) | with_reducible refine keeps_onCluster ?_ _ _
    | with_reducible refine keeps_countT ?_ _ _ _ _ | with_reducible refine keeps_schedRoom_eq ?_ _ _ _ (by assumption)
    | with_reducible refine keeps_schedRoom ?_ _ | split | dsimp only

theorem keeps_readySched {s t : State} (h : Keeps s t) : ∀ a1 a2, Keeps s (@State.readySched t a1 a2).1 := by
  intro a1 a2
  unfold State.readySched
  repeat' first
    | with_reducible assumption | with_reducible refine keeps_ite ?_ (fun _ => ?_) | with_reducible refine keeps_wantSchedule ?_ _ _
    | with_reducible refine keeps_onCluster ?_ _ _ | split | dsimp only

theorem keeps_readySched_eq {s t : State} (h : Keeps s t) : ∀ a1 a2 x y, (@State.readySched t a1 a2) = (x, y) → Keeps s x := by
  intro a1 a2 x y e
  have k := keeps_readySched h a1 a2
  rw [e] at k
  exact k

theorem keeps_socketSwitch {s t : State} (h : Keeps s t) : ∀ a1, Keeps s (@State.socketSwitch t a1) := by
  intro a1
  unfold State.socketSwitch
  repeat' first
    | with_reducible assumption | with_reducible refine keeps_ite ?_ (fun _ => ?_) | with_reducible refine keeps_raiseEvent ?_ _ _ _ _
    | with_reducible refine keeps_ordersLost ?_ _ | with_reducible refine keeps_faultLane ?_ _ _ | with_reducible refine keeps_onSocket ?_ _ _ _
    | with_reducible refine keeps_onCluster ?_ _ _ | with_reducible refine keeps_note ?_ _ _ _ _ _ _ _
    | with_reducible refine keeps_exchangeLanes ?_ _ _ _ | split | dsimp only

theorem keeps_swapBegin {s t : State} (h : Keeps s t) : ∀ a1 a2 a3, KeepsO s (@State.swapBegin t a1 a2 a3) := by
  intro a1 a2 a3
  unfold State.swapBegin
  repeat' first
    | with_reducible assumption | with_reducible refine keeps_ite ?_ (fun _ => ?_) | with_reducible refine keepsO_some ?_
    | with_reducible exact keepsO_none | with_reducible refine keeps_onSocket ?_ _ _ _ | with_reducible refine keeps_onCluster ?_ _ _
    | fail_if_no_progress (with_reducible refine keeps_mk ?_ rfl rfl rfl rfl rfl rfl rfl) | split | dsimp only

theorem keeps_swapOrder {s t : State} (h : Keeps s t) : ∀ c n, Keeps s (t.swapOrder c n) := by
  intro c n
  unfold State.swapOrder
  have k : ∀ (b : Bool) (x : Bool), KeepsO s (if b then t.swapBegin c n x else none) := by
    intro b x
    cases b
    · exact keepsO_none
    · exact keeps_swapBegin h _ _ _
  dsimp only
  split
  · rename_i u e
    have k1 := k _ _ u e
    exact keeps_onSpr k1 _ (fun _ => rfl)
  · refine keeps_ite ?_ (fun _ => h)
    exact keeps_orderSwap h _ _

theorem keeps_vote {s t : State} (h : Keeps s t) : ∀ a1 a2 a3, Keeps s (@State.vote t a1 a2 a3).1 := by
  intro a1 a2 a3
  unfold State.vote
  repeat' first
    | with_reducible assumption | with_reducible refine keeps_ite ?_ (fun _ => ?_) | with_reducible refine keeps_undecided ?_ _ _
    | with_reducible refine keeps_laneReport ?_ _ _ | with_reducible refine keeps_laneFaulty ?_ _ _ _
    | with_reducible refine keeps_note ?_ _ _ _ _ _ _ _ | split | dsimp only

theorem keeps_vote_eq {s t : State} (h : Keeps s t) : ∀ a1 a2 a3 x y, (@State.vote t a1 a2 a3) = (x, y) → Keeps s x := by
  intro a1 a2 a3 x y e
  have k := keeps_vote h a1 a2 a3
  rw [e] at k
  exact k

theorem keeps_wearCluster {s t : State} (h : Keeps s t) : ∀ a1, Keeps s (@State.wearCluster t a1) := by
  intro a1
  unfold State.wearCluster
  repeat' first
    | with_reducible assumption | with_reducible refine keeps_ite ?_ (fun _ => ?_) | with_reducible refine keeps_orderSwap ?_ _ _ | split
    | dsimp only

theorem keeps_wearPeriod {s t : State} (h : Keeps s t) : Keeps s (@State.wearPeriod t) := by
  unfold State.wearPeriod
  repeat' first
    | with_reducible assumption | with_reducible refine keeps_ite ?_ (fun _ => ?_) | with_reducible refine keeps_foldl (fun _ _ _ => ?_) _ ?_
    | (with_reducible refine keeps_onSpr ?_ _ ?_) <;> [skip; exact fun _ => rfl] | with_reducible refine keeps_wearCluster ?_ _ | split | dsimp only

theorem keeps_execAgeingReading {s t : State} (h : Keeps s t) : ∀ a1 a2 a3, KeepsN s (@execAgeingReading a1 a2 a3 t) := by
  intro a1 a2 a3
  unfold execAgeingReading
  repeat' first
    | with_reducible assumption | with_reducible refine keepsN_next ?_ | with_reducible refine keeps_ageing ?_ _ _ _

theorem keeps_execAuditWindowEnd {s t : State} (h : Keeps s t) : ∀ a1, KeepsN s (@execAuditWindowEnd a1 t) := by
  intro a1
  unfold execAuditWindowEnd
  repeat' first
    | with_reducible assumption | with_reducible refine keepsN_next ?_ | with_reducible refine keeps_auditWindow ?_ _

theorem keeps_execLaneGroupPowerOn {s t : State} (h : Keeps s t) : KeepsN s (@execLaneGroupPowerOn t) := by
  unfold execLaneGroupPowerOn
  repeat' first
    | with_reducible assumption | with_reducible refine keepsN_next ?_ | with_reducible refine keeps_groupPowerOn ?_

theorem keeps_execLaneSwapOrder {s t : State} (h : Keeps s t) : ∀ a1 a2, KeepsN s (@execLaneSwapOrder a1 a2 t) := by
  intro a1 a2
  unfold execLaneSwapOrder
  repeat' first
    | with_reducible assumption | with_reducible refine keepsN_next ?_ | with_reducible refine keeps_swapOrder ?_ _ _

theorem keeps_execLockstepComplete {s t : State} (h : Keeps s t) : ∀ a1, KeepsN s (@execLockstepComplete a1 t) := by
  intro a1
  unfold execLockstepComplete
  repeat' first
    | with_reducible assumption | with_reducible refine keepsN_next ?_ | with_reducible refine keeps_onCluster ?_ _ _

theorem keeps_execWearPeriod {s t : State} (h : Keeps s t) : ∀ a1, KeepsN s (@execWearPeriod a1 t) := by
  intro a1
  unfold execWearPeriod
  repeat' first
    | with_reducible assumption | with_reducible refine keepsN_next ?_ | with_reducible refine keeps_advance ?_ _
    | with_reducible refine keeps_wearPeriod ?_

theorem keeps_onHcc {s t : State} (h : Keeps s t) : ∀ a1, Keeps s (@State.onHcc t a1) := by
  intro a1
  unfold State.onHcc
  repeat' first
    | with_reducible assumption | fail_if_no_progress (with_reducible refine keeps_mk ?_ rfl rfl rfl rfl rfl rfl rfl) | dsimp only

theorem keeps_ideDrop {s t : State} (h : Keeps s t) : ∀ a1, Keeps s (@State.ideDrop t a1) := by
  intro a1
  unfold State.ideDrop
  repeat' first
    | with_reducible assumption | with_reducible refine keeps_retireSlot ?_ _ | with_reducible refine keeps_dropRef ?_ _ _
    | with_reducible refine keeps_reap ?_

theorem keeps_refuseHost {s t : State} (h : Keeps s t) : ∀ a1, Keeps s (@State.refuseHost t a1) := by
  intro a1
  unfold State.refuseHost
  repeat' first
    | with_reducible assumption | with_reducible refine keeps_ite ?_ (fun _ => ?_) | with_reducible refine keeps_emit ?_ _ | split | dsimp only

theorem keeps_streamInsecure {s t : State} (h : Keeps s t) : ∀ a1, Keeps s (@State.streamInsecure t a1) := by
  intro a1
  unfold State.streamInsecure
  repeat' first
    | with_reducible assumption | with_reducible refine keeps_ite ?_ (fun _ => ?_) | with_reducible refine keeps_foldl (fun _ _ _ => ?_) _ ?_
    | with_reducible refine keeps_emit ?_ _ | with_reducible refine keeps_onHcc ?_ _ | with_reducible refine keeps_refuseHost ?_ _
    | with_reducible refine keeps_ideDrop ?_ _ | split | dsimp only

theorem keeps_ideFailed {s t : State} (h : Keeps s t) : ∀ a1, Keeps s (@State.ideFailed t a1) := by
  intro a1
  unfold State.ideFailed
  repeat' first
    | with_reducible assumption | with_reducible refine keeps_streamInsecure ?_ _ | with_reducible refine keeps_report ?_ _ _ _ _

theorem keeps_ideKey {s t : State} (h : Keeps s t) : ∀ a1 a2 a3, Keeps s (@State.ideKey t a1 a2 a3).1 := by
  intro a1 a2 a3
  unfold State.ideKey
  repeat' first
    | with_reducible assumption | with_reducible refine keeps_ite ?_ (fun _ => ?_)
    | with_reducible refine keeps_readySched_eq ?_ _ _ _ _ (by assumption) | with_reducible refine keeps_readySched ?_ _ _ | split | dsimp only

theorem keeps_ideKey_eq {s t : State} (h : Keeps s t) : ∀ a1 a2 a3 x y, (@State.ideKey t a1 a2 a3) = (x, y) → Keeps s x := by
  intro a1 a2 a3 x y e
  have k := keeps_ideKey h a1 a2 a3
  rw [e] at k
  exact k

theorem keeps_onCtx {s t : State} (h : Keeps s t) : ∀ a1 a2, Keeps s (@State.onCtx t a1 a2) := by
  intro a1 a2
  unfold State.onCtx
  repeat' first
    | with_reducible assumption | with_reducible refine keeps_onHcc ?_ _

theorem keeps_ideCounted {s t : State} (h : Keeps s t) : ∀ a1 a2 a3, Keeps s (@State.ideCounted t a1 a2 a3) := by
  intro a1 a2 a3
  unfold State.ideCounted
  repeat' first
    | with_reducible assumption | with_reducible refine keeps_onCtx ?_ _ _

theorem keeps_tlpOut {s t : State} (h : Keeps s t) : ∀ a1 a2 a3, Keeps s (@State.tlpOut t a1 a2 a3) := by
  intro a1 a2 a3
  unfold State.tlpOut
  repeat' first
    | with_reducible assumption | with_reducible refine keeps_emit ?_ _ | with_reducible refine keeps_issueThen ?_ _ _ _ _ (fun _ _ => ?_) | split
    | dsimp only

theorem keeps_tlpSend {s t : State} (h : Keeps s t) : ∀ a1 a2 a3 a4 a5 a6, Keeps s (@State.tlpSend t a1 a2 a3 a4 a5 a6) := by
  intro a1 a2 a3 a4 a5 a6
  unfold State.tlpSend
  repeat' first
    | with_reducible assumption | with_reducible refine keeps_tlpOut ?_ _ _ _ | with_reducible refine keeps_countS ?_ _ _ _ _
    | with_reducible refine keeps_countT ?_ _ _ _ _ | with_reducible refine keeps_ideCounted ?_ _ _ _

theorem keeps_hostReply {s t : State} (h : Keeps s t) : ∀ a1, Keeps s (@State.hostReply t a1) := by
  intro a1
  unfold State.hostReply
  repeat' first
    | with_reducible assumption | with_reducible refine keeps_ite ?_ (fun _ => ?_) | with_reducible refine keeps_tlpSend ?_ _ _ _ _ _ _
    | with_reducible refine keeps_onHcc ?_ _ | with_reducible refine keeps_ideKey_eq ?_ _ _ _ _ _ (by assumption)
    | with_reducible refine keeps_ideKey ?_ _ _ _ | with_reducible refine keeps_ideFailed ?_ _ | split | dsimp only

theorem keeps_hostComplete {s t : State} (h : Keeps s t) : ∀ a1 a2 a3, Keeps s (@State.hostComplete t a1 a2 a3) := by
  intro a1 a2 a3
  unfold State.hostComplete
  repeat' first
    | with_reducible assumption | with_reducible refine keeps_ite ?_ (fun _ => ?_) | with_reducible refine keeps_emit ?_ _
    | with_reducible refine keeps_hostReply ?_ _ | with_reducible refine keeps_onHcc ?_ _ | split | dsimp only

theorem keeps_done {s t : State} (h : Keeps s t) : ∀ a1 a2 a3 a4, Keeps s (@State.done t a1 a2 a3 a4) := by
  intro a1 a2 a3 a4
  unfold State.done
  repeat' first
    | with_reducible assumption | with_reducible refine keeps_ite ?_ (fun _ => ?_) | with_reducible refine keeps_emit ?_ _
    | with_reducible refine keeps_hostComplete ?_ _ _ _ | split | dsimp only

theorem keeps_onTdi {s t : State} (h : Keeps s t) : ∀ a1 a2, Keeps s (@State.onTdi t a1 a2) := by
  intro a1 a2
  unfold State.onTdi
  repeat' first
    | with_reducible assumption | with_reducible refine keeps_onHcc ?_ _

theorem keeps_fabricReady {s t : State} (h : Keeps s t) : ∀ a1 a2, Keeps s (@State.fabricReady t a1 a2).1 := by
  intro a1 a2
  unfold State.fabricReady
  repeat' first
    | with_reducible assumption | with_reducible refine keeps_ite ?_ (fun _ => ?_) | with_reducible refine keeps_countT ?_ _ _ _ _
    | with_reducible refine keeps_schedRoom_eq ?_ _ _ _ (by assumption) | with_reducible refine keeps_schedRoom ?_ _
    | with_reducible refine keeps_onCluster ?_ _ _ | split | dsimp only

theorem keeps_fabricReady_eq {s t : State} (h : Keeps s t) : ∀ a1 a2 x y, (@State.fabricReady t a1 a2) = (x, y) → Keeps s x := by
  intro a1 a2 x y e
  have k := keeps_fabricReady h a1 a2
  rw [e] at k
  exact k

theorem keeps_onEntry {s t : State} (h : Keeps s t) : ∀ a1 a2 a3, Keeps s (@State.onEntry t a1 a2 a3) := by
  intro a1 a2 a3
  unfold State.onEntry
  repeat' first
    | with_reducible assumption | fail_if_no_progress (with_reducible refine keeps_mk ?_ rfl rfl rfl rfl rfl rfl rfl) | dsimp only

theorem keeps_sendControl {s t : State} (h : Keeps s t) : ∀ a1 a2 a3 a4 a5 a6 a7, Keeps s (@State.sendControl t a1 a2 a3 a4 a5 a6 a7).1 := by
  intro a1 a2 a3 a4 a5 a6 a7
  unfold State.sendControl
  repeat' first
    | with_reducible assumption | with_reducible refine keeps_ite ?_ (fun _ => ?_) | with_reducible refine keeps_foldl (fun _ _ _ => ?_) _ ?_
    | with_reducible refine keeps_emit ?_ _ | with_reducible refine keeps_issueThen ?_ _ _ _ _ (fun _ _ => ?_)
    | with_reducible refine keeps_countT ?_ _ _ _ _ | with_reducible refine keeps_count ?_ _ _ | with_reducible refine keeps_onEntry ?_ _ _ _
    | with_reducible refine keeps_fabricReady_eq ?_ _ _ _ _ (by assumption) | with_reducible refine keeps_fabricReady ?_ _ _ | split | dsimp only

theorem keeps_sendControl_eq {s t : State} (h : Keeps s t) : ∀ a1 a2 a3 a4 a5 a6 a7 x y, (@State.sendControl t a1 a2 a3 a4 a5 a6 a7) = (x, y) → Keeps s x := by
  intro a1 a2 a3 a4 a5 a6 a7 x y e
  have k := keeps_sendControl h a1 a2 a3 a4 a5 a6 a7
  rw [e] at k
  exact k

theorem keeps_sendAck {s t : State} (h : Keeps s t) : ∀ a1 a2, Keeps s (@State.sendAck t a1 a2) := by
  intro a1 a2
  unfold State.sendAck
  repeat' first
    | with_reducible assumption | with_reducible refine keeps_onEntry ?_ _ _ _
    | with_reducible refine keeps_sendControl_eq ?_ _ _ _ _ _ _ _ _ _ (by assumption) | with_reducible refine keeps_sendControl ?_ _ _ _ _ _ _ _
    | split | dsimp only

theorem keeps_ackIfDue {s t : State} (h : Keeps s t) : ∀ a1 a2, Keeps s (@State.ackIfDue t a1 a2) := by
  intro a1 a2
  unfold State.ackIfDue
  repeat' first
    | with_reducible assumption | with_reducible refine keeps_ite ?_ (fun _ => ?_) | with_reducible refine keeps_sendAck ?_ _ _ | split | dsimp only

theorem keeps_ackInterval {s t : State} (h : Keeps s t) : ∀ a1 a2, Keeps s (@State.ackInterval t a1 a2) := by
  intro a1 a2
  unfold State.ackInterval
  repeat' first
    | with_reducible assumption | with_reducible refine keeps_ite ?_ (fun _ => ?_) | with_reducible refine keeps_onEntry ?_ _ _ _
    | with_reducible refine keeps_ackIfDue ?_ _ _ | split | dsimp only

theorem keeps_atomicDone {s t : State} (h : Keeps s t) : ∀ a1 a2 a3, Keeps s (@State.atomicDone t a1 a2 a3) := by
  intro a1 a2 a3
  unfold State.atomicDone
  repeat' first
    | with_reducible assumption | with_reducible refine keeps_done ?_ _ _ _ _

theorem keeps_refuseSend {s t : State} (h : Keeps s t) : ∀ a1 a2, Keeps s (@State.refuseSend t a1 a2) := by
  intro a1 a2
  unfold State.refuseSend
  repeat' first
    | with_reducible assumption | with_reducible refine keeps_ite ?_ (fun _ => ?_) | with_reducible refine keeps_done ?_ _ _ _ _ | split
    | dsimp only

theorem keeps_streamFenceEnd {s t : State} (h : Keeps s t) : ∀ a1 a2 a3 a4, Keeps s (@State.streamFenceEnd t a1 a2 a3 a4) := by
  intro a1 a2 a3 a4
  unfold State.streamFenceEnd
  repeat' first
    | with_reducible assumption | with_reducible refine keeps_signal ?_ _ _ _ | with_reducible refine keeps_complete ?_ _ _ _ _
    | fail_if_no_progress (with_reducible refine keeps_mk ?_ rfl rfl rfl rfl rfl rfl rfl) | split | dsimp only

theorem keeps_fencesFail {s t : State} (h : Keeps s t) : ∀ a1 a2, Keeps s (@State.fencesFail t a1 a2) := by
  intro a1 a2
  unfold State.fencesFail
  repeat' first
    | with_reducible assumption | with_reducible refine keeps_foldl (fun _ _ _ => ?_) _ ?_ | with_reducible refine keeps_streamFenceEnd ?_ _ _ _ _
    | with_reducible refine keeps_onEntry ?_ _ _ _ | dsimp only

theorem keeps_failStream {s t : State} (h : Keeps s t) : ∀ a1 a2, Keeps s (@State.failStream t a1 a2) := by
  intro a1 a2
  unfold State.failStream
  repeat' first
    | with_reducible assumption | with_reducible refine keeps_ite ?_ (fun _ => ?_) | with_reducible refine keeps_foldl (fun _ _ _ => ?_) _ ?_
    | with_reducible refine keeps_emit ?_ _ | with_reducible refine keeps_onEntry ?_ _ _ _ | with_reducible refine keeps_fencesFail ?_ _ _
    | with_reducible refine keeps_refuseSend ?_ _ _ | with_reducible refine keeps_atomicDone ?_ _ _ _ | split | dsimp only

theorem keeps_dropSchedule {s t : State} (h : Keeps s t) : ∀ a1 a2, Keeps s (@State.dropSchedule t a1 a2) := by
  intro a1 a2
  unfold State.dropSchedule
  repeat' first
    | with_reducible assumption | with_reducible refine keeps_onCluster ?_ _ _ | with_reducible refine keeps_reapSchedules ?_ _

theorem keeps_retireRoots {s t : State} (h : Keeps s t) : Keeps s (@State.retireRoots t) := by
  unfold State.retireRoots
  repeat' first
    | with_reducible assumption | with_reducible refine keeps_foldl (fun _ _ _ => ?_) _ ?_ | with_reducible refine keeps_retireSlot ?_ _
    | fail_if_no_progress (with_reducible refine keeps_mk ?_ rfl rfl rfl rfl rfl rfl rfl) | dsimp only

theorem keeps_closeDone {s t : State} (h : Keeps s t) : ∀ a1 a2 a3, Keeps s (@State.closeDone t a1 a2 a3) := by
  intro a1 a2 a3
  unfold State.closeDone
  repeat' first
    | with_reducible assumption | with_reducible refine keeps_completeWhere ?_ _ _ _ _

theorem keeps_noteStream {s t : State} (h : Keeps s t) : ∀ a1 a2, Keeps s (@State.noteStream t a1 a2) := by
  intro a1 a2
  unfold State.noteStream
  repeat' first
    | with_reducible assumption | with_reducible refine keeps_ite ?_ (fun _ => ?_) | with_reducible refine keeps_note ?_ _ _ _ _ _ _ _ | split
    | dsimp only

theorem keeps_entryClosed {s t : State} (h : Keeps s t) : ∀ a1 a2 a3, Keeps s (@State.entryClosed t a1 a2 a3) := by
  intro a1 a2 a3
  unfold State.entryClosed
  repeat' first
    | with_reducible assumption | with_reducible refine keeps_foldl (fun _ _ _ => ?_) _ ?_ | with_reducible refine keeps_emit ?_ _
    | with_reducible refine keeps_noteStream ?_ _ _ | with_reducible refine keeps_closeDone ?_ _ _ _ | with_reducible refine keeps_retireRoots ?_
    | with_reducible refine keeps_reap ?_ | with_reducible refine keeps_dropSchedule ?_ _ _ | with_reducible refine keeps_onEntry ?_ _ _ _
    | dsimp only

theorem keeps_streamLost {s t : State} (h : Keeps s t) : ∀ a1 a2, Keeps s (@State.streamLost t a1 a2) := by
  intro a1 a2
  unfold State.streamLost
  repeat' first
    | with_reducible assumption | with_reducible refine keeps_ite ?_ (fun _ => ?_) | with_reducible refine keeps_onEntry ?_ _ _ _
    | with_reducible refine keeps_noteStream ?_ _ _ | with_reducible refine keeps_entryClosed ?_ _ _ _
    | with_reducible refine keeps_report ?_ _ _ _ _ | with_reducible refine keeps_failStream ?_ _ _ | split | dsimp only

theorem keeps_startChange {s t : State} (h : Keeps s t) : ∀ a1 a2, Keeps s (@State.startChange t a1 a2) := by
  intro a1 a2
  unfold State.startChange
  repeat' first
    | with_reducible assumption | with_reducible refine keeps_ite ?_ (fun _ => ?_) | with_reducible refine keeps_onEntry ?_ _ _ _
    | with_reducible refine keeps_noteStream ?_ _ _ | with_reducible refine keeps_streamLost ?_ _ _ | split | dsimp only

theorem keeps_armNext {s t : State} (h : Keeps s t) : ∀ a1 a2, Keeps s (@State.armNext t a1 a2) := by
  intro a1 a2
  unfold State.armNext
  repeat' first
    | with_reducible assumption | with_reducible refine keeps_onEntry ?_ _ _ _ | split | dsimp only

theorem keeps_fenceCheck {s t : State} (h : Keeps s t) : ∀ a1 a2, Keeps s (@State.fenceCheck t a1 a2) := by
  intro a1 a2
  unfold State.fenceCheck
  repeat' first
    | with_reducible assumption | with_reducible refine keeps_ite ?_ (fun _ => ?_) | with_reducible refine keeps_foldl (fun _ _ _ => ?_) _ ?_
    | with_reducible refine keeps_armNext ?_ _ _ | with_reducible refine keeps_onEntry ?_ _ _ _
    | with_reducible refine keeps_streamFenceEnd ?_ _ _ _ _ | split | dsimp only

theorem keeps_freeKept {s t : State} (h : Keeps s t) : ∀ a1 a2, Keeps s (@State.freeKept t a1 a2) := by
  intro a1 a2
  unfold State.freeKept
  repeat' first
    | with_reducible assumption | with_reducible refine keeps_foldl (fun _ _ _ => ?_) _ ?_ | with_reducible refine keeps_emit ?_ _
    | with_reducible refine keeps_onEntry ?_ _ _ _ | dsimp only

theorem keeps_sealOut {s t : State} (h : Keeps s t) : ∀ a1 a2 a3 a4, Keeps s (@State.sealOut t a1 a2 a3 a4) := by
  intro a1 a2 a3 a4
  unfold State.sealOut
  repeat' first
    | with_reducible assumption | with_reducible refine keeps_ite ?_ (fun _ => ?_) | with_reducible refine keeps_foldl (fun _ _ _ => ?_) _ ?_
    | with_reducible refine keeps_emit ?_ _ | with_reducible refine keeps_onEntry ?_ _ _ _ | split | dsimp only

theorem keeps_sealRequest {s t : State} (h : Keeps s t) : ∀ a1 a2 a3 a4 a5, Keeps s (@State.sealRequest t a1 a2 a3 a4 a5) := by
  intro a1 a2 a3 a4 a5
  unfold State.sealRequest
  repeat' first
    | with_reducible assumption | with_reducible refine keeps_ite ?_ (fun _ => ?_) | with_reducible refine keeps_startChange ?_ _ _
    | with_reducible refine keeps_done ?_ _ _ _ _ | with_reducible refine keeps_sealOut ?_ _ _ _ _
    | with_reducible refine keeps_issueThen ?_ _ _ _ _ (fun _ _ => ?_) | with_reducible refine keeps_count ?_ _ _
    | with_reducible refine keeps_countT ?_ _ _ _ _ | with_reducible refine keeps_onEntry ?_ _ _ _ | split | dsimp only

theorem keeps_sendOne {s t : State} (h : Keeps s t) : ∀ a1 a2, Keeps s (@State.sendOne t a1 a2) := by
  intro a1 a2
  unfold State.sendOne
  repeat' first
    | with_reducible assumption | with_reducible refine keeps_ite ?_ (fun _ => ?_) | with_reducible refine keeps_onEntry ?_ _ _ _
    | with_reducible refine keeps_sealRequest ?_ _ _ _ _ _ | with_reducible refine keeps_fabricReady_eq ?_ _ _ _ _ (by assumption)
    | with_reducible refine keeps_fabricReady ?_ _ _ | split | dsimp only

theorem keeps_sendWaiting {s t : State} (h : Keeps s t) : ∀ a1 a2, Keeps s (@State.sendWaiting t a1 a2) := by
  intro a1 a2
  unfold State.sendWaiting
  repeat' first
    | with_reducible assumption | with_reducible refine keeps_foldl (fun _ _ _ => ?_) _ ?_ | with_reducible refine keeps_sendOne ?_ _ _ | dsimp only

theorem keeps_sendProgress {s t : State} (h : Keeps s t) : ∀ a1 a2, Keeps s (@State.sendProgress t a1 a2) := by
  intro a1 a2
  unfold State.sendProgress
  repeat' first
    | with_reducible assumption | with_reducible refine keeps_ite ?_ (fun _ => ?_) | with_reducible refine keeps_sendWaiting ?_ _ _
    | with_reducible refine keeps_fencesFail ?_ _ _ | with_reducible refine keeps_entryClosed ?_ _ _ _ | with_reducible refine keeps_freeKept ?_ _ _
    | with_reducible refine keeps_fenceCheck ?_ _ _ | split | dsimp only

theorem keeps_ackReceived {s t : State} (h : Keeps s t) : ∀ a1 a2 a3, Keeps s (@State.ackReceived t a1 a2 a3) := by
  intro a1 a2 a3
  unfold State.ackReceived
  repeat' first
    | with_reducible assumption | with_reducible refine keeps_ite ?_ (fun _ => ?_) | with_reducible refine keeps_sendProgress ?_ _ _
    | with_reducible refine keeps_startChange ?_ _ _ | with_reducible refine keeps_onEntry ?_ _ _ _ | split | dsimp only

theorem keeps_askKey {s t : State} (h : Keeps s t) : ∀ a1 a2, Keeps s (@State.askKey t a1 a2) := by
  intro a1 a2
  unfold State.askKey
  repeat' first
    | with_reducible assumption | with_reducible refine keeps_onEntry ?_ _ _ _

theorem keeps_onFcc {s t : State} (h : Keeps s t) : ∀ a1 a2, Keeps s (@State.onFcc t a1 a2) := by
  intro a1 a2
  unfold State.onFcc
  repeat' first
    | with_reducible assumption | fail_if_no_progress (with_reducible refine keeps_mk ?_ rfl rfl rfl rfl rfl rfl rfl) | dsimp only

theorem keeps_enterReleased {s t : State} (h : Keeps s t) : ∀ a1 a2, Keeps s (@State.enterReleased t a1 a2) := by
  intro a1 a2
  unfold State.enterReleased
  repeat' first
    | with_reducible assumption | with_reducible refine keeps_ite ?_ (fun _ => ?_) | with_reducible refine keeps_foldl (fun _ _ _ => ?_) _ ?_
    | with_reducible refine keeps_emit ?_ _ | with_reducible refine keeps_onEntry ?_ _ _ _ | with_reducible refine keeps_countT ?_ _ _ _ _ | split
    | dsimp only

theorem keeps_packetFinished {s t : State} (h : Keeps s t) : ∀ a1 a2 a3 a4, Keeps s (@State.packetFinished t a1 a2 a3 a4) := by
  intro a1 a2 a3 a4
  unfold State.packetFinished
  repeat' first
    | with_reducible assumption | with_reducible refine keeps_ite ?_ (fun _ => ?_) | with_reducible refine keeps_onEntry ?_ _ _ _
    | with_reducible refine keeps_enterReleased ?_ _ _ | with_reducible refine keeps_ackIfDue ?_ _ _ | split | dsimp only

theorem keeps_replyFrom {s t : State} (h : Keeps s t) : ∀ a1 a2 a3, Keeps s (@State.replyFrom t a1 a2 a3).1 := by
  intro a1 a2 a3
  unfold State.replyFrom
  repeat' first
    | with_reducible assumption | with_reducible refine keeps_ite ?_ (fun _ => ?_)
    | with_reducible refine keeps_sendControl_eq ?_ _ _ _ _ _ _ _ _ _ (by assumption) | with_reducible refine keeps_sendControl ?_ _ _ _ _ _ _ _
    | split | dsimp only

theorem keeps_replyFrom_eq {s t : State} (h : Keeps s t) : ∀ a1 a2 a3 x y, (@State.replyFrom t a1 a2 a3) = (x, y) → Keeps s x := by
  intro a1 a2 a3 x y e
  have k := keeps_replyFrom h a1 a2 a3
  rw [e] at k
  exact k

theorem keeps_payReply {s t : State} (h : Keeps s t) : ∀ a1 a2 a3, Keeps s (@State.payReply t a1 a2 a3) := by
  intro a1 a2 a3
  unfold State.payReply
  repeat' first
    | with_reducible assumption | with_reducible refine keeps_onFcc ?_ _ _ | with_reducible refine keeps_replyFrom_eq ?_ _ _ _ _ _ (by assumption)
    | with_reducible refine keeps_replyFrom ?_ _ _ _ | split | dsimp only

theorem keeps_payReplies {s t : State} (h : Keeps s t) : ∀ a1 a2, Keeps s (@State.payReplies t a1 a2) := by
  intro a1 a2
  unfold State.payReplies
  repeat' first
    | with_reducible assumption | with_reducible refine keeps_foldl (fun _ _ _ => ?_) _ ?_ | with_reducible refine keeps_payReply ?_ _ _ _
    | dsimp only

theorem keeps_atomicResult {s t : State} (h : Keeps s t) : ∀ a1 a2 a3 a4 a5, Keeps s (@State.atomicResult t a1 a2 a3 a4 a5) := by
  intro a1 a2 a3 a4 a5
  unfold State.atomicResult
  repeat' first
    | with_reducible assumption | with_reducible refine keeps_ite ?_ (fun _ => ?_) | with_reducible refine keeps_payReplies ?_ _ _
    | with_reducible refine keeps_packetFinished ?_ _ _ _ _ | with_reducible refine keeps_onFcc ?_ _ _ | split | dsimp only

theorem keeps_authFailed {s t : State} (h : Keeps s t) : ∀ a1 a2, Keeps s (@State.authFailed t a1 a2) := by
  intro a1 a2
  unfold State.authFailed
  repeat' first
    | with_reducible assumption | with_reducible refine keeps_ite ?_ (fun _ => ?_) | with_reducible refine keeps_report ?_ _ _ _ _
    | with_reducible refine keeps_onEntry ?_ _ _ _ | with_reducible refine keeps_countS ?_ _ _ _ _ | with_reducible refine keeps_countT ?_ _ _ _ _
    | split | dsimp only

theorem keeps_replyReceived {s t : State} (h : Keeps s t) : ∀ a1 a2 a3 a4, Keeps s (@State.replyReceived t a1 a2 a3 a4) := by
  intro a1 a2 a3 a4
  unfold State.replyReceived
  repeat' first
    | with_reducible assumption | with_reducible refine keeps_ite ?_ (fun _ => ?_) | with_reducible refine keeps_onEntry ?_ _ _ _
    | with_reducible refine keeps_sendProgress ?_ _ _ | with_reducible refine keeps_atomicDone ?_ _ _ _ | split | dsimp only

theorem keeps_oweReply {s t : State} (h : Keeps s t) : ∀ a1 a2, Keeps s (@State.oweReply t a1 a2) := by
  intro a1 a2
  unfold State.oweReply
  repeat' first
    | with_reducible assumption | with_reducible refine keeps_onFcc ?_ _ _

theorem keeps_duplicate {s t : State} (h : Keeps s t) : ∀ a1 a2 a3, Keeps s (@State.duplicate t a1 a2 a3) := by
  intro a1 a2 a3
  unfold State.duplicate
  repeat' first
    | with_reducible assumption | with_reducible refine keeps_ite ?_ (fun _ => ?_)
    | with_reducible refine keeps_sendControl_eq ?_ _ _ _ _ _ _ _ _ _ (by assumption) | with_reducible refine keeps_sendControl ?_ _ _ _ _ _ _ _
    | with_reducible refine keeps_oweReply ?_ _ _ | with_reducible refine keeps_payReplies ?_ _ _ | with_reducible refine keeps_sendAck ?_ _ _
    | with_reducible refine keeps_onEntry ?_ _ _ _ | with_reducible refine keeps_countT ?_ _ _ _ _ | split | dsimp only

theorem keeps_packetAct {s t : State} (h : Keeps s t) : ∀ a1 a2, Keeps s (@State.packetAct t a1 a2) := by
  intro a1 a2
  unfold State.packetAct
  repeat' first
    | with_reducible assumption | with_reducible refine keeps_ite ?_ (fun _ => ?_) | with_reducible refine keeps_duplicate ?_ _ _ _
    | with_reducible refine keeps_replyReceived ?_ _ _ _ _ | with_reducible refine keeps_count ?_ _ _
    | with_reducible refine keeps_ackReceived ?_ _ _ _ | with_reducible refine keeps_countT ?_ _ _ _ _
    | with_reducible refine keeps_authFailed ?_ _ _ | split | dsimp only

theorem keeps_authNow {s t : State} (h : Keeps s t) : ∀ a1 a2 a3 a4, Keeps s (@State.authNow t a1 a2 a3 a4) := by
  intro a1 a2 a3 a4
  unfold State.authNow
  repeat' first
    | with_reducible assumption | with_reducible refine keeps_ite ?_ (fun _ => ?_) | with_reducible refine keeps_emit ?_ _
    | with_reducible refine keeps_askKey ?_ _ _ | with_reducible refine keeps_onEntry ?_ _ _ _ | with_reducible refine keeps_packetAct ?_ _ _
    | with_reducible refine keeps_issueThen ?_ _ _ _ _ (fun _ _ => ?_) | with_reducible refine keeps_fabricReady_eq ?_ _ _ _ _ (by assumption)
    | with_reducible refine keeps_fabricReady ?_ _ _ | split | dsimp only

theorem keeps_authWaiting {s t : State} (h : Keeps s t) : ∀ a1 a2, Keeps s (@State.authWaiting t a1 a2) := by
  intro a1 a2
  unfold State.authWaiting
  repeat' first
    | with_reducible assumption | with_reducible refine keeps_foldl (fun _ _ _ => ?_) _ ?_ | with_reducible refine keeps_onEntry ?_ _ _ _
    | with_reducible refine keeps_authNow ?_ _ _ _ _ | dsimp only

theorem keeps_nextCandidate {s t : State} (h : Keeps s t) : ∀ a1, Keeps s (@State.nextCandidate t a1) := by
  intro a1
  unfold State.nextCandidate
  repeat' first
    | with_reducible assumption | with_reducible refine keeps_askKey ?_ _ _ | with_reducible refine keeps_onFcc ?_ _ _ | split | dsimp only

theorem keeps_dropReceive {s t : State} (h : Keeps s t) : ∀ a1 a2, Keeps s (@State.dropReceive t a1 a2) := by
  intro a1 a2
  unfold State.dropReceive
  repeat' first
    | with_reducible assumption | with_reducible refine keeps_ite ?_ (fun _ => ?_) | with_reducible refine keeps_foldl (fun _ _ _ => ?_) _ ?_
    | with_reducible refine keeps_emit ?_ _ | with_reducible refine keeps_nextCandidate ?_ _ | with_reducible refine keeps_onFcc ?_ _ _
    | with_reducible refine keeps_onEntry ?_ _ _ _ | split | dsimp only

theorem keeps_closeStream {s t : State} (h : Keeps s t) : ∀ a1 a2, Keeps s (@State.closeStream t a1 a2) := by
  intro a1 a2
  unfold State.closeStream
  repeat' first
    | with_reducible assumption | with_reducible refine keeps_ite ?_ (fun _ => ?_) | with_reducible refine keeps_foldl (fun _ _ _ => ?_) _ ?_
    | with_reducible refine keeps_fenceCheck ?_ _ _ | with_reducible refine keeps_fencesFail ?_ _ _ | with_reducible refine keeps_onEntry ?_ _ _ _
    | with_reducible refine keeps_refuseSend ?_ _ _ | with_reducible refine keeps_dropReceive ?_ _ _
    | with_reducible refine keeps_entryClosed ?_ _ _ _ | with_reducible refine keeps_closeDone ?_ _ _ _ | split | dsimp only

theorem keeps_dropPacket {s t : State} (h : Keeps s t) : ∀ a1 a2 a3, Keeps s (@State.dropPacket t a1 a2 a3) := by
  intro a1 a2 a3
  unfold State.dropPacket
  repeat' first
    | with_reducible assumption | with_reducible refine keeps_emit ?_ _ | with_reducible refine keeps_countS ?_ _ _ _ _

theorem keeps_epochTaken {s t : State} (h : Keeps s t) : ∀ a1 a2 a3, Keeps s (@State.epochTaken t a1 a2 a3) := by
  intro a1 a2 a3
  unfold State.epochTaken
  repeat' first
    | with_reducible assumption | with_reducible refine keeps_ite ?_ (fun _ => ?_) | with_reducible refine keeps_foldl (fun _ _ _ => ?_) _ ?_
    | with_reducible refine keeps_emit ?_ _ | with_reducible refine keeps_countT ?_ _ _ _ _ | with_reducible refine keeps_noteStream ?_ _ _
    | with_reducible refine keeps_dropSchedule ?_ _ _ | with_reducible refine keeps_onEntry ?_ _ _ _ | with_reducible refine keeps_onFcc ?_ _ _
    | split | dsimp only

theorem keeps_fabricSend {s t : State} (h : Keeps s t) : ∀ a1 a2, Keeps s (@State.fabricSend t a1 a2) := by
  intro a1 a2
  unfold State.fabricSend
  repeat' first
    | with_reducible assumption | with_reducible refine keeps_ite ?_ (fun _ => ?_) | with_reducible refine keeps_sendWaiting ?_ _ _
    | with_reducible refine keeps_askKey ?_ _ _ | with_reducible refine keeps_onEntry ?_ _ _ _ | with_reducible refine keeps_report ?_ _ _ _ _
    | with_reducible refine keeps_refuseSend ?_ _ _ | split | dsimp only

theorem keeps_fccErase {s t : State} (h : Keeps s t) : ∀ a1, Keeps s (@State.fccErase t a1) := by
  intro a1
  unfold State.fccErase
  repeat' first
    | with_reducible assumption | with_reducible refine keeps_foldl (fun _ _ _ => ?_) _ ?_ | with_reducible refine keeps_onFcc ?_ _ _
    | with_reducible refine keeps_failStream ?_ _ _ | with_reducible refine keeps_dropReceive ?_ _ _
    | with_reducible refine keeps_entryClosed ?_ _ _ _ | dsimp only

theorem keeps_freeReason {s t : State} (h : Keeps s t) : ∀ a1, Keeps s (@State.freeReason t a1) := by
  intro a1
  unfold State.freeReason
  repeat' first
    | with_reducible assumption | with_reducible refine keeps_answer ?_ _ _ _ | with_reducible refine keeps_draw_eq ?_ _ _ _ (by assumption)
    | with_reducible refine keeps_draw ?_ _ | split | dsimp only

theorem keeps_holdCandidate {s t : State} (h : Keeps s t) : ∀ a1 a2 a3 a4, Keeps s (@State.holdCandidate t a1 a2 a3 a4) := by
  intro a1 a2 a3 a4
  unfold State.holdCandidate
  repeat' first
    | with_reducible assumption | with_reducible refine keeps_ite ?_ (fun _ => ?_) | with_reducible refine keeps_nextCandidate ?_ _
    | with_reducible refine keeps_onEntry ?_ _ _ _ | with_reducible refine keeps_dropPacket ?_ _ _ _ | split | dsimp only

theorem keeps_openEntry {s t : State} (h : Keeps s t) : ∀ a1 a2 a3 a4 a5 a6 a7 a8, Keeps s (@State.openEntry t a1 a2 a3 a4 a5 a6 a7 a8) := by
  intro a1 a2 a3 a4 a5 a6 a7 a8
  unfold State.openEntry
  repeat' first
    | with_reducible assumption | with_reducible refine keeps_ite ?_ (fun _ => ?_) | with_reducible refine keeps_noteStream ?_ _ _
    | with_reducible refine keeps_answer ?_ _ _ _ | with_reducible refine keeps_onEntry ?_ _ _ _ | with_reducible refine keeps_newObj ?_ _ _ _ _
    | fail_if_no_progress (with_reducible refine keeps_mk ?_ rfl rfl rfl rfl rfl rfl rfl) | split | dsimp only

theorem keeps_packetDone {s t : State} (h : Keeps s t) : ∀ a1 a2 a3 a4, Keeps s (@State.packetDone t a1 a2 a3 a4) := by
  intro a1 a2 a3 a4
  unfold State.packetDone
  repeat' first
    | with_reducible assumption | with_reducible refine keeps_ite ?_ (fun _ => ?_) | with_reducible refine keeps_packetFinished ?_ _ _ _ _ | split
    | dsimp only

theorem keeps_packetOpened {s t : State} (h : Keeps s t) : ∀ a1 a2 a3, Keeps s (@State.packetOpened t a1 a2 a3) := by
  intro a1 a2 a3
  unfold State.packetOpened
  repeat' first
    | with_reducible assumption | with_reducible refine keeps_onEntry ?_ _ _ _ | with_reducible refine keeps_enterReleased ?_ _ _

end Sys2Proof.Laws
end

