-- ==== Sys2Proof/Laws/KeepsB.lean ====
section
/-!
SUPPORT. One lemma for each operation of the machine: what it keeps (Laws/Keeps.lean). Part B of four, in the order in which
the operations use one another.
-/

set_option maxRecDepth 4000
set_option linter.unusedTactic false
set_option linter.unreachableTactic false

namespace Sys2Proof.Laws

open Sys2Proof.Machine

theorem keeps_packetReceive {s t : State} (h : Keeps s t) : ∀ a1 a2 a3, Keeps s (@State.packetReceive t a1 a2 a3) := by
  intro a1 a2 a3
  unfold State.packetReceive
  repeat' first
    | with_reducible assumption | with_reducible refine keeps_ite ?_ (fun _ => ?_) | with_reducible refine keeps_emit ?_ _
    | with_reducible refine keeps_askKey ?_ _ _ | with_reducible refine keeps_onEntry ?_ _ _ _
    | with_reducible refine keeps_holdCandidate ?_ _ _ _ _ | with_reducible refine keeps_authNow ?_ _ _ _ _
    | with_reducible refine keeps_dropPacket ?_ _ _ _ | split | dsimp only

theorem keeps_releasePacket {s t : State} (h : Keeps s t) : ∀ a1 a2 a3 a4 a5, Keeps s (@State.releasePacket t a1 a2 a3 a4 a5) := by
  intro a1 a2 a3 a4 a5
  unfold State.releasePacket
  repeat' first
    | with_reducible assumption | with_reducible refine keeps_ite ?_ (fun _ => ?_) | with_reducible refine keeps_packetOpened ?_ _ _ _
    | with_reducible refine keeps_issueThen ?_ _ _ _ _ (fun _ _ => ?_) | with_reducible refine keeps_onEntry ?_ _ _ _
    | with_reducible refine keeps_onFcc ?_ _ _ | with_reducible refine keeps_countT ?_ _ _ _ _ | with_reducible refine keeps_count ?_ _ _ | split
    | dsimp only

theorem keeps_packetRelease {s t : State} (h : Keeps s t) : ∀ a1 a2, Keeps s (@State.packetRelease t a1 a2) := by
  intro a1 a2
  unfold State.packetRelease
  repeat' first
    | with_reducible assumption | with_reducible refine keeps_ite ?_ (fun _ => ?_) | with_reducible refine keeps_emit ?_ _
    | with_reducible refine keeps_releasePacket ?_ _ _ _ _ _ | with_reducible refine keeps_authFailed ?_ _ _
    | with_reducible refine keeps_onEntry ?_ _ _ _ | with_reducible refine keeps_fabricReady_eq ?_ _ _ _ _ (by assumption)
    | with_reducible refine keeps_fabricReady ?_ _ _ | split | dsimp only

theorem keeps_stageKey {s t : State} (h : Keeps s t) : ∀ a1 a2, Keeps s (@State.stageKey t a1 a2) := by
  intro a1 a2
  unfold State.stageKey
  repeat' first
    | with_reducible assumption | with_reducible refine keeps_onSlot ?_ _ _ | with_reducible refine keeps_fillSlot ?_ _ _ _

theorem keeps_pairKeyArrival {s t : State} (h : Keeps s t) : ∀ a1 a2, Keeps s (@State.pairKeyArrival t a1 a2) := by
  intro a1 a2
  unfold State.pairKeyArrival
  repeat' first
    | with_reducible assumption | with_reducible refine keeps_ite ?_ (fun _ => ?_) | with_reducible refine keeps_foldl (fun _ _ _ => ?_) _ ?_
    | with_reducible refine keeps_stageKey ?_ _ _ | with_reducible refine keeps_sendWaiting ?_ _ _ | with_reducible refine keeps_authWaiting ?_ _ _
    | with_reducible refine keeps_onEntry ?_ _ _ _ | with_reducible refine keeps_dropPacket ?_ _ _ _ | with_reducible refine keeps_report ?_ _ _ _ _
    | with_reducible refine keeps_refuseSend ?_ _ _ | split | dsimp only

theorem keeps_receiveEpochChange {s t : State} (h : Keeps s t) : ∀ a1 a2, Keeps s (@State.receiveEpochChange t a1 a2) := by
  intro a1 a2
  unfold State.receiveEpochChange
  repeat' first
    | with_reducible assumption | with_reducible refine keeps_ite ?_ (fun _ => ?_) | with_reducible refine keeps_emit ?_ _
    | with_reducible refine keeps_epochTaken ?_ _ _ _ | with_reducible refine keeps_packetRelease ?_ _ _
    | with_reducible refine keeps_authFailed ?_ _ _ | with_reducible refine keeps_nextCandidate ?_ _ | with_reducible refine keeps_onEntry ?_ _ _ _
    | with_reducible refine keeps_stageKey ?_ _ _ | split | dsimp only

theorem keeps_retireAny {s t : State} (h : Keeps s t) : ∀ a1, Keeps s (@State.retireAny t a1) := by
  intro a1
  unfold State.retireAny
  repeat' first
    | with_reducible assumption | with_reducible refine keeps_ite ?_ (fun _ => ?_) | with_reducible refine keeps_foldl (fun _ _ _ => ?_) _ ?_
    | with_reducible refine keeps_retireSlot ?_ _ | with_reducible refine keeps_closeStream ?_ _ _
    | fail_if_no_progress (with_reducible refine keeps_mk ?_ rfl rfl rfl rfl rfl rfl rfl) | split | dsimp only

theorem keeps_retryTimeout {s t : State} (h : Keeps s t) : ∀ a1 a2, Keeps s (@State.retryTimeout t a1 a2) := by
  intro a1 a2
  unfold State.retryTimeout
  repeat' first
    | with_reducible assumption | with_reducible refine keeps_foldl (fun _ _ _ => ?_) _ ?_ | with_reducible refine keeps_emit ?_ _
    | with_reducible refine keeps_countT ?_ _ _ _ _ | dsimp only

theorem keeps_sendEpochChange {s t : State} (h : Keeps s t) : ∀ a1 a2, Keeps s (@State.sendEpochChange t a1 a2) := by
  intro a1 a2
  unfold State.sendEpochChange
  repeat' first
    | with_reducible assumption | with_reducible refine keeps_ite ?_ (fun _ => ?_) | with_reducible refine keeps_countT ?_ _ _ _ _
    | with_reducible refine keeps_noteStream ?_ _ _ | with_reducible refine keeps_sendWaiting ?_ _ _ | with_reducible refine keeps_onEntry ?_ _ _ _
    | with_reducible refine keeps_fenceCheck ?_ _ _ | with_reducible refine keeps_dropSchedule ?_ _ _ | with_reducible refine keeps_stageKey ?_ _ _
    | fail_if_no_progress (with_reducible refine keeps_mk ?_ rfl rfl rfl rfl rfl rfl rfl) | split | dsimp only

theorem keeps_streamOpen {s t : State} (h : Keeps s t) : ∀ a1 a2 a3 a4, Keeps s (@State.streamOpen t a1 a2 a3 a4) := by
  intro a1 a2 a3 a4
  unfold State.streamOpen
  repeat' first
    | with_reducible assumption | with_reducible refine keeps_ite ?_ (fun _ => ?_) | with_reducible refine keeps_openEntry ?_ _ _ _ _ _ _ _ _
    | with_reducible refine keeps_freeReason ?_ _ | with_reducible refine keeps_answer ?_ _ _ _ | split | dsimp only

theorem keeps_execAckIntervalExpiry {s t : State} (h : Keeps s t) : ∀ a1 a2, KeepsN s (@execAckIntervalExpiry a1 a2 t) := by
  intro a1 a2
  unfold execAckIntervalExpiry
  repeat' first
    | with_reducible assumption | with_reducible refine keepsN_next ?_ | with_reducible refine keeps_ackInterval ?_ _ _

theorem keeps_execAckSend {s t : State} (h : Keeps s t) : ∀ a1 a2, KeepsN s (@execAckSend a1 a2 t) := by
  intro a1 a2
  unfold execAckSend
  repeat' first
    | with_reducible assumption | with_reducible refine keepsN_next ?_ | with_reducible refine keeps_ackIfDue ?_ _ _

theorem keeps_execAtomicResult {s t : State} (h : Keeps s t) : ∀ a1 a2 a3 a4 a5, KeepsN s (@execAtomicResult a1 a2 a3 a4 a5 t) := by
  intro a1 a2 a3 a4 a5
  unfold execAtomicResult
  repeat' first
    | with_reducible assumption | with_reducible refine keepsN_next ?_ | with_reducible refine keeps_atomicResult ?_ _ _ _ _ _

theorem keeps_execFabricSend {s t : State} (h : Keeps s t) : ∀ a1 a2, KeepsN s (@execFabricSend a1 a2 t) := by
  intro a1 a2
  unfold execFabricSend
  repeat' first
    | with_reducible assumption | with_reducible refine keepsN_next ?_ | with_reducible refine keeps_fabricSend ?_ _ _
    | with_reducible refine keeps_atIngress ?_ _ _ _ (fun _ _ => ?_)

theorem keeps_execPacketDone {s t : State} (h : Keeps s t) : ∀ a1 a2 a3 a4, KeepsN s (@execPacketDone a1 a2 a3 a4 t) := by
  intro a1 a2 a3 a4
  unfold execPacketDone
  repeat' first
    | with_reducible assumption | with_reducible refine keepsN_next ?_ | with_reducible refine keeps_packetDone ?_ _ _ _ _

theorem keeps_execPacketRelease {s t : State} (h : Keeps s t) : ∀ a1 a2, KeepsN s (@execPacketRelease a1 a2 t) := by
  intro a1 a2
  unfold execPacketRelease
  repeat' first
    | with_reducible assumption | with_reducible refine keepsN_next ?_ | with_reducible refine keeps_packetRelease ?_ _ _

theorem keeps_execPairKeyArrival {s t : State} (h : Keeps s t) : ∀ a1 a2, KeepsN s (@execPairKeyArrival a1 a2 t) := by
  intro a1 a2
  unfold execPairKeyArrival
  repeat' first
    | with_reducible assumption | with_reducible refine keepsN_next ?_ | with_reducible refine keeps_pairKeyArrival ?_ _ _

theorem keeps_execReceiveEpochChange {s t : State} (h : Keeps s t) : ∀ a1 a2, KeepsN s (@execReceiveEpochChange a1 a2 t) := by
  intro a1 a2
  unfold execReceiveEpochChange
  repeat' first
    | with_reducible assumption | with_reducible refine keepsN_next ?_ | with_reducible refine keeps_receiveEpochChange ?_ _ _

theorem keeps_execReplyCacheAgeTick {s t : State} (h : Keeps s t) : ∀ a1, KeepsN s (@execReplyCacheAgeTick a1 t) := by
  intro a1
  unfold execReplyCacheAgeTick
  repeat' first
    | with_reducible assumption | with_reducible refine keeps_ite ?_ (fun _ => ?_) | with_reducible refine keepsN_next ?_
    | with_reducible refine keeps_onFcc ?_ _ _ | split | dsimp only

theorem keeps_execReplyHoldExpiry {s t : State} (h : Keeps s t) : ∀ a1 a2, KeepsN s (@execReplyHoldExpiry a1 a2 t) := by
  intro a1 a2
  unfold execReplyHoldExpiry
  repeat' first
    | with_reducible assumption | with_reducible refine keeps_ite ?_ (fun _ => ?_) | with_reducible refine keepsN_next ?_
    | with_reducible refine keeps_onFcc ?_ _ _ | split | dsimp only

theorem keeps_execRetryTimeout {s t : State} (h : Keeps s t) : ∀ a1 a2, KeepsN s (@execRetryTimeout a1 a2 t) := by
  intro a1 a2
  unfold execRetryTimeout
  repeat' first
    | with_reducible assumption | with_reducible refine keepsN_next ?_ | with_reducible refine keeps_retryTimeout ?_ _ _

theorem keeps_execSendEpochChange {s t : State} (h : Keeps s t) : ∀ a1 a2, KeepsN s (@execSendEpochChange a1 a2 t) := by
  intro a1 a2
  unfold execSendEpochChange
  repeat' first
    | with_reducible assumption | with_reducible refine keepsN_next ?_ | with_reducible refine keeps_sendEpochChange ?_ _ _

theorem keeps_execStreamClose {s t : State} (h : Keeps s t) : ∀ a1 a2 a3 a4, KeepsN s (@execStreamClose a1 a2 a3 a4 t) := by
  intro a1 a2 a3 a4
  unfold execStreamClose
  repeat' first
    | with_reducible assumption | with_reducible refine keepsN_next ?_ | with_reducible refine keeps_acceptA ?_ _ _
    | with_reducible refine keeps_closeStream ?_ _ _ | with_reducible refine keeps_answer ?_ _ _ _
    | with_reducible refine keeps_command ?_ _ _ _ _ (fun _ _ _ => ?_) | split | dsimp only

theorem keeps_execStreamFence {s t : State} (h : Keeps s t) : ∀ a1 a2 a3 a4, KeepsN s (@execStreamFence a1 a2 a3 a4 t) := by
  intro a1 a2 a3 a4
  unfold execStreamFence
  repeat' first
    | with_reducible assumption | with_reducible refine keeps_ite ?_ (fun _ => ?_) | with_reducible refine keepsN_next ?_
    | with_reducible refine keeps_onEntry ?_ _ _ _ | with_reducible refine keeps_fenceCheck ?_ _ _
    | with_reducible refine keeps_streamFenceEnd ?_ _ _ _ _ | with_reducible refine keeps_acceptA ?_ _ _
    | with_reducible refine keeps_freeReason ?_ _ | with_reducible refine keeps_answer ?_ _ _ _
    | with_reducible refine keeps_command ?_ _ _ _ _ (fun _ _ _ => ?_) | split | dsimp only

theorem keeps_execStreamOpen {s t : State} (h : Keeps s t) : ∀ a1 a2 a3 a4, KeepsN s (@execStreamOpen a1 a2 a3 a4 t) := by
  intro a1 a2 a3 a4
  unfold execStreamOpen
  repeat' first
    | with_reducible assumption | with_reducible refine keepsN_next ?_ | with_reducible refine keeps_streamOpen ?_ _ _ _ _
    | with_reducible refine keeps_command ?_ _ _ _ _ (fun _ _ _ => ?_)

theorem keeps_execStreamRekey {s t : State} (h : Keeps s t) : ∀ a1 a2, KeepsN s (@execStreamRekey a1 a2 t) := by
  intro a1 a2
  unfold execStreamRekey
  repeat' first
    | with_reducible assumption | with_reducible refine keeps_ite ?_ (fun _ => ?_) | with_reducible refine keepsN_next ?_
    | with_reducible refine keeps_startChange ?_ _ _ | with_reducible refine keeps_freeReason ?_ _ | with_reducible refine keeps_answer ?_ _ _ _
    | with_reducible refine keeps_command ?_ _ _ _ _ (fun _ _ _ => ?_) | split | dsimp only

theorem keeps_decodeRow {s t : State} (h : Keeps s t) : Keeps s (@State.decodeRow t) := by
  unfold State.decodeRow
  repeat' first
    | with_reducible assumption | (with_reducible refine keeps_onLc ?_ _ ?_) <;> [skip; exact fun _ => rfl]

theorem keeps_deriveBegins {s t : State} (h : Keeps s t) : Keeps s (@State.deriveBegins t) := by
  unfold State.deriveBegins
  repeat' first
    | with_reducible assumption | with_reducible refine keeps_onDom ?_ _ | split | dsimp only

theorem keeps_slotObject {s t : State} (h : Keeps s t) : ∀ a1 a2 a3, Keeps s (@State.slotObject t a1 a2 a3) := by
  intro a1 a2 a3
  unfold State.slotObject
  repeat' first
    | with_reducible assumption | with_reducible refine keeps_ite ?_ (fun _ => ?_) | with_reducible refine keeps_newObj ?_ _ _ _ _ | split
    | dsimp only

theorem keeps_deriveEnd {s t : State} (h : Keeps s t) : Keeps s (@State.deriveEnd t) := by
  unfold State.deriveEnd
  repeat' first
    | with_reducible assumption | with_reducible refine keeps_ite ?_ (fun _ => ?_) | with_reducible refine keeps_onDom ?_ _
    | with_reducible refine keeps_deriveBegins ?_ | with_reducible refine keeps_fillSlot ?_ _ _ _ | with_reducible refine keeps_slotObject ?_ _ _ _
    | split | dsimp only

theorem keeps_freeEntries {s t : State} (h : Keeps s t) : ∀ a1, Keeps s (@State.freeEntries t a1) := by
  intro a1
  unfold State.freeEntries
  repeat' first
    | with_reducible assumption | with_reducible refine keeps_foldl (fun _ _ _ => ?_) _ ?_ | with_reducible refine keeps_onRegion ?_ _ _
    | with_reducible refine keeps_rotSend ?_ _ _ | with_reducible refine keeps_setMaster ?_ _ _
    | fail_if_no_progress (with_reducible refine keeps_mk ?_ rfl rfl rfl rfl rfl rfl rfl) | dsimp only

theorem keeps_importStep {s t : State} (h : Keeps s t) : ∀ a1 a2, Keeps s (@State.importStep t a1 a2) := by
  intro a1 a2
  unfold State.importStep
  repeat' first
    | with_reducible assumption | with_reducible refine keeps_ite ?_ (fun _ => ?_) | with_reducible refine keeps_completeWhere ?_ _ _ _ _
    | with_reducible refine keeps_draw_eq ?_ _ _ _ (by assumption) | with_reducible refine keeps_draw ?_ _
    | fail_if_no_progress (with_reducible refine keeps_mk ?_ rfl rfl rfl rfl rfl rfl rfl) | split | dsimp only

theorem keeps_regionDone {s t : State} (h : Keeps s t) : ∀ a1 a2, Keeps s (@State.regionDone t a1 a2) := by
  intro a1 a2
  unfold State.regionDone
  repeat' first
    | with_reducible assumption | with_reducible refine keeps_ite ?_ (fun _ => ?_) | with_reducible refine keeps_importStep ?_ _ _
    | with_reducible refine keeps_completeWhere ?_ _ _ _ _ | split | dsimp only

theorem keeps_regionLost {s t : State} (h : Keeps s t) : ∀ a1, Keeps s (@State.regionLost t a1) := by
  intro a1
  unfold State.regionLost
  repeat' first
    | with_reducible assumption | with_reducible refine keeps_reap ?_ | with_reducible refine keeps_regionDone ?_ _ _
    | with_reducible refine keeps_completeWhere ?_ _ _ _ _ | with_reducible refine keeps_freeEntries ?_ _
    | with_reducible refine keeps_onRegion ?_ _ _

theorem keeps_deriveLost {s t : State} (h : Keeps s t) : ∀ a1, Keeps s (@State.deriveLost t a1) := by
  intro a1
  unfold State.deriveLost
  repeat' first
    | with_reducible assumption | with_reducible refine keeps_foldl (fun _ _ _ => ?_) _ ?_ | with_reducible refine keeps_regionLost ?_ _
    | fail_if_no_progress (with_reducible refine keeps_mk ?_ rfl rfl rfl rfl rfl rfl rfl) | split | dsimp only

theorem keeps_deriveQueue {s t : State} (h : Keeps s t) : ∀ a1, Keeps s (@State.deriveQueue t a1) := by
  intro a1
  unfold State.deriveQueue
  repeat' first
    | with_reducible assumption | with_reducible refine keeps_ite ?_ (fun _ => ?_) | with_reducible refine keeps_deriveBegins ?_
    | with_reducible refine keeps_onDom ?_ _ | split | dsimp only

theorem keeps_deriveStop {s t : State} (h : Keeps s t) : Keeps s (@State.deriveStop t) := by
  unfold State.deriveStop
  repeat' first
    | with_reducible assumption | with_reducible refine keeps_foldl (fun _ _ _ => ?_) _ ?_ | with_reducible refine keeps_onDom ?_ _
    | with_reducible refine keeps_deriveLost ?_ _ | dsimp only

theorem keeps_domeDerive {s t : State} (h : Keeps s t) : ∀ a1 a2, Keeps s (@State.domeDerive t a1 a2) := by
  intro a1 a2
  unfold State.domeDerive
  repeat' first
    | with_reducible assumption | with_reducible refine keeps_ite ?_ (fun _ => ?_) | with_reducible refine keeps_deriveQueue ?_ _ | split
    | dsimp only

theorem keeps_domeReport {s t : State} (h : Keeps s t) : Keeps s (@State.domeReport t) := by
  unfold State.domeReport
  repeat' first
    | with_reducible assumption | with_reducible refine keeps_ite ?_ (fun _ => ?_) | with_reducible refine keeps_report ?_ _ _ _ _ | split
    | dsimp only

theorem keeps_domeSeal {s t : State} (h : Keeps s t) : ∀ a1 a2, Keeps s (@State.domeSeal t a1 a2) := by
  intro a1 a2
  unfold State.domeSeal
  repeat' first
    | with_reducible assumption | with_reducible refine keeps_ite ?_ (fun _ => ?_) | with_reducible refine keeps_emit ?_ _ | split | dsimp only

theorem keeps_domeUnseal {s t : State} (h : Keeps s t) : ∀ a1 a2, Keeps s (@State.domeUnseal t a1 a2) := by
  intro a1 a2
  unfold State.domeUnseal
  repeat' first
    | with_reducible assumption | with_reducible refine keeps_ite ?_ (fun _ => ?_) | with_reducible refine keeps_emit ?_ _
    | with_reducible refine keeps_fillSlot ?_ _ _ _ | with_reducible refine keeps_slotObject ?_ _ _ _ | split | dsimp only

theorem keeps_eraseAll {s t : State} (h : Keeps s t) : Keeps s (@State.eraseAll t) := by
  unfold State.eraseAll
  repeat' first
    | with_reducible assumption | with_reducible refine keeps_foldl (fun _ _ _ => ?_) _ ?_ | with_reducible refine keeps_fccErase ?_ _
    | fail_if_no_progress (with_reducible refine keeps_mk ?_ rfl rfl rfl rfl rfl rfl rfl) | dsimp only

theorem keeps_latchedClear {s t : State} (h : Keeps s t) : ∀ a1, Keeps s (@State.latchedClear t a1) := by
  intro a1
  unfold State.latchedClear
  repeat' first
    | with_reducible assumption | with_reducible refine keeps_ite ?_ (fun _ => ?_) | with_reducible refine keeps_emit ?_ _
    | with_reducible refine keeps_onDom ?_ _ | split | dsimp only

theorem keeps_mask {s t : State} (h : Keeps s t) : ∀ a1, Keeps s (@State.mask t a1) := by
  intro a1
  unfold State.mask
  repeat' first
    | with_reducible assumption | with_reducible refine keeps_onDom ?_ _ | with_reducible refine keeps_draw_eq ?_ _ _ _ (by assumption)
    | with_reducible refine keeps_draw ?_ _ | split | dsimp only

theorem keeps_newRoot {s t : State} (h : Keeps s t) : Keeps s (@State.newRoot t) := by
  unfold State.newRoot
  repeat' first
    | with_reducible assumption | with_reducible refine keeps_mask ?_ _ | with_reducible refine keeps_onDom ?_ _
    | with_reducible refine keeps_draw_eq ?_ _ _ _ (by assumption) | with_reducible refine keeps_draw ?_ _ | split | dsimp only

theorem keeps_reservedKeys {s t : State} (h : Keeps s t) : Keeps s (@State.reservedKeys t) := by
  unfold State.reservedKeys
  repeat' first
    | with_reducible assumption | with_reducible refine keeps_ite ?_ (fun _ => ?_) | with_reducible refine keeps_deriveQueue ?_ _ | split
    | dsimp only

theorem keeps_rootReady {s t : State} (h : Keeps s t) : Keeps s (@State.rootReady t) := by
  unfold State.rootReady
  repeat' first
    | with_reducible assumption | with_reducible refine keeps_mask ?_ _ | with_reducible refine keeps_onDom ?_ _

theorem keeps_rootSteps {s t : State} (h : Keeps s t) : ∀ a1, Keeps s (@State.rootSteps t a1) := by
  intro a1
  unfold State.rootSteps
  repeat' first
    | with_reducible assumption | with_reducible refine keeps_ite ?_ (fun _ => ?_)
    | (with_reducible refine keeps_onLc ?_ _ ?_) <;> [skip; exact fun _ => rfl] | with_reducible refine keeps_rootReady ?_
    | with_reducible refine keeps_newRoot ?_ | with_reducible refine keeps_onDom ?_ _ | split | dsimp only

theorem keeps_slotExpiry {s t : State} (h : Keeps s t) : ∀ a1, Keeps s (@State.slotExpiry t a1) := by
  intro a1
  unfold State.slotExpiry
  repeat' first
    | with_reducible assumption | with_reducible refine keeps_ite ?_ (fun _ => ?_) | with_reducible refine keeps_retireAny ?_ _
    | with_reducible refine keeps_notice ?_ _ _ _ | split | dsimp only

theorem keeps_vbatLowChange {s t : State} (h : Keeps s t) : ∀ a1, Keeps s (@State.vbatLowChange t a1) := by
  intro a1
  unfold State.vbatLowChange
  repeat' first
    | with_reducible assumption | with_reducible refine keeps_ite ?_ (fun _ => ?_) | with_reducible refine keeps_domeReport ?_
    | with_reducible refine keeps_onDom ?_ _ | split | dsimp only

theorem keeps_zeroise {s t : State} (h : Keeps s t) : ∀ a1 a2, Keeps s (@State.zeroise t a1 a2) := by
  intro a1 a2
  unfold State.zeroise
  repeat' first
    | with_reducible assumption | with_reducible refine keeps_ite ?_ (fun _ => ?_) | with_reducible refine keeps_emit ?_ _
    | with_reducible refine keeps_domeReport ?_ | with_reducible refine keeps_eraseAll ?_ | with_reducible refine keeps_onDom ?_ _
    | with_reducible refine keeps_deriveStop ?_ | split | dsimp only

theorem keeps_execDomeDerive {s t : State} (h : Keeps s t) : ∀ a1 a2, KeepsN s (@execDomeDerive a1 a2 t) := by
  intro a1 a2
  unfold execDomeDerive
  repeat' first
    | with_reducible assumption | with_reducible refine keepsN_next ?_ | with_reducible refine keeps_domeDerive ?_ _ _

theorem keeps_execDomeSeal {s t : State} (h : Keeps s t) : ∀ a1 a2, KeepsN s (@execDomeSeal a1 a2 t) := by
  intro a1 a2
  unfold execDomeSeal
  repeat' first
    | with_reducible assumption | with_reducible refine keepsN_next ?_ | with_reducible refine keeps_domeSeal ?_ _ _

theorem keeps_execDomeUnseal {s t : State} (h : Keeps s t) : ∀ a1 a2, KeepsN s (@execDomeUnseal a1 a2 t) := by
  intro a1 a2
  unfold execDomeUnseal
  repeat' first
    | with_reducible assumption | with_reducible refine keepsN_next ?_ | with_reducible refine keeps_domeUnseal ?_ _ _

theorem keeps_execLatchedClear {s t : State} (h : Keeps s t) : ∀ a1, KeepsN s (@execLatchedClear a1 t) := by
  intro a1
  unfold execLatchedClear
  repeat' first
    | with_reducible assumption | with_reducible refine keepsN_next ?_ | with_reducible refine keeps_latchedClear ?_ _

theorem keeps_execNoiseFail {s t : State} (h : Keeps s t) : KeepsN s (@execNoiseFail t) := by
  unfold execNoiseFail
  repeat' first
    | with_reducible assumption | with_reducible refine keepsN_next ?_ | with_reducible refine keeps_onDom ?_ _
    | with_reducible refine keeps_domeReport ?_

theorem keeps_execNoiseHealthRestored {s t : State} (h : Keeps s t) : KeepsN s (@execNoiseHealthRestored t) := by
  unfold execNoiseHealthRestored
  repeat' first
    | with_reducible assumption | with_reducible refine keepsN_next ?_ | with_reducible refine keeps_onDom ?_ _

theorem keeps_execSlotExpiry {s t : State} (h : Keeps s t) : ∀ a1, KeepsN s (@execSlotExpiry a1 t) := by
  intro a1
  unfold execSlotExpiry
  repeat' first
    | with_reducible assumption | with_reducible refine keepsN_next ?_ | with_reducible refine keeps_slotExpiry ?_ _

theorem keeps_execSlotRetire {s t : State} (h : Keeps s t) : ∀ a1 a2, KeepsN s (@execSlotRetire a1 a2 t) := by
  intro a1 a2
  unfold execSlotRetire
  repeat' first
    | with_reducible assumption | with_reducible refine keeps_ite ?_ (fun _ => ?_) | with_reducible refine keepsN_next ?_
    | with_reducible refine keeps_retireAny ?_ _ | with_reducible refine keeps_answer ?_ _ _ _
    | with_reducible refine keeps_command ?_ _ _ _ _ (fun _ _ _ => ?_) | split | dsimp only

theorem keeps_execVbatLowChange {s t : State} (h : Keeps s t) : ∀ a1, KeepsN s (@execVbatLowChange a1 t) := by
  intro a1
  unfold execVbatLowChange
  repeat' first
    | with_reducible assumption | with_reducible refine keepsN_next ?_ | with_reducible refine keeps_vbatLowChange ?_ _

theorem keeps_cpeDeliver {s t : State} (h : Keeps s t) : ∀ o, Keeps s (t.cpeDeliver o) := by
  intro o
  unfold State.cpeDeliver
  split
  · split
    · exact keeps_slotObject (keeps_fillSlot h _ _ _) _ _ _
    · exact keeps_of h rfl rfl rfl rfl rfl rfl rfl
  · exact keeps_trans h ⟨rfl, Nat.le_refl _, List.prefix_refl _, BitVec.and_self, BitVec.and_self, BitVec.and_self,
      fun x => ram_wf_writeBytes _ _ _ (ram_wf_writeBytes _ _ _ x), id, id⟩

theorem keeps_retireWaiting {s t : State} (h : Keeps s t) : Keeps s (@State.retireWaiting t) := by
  unfold State.retireWaiting
  repeat' first
    | with_reducible assumption | with_reducible refine keeps_foldl (fun _ _ _ => ?_) _ ?_ | with_reducible refine keeps_retireSlot ?_ _
    | fail_if_no_progress (with_reducible refine keeps_mk ?_ rfl rfl rfl rfl rfl rfl rfl) | dsimp only

theorem keeps_cpeDone {s t : State} (h : Keeps s t) : Keeps s (@State.cpeDone t) := by
  unfold State.cpeDone
  repeat' first
    | with_reducible assumption | with_reducible refine keeps_cpeDeliver ?_ _ | with_reducible refine keeps_retireWaiting ?_
    | with_reducible refine keeps_retireRoots ?_ | fail_if_no_progress (with_reducible refine keeps_mk ?_ rfl rfl rfl rfl rfl rfl rfl) | split
    | dsimp only

theorem keeps_placed {s t : State} (h : Keeps s t) : ∀ a b, Keeps s (t.placed a b) := by
  intro a b
  unfold State.placed
  split
  · split
    · exact keeps_trans h ⟨rfl, Nat.le_refl _, List.prefix_refl _, BitVec.and_self, BitVec.and_self, BitVec.and_self,
        fun x => ram_wf_writeBytes _ _ _ x, id, id⟩
    · exact h
  · exact h

theorem keeps_cpePlaced {s t : State} (h : Keeps s t) : ∀ a1 a2 a3 a4 a5, Keeps s (@State.cpePlaced t a1 a2 a3 a4 a5) := by
  intro a1 a2 a3 a4 a5
  unfold State.cpePlaced
  repeat' first
    | with_reducible assumption | with_reducible refine keeps_placed ?_ _ _ | split | dsimp only

theorem keeps_cpeStart {s t : State} (h : Keeps s t) : ∀ a1 a2 a3 a4 a5, Keeps s (@State.cpeStart t a1 a2 a3 a4 a5) := by
  intro a1 a2 a3 a4 a5
  unfold State.cpeStart
  repeat' first
    | with_reducible assumption | with_reducible refine keeps_ite ?_ (fun _ => ?_) | with_reducible refine keeps_cpePlaced ?_ _ _ _ _ _
    | fail_if_no_progress (with_reducible refine keeps_mk ?_ rfl rfl rfl rfl rfl rfl rfl) | split | dsimp only

theorem keeps_execCpeStart {s t : State} (h : Keeps s t) : ∀ a1 a2 a3 a4 a5, KeepsN s (@execCpeStart a1 a2 a3 a4 a5 t) := by
  intro a1 a2 a3 a4 a5
  unfold execCpeStart
  repeat' first
    | with_reducible assumption | with_reducible refine keepsN_next ?_ | with_reducible refine keeps_cpeStart ?_ _ _ _ _ _

theorem keeps_asReset {s u : State} (h : Keeps s u) : Keeps s { State.reset with
    now := u.now, free := u.free, out := u.out, pending := u.pending
    dom := { u.dom with queue := [] }
    lc := { u.lc with challenge := none }
    fw := { sealed := u.lc.sealed }
    pads := { trayReq := u.pads.trayReq }
    pwr := { hresetLow := u.pwr.hresetLow, railFell := u.pwr.railFell, clampStatic := u.pwr.clampStatic
             clampRdyIn := u.pwr.clampRdyIn, clampRdyRsp := u.pwr.clampRdyRsp } } :=
  keeps_trans h ⟨rfl, Nat.le_refl _, List.prefix_refl _, BitVec.and_self, BitVec.and_self, BitVec.and_self,
    fun _ => rfl, fun _ => Nat.zero_le _, fun _ => Nat.zero_le _⟩

theorem keeps_emitIf {s u : State} (h : Keeps s u) (c : Bool) (o : PortOut) : Keeps s (if c then u.emit o else u) :=
  keeps_ite h (fun _ => keeps_emit h o)

theorem keeps_blockReset {s t : State} (h : Keeps s t) : Keeps s t.blockReset := by
  unfold State.blockReset
  exact keeps_asReset (keeps_trigDrive (keeps_emitIf (keeps_emitIf h _ _) _ _) _)

theorem keeps_finishPending {s t : State} (h : Keeps s t) : Keeps s (@State.finishPending t) := by
  unfold State.finishPending
  repeat' first
    | with_reducible assumption | (with_reducible refine keeps_onLc ?_ _ ?_) <;> [skip; exact fun _ => rfl]
    | with_reducible refine keeps_zeroise ?_ _ _

theorem keeps_domeStart {s t : State} (h : Keeps s t) : Keeps s (@State.domeStart t) := by
  unfold State.domeStart
  repeat' first
    | with_reducible assumption | with_reducible refine keeps_ite ?_ (fun _ => ?_)
    | (with_reducible refine keeps_onLc ?_ _ ?_) <;> [skip; exact fun _ => rfl] | with_reducible refine keeps_rootSteps ?_ _
    | with_reducible refine keeps_onDom ?_ _ | with_reducible refine keeps_finishPending ?_ | with_reducible refine keeps_decodeRow ?_
    | fail_if_no_progress (with_reducible refine keeps_mk ?_ rfl rfl rfl rfl rfl rfl rfl) | split | dsimp only

theorem keeps_chipReset {s t : State} (h : Keeps s t) : Keeps s (@State.chipReset t) := by
  unfold State.chipReset
  repeat' first
    | with_reducible assumption | with_reducible refine keeps_ite ?_ (fun _ => ?_) | with_reducible refine keeps_domeStart ?_
    | with_reducible refine keeps_blockReset ?_ | split | dsimp only

theorem keeps_hresetRise {s t : State} (h : Keeps s t) : Keeps s (@State.hresetRise t) := by
  unfold State.hresetRise
  repeat' first
    | with_reducible assumption | with_reducible refine keeps_ite ?_ (fun _ => ?_) | with_reducible refine keeps_domeStart ?_
    | fail_if_no_progress (with_reducible refine keeps_mk ?_ rfl rfl rfl rfl rfl rfl rfl) | split | dsimp only

theorem keeps_railDown {s t : State} (h : Keeps s t) : Keeps s (@State.railDown t) := by
  unfold State.railDown
  repeat' first
    | with_reducible assumption | with_reducible refine keeps_ite ?_ (fun _ => ?_) | with_reducible refine keeps_emit ?_ _
    | (with_reducible refine keeps_onLc ?_ _ ?_) <;> [skip; exact fun _ => rfl] | with_reducible refine keeps_onDom ?_ _
    | with_reducible refine keeps_blockReset ?_ | fail_if_no_progress (with_reducible refine keeps_mk ?_ rfl rfl rfl rfl rfl rfl rfl) | split
    | dsimp only

theorem keeps_railUp {s t : State} (h : Keeps s t) : Keeps s (@State.railUp t) := by
  unfold State.railUp
  repeat' first
    | with_reducible assumption | with_reducible refine keeps_ite ?_ (fun _ => ?_) | with_reducible refine keeps_onDom ?_ _
    | with_reducible refine keeps_blockReset ?_ | with_reducible refine keeps_domeStart ?_
    | fail_if_no_progress (with_reducible refine keeps_mk ?_ rfl rfl rfl rfl rfl rfl rfl) | split | dsimp only

theorem keeps_vbatApply {s t : State} (h : Keeps s t) : Keeps s (@State.vbatApply t) := by
  unfold State.vbatApply
  repeat' first
    | with_reducible assumption | with_reducible refine keeps_ite ?_ (fun _ => ?_)
    | fail_if_no_progress (with_reducible refine keeps_mk ?_ rfl rfl rfl rfl rfl rfl rfl) | split | dsimp only

theorem keeps_execHresetFall {s t : State} (h : Keeps s t) : KeepsN s (@execHresetFall t) := by
  unfold execHresetFall
  repeat' first
    | with_reducible assumption | with_reducible refine keepsN_next ?_ | with_reducible refine keeps_blockReset ?_
    | fail_if_no_progress (with_reducible refine keeps_mk ?_ rfl rfl rfl rfl rfl rfl rfl) | dsimp only

theorem keeps_execHresetRise {s t : State} (h : Keeps s t) : KeepsN s (@execHresetRise t) := by
  unfold execHresetRise
  repeat' first
    | with_reducible assumption | with_reducible refine keepsN_next ?_ | with_reducible refine keeps_hresetRise ?_

theorem keeps_execRailDown {s t : State} (h : Keeps s t) : KeepsN s (@execRailDown t) := by
  unfold execRailDown
  repeat' first
    | with_reducible assumption | with_reducible refine keepsN_next ?_ | with_reducible refine keeps_railDown ?_

theorem keeps_execRailUp {s t : State} (h : Keeps s t) : KeepsN s (@execRailUp t) := by
  unfold execRailUp
  repeat' first
    | with_reducible assumption | with_reducible refine keepsN_next ?_ | with_reducible refine keeps_railUp ?_

theorem keeps_execVbatApply {s t : State} (h : Keeps s t) : KeepsN s (@execVbatApply t) := by
  unfold execVbatApply
  repeat' first
    | with_reducible assumption | with_reducible refine keepsN_next ?_ | with_reducible refine keeps_vbatApply ?_

theorem keeps_endSessions {s t : State} (h : Keeps s t) : Keeps s (@State.endSessions t) := by
  unfold State.endSessions
  repeat' first
    | with_reducible assumption | fail_if_no_progress (with_reducible refine keeps_mk ?_ rfl rfl rfl rfl rfl rfl rfl) | dsimp only

theorem keeps_debugStart {s t : State} (h : Keeps s t) : ∀ a1, Keeps s (@State.debugStart t a1) := by
  intro a1
  unfold State.debugStart
  repeat' first
    | with_reducible assumption | with_reducible refine keeps_ite ?_ (fun _ => ?_)
    | (with_reducible refine keeps_onLc ?_ _ ?_) <;> [skip; exact fun _ => rfl] | with_reducible refine keeps_reservedKeys ?_
    | with_reducible refine keeps_answer ?_ _ _ _ | with_reducible refine keeps_newRoot ?_ | with_reducible refine keeps_rootReady ?_
    | with_reducible refine keeps_onDom ?_ _ | with_reducible refine keeps_endSessions ?_ | with_reducible refine keeps_zeroise ?_ _ _
    | fail_if_no_progress (with_reducible refine keeps_mk ?_ rfl rfl rfl rfl rfl rfl rfl) | split | dsimp only

theorem keeps_transitionErase {s t : State} (h : Keeps s t) : ∀ a1, Keeps s (@State.transitionErase t a1) := by
  intro a1
  unfold State.transitionErase
  repeat' first
    | with_reducible assumption | with_reducible refine keeps_ite ?_ (fun _ => ?_)
    | (with_reducible refine keeps_onLc ?_ _ ?_) <;> [skip; exact fun _ => rfl] | with_reducible refine keeps_zeroise ?_ _ _ | split | dsimp only

theorem keeps_transitionEnds {s t : State} (h : Keeps s t) : ∀ a1, Keeps s (@State.transitionEnds t a1) := by
  intro a1
  unfold State.transitionEnds
  repeat' first
    | with_reducible assumption | with_reducible refine keeps_ite ?_ (fun _ => ?_)
    | (with_reducible refine keeps_onLc ?_ _ ?_) <;> [skip; exact fun _ => rfl] | with_reducible refine keeps_completeWhere ?_ _ _ _ _
    | with_reducible refine keeps_rootSteps ?_ _ | with_reducible refine keeps_decodeRow ?_
    | fail_if_no_progress (with_reducible refine keeps_mk ?_ rfl rfl rfl rfl rfl rfl rfl) | split | dsimp only

theorem keeps_transitionGo {s : State} : ∀ (n : Nat) {t : State}, Keeps s t → Keeps s (State.transitionGo n t)
  | 0, _, h => h
  | n + 1, t, h => by
    unfold State.transitionGo
    split
    · exact h
    · split
      · exact h
      · split
        · exact keeps_transitionGo n (keeps_onLc h _ (fun _ => rfl))
        · exact keeps_transitionGo n (keeps_transitionErase h _)
        · exact keeps_transitionEnds h _

theorem and_or_self {w : Nat} (a b : BitVec w) : a &&& (a ||| b) = a := by
  ext i hi
  simp only [BitVec.getElem_and, BitVec.getElem_or]
  cases a[i] <;> simp

theorem keeps_fuseDone {s t : State} (h : Keeps s t) : Keeps s t.fuseDone := by
  unfold State.fuseDone
  split
  · split
    · rename_i f rest _
      refine keeps_transitionGo 4 ?_
      cases f with
      | row i => exact keeps_fuses h _ (and_or_self _ _) BitVec.and_self BitVec.and_self
      | digest i => exact keeps_fuses h _ BitVec.and_self (and_or_self _ _) BitVec.and_self
      | inverse i => exact keeps_fuses h _ BitVec.and_self BitVec.and_self (and_or_self _ _)
    · exact h
  · exact h

theorem keeps_transitionStart {s t : State} (h : Keeps s t) : ∀ a1 a2, Keeps s (@State.transitionStart t a1 a2) := by
  intro a1 a2
  unfold State.transitionStart
  repeat' first
    | with_reducible assumption | with_reducible refine keeps_ite ?_ (fun _ => ?_)
    | (with_reducible refine keeps_onLc ?_ _ ?_) <;> [skip; exact fun _ => rfl] | with_reducible refine keeps_hold ?_ _
    | with_reducible refine keeps_transitionGo _ ?_ | split | dsimp only

theorem keeps_lcRequest {s t : State} (h : Keeps s t) : ∀ a1 a2, Keeps s (@State.lcRequest t a1 a2) := by
  intro a1 a2
  unfold State.lcRequest
  repeat' first
    | with_reducible assumption | with_reducible refine keeps_ite ?_ (fun _ => ?_)
    | (with_reducible refine keeps_onLc ?_ _ ?_) <;> [skip; exact fun _ => rfl] | with_reducible refine keeps_transitionStart ?_ _ _
    | with_reducible refine keeps_debugStart ?_ _ | with_reducible refine keeps_freeReason ?_ _ | with_reducible refine keeps_answer ?_ _ _ _
    | split | dsimp only

theorem keeps_readToken {s t : State} (h : Keeps s t) : ∀ a1, Keeps s (@State.readToken t a1) := by
  intro a1
  unfold State.readToken
  repeat' first
    | with_reducible assumption | with_reducible refine keeps_dmaRead ?_ _ _ _

theorem keeps_tamper {s t : State} (h : Keeps s t) : ∀ a1 a2, Keeps s (@State.tamper t a1 a2) := by
  intro a1 a2
  unfold State.tamper
  repeat' first
    | with_reducible assumption | with_reducible refine keeps_ite ?_ (fun _ => ?_)
    | (with_reducible refine keeps_onLc ?_ _ ?_) <;> [skip; exact fun _ => rfl] | with_reducible refine keeps_completeWhere ?_ _ _ _ _
    | with_reducible refine keeps_draw_eq ?_ _ _ _ (by assumption) | with_reducible refine keeps_draw ?_ _
    | with_reducible refine keeps_zeroise ?_ _ _ | split | dsimp only

theorem keeps_vbatTimeout {s t : State} (h : Keeps s t) : Keeps s (@State.vbatTimeout t) := by
  unfold State.vbatTimeout
  repeat' first
    | with_reducible assumption | with_reducible refine keeps_ite ?_ (fun _ => ?_) | with_reducible refine keeps_tamper ?_ _ _
    | with_reducible refine keeps_onDom ?_ _ | split | dsimp only

theorem keeps_execDebugOpen {s t : State} (h : Keeps s t) : ∀ a1 a2 a3, KeepsN s (@execDebugOpen a1 a2 a3 t) := by
  intro a1 a2 a3
  unfold execDebugOpen
  repeat' first
    | with_reducible assumption | with_reducible refine keepsN_next ?_ | with_reducible refine keeps_readToken ?_ _
    | with_reducible refine keeps_lcRequest ?_ _ _ | with_reducible refine keeps_command ?_ _ _ _ _ (fun _ _ _ => ?_)

theorem keeps_execFuseProgramDone {s t : State} (h : Keeps s t) : KeepsN s (@execFuseProgramDone t) := by
  unfold execFuseProgramDone
  repeat' first
    | with_reducible assumption | with_reducible refine keeps_ite ?_ (fun _ => ?_) | with_reducible refine keepsN_next ?_
    | with_reducible refine keeps_fuseDone ?_ | split | dsimp only

theorem keeps_execLcChallenge {s t : State} (h : Keeps s t) : ∀ a1, KeepsN s (@execLcChallenge a1 t) := by
  intro a1
  unfold execLcChallenge
  repeat' first
    | with_reducible assumption | (with_reducible refine keeps_onLc ?_ _ ?_) <;> [skip; exact fun _ => rfl] | with_reducible refine keepsN_next ?_
    | with_reducible refine keeps_answer ?_ _ _ _ | with_reducible refine keeps_draw_eq ?_ _ _ _ (by assumption)
    | with_reducible refine keeps_draw ?_ _ | with_reducible refine keeps_command ?_ _ _ _ _ (fun _ _ _ => ?_) | split | dsimp only

theorem keeps_execLcStatus {s t : State} (h : Keeps s t) : ∀ a1, KeepsN s (@execLcStatus a1 t) := by
  intro a1
  unfold execLcStatus
  repeat' first
    | with_reducible assumption | with_reducible refine keepsN_next ?_ | with_reducible refine keeps_answer ?_ _ _ _
    | with_reducible refine keeps_command ?_ _ _ _ _ (fun _ _ _ => ?_)

theorem keeps_execLcTransition {s t : State} (h : Keeps s t) : ∀ a1 a2 a3, KeepsN s (@execLcTransition a1 a2 a3 t) := by
  intro a1 a2 a3
  unfold execLcTransition
  repeat' first
    | with_reducible assumption | with_reducible refine keepsN_next ?_ | with_reducible refine keeps_readToken ?_ _
    | with_reducible refine keeps_lcRequest ?_ _ _ | with_reducible refine keeps_command ?_ _ _ _ _ (fun _ _ _ => ?_)

theorem keeps_execTamperInput {s t : State} (h : Keeps s t) : ∀ a1, KeepsN s (@execTamperInput a1 t) := by
  intro a1
  unfold execTamperInput
  repeat' first
    | with_reducible assumption | with_reducible refine keeps_ite ?_ (fun _ => ?_) | with_reducible refine keepsN_next ?_
    | with_reducible refine keeps_tamper ?_ _ _ | split | dsimp only

theorem keeps_execVbatLowTimeout {s t : State} (h : Keeps s t) : KeepsN s (@execVbatLowTimeout t) := by
  unfold execVbatLowTimeout
  repeat' first
    | with_reducible assumption | with_reducible refine keepsN_next ?_ | with_reducible refine keeps_vbatTimeout ?_

theorem keeps_pllLock {s t : State} (h : Keeps s t) : ∀ a1, Keeps s (@State.pllLock t a1) := by
  intro a1
  unfold State.pllLock
  repeat' first
    | with_reducible assumption | with_reducible refine keeps_ite ?_ (fun _ => ?_)
    | (with_reducible refine keeps_onSpr ?_ _ ?_) <;> [skip; exact fun _ => rfl] | with_reducible refine keeps_raiseEvent ?_ _ _ _ _
    | with_reducible refine keeps_onIsl ?_ _ _ | split | dsimp only

theorem keeps_startImage {s t : State} (h : Keeps s t) : ∀ b, Keeps s (t.startImage b) := by
  intro b
  unfold State.startImage
  exact keeps_trans h ⟨rfl, Nat.le_refl _, List.prefix_refl _, BitVec.and_self, BitVec.and_self, BitVec.and_self,
    fun _ => ram_wf_ofBytes _ _, id, id⟩

theorem keeps_tryImage {s t : State} (h : Keeps s t) : ∀ a1, Keeps s (@State.tryImage t a1) := by
  intro a1
  unfold State.tryImage
  repeat' first
    | with_reducible assumption | with_reducible refine keeps_ite ?_ (fun _ => ?_) | with_reducible refine keeps_startImage ?_ _
    | fail_if_no_progress (with_reducible refine keeps_mk ?_ rfl rfl rfl rfl rfl rfl rfl) | split | dsimp only

theorem keeps_recoveryWord {s t : State} (h : Keeps s t) : ∀ a1 a2, Keeps s (@State.recoveryWord t a1 a2) := by
  intro a1 a2
  unfold State.recoveryWord
  repeat' first
    | with_reducible assumption | with_reducible refine keeps_ite ?_ (fun _ => ?_) | with_reducible refine keeps_rxPush ?_ _ _
    | with_reducible refine keeps_dmaRead ?_ _ _ _ | with_reducible refine keeps_tryImage ?_ _ | with_reducible refine keeps_txTake ?_ _ _
    | with_reducible refine keeps_mbxTxWrite ?_ _ _ | fail_if_no_progress (with_reducible refine keeps_mk ?_ rfl rfl rfl rfl rfl rfl rfl) | split
    | dsimp only

theorem keeps_romStart {s t : State} (h : Keeps s t) : ∀ a1, Keeps s (@State.romStart t a1) := by
  intro a1
  unfold State.romStart
  repeat' first
    | with_reducible assumption | with_reducible refine keeps_ite ?_ (fun _ => ?_) | with_reducible refine keeps_tryImage ?_ _ | split | dsimp only

theorem keeps_execIslandPllLock {s t : State} (h : Keeps s t) : ∀ a1, KeepsN s (@execIslandPllLock a1 t) := by
  intro a1
  unfold execIslandPllLock
  repeat' first
    | with_reducible assumption | with_reducible refine keepsN_next ?_ | with_reducible refine keeps_pllLock ?_ _

theorem keeps_execRecoveryWord {s t : State} (h : Keeps s t) : ∀ a1 a2, KeepsN s (@execRecoveryWord a1 a2 t) := by
  intro a1 a2
  unfold execRecoveryWord
  repeat' first
    | with_reducible assumption | with_reducible refine keepsN_next ?_ | with_reducible refine keeps_recoveryWord ?_ _ _

theorem keeps_execRomLoaderStart {s t : State} (h : Keeps s t) : ∀ a1, KeepsN s (@execRomLoaderStart a1 t) := by
  intro a1
  unfold execRomLoaderStart
  repeat' first
    | with_reducible assumption | with_reducible refine keepsN_next ?_ | with_reducible refine keeps_romStart ?_ _

theorem keeps_ctxTidy {s t : State} (h : Keeps s t) : ∀ a1, Keeps s (@State.ctxTidy t a1) := by
  intro a1
  unfold State.ctxTidy
  repeat' first
    | with_reducible assumption | with_reducible refine keeps_ite ?_ (fun _ => ?_) | with_reducible refine keeps_onCtx ?_ _ _ | split | dsimp only

theorem keeps_hccFail {s t : State} (h : Keeps s t) : ∀ a1, Keeps s (@State.hccFail t a1) := by
  intro a1
  unfold State.hccFail
  repeat' first
    | with_reducible assumption | with_reducible refine keeps_foldl (fun _ _ _ => ?_) _ ?_ | with_reducible refine keeps_refuseHost ?_ _
    | with_reducible refine keeps_onHcc ?_ _ | split | dsimp only

theorem keeps_hostFlight {s t : State} (h : Keeps s t) : ∀ a1 a2, Keeps s (@State.hostFlight t a1 a2) := by
  intro a1 a2
  unfold State.hostFlight
  repeat' first
    | with_reducible assumption | with_reducible refine keeps_ite ?_ (fun _ => ?_) | with_reducible refine keeps_onHcc ?_ _ | split | dsimp only

theorem keeps_hostOutbound {s t : State} (h : Keeps s t) : ∀ a1, Keeps s (@State.hostOutbound t a1) := by
  intro a1
  unfold State.hostOutbound
  repeat' first
    | with_reducible assumption | with_reducible refine keeps_ite ?_ (fun _ => ?_) | with_reducible refine keeps_tlpSend ?_ _ _ _ _ _ _
    | with_reducible refine keeps_onHcc ?_ _ | with_reducible refine keeps_ideKey_eq ?_ _ _ _ _ _ (by assumption)
    | with_reducible refine keeps_ideKey ?_ _ _ _ | with_reducible refine keeps_ideFailed ?_ _ | with_reducible refine keeps_refuseHost ?_ _
    | with_reducible refine keeps_hostFlight ?_ _ _ | with_reducible refine keeps_tlpOut ?_ _ _ _ | split | dsimp only

theorem keeps_hostCompletion {s t : State} (h : Keeps s t) : ∀ a1 a2 a3, Keeps s (@State.hostCompletion t a1 a2 a3) := by
  intro a1 a2 a3
  unfold State.hostCompletion
  repeat' first
    | with_reducible assumption | with_reducible refine keeps_onHcc ?_ _ | with_reducible refine keeps_done ?_ _ _ _ _ | split | dsimp only

theorem keeps_hostEnter {s t : State} (h : Keeps s t) : ∀ a1 a2 a3 a4, Keeps s (@State.hostEnter t a1 a2 a3 a4) := by
  intro a1 a2 a3 a4
  unfold State.hostEnter
  repeat' first
    | with_reducible assumption | with_reducible refine keeps_ite ?_ (fun _ => ?_) | with_reducible refine keeps_emit ?_ _
    | with_reducible refine keeps_onHcc ?_ _ | split | dsimp only

theorem keeps_hostStamp {s t : State} (h : Keeps s t) : ∀ a1 a2 a3, Keeps s (@State.hostStamp t a1 a2 a3) := by
  intro a1 a2 a3
  unfold State.hostStamp
  repeat' first
    | with_reducible assumption | with_reducible refine keeps_ite ?_ (fun _ => ?_) | with_reducible refine keeps_hostReply ?_ _
    | with_reducible refine keeps_hostEnter ?_ _ _ _ _ | split | dsimp only

theorem keeps_tlpOpened {s t : State} (h : Keeps s t) : ∀ a1 a2 a3, Keeps s (@State.tlpOpened t a1 a2 a3) := by
  intro a1 a2 a3
  unfold State.tlpOpened
  repeat' first
    | with_reducible assumption | with_reducible refine keeps_ite ?_ (fun _ => ?_) | with_reducible refine keeps_hostStamp ?_ _ _ _
    | with_reducible refine keeps_hostCompletion ?_ _ _ _ | with_reducible refine keeps_ideCounted ?_ _ _ _
    | with_reducible refine keeps_countS ?_ _ _ _ _ | with_reducible refine keeps_countT ?_ _ _ _ _ | with_reducible refine keeps_ideFailed ?_ _
    | split | dsimp only

theorem keeps_hostInStream {s t : State} (h : Keeps s t) : ∀ a1 a2, Keeps s (@State.hostInStream t a1 a2) := by
  intro a1 a2
  unfold State.hostInStream
  repeat' first
    | with_reducible assumption | with_reducible refine keeps_ite ?_ (fun _ => ?_) | with_reducible refine keeps_tlpOpened ?_ _ _ _
    | with_reducible refine keeps_issueThen ?_ _ _ _ _ (fun _ _ => ?_) | with_reducible refine keeps_onHcc ?_ _
    | with_reducible refine keeps_ideKey_eq ?_ _ _ _ _ _ (by assumption) | with_reducible refine keeps_ideKey ?_ _ _ _
    | with_reducible refine keeps_ideFailed ?_ _ | split | dsimp only

theorem keeps_hccRetry {s t : State} (h : Keeps s t) : Keeps s (@State.hccRetry t) := by
  unfold State.hccRetry
  repeat' first
    | with_reducible assumption | with_reducible refine keeps_foldl (fun _ _ _ => ?_) _ ?_ | with_reducible refine keeps_hostInStream ?_ _ _
    | with_reducible refine keeps_hostOutbound ?_ _ | with_reducible refine keeps_hostReply ?_ _ | with_reducible refine keeps_onHcc ?_ _
    | dsimp only

theorem keeps_hostInbound {s t : State} (h : Keeps s t) : ∀ a1 a2, Keeps s (@State.hostInbound t a1 a2) := by
  intro a1 a2
  unfold State.hostInbound
  repeat' first
    | with_reducible assumption | with_reducible refine keeps_ite ?_ (fun _ => ?_) | with_reducible refine keeps_hostEnter ?_ _ _ _ _
    | with_reducible refine keeps_hostCompletion ?_ _ _ _ | with_reducible refine keeps_hostInStream ?_ _ _ | split | dsimp only

theorem keeps_ideTeardown {s t : State} (h : Keeps s t) : ∀ a1, Keeps s (@State.ideTeardown t a1) := by
  intro a1
  unfold State.ideTeardown
  repeat' first
    | with_reducible assumption | with_reducible refine keeps_foldl (fun _ _ _ => ?_) _ ?_ | with_reducible refine keeps_streamInsecure ?_ _
    | with_reducible refine keeps_onCtx ?_ _ _ | dsimp only

theorem keeps_kmAnswer {s t : State} (h : Keeps s t) : ∀ a1 a2, Keeps s (@State.kmAnswer t a1 a2) := by
  intro a1 a2
  unfold State.kmAnswer
  repeat' first
    | with_reducible assumption | with_reducible refine keeps_emit ?_ _

theorem keeps_kSetGo {s t : State} (h : Keeps s t) : ∀ a1, Keeps s (@State.kSetGo t a1) := by
  intro a1
  unfold State.kSetGo
  repeat' first
    | with_reducible assumption | with_reducible refine keeps_ite ?_ (fun _ => ?_) | with_reducible refine keeps_onCtx ?_ _ _
    | with_reducible refine keeps_kmAnswer ?_ _ _ | split | dsimp only

theorem keeps_kSetStop {s t : State} (h : Keeps s t) : ∀ a1, Keeps s (@State.kSetStop t a1) := by
  intro a1
  unfold State.kSetStop
  repeat' first
    | with_reducible assumption | with_reducible refine keeps_ite ?_ (fun _ => ?_) | with_reducible refine keeps_ctxTidy ?_ _
    | with_reducible refine keeps_kmAnswer ?_ _ _ | with_reducible refine keeps_streamInsecure ?_ _ | with_reducible refine keeps_onCtx ?_ _ _
    | with_reducible refine keeps_ideDrop ?_ _ | split | dsimp only

theorem keeps_keyProg {s t : State} (h : Keeps s t) : ∀ a1, Keeps s (@State.keyProg t a1) := by
  intro a1
  unfold State.keyProg
  repeat' first
    | with_reducible assumption | with_reducible refine keeps_ite ?_ (fun _ => ?_) | with_reducible refine keeps_onCtx ?_ _ _
    | with_reducible refine keeps_fillSlot ?_ _ _ _ | with_reducible refine keeps_slotObject ?_ _ _ _ | with_reducible refine keeps_ideDrop ?_ _
    | with_reducible refine keeps_kmAnswer ?_ _ _ | split | dsimp only

theorem keeps_tdispAnswer {s t : State} (h : Keeps s t) : ∀ a1 a2, Keeps s (@State.tdispAnswer t a1 a2) := by
  intro a1 a2
  unfold State.tdispAnswer
  repeat' first
    | with_reducible assumption | with_reducible refine keeps_emit ?_ _

theorem keeps_lockInterface {s t : State} (h : Keeps s t) : ∀ a1 a2, Keeps s (@State.lockInterface t a1 a2) := by
  intro a1 a2
  unfold State.lockInterface
  repeat' first
    | with_reducible assumption | with_reducible refine keeps_ite ?_ (fun _ => ?_) | with_reducible refine keeps_onTdi ?_ _ _
    | with_reducible refine keeps_draw_eq ?_ _ _ _ (by assumption) | with_reducible refine keeps_draw ?_ _
    | with_reducible refine keeps_tdispAnswer ?_ _ _ | split | dsimp only

theorem keeps_startInterface {s t : State} (h : Keeps s t) : ∀ a1 a2, Keeps s (@State.startInterface t a1 a2) := by
  intro a1 a2
  unfold State.startInterface
  repeat' first
    | with_reducible assumption | with_reducible refine keeps_ite ?_ (fun _ => ?_) | with_reducible refine keeps_onTdi ?_ _ _
    | with_reducible refine keeps_tdispAnswer ?_ _ _ | split | dsimp only

theorem keeps_tdiUnlock {s t : State} (h : Keeps s t) : ∀ a1, Keeps s (@State.tdiUnlock t a1) := by
  intro a1
  unfold State.tdiUnlock
  repeat' first
    | with_reducible assumption | with_reducible refine keeps_onTdi ?_ _ _

theorem keeps_tdisp {s t : State} (h : Keeps s t) : ∀ p (u : State), Keeps s u → Keeps s (t.tdisp p u) := by
  intro p u hu
  unfold State.tdisp
  split
  · exact h
  · split
    · exact keeps_tdispAnswer h _ _
    · exact hu

theorem keeps_tlpDiscarded {s t : State} (h : Keeps s t) : ∀ a1 a2, Keeps s (@State.tlpDiscarded t a1 a2) := by
  intro a1 a2
  unfold State.tlpDiscarded
  repeat' first
    | with_reducible assumption | with_reducible refine keeps_ideCounted ?_ _ _ _ | split | dsimp only

theorem keeps_execGetDeviceInterfaceReport {s t : State} (h : Keeps s t) : ∀ a1, KeepsN s (@execGetDeviceInterfaceReport a1 t) := by
  intro a1
  unfold execGetDeviceInterfaceReport
  repeat' first
    | with_reducible assumption | with_reducible refine keepsN_next ?_ | with_reducible refine keeps_tdispAnswer ?_ _ _
    | with_reducible refine keeps_tdisp ?_ _ _ ?_

theorem keeps_execGetDeviceInterfaceState {s t : State} (h : Keeps s t) : ∀ a1, KeepsN s (@execGetDeviceInterfaceState a1 t) := by
  intro a1
  unfold execGetDeviceInterfaceState
  repeat' first
    | with_reducible assumption | with_reducible refine keepsN_next ?_ | with_reducible refine keeps_tdispAnswer ?_ _ _
    | with_reducible refine keeps_tdisp ?_ _ _ ?_

theorem keeps_execGetTdispCapabilities {s t : State} (h : Keeps s t) : ∀ a1, KeepsN s (@execGetTdispCapabilities a1 t) := by
  intro a1
  unfold execGetTdispCapabilities
  repeat' first
    | with_reducible assumption | with_reducible refine keepsN_next ?_ | with_reducible refine keeps_tdispAnswer ?_ _ _
    | with_reducible refine keeps_tdisp ?_ _ _ ?_

theorem keeps_execGetTdispVersion {s t : State} (h : Keeps s t) : ∀ a1, KeepsN s (@execGetTdispVersion a1 t) := by
  intro a1
  unfold execGetTdispVersion
  repeat' first
    | with_reducible assumption | with_reducible refine keepsN_next ?_ | with_reducible refine keeps_tdispAnswer ?_ _ _
    | with_reducible refine keeps_tdisp ?_ _ _ ?_

theorem keeps_execHostInboundTlp {s t : State} (h : Keeps s t) : ∀ a1 a2, KeepsN s (@execHostInboundTlp a1 a2 t) := by
  intro a1 a2
  unfold execHostInboundTlp
  repeat' first
    | with_reducible assumption | with_reducible refine keepsN_next ?_ | with_reducible refine keeps_hccRetry ?_
    | with_reducible refine keeps_hostInbound ?_ _ _ | with_reducible refine keeps_atIngress ?_ _ _ _ (fun _ _ => ?_)

theorem keeps_execHostOutboundRequest {s t : State} (h : Keeps s t) : ∀ a1, KeepsN s (@execHostOutboundRequest a1 t) := by
  intro a1
  unfold execHostOutboundRequest
  repeat' first
    | with_reducible assumption | with_reducible refine keepsN_next ?_ | with_reducible refine keeps_hccRetry ?_
    | with_reducible refine keeps_hostOutbound ?_ _ | with_reducible refine keeps_atIngress ?_ _ _ _ (fun _ _ => ?_)

theorem keeps_execIdeKmKSetGo {s t : State} (h : Keeps s t) : ∀ a1, KeepsN s (@execIdeKmKSetGo a1 t) := by
  intro a1
  unfold execIdeKmKSetGo
  repeat' first
    | with_reducible assumption | with_reducible refine keepsN_next ?_ | with_reducible refine keeps_kSetGo ?_ _

theorem keeps_execIdeKmKSetStop {s t : State} (h : Keeps s t) : ∀ a1, KeepsN s (@execIdeKmKSetStop a1 t) := by
  intro a1
  unfold execIdeKmKSetStop
  repeat' first
    | with_reducible assumption | with_reducible refine keepsN_next ?_ | with_reducible refine keeps_kSetStop ?_ _

theorem keeps_execIdeKmKeyProg {s t : State} (h : Keeps s t) : ∀ a1, KeepsN s (@execIdeKmKeyProg a1 t) := by
  intro a1
  unfold execIdeKmKeyProg
  repeat' first
    | with_reducible assumption | with_reducible refine keepsN_next ?_ | with_reducible refine keeps_keyProg ?_ _

theorem keeps_execIdeKmQuery {s t : State} (h : Keeps s t) : ∀ a1, KeepsN s (@execIdeKmQuery a1 t) := by
  intro a1
  unfold execIdeKmQuery
  repeat' first
    | with_reducible assumption | with_reducible refine keeps_ite ?_ (fun _ => ?_) | with_reducible refine keepsN_next ?_
    | with_reducible refine keeps_kmAnswer ?_ _ _ | split | dsimp only

theorem keeps_execLockInterfaceRequest {s t : State} (h : Keeps s t) : ∀ a1 a2, KeepsN s (@execLockInterfaceRequest a1 a2 t) := by
  intro a1 a2
  unfold execLockInterfaceRequest
  repeat' first
    | with_reducible assumption | with_reducible refine keepsN_next ?_ | with_reducible refine keeps_lockInterface ?_ _ _
    | with_reducible refine keeps_tdisp ?_ _ _ ?_

theorem keeps_execStartInterfaceRequest {s t : State} (h : Keeps s t) : ∀ a1 a2, KeepsN s (@execStartInterfaceRequest a1 a2 t) := by
  intro a1 a2
  unfold execStartInterfaceRequest
  repeat' first
    | with_reducible assumption | with_reducible refine keepsN_next ?_ | with_reducible refine keeps_startInterface ?_ _ _
    | with_reducible refine keeps_tdisp ?_ _ _ ?_

theorem keeps_execStopInterfaceRequest {s t : State} (h : Keeps s t) : ∀ a1, KeepsN s (@execStopInterfaceRequest a1 t) := by
  intro a1
  unfold execStopInterfaceRequest
  repeat' first
    | with_reducible assumption | with_reducible refine keepsN_next ?_ | with_reducible refine keeps_tdiUnlock ?_ _
    | with_reducible refine keeps_tdispAnswer ?_ _ _ | with_reducible refine keeps_tdisp ?_ _ _ ?_

theorem keeps_onSig {s t : State} (h : Keeps s t) : ∀ a1 a2, Keeps s (@State.onSig t a1 a2) := by
  intro a1 a2
  unfold State.onSig
  repeat' first
    | with_reducible assumption | fail_if_no_progress (with_reducible refine keeps_mk ?_ rfl rfl rfl rfl rfl rfl rfl) | dsimp only

theorem keeps_belfryAdd {s t : State} (h : Keeps s t) : ∀ a1 a2 a3 a4 a5, Keeps s (@State.belfryAdd t a1 a2 a3 a4 a5) := by
  intro a1 a2 a3 a4 a5
  unfold State.belfryAdd
  repeat' first
    | with_reducible assumption | with_reducible refine keeps_ite ?_ (fun _ => ?_) | with_reducible refine keeps_count ?_ _ _
    | with_reducible refine keeps_onSig ?_ _ _ | with_reducible refine keeps_countT ?_ _ _ _ _
    | fail_if_no_progress (with_reducible refine keeps_mk ?_ rfl rfl rfl rfl rfl rfl rfl) | split | dsimp only

theorem keeps_belfryAtomic {s t : State} (h : Keeps s t) : ∀ a1 a2, Keeps s (@State.belfryAtomic t a1 a2) := by
  intro a1 a2
  unfold State.belfryAtomic
  repeat' first
    | with_reducible assumption | with_reducible refine keeps_ite ?_ (fun _ => ?_) | with_reducible refine keeps_onSig ?_ _ _ | split | dsimp only

theorem keeps_belfryFailed {s t : State} (h : Keeps s t) : ∀ a1, Keeps s (@State.belfryFailed t a1) := by
  intro a1
  unfold State.belfryFailed
  repeat' first
    | with_reducible assumption | with_reducible refine keeps_ite ?_ (fun _ => ?_) | with_reducible refine keeps_onSig ?_ _ _ | split | dsimp only

theorem keeps_belfryReset {s t : State} (h : Keeps s t) : ∀ a1, Keeps s (@State.belfryReset t a1) := by
  intro a1
  unfold State.belfryReset
  repeat' first
    | with_reducible assumption | with_reducible refine keeps_ite ?_ (fun _ => ?_)
    | fail_if_no_progress (with_reducible refine keeps_mk ?_ rfl rfl rfl rfl rfl rfl rfl) | split | dsimp only

theorem keeps_scalesRest {s t : State} (h : Keeps s t) : Keeps s (@State.scalesRest t) := by
  unfold State.scalesRest
  repeat' first
    | with_reducible assumption | with_reducible refine keeps_ite ?_ (fun _ => ?_)
    | fail_if_no_progress (with_reducible refine keeps_mk ?_ rfl rfl rfl rfl rfl rfl rfl) | split | dsimp only

theorem keeps_dropSig {s t : State} (h : Keeps s t) : ∀ a1, Keeps s (@State.dropSig t a1) := by
  intro a1
  unfold State.dropSig
  repeat' first
    | with_reducible assumption | with_reducible refine keeps_ite ?_ (fun _ => ?_) | with_reducible refine keeps_scalesRest ?_
    | fail_if_no_progress (with_reducible refine keeps_mk ?_ rfl rfl rfl rfl rfl rfl rfl) | split | dsimp only

theorem keeps_admitReq {s t : State} (h : Keeps s t) : ∀ a1 a2 a3 a4 a5 a6 a7, Keeps s (@State.admitReq t a1 a2 a3 a4 a5 a6 a7) := by
  intro a1 a2 a3 a4 a5 a6 a7
  unfold State.admitReq
  repeat' first
    | with_reducible assumption | with_reducible refine keeps_onMem ?_ _ _

theorem keeps_belfryTake {s t : State} (h : Keeps s t) : ∀ a1 a2 a3, Keeps s (@State.belfryTake t a1 a2 a3).1 := by
  intro a1 a2 a3
  unfold State.belfryTake
  repeat' first
    | with_reducible assumption | with_reducible refine keeps_ite ?_ (fun _ => ?_) | with_reducible refine keeps_belfryAdd ?_ _ _ _ _ _ | split
    | dsimp only

theorem keeps_belfryTake_eq {s t : State} (h : Keeps s t) : ∀ a1 a2 a3 x y, (@State.belfryTake t a1 a2 a3) = (x, y) → Keeps s x := by
  intro a1 a2 a3 x y e
  have k := keeps_belfryTake h a1 a2 a3
  rw [e] at k
  exact k

theorem keeps_completeReq {s t : State} (h : Keeps s t) : ∀ a1, Keeps s (@State.completeReq t a1) := by
  intro a1
  unfold State.completeReq
  repeat' first
    | with_reducible assumption | with_reducible refine keeps_ite ?_ (fun _ => ?_) | with_reducible refine keeps_done ?_ _ _ _ _ | split
    | dsimp only

theorem keeps_refuseReq {s t : State} (h : Keeps s t) : ∀ a1 a2 a3 a4, Keeps s (@State.refuseReq t a1 a2 a3 a4) := by
  intro a1 a2 a3 a4
  unfold State.refuseReq
  repeat' first
    | with_reducible assumption | with_reducible refine keeps_completeReq ?_ _ | with_reducible refine keeps_countT ?_ _ _ _ _

theorem keeps_checkReq {s t : State} (h : Keeps s t) : ∀ a1 a2 a3, Keeps s (@State.checkReq t a1 a2 a3).1 := by
  intro a1 a2 a3
  unfold State.checkReq
  repeat' first
    | with_reducible assumption | with_reducible refine keeps_ite ?_ (fun _ => ?_) | with_reducible refine keeps_checkFailed ?_ _ _ _ _ _
    | with_reducible refine keeps_report ?_ _ _ _ _ | with_reducible refine keeps_refuseReq ?_ _ _ _ _ | split | dsimp only

theorem keeps_checkReq_eq {s t : State} (h : Keeps s t) : ∀ a1 a2 a3 x y, (@State.checkReq t a1 a2 a3) = (x, y) → Keeps s x := by
  intro a1 a2 a3 x y e
  have k := keeps_checkReq h a1 a2 a3
  rw [e] at k
  exact k

theorem keeps_retireReq {s t : State} (h : Keeps s t) : ∀ a1 a2 a3, Keeps s (@State.retireReq t a1 a2 a3) := by
  intro a1 a2 a3
  unfold State.retireReq
  repeat' first
    | with_reducible assumption | with_reducible refine keeps_ite ?_ (fun _ => ?_) | with_reducible refine keeps_countT ?_ _ _ _ _
    | with_reducible refine keeps_completeReq ?_ _ | with_reducible refine keeps_onMem ?_ _ _ | split | dsimp only

theorem keeps_finishOp {s t : State} (h : Keeps s t) : ∀ a1 a2 a3 a4, Keeps s (@State.finishOp t a1 a2 a3 a4) := by
  intro a1 a2 a3 a4
  unfold State.finishOp
  repeat' first
    | with_reducible assumption | with_reducible refine keeps_ite ?_ (fun _ => ?_) | with_reducible refine keeps_retireReq ?_ _ _ _
    | with_reducible refine keeps_onMem ?_ _ _ | with_reducible refine keeps_belfryFailed ?_ _ | split | dsimp only

theorem keeps_failOp {s t : State} (h : Keeps s t) : ∀ a1 a2 a3, Keeps s (@State.failOp t a1 a2 a3) := by
  intro a1 a2 a3
  unfold State.failOp
  repeat' first
    | with_reducible assumption | with_reducible refine keeps_ite ?_ (fun _ => ?_) | with_reducible refine keeps_report ?_ _ _ _ _
    | with_reducible refine keeps_finishOp ?_ _ _ _ _ | with_reducible refine keeps_note ?_ _ _ _ _ _ _ _ | split | dsimp only

theorem keeps_lineWritten {s t : State} (h : Keeps s t) : ∀ a1 a2, Keeps s (@State.lineWritten t a1 a2) := by
  intro a1 a2
  unfold State.lineWritten
  repeat' first
    | with_reducible assumption | with_reducible refine keeps_ite ?_ (fun _ => ?_) | with_reducible refine keeps_reportWrites ?_ _ _
    | with_reducible refine keeps_onCluster ?_ _ _ | split | dsimp only

theorem keeps_onMotion {s t : State} (h : Keeps s t) : ∀ a1 a2 a3, Keeps s (@State.onMotion t a1 a2 a3) := by
  intro a1 a2 a3
  unfold State.onMotion
  repeat' first
    | with_reducible assumption | fail_if_no_progress (with_reducible refine keeps_mk ?_ rfl rfl rfl rfl rfl rfl rfl) | dsimp only

theorem keeps_markInstalled {s t : State} (h : Keeps s t) : ∀ a1, Keeps s (@State.markInstalled t a1) := by
  intro a1
  unfold State.markInstalled
  repeat' first
    | with_reducible assumption | with_reducible refine keeps_ite ?_ (fun _ => ?_) | with_reducible refine keeps_foldl (fun _ _ _ => ?_) _ ?_
    | with_reducible refine keeps_onMotion ?_ _ _ _ | split | dsimp only

theorem keeps_markNewkey {s t : State} (h : Keeps s t) : ∀ a1, Keeps s (@State.markNewkey t a1).1 := by
  intro a1
  unfold State.markNewkey
  repeat' first
    | with_reducible assumption | with_reducible refine keeps_onMotion ?_ _ _ _ | split | dsimp only

theorem keeps_markNewkey_eq {s t : State} (h : Keeps s t) : ∀ a1 x y, (@State.markNewkey t a1) = (x, y) → Keeps s x := by
  intro a1 x y e
  have k := keeps_markNewkey h a1
  rw [e] at k
  exact k

theorem keeps_onOp {s t : State} (h : Keeps s t) : ∀ a1 a2 a3, Keeps s (@State.onOp t a1 a2 a3) := by
  intro a1 a2 a3
  unfold State.onOp
  repeat' first
    | with_reducible assumption | with_reducible refine keeps_onMem ?_ _ _

theorem keeps_tagHit {s t : State} (h : Keeps s t) : ∀ a1 a2, Keeps s (@State.tagHit t a1 a2) := by
  intro a1 a2
  unfold State.tagHit
  repeat' first
    | with_reducible assumption | with_reducible refine keeps_onMcc ?_ _ _ | split | dsimp only

theorem keeps_tagFetch {s t : State} (h : Keeps s t) : ∀ a1 a2, Keeps s (@State.tagFetch t a1 a2) := by
  intro a1 a2
  unfold State.tagFetch
  repeat' first
    | with_reducible assumption | with_reducible refine keeps_emit ?_ _ | with_reducible refine keeps_onMcc ?_ _ _
    | with_reducible refine keeps_countT ?_ _ _ _ _

theorem keeps_mccFetch {s t : State} (h : Keeps s t) : ∀ a1 a2, Keeps s (@State.mccFetch t a1 a2) := by
  intro a1 a2
  unfold State.mccFetch
  repeat' first
    | with_reducible assumption | with_reducible refine keeps_ite ?_ (fun _ => ?_) | with_reducible refine keeps_emit ?_ _
    | with_reducible refine keeps_onOp ?_ _ _ _ | with_reducible refine keeps_tagFetch ?_ _ _ | with_reducible refine keeps_tagHit ?_ _ _ | split
    | dsimp only

theorem keeps_mccDecrypt {s t : State} (h : Keeps s t) : ∀ a1 a2 a3 a4, Keeps s (@State.mccDecrypt t a1 a2 a3 a4) := by
  intro a1 a2 a3 a4
  unfold State.mccDecrypt
  repeat' first
    | with_reducible assumption | with_reducible refine keeps_issueThen ?_ _ _ _ _ (fun _ _ => ?_) | with_reducible refine keeps_onOp ?_ _ _ _
    | split | dsimp only

theorem keeps_tagWriteBack {s t : State} (h : Keeps s t) : ∀ a1 a2 a3, Keeps s (@State.tagWriteBack t a1 a2 a3) := by
  intro a1 a2 a3
  unfold State.tagWriteBack
  repeat' first
    | with_reducible assumption | with_reducible refine keeps_emit ?_ _

theorem keeps_tagPut {s t : State} (h : Keeps s t) : ∀ a1 a2, Keeps s (@State.tagPut t a1 a2) := by
  intro a1 a2
  unfold State.tagPut
  repeat' first
    | with_reducible assumption | with_reducible refine keeps_ite ?_ (fun _ => ?_) | with_reducible refine keeps_onMcc ?_ _ _
    | with_reducible refine keeps_tagWriteBack ?_ _ _ _ | split | dsimp only

theorem keeps_tagInstall {s t : State} (h : Keeps s t) : ∀ a1 a2 a3, Keeps s (@State.tagInstall t a1 a2 a3) := by
  intro a1 a2 a3
  unfold State.tagInstall
  repeat' first
    | with_reducible assumption | with_reducible refine keeps_tagPut ?_ _ _ | split | dsimp only

theorem keeps_mccWriteOut {s t : State} (h : Keeps s t) : ∀ a1 a2, Keeps s (@State.mccWriteOut t a1 a2) := by
  intro a1 a2
  unfold State.mccWriteOut
  repeat' first
    | with_reducible assumption | with_reducible refine keeps_emit ?_ _ | with_reducible refine keeps_onOp ?_ _ _ _
    | with_reducible refine keeps_countT ?_ _ _ _ _ | with_reducible refine keeps_markInstalled ?_ _
    | with_reducible refine keeps_tagInstall ?_ _ _ _

theorem keeps_mccEncrypt {s t : State} (h : Keeps s t) : ∀ a1 a2 a3, Keeps s (@State.mccEncrypt t a1 a2 a3) := by
  intro a1 a2 a3
  unfold State.mccEncrypt
  repeat' first
    | with_reducible assumption | with_reducible refine keeps_ite ?_ (fun _ => ?_) | with_reducible refine keeps_mccWriteOut ?_ _ _
    | with_reducible refine keeps_onOp ?_ _ _ _ | with_reducible refine keeps_issueThen ?_ _ _ _ _ (fun _ _ => ?_)
    | with_reducible refine keeps_lineWritten ?_ _ _ | with_reducible refine keeps_countT ?_ _ _ _ _
    | with_reducible refine keeps_belfryTake_eq ?_ _ _ _ _ _ (by assumption) | with_reducible refine keeps_belfryTake ?_ _ _ _
    | with_reducible refine keeps_markNewkey_eq ?_ _ _ _ (by assumption) | with_reducible refine keeps_markNewkey ?_ _ | split | dsimp only

theorem keeps_mccAdvance {s t : State} (h : Keeps s t) : ∀ a1 a2, Keeps s (@State.mccAdvance t a1 a2) := by
  intro a1 a2
  unfold State.mccAdvance
  repeat' first
    | with_reducible assumption | with_reducible refine keeps_ite ?_ (fun _ => ?_) | with_reducible refine keeps_emit ?_ _
    | with_reducible refine keeps_failOp ?_ _ _ _ | with_reducible refine keeps_mccEncrypt ?_ _ _ _
    | with_reducible refine keeps_mccDecrypt ?_ _ _ _ _ | with_reducible refine keeps_readySched_eq ?_ _ _ _ _ (by assumption)
    | with_reducible refine keeps_readySched ?_ _ _ | with_reducible refine keeps_mccFetch ?_ _ _ | with_reducible refine keeps_onOp ?_ _ _ _
    | with_reducible refine keeps_countT ?_ _ _ _ _ | with_reducible refine keeps_belfryTake_eq ?_ _ _ _ _ _ (by assumption)
    | with_reducible refine keeps_belfryTake ?_ _ _ _ | split | dsimp only

theorem keeps_mccPass {s t : State} (h : Keeps s t) : ∀ a1, Keeps s (@State.mccPass t a1) := by
  intro a1
  unfold State.mccPass
  repeat' first
    | with_reducible assumption | with_reducible refine keeps_foldl (fun _ _ _ => ?_) _ ?_ | with_reducible refine keeps_mccAdvance ?_ _ _
    | dsimp only

theorem keeps_mccPump {s t : State} (h : Keeps s t) : ∀ a1, Keeps s (@State.mccPump t a1) := by
  intro a1
  unfold State.mccPump
  repeat' first
    | with_reducible assumption | with_reducible refine keeps_foldl (fun _ _ _ => ?_) _ ?_ | with_reducible refine keeps_mccPass ?_ _ | dsimp only

theorem keeps_mccAccept {s t : State} (h : Keeps s t) : ∀ a1 a2 a3, Keeps s (@State.mccAccept t a1 a2 a3) := by
  intro a1 a2 a3
  unfold State.mccAccept
  repeat' first
    | with_reducible assumption | with_reducible refine keeps_ite ?_ (fun _ => ?_) | with_reducible refine keeps_foldl (fun _ _ _ => ?_) _ ?_
    | with_reducible refine keeps_admitReq ?_ _ _ _ _ _ _ _ | with_reducible refine keeps_mccPump ?_ _
    | with_reducible refine keeps_belfryAtomic ?_ _ _ | with_reducible refine keeps_onMcc ?_ _ _
    | with_reducible refine keeps_checkReq_eq ?_ _ _ _ _ _ (by assumption) | with_reducible refine keeps_checkReq ?_ _ _ _ | split | dsimp only

theorem keeps_mccRequest {s t : State} (h : Keeps s t) : ∀ a1 a2 a3, Keeps s (@State.mccRequest t a1 a2 a3) := by
  intro a1 a2 a3
  unfold State.mccRequest
  repeat' first
    | with_reducible assumption | with_reducible refine keeps_ite ?_ (fun _ => ?_) | with_reducible refine keeps_mccAccept ?_ _ _ _
    | with_reducible refine keeps_countT ?_ _ _ _ _ | fail_if_no_progress (with_reducible refine keeps_mk ?_ rfl rfl rfl rfl rfl rfl rfl) | split
    | dsimp only

theorem keeps_tagFlush {s t : State} (h : Keeps s t) : ∀ a1, Keeps s (@State.tagFlush t a1) := by
  intro a1
  unfold State.tagFlush
  repeat' first
    | with_reducible assumption | with_reducible refine keeps_ite ?_ (fun _ => ?_) | with_reducible refine keeps_foldl (fun _ _ _ => ?_) _ ?_
    | with_reducible refine keeps_onMcc ?_ _ _ | with_reducible refine keeps_tagWriteBack ?_ _ _ _ | split | dsimp only

theorem keeps_mccReset {s t : State} (h : Keeps s t) : ∀ a1 a2, Keeps s (@State.mccReset t a1 a2) := by
  intro a1 a2
  unfold State.mccReset
  repeat' first
    | with_reducible assumption | with_reducible refine keeps_ite ?_ (fun _ => ?_) | with_reducible refine keeps_onMcc ?_ _ _
    | with_reducible refine keeps_tagFlush ?_ _ | split | dsimp only

theorem keeps_mccVerdict {s t : State} (h : Keeps s t) : ∀ a1 a2, Keeps s (@State.mccVerdict t a1 a2) := by
  intro a1 a2
  unfold State.mccVerdict
  repeat' first
    | with_reducible assumption | with_reducible refine keeps_ite ?_ (fun _ => ?_) | with_reducible refine keeps_failOp ?_ _ _ _
    | with_reducible refine keeps_onOp ?_ _ _ _ | with_reducible refine keeps_finishOp ?_ _ _ _ _ | with_reducible refine keeps_mccPump ?_ _
    | with_reducible refine keeps_countT ?_ _ _ _ _ | split | dsimp only

theorem keeps_mpAccept {s t : State} (h : Keeps s t) : ∀ a1 a2, Keeps s (@State.mpAccept t a1 a2) := by
  intro a1 a2
  unfold State.mpAccept
  repeat' first
    | with_reducible assumption | with_reducible refine keeps_ite ?_ (fun _ => ?_) | with_reducible refine keeps_finishOp ?_ _ _ _ _
    | with_reducible refine keeps_mccPump ?_ _ | with_reducible refine keeps_onMcc ?_ _ _ | split | dsimp only

theorem keeps_mpData {s t : State} (h : Keeps s t) : ∀ a1 a2 a3 a4, Keeps s (@State.mpData t a1 a2 a3 a4) := by
  intro a1 a2 a3 a4
  unfold State.mpData
  repeat' first
    | with_reducible assumption | with_reducible refine keeps_ite ?_ (fun _ => ?_) | with_reducible refine keeps_emit ?_ _
    | with_reducible refine keeps_onOp ?_ _ _ _ | with_reducible refine keeps_finishOp ?_ _ _ _ _ | with_reducible refine keeps_failOp ?_ _ _ _
    | with_reducible refine keeps_mccPump ?_ _ | with_reducible refine keeps_countT ?_ _ _ _ _ | split | dsimp only

theorem keeps_tagArrival {s t : State} (h : Keeps s t) : ∀ a1 a2 a3 a4, Keeps s (@State.tagArrival t a1 a2 a3 a4) := by
  intro a1 a2 a3 a4
  unfold State.tagArrival
  repeat' first
    | with_reducible assumption | with_reducible refine keeps_ite ?_ (fun _ => ?_) | with_reducible refine keeps_foldl (fun _ _ _ => ?_) _ ?_
    | with_reducible refine keeps_tagPut ?_ _ _ | with_reducible refine keeps_onOp ?_ _ _ _ | with_reducible refine keeps_failOp ?_ _ _ _
    | with_reducible refine keeps_mccPump ?_ _ | with_reducible refine keeps_countT ?_ _ _ _ _ | with_reducible refine keeps_onMcc ?_ _ _ | split
    | dsimp only

theorem keeps_tagRestore {s t : State} (h : Keeps s t) : ∀ a1 a2 a3, Keeps s (@State.tagRestore t a1 a2 a3) := by
  intro a1 a2 a3
  unfold State.tagRestore
  repeat' first
    | with_reducible assumption | with_reducible refine keeps_onMcc ?_ _ _ | split | dsimp only

theorem keeps_unmarkNewkey {s t : State} (h : Keeps s t) : ∀ a1, Keeps s (@State.unmarkNewkey t a1) := by
  intro a1
  unfold State.unmarkNewkey
  repeat' first
    | with_reducible assumption | with_reducible refine keeps_ite ?_ (fun _ => ?_) | with_reducible refine keeps_onMotion ?_ _ _ _ | split
    | dsimp only

theorem keeps_releaseHeld {s t : State} (h : Keeps s t) : Keeps s (@State.releaseHeld t) := by
  unfold State.releaseHeld
  repeat' first
    | with_reducible assumption | with_reducible refine keeps_ite ?_ (fun _ => ?_) | with_reducible refine keeps_foldl (fun _ _ _ => ?_) _ ?_
    | with_reducible refine keeps_mccAccept ?_ _ _ _ | fail_if_no_progress (with_reducible refine keeps_mk ?_ rfl rfl rfl rfl rfl rfl rfl) | split
    | dsimp only

theorem keeps_commitEnds {s t : State} (h : Keeps s t) : ∀ a1 a2, Keeps s (@State.commitEnds t a1 a2) := by
  intro a1 a2
  unfold State.commitEnds
  repeat' first
    | with_reducible assumption | with_reducible refine keeps_onMotion ?_ _ _ _ | with_reducible refine keeps_releaseHeld ?_

theorem keeps_writeId {s t : State} (h : Keeps s t) : ∀ a1, Keeps s (@State.writeId t a1).2 := by
  intro a1
  unfold State.writeId
  repeat' first
    | with_reducible assumption | with_reducible refine keeps_onMem ?_ _ _ | dsimp only

theorem keeps_writeId_eq {s t : State} (h : Keeps s t) : ∀ a1 x y, (@State.writeId t a1) = (x, y) → Keeps s y := by
  intro a1 x y e
  have k := keeps_writeId h a1
  rw [e] at k
  exact k

theorem keeps_storeLine {s t : State} (h : Keeps s t) : ∀ a1 a2 a3 a4, Keeps s (@State.storeLine t a1 a2 a3 a4) := by
  intro a1 a2 a3 a4
  unfold State.storeLine
  repeat' first
    | with_reducible assumption | with_reducible refine keeps_emit ?_ _ | with_reducible refine keeps_tagInstall ?_ _ _ _
    | with_reducible refine keeps_writeId_eq ?_ _ _ _ (by assumption) | with_reducible refine keeps_writeId ?_ _ | split | dsimp only

theorem keeps_newtStored {s t : State} (h : Keeps s t) : ∀ a1 a2 a3 a4 a5, Keeps s (@State.newtStored t a1 a2 a3 a4 a5) := by
  intro a1 a2 a3 a4 a5
  unfold State.newtStored
  repeat' first
    | with_reducible assumption | with_reducible refine keeps_storeLine ?_ _ _ _ _ | with_reducible refine keeps_markInstalled ?_ _
    | with_reducible refine keeps_countT ?_ _ _ _ _

theorem keeps_commitLine {s t : State} (h : Keeps s t) : ∀ a1 a2 a3 a4, Keeps s (@State.commitLine t a1 a2 a3 a4) := by
  intro a1 a2 a3 a4
  unfold State.commitLine
  repeat' first
    | with_reducible assumption | with_reducible refine keeps_ite ?_ (fun _ => ?_) | with_reducible refine keeps_newtStored ?_ _ _ _ _ _
    | with_reducible refine keeps_lineWritten ?_ _ _ | with_reducible refine keeps_issueThen ?_ _ _ _ _ (fun _ _ => ?_)
    | with_reducible refine keeps_onMotion ?_ _ _ _ | with_reducible refine keeps_readySched_eq ?_ _ _ _ _ (by assumption)
    | with_reducible refine keeps_readySched ?_ _ _ | split | dsimp only

theorem keeps_copyBad {s t : State} (h : Keeps s t) : ∀ a1 a2, Keeps s (@State.copyBad t a1 a2) := by
  intro a1 a2
  unfold State.copyBad
  repeat' first
    | with_reducible assumption | with_reducible refine keeps_onMotion ?_ _ _ _

theorem keeps_newtTag {s t : State} (h : Keeps s t) : ∀ a1 a2 a3, Keeps s (@State.newtTag t a1 a2 a3).1 := by
  intro a1 a2 a3
  unfold State.newtTag
  repeat' first
    | with_reducible assumption | with_reducible refine keeps_tagHit ?_ _ _ | split | dsimp only

theorem keeps_newtTag_eq {s t : State} (h : Keeps s t) : ∀ a1 a2 a3 x y, (@State.newtTag t a1 a2 a3) = (x, y) → Keeps s x := by
  intro a1 a2 a3 x y e
  have k := keeps_newtTag h a1 a2 a3
  rw [e] at k
  exact k

theorem keeps_newtCopied {s t : State} (h : Keeps s t) : ∀ a1 a2 a3 a4, Keeps s (@State.newtCopied t a1 a2 a3 a4) := by
  intro a1 a2 a3 a4
  unfold State.newtCopied
  repeat' first
    | with_reducible assumption | with_reducible refine keeps_ite ?_ (fun _ => ?_) | with_reducible refine keeps_report ?_ _ _ _ _
    | with_reducible refine keeps_copyBad ?_ _ _ | with_reducible refine keeps_countT ?_ _ _ _ _ | with_reducible refine keeps_onMotion ?_ _ _ _
    | split | dsimp only

theorem keeps_copyLine {s t : State} (h : Keeps s t) : ∀ a1 a2 a3, Keeps s (@State.copyLine t a1 a2 a3) := by
  intro a1 a2 a3
  unfold State.copyLine
  repeat' first
    | with_reducible assumption | with_reducible refine keeps_ite ?_ (fun _ => ?_) | with_reducible refine keeps_newtCopied ?_ _ _ _ _
    | with_reducible refine keeps_issueThen ?_ _ _ _ _ (fun _ _ => ?_) | with_reducible refine keeps_newtTag_eq ?_ _ _ _ _ _ (by assumption)
    | with_reducible refine keeps_newtTag ?_ _ _ _ | with_reducible refine keeps_readySched_eq ?_ _ _ _ _ (by assumption)
    | with_reducible refine keeps_readySched ?_ _ _ | with_reducible refine keeps_countT ?_ _ _ _ _ | with_reducible refine keeps_report ?_ _ _ _ _
    | with_reducible refine keeps_copyBad ?_ _ _ | split | dsimp only

theorem keeps_entrySlot {s t : State} (h : Keeps s t) : ∀ a1 a2, Keeps s (@State.entrySlot t a1 a2) := by
  intro a1 a2
  unfold State.entrySlot
  repeat' first
    | with_reducible assumption | with_reducible refine keeps_ite ?_ (fun _ => ?_) | with_reducible refine keeps_foldl (fun _ _ _ => ?_) _ ?_
    | with_reducible refine keeps_setRep ?_ _ _ _ | with_reducible refine keeps_setMaster ?_ _ _
    | fail_if_no_progress (with_reducible refine keeps_mk ?_ rfl rfl rfl rfl rfl rfl rfl) | split | dsimp only

theorem keeps_freshKey {s t : State} (h : Keeps s t) : ∀ a1 a2 a3 a4, Keeps s (@State.freshKey t a1 a2 a3 a4) := by
  intro a1 a2 a3 a4
  unfold State.freshKey
  repeat' first
    | with_reducible assumption | with_reducible refine keeps_onSlot ?_ _ _ | with_reducible refine keeps_deriveQueue ?_ _

theorem keeps_onMove {s t : State} (h : Keeps s t) : ∀ a1 a2, Keeps s (@State.onMove t a1 a2) := by
  intro a1 a2
  unfold State.onMove
  repeat' first
    | with_reducible assumption | fail_if_no_progress (with_reducible refine keeps_mk ?_ rfl rfl rfl rfl rfl rfl rfl) | dsimp only

theorem keeps_groupBegin {s t : State} (h : Keeps s t) : ∀ a1 a2, Keeps s (@State.groupBegin t a1 a2) := by
  intro a1 a2
  unfold State.groupBegin
  repeat' first
    | with_reducible assumption | with_reducible refine keeps_ite ?_ (fun _ => ?_) | with_reducible refine keeps_onMove ?_ _ _
    | fail_if_no_progress (with_reducible refine keeps_mk ?_ rfl rfl rfl rfl rfl rfl rfl) | split | dsimp only

theorem keeps_groupRetire {s : State} : ∀ (n x : Nat) {t : State}, Keeps s t → Keeps s (State.groupRetire n x t)
  | 0, _, _, h => h
  | n + 1, x, t, h => by
    unfold State.groupRetire
    dsimp only
    split
    · split
      · refine keeps_groupRetire n x ?_
        with_reducible refine keeps_mk ?_ rfl rfl rfl rfl rfl rfl rfl
        with_reducible refine keeps_onMove ?_ _ _
        exact h
      · exact h
    · exact h

theorem keeps_holdTimeout {s t : State} (h : Keeps s t) : ∀ a1 a2, Keeps s (@State.holdTimeout t a1 a2) := by
  intro a1 a2
  unfold State.holdTimeout
  repeat' first
    | with_reducible assumption | with_reducible refine keeps_ite ?_ (fun _ => ?_) | with_reducible refine keeps_onMotion ?_ _ _ _
    | with_reducible refine keeps_releaseHeld ?_ | split | dsimp only

theorem keeps_moveHalt {s t : State} (h : Keeps s t) : ∀ a1, Keeps s (@State.moveHalt t a1) := by
  intro a1
  unfold State.moveHalt
  repeat' first
    | with_reducible assumption | with_reducible refine keeps_ite ?_ (fun _ => ?_) | with_reducible refine keeps_releaseHeld ?_
    | with_reducible refine keeps_onMove ?_ _ _ | fail_if_no_progress (with_reducible refine keeps_mk ?_ rfl rfl rfl rfl rfl rfl rfl) | split
    | dsimp only

theorem keeps_movesHaltIf {s t : State} (h : Keeps s t) : ∀ a1, Keeps s (@State.movesHaltIf t a1) := by
  intro a1
  unfold State.movesHaltIf
  repeat' first
    | with_reducible assumption | with_reducible refine keeps_ite ?_ (fun _ => ?_) | with_reducible refine keeps_foldl (fun _ _ _ => ?_) _ ?_
    | with_reducible refine keeps_moveHalt ?_ _ | split | dsimp only

theorem keeps_lanesGone {s t : State} (h : Keeps s t) : ∀ a1, Keeps s (@State.lanesGone t a1) := by
  intro a1
  unfold State.lanesGone
  repeat' first
    | with_reducible assumption | with_reducible refine keeps_ite ?_ (fun _ => ?_) | with_reducible refine keeps_movesHaltIf ?_ _ | split
    | dsimp only

theorem keeps_moveComplete {s t : State} (h : Keeps s t) : ∀ a1, Keeps s (@State.moveComplete t a1) := by
  intro a1
  unfold State.moveComplete
  repeat' first
    | with_reducible assumption | with_reducible refine keeps_ite ?_ (fun _ => ?_) | with_reducible refine keeps_foldl (fun _ _ _ => ?_) _ ?_
    | with_reducible refine keeps_retireSlot ?_ _ | with_reducible refine keeps_reap ?_ | with_reducible refine keeps_onMove ?_ _ _
    | with_reducible refine keeps_onRegion ?_ _ _ | with_reducible refine keeps_entrySlot ?_ _ _
    | fail_if_no_progress (with_reducible refine keeps_mk ?_ rfl rfl rfl rfl rfl rfl rfl) | split | dsimp only

theorem keeps_moveEnds {s t : State} (h : Keeps s t) : Keeps s (@State.moveEnds t) := by
  unfold State.moveEnds
  repeat' first
    | with_reducible assumption | with_reducible refine keeps_ite ?_ (fun _ => ?_) | with_reducible refine keeps_foldl (fun _ _ _ => ?_) _ ?_
    | with_reducible refine keeps_releaseHeld ?_ | with_reducible refine keeps_retireSlot ?_ _ | with_reducible refine keeps_reap ?_
    | with_reducible refine keeps_moveHalt ?_ _ | fail_if_no_progress (with_reducible refine keeps_mk ?_ rfl rfl rfl rfl rfl rfl rfl) | split
    | dsimp only

theorem keeps_moveStart {s t : State} (h : Keeps s t) : ∀ a1 a2, Keeps s (@State.moveStart t a1 a2) := by
  intro a1 a2
  unfold State.moveStart
  repeat' first
    | with_reducible assumption | with_reducible refine keeps_ite ?_ (fun _ => ?_) | with_reducible refine keeps_powerOn ?_ _
    | with_reducible refine keeps_onMove ?_ _ _ | with_reducible refine keeps_reap ?_
    | fail_if_no_progress (with_reducible refine keeps_mk ?_ rfl rfl rfl rfl rfl rfl rfl) | split | dsimp only

theorem keeps_sendStop {s t : State} (h : Keeps s t) : ∀ a1 a2, Keeps s (@State.sendStop t a1 a2) := by
  intro a1 a2
  unfold State.sendStop
  repeat' first
    | with_reducible assumption | with_reducible refine keeps_onMove ?_ _ _ | with_reducible refine keeps_completeWhere ?_ _ _ _ _ | split
    | dsimp only

theorem keeps_moveStop {s t : State} (h : Keeps s t) : ∀ a1 a2, Keeps s (@State.moveStop t a1 a2) := by
  intro a1 a2
  unfold State.moveStop
  repeat' first
    | with_reducible assumption | with_reducible refine keeps_ite ?_ (fun _ => ?_) | with_reducible refine keeps_foldl (fun _ _ _ => ?_) _ ?_
    | with_reducible refine keeps_moveHalt ?_ _ | with_reducible refine keeps_sendStop ?_ _ _ | split | dsimp only

theorem keeps_newtCommit {s t : State} (h : Keeps s t) : ∀ a1 a2 a3, Keeps s (@State.newtCommit t a1 a2 a3) := by
  intro a1 a2 a3
  unfold State.newtCommit
  repeat' first
    | with_reducible assumption | with_reducible refine keeps_ite ?_ (fun _ => ?_) | with_reducible refine keeps_foldl (fun _ _ _ => ?_) _ ?_
    | with_reducible refine keeps_commitLine ?_ _ _ _ _ | with_reducible refine keeps_commitEnds ?_ _ _ | with_reducible refine keeps_onMove ?_ _ _
    | with_reducible refine keeps_moveHalt ?_ _ | split | dsimp only

theorem keeps_sendGranule {s t : State} (h : Keeps s t) : ∀ a1 a2, Keeps s (@State.sendGranule t a1 a2) := by
  intro a1 a2
  unfold State.sendGranule
  repeat' first
    | with_reducible assumption | with_reducible refine keeps_fabricSend ?_ _ _

theorem keeps_sendFence {s t : State} (h : Keeps s t) : ∀ a1 a2, Keeps s (@State.sendFence t a1 a2) := by
  intro a1 a2
  unfold State.sendFence
  repeat' first
    | with_reducible assumption | with_reducible refine keeps_onEntry ?_ _ _ _ | with_reducible refine keeps_fenceCheck ?_ _ _
    | with_reducible refine keeps_onMove ?_ _ _

theorem keeps_sendAdvance {s t : State} (h : Keeps s t) : ∀ a1 a2, Keeps s (@State.sendAdvance t a1 a2) := by
  intro a1 a2
  unfold State.sendAdvance
  repeat' first
    | with_reducible assumption | with_reducible refine keeps_ite ?_ (fun _ => ?_) | with_reducible refine keeps_sendFence ?_ _ _
    | with_reducible refine keeps_sendGranule ?_ _ _ | with_reducible refine keeps_onMove ?_ _ _ | split | dsimp only

theorem keeps_sendGot {s t : State} (h : Keeps s t) : ∀ x l p, Keeps s (t.sendGot x l p) := by
  intro x l p
  unfold State.sendGot
  dsimp only
  have hd := keeps_draw h 64
  cases p with
  | some data =>
    dsimp only
    split
    · split
      · exact h
      · exact keeps_sendAdvance h _ _
    · exact h
  | none =>
    dsimp only
    split
    · split
      · exact hd
      · exact keeps_sendAdvance hd _ _
    · exact h

theorem keeps_sendVerdict {s t : State} (h : Keeps s t) : ∀ a1 a2 a3 a4, Keeps s (@State.sendVerdict t a1 a2 a3 a4) := by
  intro a1 a2 a3 a4
  unfold State.sendVerdict
  repeat' first
    | with_reducible assumption | with_reducible refine keeps_sendGot ?_ _ _ _ | with_reducible refine keeps_report ?_ _ _ _ _
    | with_reducible refine keeps_countT ?_ _ _ _ _ | split | dsimp only

theorem keeps_sendLine {s t : State} (h : Keeps s t) : ∀ a1 a2, Keeps s (@State.sendLine t a1 a2) := by
  intro a1 a2
  unfold State.sendLine
  repeat' first
    | with_reducible assumption | with_reducible refine keeps_ite ?_ (fun _ => ?_) | with_reducible refine keeps_sendVerdict ?_ _ _ _ _
    | with_reducible refine keeps_issueThen ?_ _ _ _ _ (fun _ _ => ?_) | with_reducible refine keeps_newtTag_eq ?_ _ _ _ _ _ (by assumption)
    | with_reducible refine keeps_newtTag ?_ _ _ _ | with_reducible refine keeps_readySched_eq ?_ _ _ _ _ (by assumption)
    | with_reducible refine keeps_readySched ?_ _ _ | with_reducible refine keeps_report ?_ _ _ _ _ | with_reducible refine keeps_countT ?_ _ _ _ _
    | with_reducible refine keeps_sendGot ?_ _ _ _ | split | dsimp only

theorem keeps_sendGroup {s t : State} (h : Keeps s t) : ∀ a1 a2 a3 a4, Keeps s (@State.sendGroup t a1 a2 a3 a4) := by
  intro a1 a2 a3 a4
  unfold State.sendGroup
  repeat' first
    | with_reducible assumption | with_reducible refine keeps_ite ?_ (fun _ => ?_) | with_reducible refine keeps_foldl (fun _ _ _ => ?_) _ ?_
    | with_reducible refine keeps_sendLine ?_ _ _ | with_reducible refine keeps_sendStop ?_ _ _ | split | dsimp only

theorem keeps_newtCopyGroup {s t : State} (h : Keeps s t) : ∀ a1 a2 a3, Keeps s (@State.newtCopyGroup t a1 a2 a3) := by
  intro a1 a2 a3
  unfold State.newtCopyGroup
  repeat' first
    | with_reducible assumption | with_reducible refine keeps_ite ?_ (fun _ => ?_) | with_reducible refine keeps_foldl (fun _ _ _ => ?_) _ ?_
    | with_reducible refine keeps_moveHalt ?_ _ | with_reducible refine keeps_copyLine ?_ _ _ _ | with_reducible refine keeps_onMove ?_ _ _
    | with_reducible refine keeps_groupBegin ?_ _ _ | split | dsimp only

theorem keeps_newtCopy {s t : State} (h : Keeps s t) : ∀ a1 a2 a3, Keeps s (@State.newtCopy t a1 a2 a3) := by
  intro a1 a2 a3
  unfold State.newtCopy
  repeat' first
    | with_reducible assumption | with_reducible refine keeps_ite ?_ (fun _ => ?_) | with_reducible refine keeps_newtCopyGroup ?_ _ _ _
    | with_reducible refine keeps_sendGroup ?_ _ _ _ _ | split | dsimp only

theorem keeps_tryRekeyOf {s t : State} (h : Keeps s t) : ∀ a1, Keeps s (@State.tryRekeyOf t a1) := by
  intro a1
  unfold State.tryRekeyOf
  repeat' first
    | with_reducible assumption | with_reducible refine keeps_ite ?_ (fun _ => ?_) | with_reducible refine keeps_freshKey ?_ _ _ _ _
    | fail_if_no_progress (with_reducible refine keeps_mk ?_ rfl rfl rfl rfl rfl rfl rfl) | split | dsimp only

theorem keeps_tryRekey {s t : State} (h : Keeps s t) : Keeps s (@State.tryRekey t) := by
  unfold State.tryRekey
  repeat' first
    | with_reducible assumption | with_reducible refine keeps_foldl (fun _ _ _ => ?_) _ ?_ | with_reducible refine keeps_tryRekeyOf ?_ _
    | dsimp only

theorem keeps_execNewtCommit {s t : State} (h : Keeps s t) : ∀ a1 a2 a3, KeepsN s (@execNewtCommit a1 a2 a3 t) := by
  intro a1 a2 a3
  unfold execNewtCommit
  repeat' first
    | with_reducible assumption | with_reducible refine keepsN_next ?_ | with_reducible refine keeps_newtCommit ?_ _ _ _
    | with_reducible refine keeps_tryRekey ?_

theorem keeps_execNewtGroupRetire {s t : State} (h : Keeps s t) : ∀ a1, KeepsN s (@execNewtGroupRetire a1 t) := by
  intro a1
  unfold execNewtGroupRetire
  repeat' first
    | with_reducible assumption | with_reducible refine keepsN_next ?_ | with_reducible refine keeps_groupRetire _ _ ?_

theorem keeps_execNewtHoldTimeout {s t : State} (h : Keeps s t) : ∀ a1 a2, KeepsN s (@execNewtHoldTimeout a1 a2 t) := by
  intro a1 a2
  unfold execNewtHoldTimeout
  repeat' first
    | with_reducible assumption | with_reducible refine keepsN_next ?_ | with_reducible refine keeps_holdTimeout ?_ _ _

theorem keeps_advanceNode {s t : State} (h : Keeps s t) : ∀ a1 a2 a3 a4, Keeps s (@State.advanceNode t a1 a2 a3 a4).1 := by
  intro a1 a2 a3 a4
  unfold State.advanceNode
  repeat' first
    | with_reducible assumption | with_reducible refine keeps_ite ?_ (fun _ => ?_) | with_reducible refine keeps_foldl (fun _ _ _ => ?_) _ ?_
    | with_reducible refine keeps_onPcc ?_ _ _ | split | dsimp only

theorem keeps_advanceNode_eq {s t : State} (h : Keeps s t) : ∀ a1 a2 a3 a4 x y, (@State.advanceNode t a1 a2 a3 a4) = (x, y) → Keeps s x := by
  intro a1 a2 a3 a4 x y e
  have k := keeps_advanceNode h a1 a2 a3 a4
  rw [e] at k
  exact k

theorem keeps_advanceAt {s t : State} (h : Keeps s t) : ∀ a1 a2 a3 a4, Keeps s (@State.advanceAt t a1 a2 a3 a4).1 := by
  intro a1 a2 a3 a4
  unfold State.advanceAt
  repeat' first
    | with_reducible assumption | with_reducible refine keeps_advanceNode_eq ?_ _ _ _ _ _ _ (by assumption)
    | with_reducible refine keeps_advanceNode ?_ _ _ _ _ | with_reducible refine keeps_onPcc ?_ _ _ | split | dsimp only

theorem keeps_advanceAt_eq {s t : State} (h : Keeps s t) : ∀ a1 a2 a3 a4 x y, (@State.advanceAt t a1 a2 a3 a4) = (x, y) → Keeps s x := by
  intro a1 a2 a3 a4 x y e
  have k := keeps_advanceAt h a1 a2 a3 a4
  rw [e] at k
  exact k

theorem keeps_advanceParent {s t : State} (h : Keeps s t) : ∀ a1 a2, Keeps s (@State.advanceParent t a1 a2).1 := by
  intro a1 a2
  unfold State.advanceParent
  repeat' first
    | with_reducible assumption | with_reducible refine keeps_advanceAt_eq ?_ _ _ _ _ _ _ (by assumption)
    | with_reducible refine keeps_advanceAt ?_ _ _ _ _ | dsimp only

theorem keeps_advanceParent_eq {s t : State} (h : Keeps s t) : ∀ a1 a2 x y, (@State.advanceParent t a1 a2) = (x, y) → Keeps s x := by
  intro a1 a2 x y e
  have k := keeps_advanceParent h a1 a2
  rw [e] at k
  exact k

theorem keeps_clearFences {s t : State} (h : Keeps s t) : ∀ a1 a2 a3, Keeps s (@State.clearFences t a1 a2 a3) := by
  intro a1 a2 a3
  unfold State.clearFences
  repeat' first
    | with_reducible assumption | with_reducible refine keeps_onPcc ?_ _ _

theorem keeps_metaFetch {s t : State} (h : Keeps s t) : ∀ a1 a2 a3, Keeps s (@State.metaFetch t a1 a2 a3) := by
  intro a1 a2 a3
  unfold State.metaFetch
  repeat' first
    | with_reducible assumption | with_reducible refine keeps_ite ?_ (fun _ => ?_) | with_reducible refine keeps_emit ?_ _
    | with_reducible refine keeps_onPcc ?_ _ _ | with_reducible refine keeps_countT ?_ _ _ _ _ | with_reducible refine keeps_onMcc ?_ _ _ | split
    | dsimp only

theorem keeps_fetchAll {s t : State} (h : Keeps s t) : ∀ a1 a2, Keeps s (@State.fetchAll t a1 a2) := by
  intro a1 a2
  unfold State.fetchAll
  repeat' first
    | with_reducible assumption | with_reducible refine keeps_foldl (fun _ _ _ => ?_) _ ?_ | with_reducible refine keeps_metaFetch ?_ _ _ _
    | dsimp only

theorem keeps_treeSched {s t : State} (h : Keeps s t) : ∀ a1, Keeps s (@State.treeSched t a1).1 := by
  intro a1
  unfold State.treeSched
  repeat' first
    | with_reducible assumption | with_reducible refine keeps_readySched_eq ?_ _ _ _ _ (by assumption)
    | with_reducible refine keeps_readySched ?_ _ _ | dsimp only

theorem keeps_treeSched_eq {s t : State} (h : Keeps s t) : ∀ a1 x y, (@State.treeSched t a1) = (x, y) → Keeps s x := by
  intro a1 x y e
  have k := keeps_treeSched h a1
  rw [e] at k
  exact k

theorem keeps_tagDue {s t : State} (h : Keeps s t) : ∀ a1 a2 a3 a4, Keeps s (@State.tagDue t a1 a2 a3 a4) := by
  intro a1 a2 a3 a4
  unfold State.tagDue
  repeat' first
    | with_reducible assumption | with_reducible refine keeps_onPcc ?_ _ _

theorem keeps_nodeWritten {s t : State} (h : Keeps s t) : ∀ a1 a2 a3 a4, Keeps s (@State.nodeWritten t a1 a2 a3 a4) := by
  intro a1 a2 a3 a4
  unfold State.nodeWritten
  repeat' first
    | with_reducible assumption | with_reducible refine keeps_emit ?_ _ | with_reducible refine keeps_tagDue ?_ _ _ _ _

theorem keeps_nodeEvict {s t : State} (h : Keeps s t) : ∀ p o x, Keeps s (t.nodeEvict p o x) := by
  intro p o x
  have k := keeps_advanceParent h p o.off
  unfold State.nodeEvict
  exact keeps_issueThen (keeps_onPcc k _ _) _ _ _ _ (fun _ k => keeps_nodeWritten k _ _ _ _)

theorem keeps_metaWrite {s t : State} (h : Keeps s t) : ∀ a1 a2 a3 a4, Keeps s (@State.metaWrite t a1 a2 a3 a4) := by
  intro a1 a2 a3 a4
  unfold State.metaWrite
  repeat' first
    | with_reducible assumption | with_reducible refine keeps_emit ?_ _ | with_reducible refine keeps_onPcc ?_ _ _

theorem keeps_metaPut {s t : State} (h : Keeps s t) : ∀ a1 a2, Keeps s (@State.metaPut t a1 a2).1 := by
  intro a1 a2
  unfold State.metaPut
  repeat' first
    | with_reducible assumption | with_reducible refine keeps_ite ?_ (fun _ => ?_) | with_reducible refine keeps_metaWrite ?_ _ _ _ _
    | with_reducible refine keeps_nodeEvict ?_ _ _ _ | with_reducible refine keeps_treeSched_eq ?_ _ _ _ (by assumption)
    | with_reducible refine keeps_treeSched ?_ _ | with_reducible refine keeps_onPcc ?_ _ _ | split | dsimp only

theorem keeps_metaPut_eq {s t : State} (h : Keeps s t) : ∀ a1 a2 x y, (@State.metaPut t a1 a2) = (x, y) → Keeps s x := by
  intro a1 a2 x y e
  have k := keeps_metaPut h a1 a2
  rw [e] at k
  exact k

theorem keeps_zeroSpan {s t : State} (h : Keeps s t) : ∀ a1 a2 a3 a4 a5, Keeps s (@State.zeroSpan t a1 a2 a3 a4 a5) := by
  intro a1 a2 a3 a4 a5
  unfold State.zeroSpan
  repeat' first
    | with_reducible assumption | with_reducible refine keeps_foldl (fun _ _ _ => ?_) _ ?_ | with_reducible refine keeps_emit ?_ _
    | with_reducible refine keeps_onPcc ?_ _ _ | dsimp only

theorem keeps_zeroUnder {s t : State} (h : Keeps s t) : ∀ a1 a2 a3, Keeps s (@State.zeroUnder t a1 a2 a3) := by
  intro a1 a2 a3
  unfold State.zeroUnder
  repeat' first
    | with_reducible assumption | with_reducible refine keeps_zeroSpan ?_ _ _ _ _ _ | with_reducible refine keeps_onPcc ?_ _ _ | split | dsimp only

theorem keeps_clearStep {s t : State} (h : Keeps s t) : ∀ a1 a2, Keeps s (@State.clearStep t a1 a2) := by
  intro a1 a2
  unfold State.clearStep
  repeat' first
    | with_reducible assumption | with_reducible refine keeps_ite ?_ (fun _ => ?_) | with_reducible refine keeps_zeroUnder ?_ _ _ _
    | with_reducible refine keeps_metaPut_eq ?_ _ _ _ _ (by assumption) | with_reducible refine keeps_metaPut ?_ _ _
    | with_reducible refine keeps_fetchAll ?_ _ _ | with_reducible refine keeps_onPcc ?_ _ _ | split | dsimp only

theorem keeps_subtreeInit {s t : State} (h : Keeps s t) : ∀ a1 a2, Keeps s (@State.subtreeInit t a1 a2) := by
  intro a1 a2
  unfold State.subtreeInit
  repeat' first
    | with_reducible assumption | with_reducible refine keeps_zeroSpan ?_ _ _ _ _ _ | with_reducible refine keeps_onPcc ?_ _ _

theorem keeps_fetchIfCan {s t : State} (h : Keeps s t) : ∀ a1 a2, Keeps s (@State.fetchIfCan t a1 a2) := by
  intro a1 a2
  unfold State.fetchIfCan
  repeat' first
    | with_reducible assumption | with_reducible refine keeps_ite ?_ (fun _ => ?_) | with_reducible refine keeps_fetchAll ?_ _ _ | split
    | dsimp only

theorem keeps_zeroCounterLineP {s t : State} (h : Keeps s t) : ∀ p x, KeepsP s (State.zeroCounterLine t p x) := by
  intro p x
  unfold State.zeroCounterLine
  exact keepsP_ite (keeps_metaPut h _ _) (keepsP_mk (keeps_fetchIfCan h _ _))

theorem keeps_zeroCounterLine {s t : State} (h : Keeps s t) : ∀ p x, Keeps s (State.zeroCounterLine t p x).1 := keeps_zeroCounterLineP h

theorem keeps_zeroCounterLine_eq {s t : State} (h : Keeps s t) : ∀ p x a b, State.zeroCounterLine t p x = (a, b) → Keeps s a := by
  intro p x a b e
  exact keepsP_eq (keeps_zeroCounterLineP h p x) e

theorem keeps_counterLineInit {s t : State} (h : Keeps s t) : ∀ a1 a2, Keeps s (@State.counterLineInit t a1 a2).1 := by
  intro a1 a2
  unfold State.counterLineInit
  repeat' first
    | with_reducible assumption | with_reducible refine keeps_ite ?_ (fun _ => ?_)
    | with_reducible refine keeps_zeroCounterLine_eq ?_ _ _ _ _ (by assumption) | with_reducible refine keeps_zeroCounterLine ?_ _ _
    | with_reducible refine keeps_subtreeInit ?_ _ _ | split | dsimp only

theorem keeps_counterLineInit_eq {s t : State} (h : Keeps s t) : ∀ a1 a2 x y, (@State.counterLineInit t a1 a2) = (x, y) → Keeps s x := by
  intro a1 a2 x y e
  have k := keeps_counterLineInit h a1 a2
  rw [e] at k
  exact k

end Sys2Proof.Laws
end

