-- ==== Sys2Proof/Laws/KeepsC.lean ====
section
/-!
SUPPORT. One lemma for each operation of the machine: what it keeps (Laws/Keeps.lean). Part C of four, in the order in which
the operations use one another.
-/

set_option maxRecDepth 4000
set_option linter.unusedTactic false
set_option linter.unreachableTactic false

namespace Sys2Proof.Laws

open Sys2Proof.Machine

theorem keeps_dueOne {s t : State} (h : Keeps s t) : ∀ a1 a2, Keeps s (@State.dueOne t a1 a2) := by
  intro a1 a2
  unfold State.dueOne
  repeat' first
    | with_reducible assumption | with_reducible refine keeps_onPcc ?_ _ _ | with_reducible refine keeps_metaPut_eq ?_ _ _ _ _ (by assumption)
    | with_reducible refine keeps_metaPut ?_ _ _ | split | dsimp only

theorem keeps_dueTry {s t : State} (h : Keeps s t) : ∀ a1, Keeps s (@State.dueTry t a1) := by
  intro a1
  unfold State.dueTry
  repeat' first
    | with_reducible assumption | with_reducible refine keeps_foldl (fun _ _ _ => ?_) _ ?_ | with_reducible refine keeps_dueOne ?_ _ _ | dsimp only

theorem keeps_metaFetchEnd {s t : State} (h : Keeps s t) : ∀ a1 a2, Keeps s (@State.metaFetchEnd t a1 a2) := by
  intro a1 a2
  unfold State.metaFetchEnd
  repeat' first
    | with_reducible assumption | with_reducible refine keeps_onMcc ?_ _ _ | with_reducible refine keeps_onPcc ?_ _ _ | split | dsimp only

theorem keeps_nodeInstall {s t : State} (h : Keeps s t) : ∀ a1 a2, Keeps s (@State.nodeInstall t a1 a2) := by
  intro a1 a2
  unfold State.nodeInstall
  repeat' first
    | with_reducible assumption | with_reducible refine keeps_ite ?_ (fun _ => ?_) | with_reducible refine keeps_onPcc ?_ _ _
    | with_reducible refine keeps_metaFetchEnd ?_ _ _ | with_reducible refine keeps_metaPut_eq ?_ _ _ _ _ (by assumption)
    | with_reducible refine keeps_metaPut ?_ _ _ | split | dsimp only

theorem keeps_onFetch {s t : State} (h : Keeps s t) : ∀ a1 a2 a3, Keeps s (@State.onFetch t a1 a2 a3) := by
  intro a1 a2 a3
  unfold State.onFetch
  repeat' first
    | with_reducible assumption | with_reducible refine keeps_onPcc ?_ _ _

theorem keeps_spanDrop {s t : State} (h : Keeps s t) : ∀ a1 a2 a3, Keeps s (@State.spanDrop t a1 a2 a3) := by
  intro a1 a2 a3
  unfold State.spanDrop
  repeat' first
    | with_reducible assumption | with_reducible refine keeps_foldl (fun _ _ _ => ?_) _ ?_ | with_reducible refine keeps_finishOp ?_ _ _ _ _
    | with_reducible refine keeps_metaFetchEnd ?_ _ _ | with_reducible refine keeps_onCluster ?_ _ _ | with_reducible refine keeps_onPcc ?_ _ _
    | split | dsimp only

theorem keeps_spanFence {s t : State} (h : Keeps s t) : ∀ a1 a2 a3, Keeps s (@State.spanFence t a1 a2 a3) := by
  intro a1 a2 a3
  unfold State.spanFence
  repeat' first
    | with_reducible assumption | with_reducible refine keeps_ite ?_ (fun _ => ?_) | with_reducible refine keeps_spanDrop ?_ _ _ _
    | with_reducible refine keeps_onPcc ?_ _ _ | split | dsimp only

theorem keeps_treeFence {s t : State} (h : Keeps s t) : ∀ a1 a2 a3, Keeps s (@State.treeFence t a1 a2 a3) := by
  intro a1 a2 a3
  unfold State.treeFence
  repeat' first
    | with_reducible assumption | with_reducible refine keeps_report ?_ _ _ _ _ | with_reducible refine keeps_countT ?_ _ _ _ _
    | with_reducible refine keeps_spanFence ?_ _ _ _

theorem keeps_nodeChecked {s t : State} (h : Keeps s t) : ∀ a1 a2 a3, Keeps s (@State.nodeChecked t a1 a2 a3) := by
  intro a1 a2 a3
  unfold State.nodeChecked
  repeat' first
    | with_reducible assumption | with_reducible refine keeps_ite ?_ (fun _ => ?_) | with_reducible refine keeps_metaFetchEnd ?_ _ _
    | with_reducible refine keeps_treeFence ?_ _ _ _ | with_reducible refine keeps_onFetch ?_ _ _ _ | with_reducible refine keeps_countT ?_ _ _ _ _
    | with_reducible refine keeps_nodeInstall ?_ _ _ | split | dsimp only

theorem keeps_verifyWith {s t : State} (h : Keeps s t) : ∀ a1 a2 a3 a4 a5, Keeps s (@State.verifyWith t a1 a2 a3 a4 a5) := by
  intro a1 a2 a3 a4 a5
  unfold State.verifyWith
  repeat' first
    | with_reducible assumption | with_reducible refine keeps_nodeChecked ?_ _ _ _ | with_reducible refine keeps_onFetch ?_ _ _ _
    | with_reducible refine keeps_issueThen ?_ _ _ _ _ (fun _ _ => ?_) | with_reducible refine keeps_treeSched_eq ?_ _ _ _ (by assumption)
    | with_reducible refine keeps_treeSched ?_ _ | split | dsimp only

theorem keeps_verifyNode {s t : State} (h : Keeps s t) : ∀ a1 a2, Keeps s (@State.verifyNode t a1 a2) := by
  intro a1 a2
  unfold State.verifyNode
  repeat' first
    | with_reducible assumption | with_reducible refine keeps_ite ?_ (fun _ => ?_) | with_reducible refine keeps_verifyWith ?_ _ _ _ _ _
    | with_reducible refine keeps_nodeInstall ?_ _ _ | split | dsimp only

theorem keeps_verifyPass {s t : State} (h : Keeps s t) : ∀ a1, Keeps s (@State.verifyPass t a1) := by
  intro a1
  unfold State.verifyPass
  repeat' first
    | with_reducible assumption | with_reducible refine keeps_foldl (fun _ _ _ => ?_) _ ?_ | with_reducible refine keeps_dueTry ?_ _
    | with_reducible refine keeps_clearStep ?_ _ _ | with_reducible refine keeps_fetchIfCan ?_ _ _ | with_reducible refine keeps_verifyNode ?_ _ _
    | split | dsimp only

theorem keeps_readAgain {s t : State} (h : Keeps s t) : ∀ a1 a2, Keeps s (@State.readAgain t a1 a2) := by
  intro a1 a2
  unfold State.readAgain
  repeat' first
    | with_reducible assumption | with_reducible refine keeps_ite ?_ (fun _ => ?_) | with_reducible refine keeps_emit ?_ _
    | with_reducible refine keeps_onOp ?_ _ _ _ | split | dsimp only

theorem keeps_overflowEnd {s t : State} (h : Keeps s t) : ∀ a1 a2, Keeps s (@State.overflowEnd t a1 a2) := by
  intro a1 a2
  unfold State.overflowEnd
  repeat' first
    | with_reducible assumption | with_reducible refine keeps_ite ?_ (fun _ => ?_) | with_reducible refine keeps_foldl (fun _ _ _ => ?_) _ ?_
    | with_reducible refine keeps_failOp ?_ _ _ _ | with_reducible refine keeps_onOp ?_ _ _ _ | with_reducible refine keeps_readAgain ?_ _ _
    | with_reducible refine keeps_onPcc ?_ _ _ | with_reducible refine keeps_countT ?_ _ _ _ _ | split | dsimp only

theorem keeps_onOverflow {s t : State} (h : Keeps s t) : ∀ a1 a2 a3, Keeps s (@State.onOverflow t a1 a2 a3) := by
  intro a1 a2 a3
  unfold State.onOverflow
  repeat' first
    | with_reducible assumption | with_reducible refine keeps_onPcc ?_ _ _

theorem keeps_metaTagInstall {s t : State} (h : Keeps s t) : ∀ a1 a2 a3 a4, Keeps s (@State.metaTagInstall t a1 a2 a3 a4) := by
  intro a1 a2 a3 a4
  unfold State.metaTagInstall
  repeat' first
    | with_reducible assumption | with_reducible refine keeps_tagDue ?_ _ _ _ _ | with_reducible refine keeps_dueOne ?_ _ _

theorem keeps_overflowOut {s t : State} (h : Keeps s t) : ∀ a1 a2 a3 a4 a5, Keeps s (@State.overflowOut t a1 a2 a3 a4 a5) := by
  intro a1 a2 a3 a4 a5
  unfold State.overflowOut
  repeat' first
    | with_reducible assumption | with_reducible refine keeps_ite ?_ (fun _ => ?_) | with_reducible refine keeps_emit ?_ _
    | with_reducible refine keeps_onOverflow ?_ _ _ _ | with_reducible refine keeps_metaTagInstall ?_ _ _ _ _
    | with_reducible refine keeps_countT ?_ _ _ _ _ | split | dsimp only

theorem keeps_overflowWrite {s t : State} (h : Keeps s t) : ∀ a1 a2 a3, Keeps s (@State.overflowWrite t a1 a2 a3) := by
  intro a1 a2 a3
  unfold State.overflowWrite
  repeat' first
    | with_reducible assumption | with_reducible refine keeps_ite ?_ (fun _ => ?_) | with_reducible refine keeps_overflowOut ?_ _ _ _ _ _
    | with_reducible refine keeps_onOverflow ?_ _ _ _ | with_reducible refine keeps_issueThen ?_ _ _ _ _ (fun _ _ => ?_)
    | with_reducible refine keeps_readySched_eq ?_ _ _ _ _ (by assumption) | with_reducible refine keeps_readySched ?_ _ _ | split | dsimp only

theorem keeps_overflowAdvance {s t : State} (h : Keeps s t) : ∀ a1 a2, Keeps s (@State.overflowAdvance t a1 a2) := by
  intro a1 a2
  unfold State.overflowAdvance
  repeat' first
    | with_reducible assumption | with_reducible refine keeps_onPcc ?_ _ _ | with_reducible refine keeps_onOverflow ?_ _ _ _

theorem keeps_overflowGot {s t : State} (h : Keeps s t) : ∀ a1 a2 a3 a4, Keeps s (@State.overflowGot t a1 a2 a3 a4) := by
  intro a1 a2 a3 a4
  unfold State.overflowGot
  repeat' first
    | with_reducible assumption | with_reducible refine keeps_ite ?_ (fun _ => ?_) | with_reducible refine keeps_onOverflow ?_ _ _ _
    | with_reducible refine keeps_report ?_ _ _ _ _ | with_reducible refine keeps_countT ?_ _ _ _ _ | with_reducible refine keeps_onOp ?_ _ _ _
    | split | dsimp only

theorem keeps_overflowRead {s t : State} (h : Keeps s t) : ∀ a1 a2 a3, Keeps s (@State.overflowRead t a1 a2 a3) := by
  intro a1 a2 a3
  unfold State.overflowRead
  repeat' first
    | with_reducible assumption | with_reducible refine keeps_ite ?_ (fun _ => ?_) | with_reducible refine keeps_overflowGot ?_ _ _ _ _
    | with_reducible refine keeps_issueThen ?_ _ _ _ _ (fun _ _ => ?_) | with_reducible refine keeps_readySched_eq ?_ _ _ _ _ (by assumption)
    | with_reducible refine keeps_readySched ?_ _ _ | with_reducible refine keeps_fetchIfCan ?_ _ _ | with_reducible refine keeps_onOp ?_ _ _ _
    | with_reducible refine keeps_onOverflow ?_ _ _ _ | with_reducible refine keeps_report ?_ _ _ _ _ | split | dsimp only

theorem keeps_overflowTry {s t : State} (h : Keeps s t) : ∀ a1 a2, Keeps s (@State.overflowTry t a1 a2) := by
  intro a1 a2
  unfold State.overflowTry
  repeat' first
    | with_reducible assumption | with_reducible refine keeps_ite ?_ (fun _ => ?_) | with_reducible refine keeps_foldl (fun _ _ _ => ?_) _ ?_
    | with_reducible refine keeps_overflowRead ?_ _ _ _ | with_reducible refine keeps_overflowAdvance ?_ _ _
    | with_reducible refine keeps_onPcc ?_ _ _ | with_reducible refine keeps_overflowWrite ?_ _ _ _ | with_reducible refine keeps_overflowEnd ?_ _ _
    | split | dsimp only

theorem keeps_pccOpen {s t : State} (h : Keeps s t) : ∀ a1 a2, Keeps s (@State.pccOpen t a1 a2) := by
  intro a1 a2
  unfold State.pccOpen
  repeat' first
    | with_reducible assumption | with_reducible refine keeps_ite ?_ (fun _ => ?_) | with_reducible refine keeps_emit ?_ _
    | with_reducible refine keeps_countT ?_ _ _ _ _ | with_reducible refine keeps_onOp ?_ _ _ _ | with_reducible refine keeps_finishOp ?_ _ _ _ _
    | split | dsimp only

theorem keeps_pccAdmit {s t : State} (h : Keeps s t) : ∀ a1 a2, Keeps s (@State.pccAdmit t a1 a2) := by
  intro a1 a2
  unfold State.pccAdmit
  repeat' first
    | with_reducible assumption | with_reducible refine keeps_ite ?_ (fun _ => ?_) | with_reducible refine keeps_foldl (fun _ _ _ => ?_) _ ?_
    | with_reducible refine keeps_emit ?_ _ | with_reducible refine keeps_fetchAll ?_ _ _ | with_reducible refine keeps_onOp ?_ _ _ _
    | with_reducible refine keeps_onPcc ?_ _ _ | with_reducible refine keeps_finishOp ?_ _ _ _ _ | split | dsimp only

theorem keeps_overflowStart {s t : State} (h : Keeps s t) : ∀ a1 a2, Keeps s (@State.overflowStart t a1 a2) := by
  intro a1 a2
  unfold State.overflowStart
  repeat' first
    | with_reducible assumption | with_reducible refine keeps_foldl (fun _ _ _ => ?_) _ ?_ | with_reducible refine keeps_emit ?_ _
    | with_reducible refine keeps_onOp ?_ _ _ _ | with_reducible refine keeps_onPcc ?_ _ _ | dsimp only

theorem keeps_pccFetched {s t : State} (h : Keeps s t) : ∀ a1 a2, Keeps s (@State.pccFetched t a1 a2) := by
  intro a1 a2
  unfold State.pccFetched
  repeat' first
    | with_reducible assumption | with_reducible refine keeps_ite ?_ (fun _ => ?_) | with_reducible refine keeps_failOp ?_ _ _ _
    | with_reducible refine keeps_onOp ?_ _ _ _ | with_reducible refine keeps_finishOp ?_ _ _ _ _ | with_reducible refine keeps_overflowStart ?_ _ _
    | split | dsimp only

theorem keeps_pccVerdict {s t : State} (h : Keeps s t) : ∀ a1 a2, Keeps s (@State.pccVerdict t a1 a2) := by
  intro a1 a2
  unfold State.pccVerdict
  repeat' first
    | with_reducible assumption | with_reducible refine keeps_ite ?_ (fun _ => ?_) | with_reducible refine keeps_failOp ?_ _ _ _
    | with_reducible refine keeps_onOp ?_ _ _ _ | with_reducible refine keeps_finishOp ?_ _ _ _ _ | with_reducible refine keeps_countT ?_ _ _ _ _
    | split | dsimp only

theorem keeps_pccReadOut {s t : State} (h : Keeps s t) : ∀ a1 a2, Keeps s (@State.pccReadOut t a1 a2) := by
  intro a1 a2
  unfold State.pccReadOut
  repeat' first
    | with_reducible assumption | with_reducible refine keeps_onOp ?_ _ _ _ | with_reducible refine keeps_pccVerdict ?_ _ _

theorem keeps_pccDecrypt {s t : State} (h : Keeps s t) : ∀ a1 a2 a3 a4 a5, Keeps s (@State.pccDecrypt t a1 a2 a3 a4 a5) := by
  intro a1 a2 a3 a4 a5
  unfold State.pccDecrypt
  repeat' first
    | with_reducible assumption | with_reducible refine keeps_pccReadOut ?_ _ _ | with_reducible refine keeps_issueThen ?_ _ _ _ _ (fun _ _ => ?_)
    | with_reducible refine keeps_onOp ?_ _ _ _ | split | dsimp only

theorem keeps_pccWriteOut {s t : State} (h : Keeps s t) : ∀ a1 a2, Keeps s (@State.pccWriteOut t a1 a2) := by
  intro a1 a2
  unfold State.pccWriteOut
  repeat' first
    | with_reducible assumption | with_reducible refine keeps_emit ?_ _ | with_reducible refine keeps_onOp ?_ _ _ _
    | with_reducible refine keeps_countT ?_ _ _ _ _ | with_reducible refine keeps_metaTagInstall ?_ _ _ _ _
    | with_reducible refine keeps_onPcc ?_ _ _

theorem keeps_pccEncrypt {s t : State} (h : Keeps s t) : ∀ a1 a2 a3 a4 a5, Keeps s (@State.pccEncrypt t a1 a2 a3 a4 a5) := by
  intro a1 a2 a3 a4 a5
  unfold State.pccEncrypt
  repeat' first
    | with_reducible assumption | with_reducible refine keeps_pccWriteOut ?_ _ _ | with_reducible refine keeps_onOp ?_ _ _ _
    | with_reducible refine keeps_issueThen ?_ _ _ _ _ (fun _ _ => ?_) | split | dsimp only

theorem keeps_pccAdvance {s t : State} (h : Keeps s t) : ∀ a1 a2, Keeps s (@State.pccAdvance t a1 a2) := by
  intro a1 a2
  unfold State.pccAdvance
  repeat' first
    | with_reducible assumption | with_reducible refine keeps_ite ?_ (fun _ => ?_) | with_reducible refine keeps_pccEncrypt ?_ _ _ _ _ _
    | with_reducible refine keeps_pccDecrypt ?_ _ _ _ _ _ | with_reducible refine keeps_readySched_eq ?_ _ _ _ _ (by assumption)
    | with_reducible refine keeps_readySched ?_ _ _ | with_reducible refine keeps_pccFetched ?_ _ _ | with_reducible refine keeps_pccAdmit ?_ _ _
    | with_reducible refine keeps_pccOpen ?_ _ _ | split | dsimp only

theorem keeps_pccPass {s t : State} (h : Keeps s t) : ∀ a1, Keeps s (@State.pccPass t a1) := by
  intro a1
  unfold State.pccPass
  repeat' first
    | with_reducible assumption | with_reducible refine keeps_foldl (fun _ _ _ => ?_) _ ?_ | with_reducible refine keeps_pccAdvance ?_ _ _
    | with_reducible refine keeps_overflowTry ?_ _ _ | with_reducible refine keeps_verifyPass ?_ _ | dsimp only

theorem keeps_pccPump {s t : State} (h : Keeps s t) : ∀ a1, Keeps s (@State.pccPump t a1) := by
  intro a1
  unfold State.pccPump
  repeat' first
    | with_reducible assumption | with_reducible refine keeps_foldl (fun _ _ _ => ?_) _ ?_ | with_reducible refine keeps_pccPass ?_ _ | dsimp only

theorem keeps_tagLineLost {s t : State} (h : Keeps s t) : ∀ a1 a2, Keeps s (@State.tagLineLost t a1 a2) := by
  intro a1 a2
  unfold State.tagLineLost
  repeat' first
    | with_reducible assumption | with_reducible refine keeps_ite ?_ (fun _ => ?_) | with_reducible refine keeps_onMem ?_ _ _
    | with_reducible refine keeps_onPcc ?_ _ _ | split | dsimp only

theorem keeps_metaLost {s t : State} (h : Keeps s t) : ∀ a1 a2, Keeps s (@State.metaLost t a1 a2) := by
  intro a1 a2
  unfold State.metaLost
  repeat' first
    | with_reducible assumption | with_reducible refine keeps_ite ?_ (fun _ => ?_) | with_reducible refine keeps_foldl (fun _ _ _ => ?_) _ ?_
    | with_reducible refine keeps_tagLineLost ?_ _ _ | with_reducible refine keeps_treeFence ?_ _ _ _
    | with_reducible refine keeps_metaFetchEnd ?_ _ _ | split | dsimp only

theorem keeps_tagWordsTaken {s t : State} (h : Keeps s t) : ∀ a1 a2 a3, Keeps s (@State.tagWordsTaken t a1 a2 a3) := by
  intro a1 a2 a3
  unfold State.tagWordsTaken
  repeat' first
    | with_reducible assumption | with_reducible refine keeps_ite ?_ (fun _ => ?_) | with_reducible refine keeps_onMem ?_ _ _
    | with_reducible refine keeps_onPcc ?_ _ _ | split | dsimp only

theorem keeps_metaArrival {s t : State} (h : Keeps s t) : ∀ a1 a2 a3 a4, Keeps s (@State.metaArrival t a1 a2 a3 a4) := by
  intro a1 a2 a3 a4
  unfold State.metaArrival
  repeat' first
    | with_reducible assumption | with_reducible refine keeps_ite ?_ (fun _ => ?_)
    | with_reducible refine keeps_metaPut_eq ?_ _ _ _ _ (by assumption) | with_reducible refine keeps_metaPut ?_ _ _
    | with_reducible refine keeps_metaFetchEnd ?_ _ _ | with_reducible refine keeps_tagWordsTaken ?_ _ _ _
    | with_reducible refine keeps_onFetch ?_ _ _ _ | with_reducible refine keeps_metaLost ?_ _ _ | with_reducible refine keeps_pccPump ?_ _
    | with_reducible refine keeps_countT ?_ _ _ _ _ | split | dsimp only

theorem keeps_metaTagBack {s t : State} (h : Keeps s t) : ∀ a1 a2 a3, Keeps s (@State.metaTagBack t a1 a2 a3) := by
  intro a1 a2 a3
  unfold State.metaTagBack
  repeat' first
    | with_reducible assumption | with_reducible refine keeps_metaTagInstall ?_ _ _ _ _ | with_reducible refine keeps_onPcc ?_ _ _ | split
    | dsimp only

theorem keeps_nodeUndecided {s t : State} (h : Keeps s t) : ∀ a1 a2, Keeps s (@State.nodeUndecided t a1 a2) := by
  intro a1 a2
  unfold State.nodeUndecided
  repeat' first
    | with_reducible assumption | with_reducible refine keeps_foldl (fun _ _ _ => ?_) _ ?_ | with_reducible refine keeps_metaFetchEnd ?_ _ _
    | with_reducible refine keeps_finishOp ?_ _ _ _ _ | dsimp only

theorem keeps_overflowLost {s t : State} (h : Keeps s t) : ∀ a1 a2 a3, Keeps s (@State.overflowLost t a1 a2 a3) := by
  intro a1 a2 a3
  unfold State.overflowLost
  repeat' first
    | with_reducible assumption | with_reducible refine keeps_onOverflow ?_ _ _ _

theorem keeps_pccRequest {s t : State} (h : Keeps s t) : ∀ a1 a2 a3, Keeps s (@State.pccRequest t a1 a2 a3) := by
  intro a1 a2 a3
  unfold State.pccRequest
  repeat' first
    | with_reducible assumption | with_reducible refine keeps_ite ?_ (fun _ => ?_) | with_reducible refine keeps_admitReq ?_ _ _ _ _ _ _ _
    | with_reducible refine keeps_pccPump ?_ _ | with_reducible refine keeps_checkReq_eq ?_ _ _ _ _ _ (by assumption)
    | with_reducible refine keeps_checkReq ?_ _ _ _ | split | dsimp only

theorem keeps_pccReset {s t : State} (h : Keeps s t) : ∀ a1, Keeps s (@State.pccReset t a1) := by
  intro a1
  unfold State.pccReset
  repeat' first
    | with_reducible assumption | with_reducible refine keeps_foldl (fun _ _ _ => ?_) _ ?_ | with_reducible refine keeps_onPcc ?_ _ _
    | with_reducible refine keeps_metaFetchEnd ?_ _ _ | dsimp only

theorem keeps_ppAccept {s t : State} (h : Keeps s t) : ∀ a1 a2, Keeps s (@State.ppAccept t a1 a2) := by
  intro a1 a2
  unfold State.ppAccept
  repeat' first
    | with_reducible assumption | with_reducible refine keeps_ite ?_ (fun _ => ?_) | with_reducible refine keeps_finishOp ?_ _ _ _ _
    | with_reducible refine keeps_pccPump ?_ _ | with_reducible refine keeps_onPcc ?_ _ _ | split | dsimp only

theorem keeps_ppOpen {s t : State} (h : Keeps s t) : ∀ a1 a2 a3, Keeps s (@State.ppOpen t a1 a2 a3) := by
  intro a1 a2 a3
  unfold State.ppOpen
  repeat' first
    | with_reducible assumption | with_reducible refine keeps_emit ?_ _ | with_reducible refine keeps_onOp ?_ _ _ _
    | with_reducible refine keeps_countT ?_ _ _ _ _ | with_reducible refine keeps_finishOp ?_ _ _ _ _ | split | dsimp only

theorem keeps_ppData {s t : State} (h : Keeps s t) : ∀ a1 a2 a3 a4, Keeps s (@State.ppData t a1 a2 a3 a4) := by
  intro a1 a2 a3 a4
  unfold State.ppData
  repeat' first
    | with_reducible assumption | with_reducible refine keeps_ite ?_ (fun _ => ?_) | with_reducible refine keeps_onOp ?_ _ _ _
    | with_reducible refine keeps_ppOpen ?_ _ _ _ | with_reducible refine keeps_failOp ?_ _ _ _ | with_reducible refine keeps_onPcc ?_ _ _
    | with_reducible refine keeps_pccPump ?_ _ | with_reducible refine keeps_countT ?_ _ _ _ _ | split | dsimp only

theorem keeps_subtreeClear {s t : State} (h : Keeps s t) : ∀ a1 a2, Keeps s (@State.subtreeClear t a1 a2) := by
  intro a1 a2
  unfold State.subtreeClear
  repeat' first
    | with_reducible assumption | with_reducible refine keeps_zeroSpan ?_ _ _ _ _ _ | with_reducible refine keeps_onPcc ?_ _ _

theorem keeps_combine {s t : State} (h : Keeps s t) : Keeps s (@State.combine t) := by
  unfold State.combine
  repeat' first
    | with_reducible assumption | with_reducible refine keeps_ite ?_ (fun _ => ?_)
    | fail_if_no_progress (with_reducible refine keeps_mk ?_ rfl rfl rfl rfl rfl rfl rfl) | split | dsimp only

theorem keeps_clearSign {s t : State} (h : Keeps s t) : ∀ a1, Keeps s (@State.clearSign t a1) := by
  intro a1
  unfold State.clearSign
  repeat' first
    | with_reducible assumption | with_reducible refine keeps_ite ?_ (fun _ => ?_) | with_reducible refine keeps_foldl (fun _ _ _ => ?_) _ ?_
    | with_reducible refine keeps_setMaster ?_ _ _ | with_reducible refine keeps_rotFields ?_ _ _ | split | dsimp only

theorem keeps_sigRelease {s t : State} (h : Keeps s t) : ∀ a1, Keeps s (@State.sigRelease t a1) := by
  intro a1
  unfold State.sigRelease
  repeat' first
    | with_reducible assumption | with_reducible refine keeps_ite ?_ (fun _ => ?_) | with_reducible refine keeps_clearSign ?_ _
    | with_reducible refine keeps_dropSig ?_ _ | split | dsimp only

theorem keeps_checkDeliver {s t : State} (h : Keeps s t) : ∀ a1 a2 a3 a4 a5, Keeps s (@State.checkDeliver t a1 a2 a3 a4 a5) := by
  intro a1 a2 a3 a4 a5
  unfold State.checkDeliver
  repeat' first
    | with_reducible assumption | with_reducible refine keeps_ite ?_ (fun _ => ?_) | with_reducible refine keeps_sigRelease ?_ _
    | with_reducible refine keeps_reap ?_ | with_reducible refine keeps_completeWhere ?_ _ _ _ _ | with_reducible refine keeps_endObj ?_ _
    | with_reducible refine keeps_count ?_ _ _ | with_reducible refine keeps_countS ?_ _ _ _ _ | with_reducible refine keeps_note ?_ _ _ _ _ _ _ _
    | with_reducible refine keeps_dmaWrite ?_ _ _ _ | fail_if_no_progress (with_reducible refine keeps_mk ?_ rfl rfl rfl rfl rfl rfl rfl) | split
    | dsimp only

theorem keeps_checkAbort {s t : State} (h : Keeps s t) : ∀ a1, Keeps s (@State.checkAbort t a1) := by
  intro a1
  unfold State.checkAbort
  repeat' first
    | with_reducible assumption | with_reducible refine keeps_ite ?_ (fun _ => ?_) | with_reducible refine keeps_checkDeliver ?_ _ _ _ _ _
    | with_reducible refine keeps_combine ?_ | with_reducible refine keeps_draw_eq ?_ _ _ _ (by assumption) | with_reducible refine keeps_draw ?_ _
    | fail_if_no_progress (with_reducible refine keeps_mk ?_ rfl rfl rfl rfl rfl rfl rfl) | split | dsimp only

theorem keeps_checkComplete {s t : State} (h : Keeps s t) : Keeps s (@State.checkComplete t) := by
  unfold State.checkComplete
  repeat' first
    | with_reducible assumption | with_reducible refine keeps_checkDeliver ?_ _ _ _ _ _ | with_reducible refine keeps_combine ?_
    | fail_if_no_progress (with_reducible refine keeps_mk ?_ rfl rfl rfl rfl rfl rfl rfl) | split | dsimp only

theorem keeps_checkMake {s t : State} (h : Keeps s t) : ∀ a1 a2 a3 a4 a5 a6, Keeps s (@State.checkMake t a1 a2 a3 a4 a5 a6) := by
  intro a1 a2 a3 a4 a5 a6
  unfold State.checkMake
  repeat' first
    | with_reducible assumption | with_reducible refine keeps_acceptA ?_ _ _ | with_reducible refine keeps_combine ?_
    | with_reducible refine keeps_powerOn ?_ _ | with_reducible refine keeps_newObj ?_ _ _ _ _
    | fail_if_no_progress (with_reducible refine keeps_mk ?_ rfl rfl rfl rfl rfl rfl rfl) | dsimp only

theorem keeps_checkStart {s t : State} (h : Keeps s t) : Keeps s (@State.checkStart t) := by
  unfold State.checkStart
  repeat' first
    | with_reducible assumption | with_reducible refine keeps_ite ?_ (fun _ => ?_) | with_reducible refine keeps_combine ?_
    | fail_if_no_progress (with_reducible refine keeps_mk ?_ rfl rfl rfl rfl rfl rfl rfl) | split | dsimp only

theorem keeps_checkSubmit {s t : State} (h : Keeps s t) : ∀ a1 a2 a3, Keeps s (@State.checkSubmit t a1 a2 a3) := by
  intro a1 a2 a3
  unfold State.checkSubmit
  repeat' first
    | with_reducible assumption | with_reducible refine keeps_ite ?_ (fun _ => ?_) | with_reducible refine keeps_checkMake ?_ _ _ _ _ _ _
    | with_reducible refine keeps_freeReason ?_ _ | with_reducible refine keeps_answer ?_ _ _ _ | split | dsimp only

theorem keeps_mergeComplete {s t : State} (h : Keeps s t) : Keeps s (@State.mergeComplete t) := by
  unfold State.mergeComplete
  repeat' first
    | with_reducible assumption | with_reducible refine keeps_combine ?_ | with_reducible refine keeps_sigRelease ?_ _
    | with_reducible refine keeps_reap ?_ | with_reducible refine keeps_onSig ?_ _ _ | with_reducible refine keeps_countT ?_ _ _ _ _
    | fail_if_no_progress (with_reducible refine keeps_mk ?_ rfl rfl rfl rfl rfl rfl rfl) | split | dsimp only

theorem keeps_partialReady {s t : State} (h : Keeps s t) : ∀ a1 a2, Keeps s (@State.partialReady t a1 a2) := by
  intro a1 a2
  unfold State.partialReady
  repeat' first
    | with_reducible assumption | with_reducible refine keeps_ite ?_ (fun _ => ?_) | with_reducible refine keeps_combine ?_
    | with_reducible refine keeps_scalesRest ?_ | with_reducible refine keeps_onSig ?_ _ _
    | fail_if_no_progress (with_reducible refine keeps_mk ?_ rfl rfl rfl rfl rfl rfl rfl) | split | dsimp only

theorem keeps_sigClose {s t : State} (h : Keeps s t) : ∀ a1 a2, Keeps s (@State.sigClose t a1 a2) := by
  intro a1 a2
  unfold State.sigClose
  repeat' first
    | with_reducible assumption | with_reducible refine keeps_ite ?_ (fun _ => ?_) | with_reducible refine keeps_foldl (fun _ _ _ => ?_) _ ?_
    | with_reducible refine keeps_sigCleared ?_ _ | with_reducible refine keeps_clearSign ?_ _ | with_reducible refine keeps_onSig ?_ _ _
    | with_reducible refine keeps_freeReason ?_ _ | with_reducible refine keeps_answer ?_ _ _ _ | split | dsimp only

theorem keeps_sigOpensDone {s t : State} (h : Keeps s t) : Keeps s (@State.sigOpensDone t) := by
  unfold State.sigOpensDone
  repeat' first
    | with_reducible assumption | with_reducible refine keeps_foldl (fun _ _ _ => ?_) _ ?_ | with_reducible refine keeps_complete ?_ _ _ _ _
    | fail_if_no_progress (with_reducible refine keeps_mk ?_ rfl rfl rfl rfl rfl rfl rfl) | dsimp only

theorem keeps_sigMake {s t : State} (h : Keeps s t) : ∀ a1 a2 a3 a4 a5 a6, Keeps s (@State.sigMake t a1 a2 a3 a4 a5 a6) := by
  intro a1 a2 a3 a4 a5 a6
  unfold State.sigMake
  repeat' first
    | with_reducible assumption | with_reducible refine keeps_foldl (fun _ _ _ => ?_) _ ?_ | with_reducible refine keeps_hold ?_ _
    | with_reducible refine keeps_sigOpensDone ?_ | with_reducible refine keeps_rotFields ?_ _ _ | with_reducible refine keeps_powerOn ?_ _
    | with_reducible refine keeps_onSig ?_ _ _ | split | dsimp only

theorem keeps_sigOpen {s t : State} (h : Keeps s t) : ∀ a1 a2, Keeps s (@State.sigOpen t a1 a2) := by
  intro a1 a2
  unfold State.sigOpen
  repeat' first
    | with_reducible assumption | with_reducible refine keeps_ite ?_ (fun _ => ?_) | with_reducible refine keeps_sigMake ?_ _ _ _ _ _ _
    | with_reducible refine keeps_freeReason ?_ _ | with_reducible refine keeps_answer ?_ _ _ _ | split | dsimp only

theorem keeps_withBuffer {s t : State} (h : Keeps s t) (c : Cmd) (addr : BitVec 64) (len : Nat) (buf : Buf) (f : State → Bytes → State)
    (hf : ∀ u b, Keeps s u → Keeps s (f u b)) : Keeps s (t.withBuffer c addr len buf f) := by
  unfold State.withBuffer
  have k := keeps_dmaRead h (t.bufferTdid c) addr.toNat len
  dsimp only
  split
  · exact keeps_answer k _ _ _
  · exact hf _ _ k

theorem keeps_execCheckStart {s t : State} (h : Keeps s t) : KeepsN s (@execCheckStart t) := by
  unfold execCheckStart
  repeat' first
    | with_reducible assumption | with_reducible refine keepsN_next ?_ | with_reducible refine keeps_checkStart ?_

theorem keeps_execCheckSubmit {s t : State} (h : Keeps s t) : ∀ a1 a2 a3, KeepsN s (@execCheckSubmit a1 a2 a3 t) := by
  intro a1 a2 a3
  unfold execCheckSubmit
  repeat' first
    | with_reducible assumption | with_reducible refine keepsN_next ?_ | with_reducible refine keeps_checkSubmit ?_ _ _ _
    | with_reducible refine keeps_withBuffer ?_ _ _ _ _ _ (fun _ _ _ => ?_) | with_reducible refine keeps_command ?_ _ _ _ _ (fun _ _ _ => ?_)

theorem keeps_execMergeComplete {s t : State} (h : Keeps s t) : KeepsN s (@execMergeComplete t) := by
  unfold execMergeComplete
  repeat' first
    | with_reducible assumption | with_reducible refine keepsN_next ?_ | with_reducible refine keeps_mergeComplete ?_

theorem keeps_execPartialReady {s t : State} (h : Keeps s t) : ∀ a1 a2, KeepsN s (@execPartialReady a1 a2 t) := by
  intro a1 a2
  unfold execPartialReady
  repeat' first
    | with_reducible assumption | with_reducible refine keepsN_next ?_ | with_reducible refine keeps_partialReady ?_ _ _

theorem keeps_execSigClose {s t : State} (h : Keeps s t) : ∀ a1 a2, KeepsN s (@execSigClose a1 a2 t) := by
  intro a1 a2
  unfold execSigClose
  repeat' first
    | with_reducible assumption | with_reducible refine keepsN_next ?_ | with_reducible refine keeps_sigClose ?_ _ _
    | with_reducible refine keeps_answer ?_ _ _ _ | with_reducible refine keeps_command ?_ _ _ _ _ (fun _ _ _ => ?_) | split | dsimp only

theorem keeps_execSigFree {s t : State} (h : Keeps s t) : ∀ a1 a2, KeepsN s (@execSigFree a1 a2 t) := by
  intro a1 a2
  unfold execSigFree
  repeat' first
    | with_reducible assumption | with_reducible refine keeps_ite ?_ (fun _ => ?_) | with_reducible refine keepsN_next ?_
    | with_reducible refine keeps_onSig ?_ _ _ | with_reducible refine keeps_sigRelease ?_ _ | with_reducible refine keeps_answer ?_ _ _ _
    | with_reducible refine keeps_command ?_ _ _ _ _ (fun _ _ _ => ?_) | split | dsimp only

theorem keeps_execSigOpen {s t : State} (h : Keeps s t) : ∀ a1 a2 a3, KeepsN s (@execSigOpen a1 a2 a3 t) := by
  intro a1 a2 a3
  unfold execSigOpen
  repeat' first
    | with_reducible assumption | with_reducible refine keepsN_next ?_ | with_reducible refine keeps_sigOpen ?_ _ _
    | with_reducible refine keeps_withBuffer ?_ _ _ _ _ _ (fun _ _ _ => ?_) | with_reducible refine keeps_command ?_ _ _ _ _ (fun _ _ _ => ?_)

theorem keeps_drainOver {s t : State} (h : Keeps s t) : ∀ a1, Keeps s (@State.drainOver t a1) := by
  intro a1
  unfold State.drainOver
  repeat' first
    | with_reducible assumption | fail_if_no_progress (with_reducible refine keeps_mk ?_ rfl rfl rfl rfl rfl rfl rfl) | dsimp only

theorem keeps_destroyDrained {s t : State} (h : Keeps s t) : ∀ a1, Keeps s (@State.destroyDrained t a1) := by
  intro a1
  unfold State.destroyDrained
  repeat' first
    | with_reducible assumption | with_reducible refine keeps_ite ?_ (fun _ => ?_) | with_reducible refine keeps_completeWhere ?_ _ _ _ _
    | with_reducible refine keeps_onRegion ?_ _ _ | with_reducible refine keeps_drainOver ?_ _ | with_reducible refine keeps_rotSend ?_ _ _
    | with_reducible refine keeps_setMaster ?_ _ _ | with_reducible refine keeps_note ?_ _ _ _ _ _ _ _ | with_reducible refine keeps_retireSlot ?_ _
    | fail_if_no_progress (with_reducible refine keeps_mk ?_ rfl rfl rfl rfl rfl rfl rfl) | split | dsimp only

theorem keeps_treeReady {s t : State} (h : Keeps s t) : ∀ a1 a2 a3, Keeps s (@State.treeReady t a1 a2 a3) := by
  intro a1 a2 a3
  unfold State.treeReady
  repeat' first
    | with_reducible assumption | with_reducible refine keeps_ite ?_ (fun _ => ?_) | with_reducible refine keeps_clearFences ?_ _ _ _
    | with_reducible refine keeps_subtreeClear ?_ _ _ | with_reducible refine keeps_subtreeInit ?_ _ _ | split | dsimp only

theorem keeps_regionScrub {s t : State} (h : Keeps s t) : ∀ a1, Keeps s (@State.regionScrub t a1) := by
  intro a1
  unfold State.regionScrub
  repeat' first
    | with_reducible assumption | with_reducible refine keeps_ite ?_ (fun _ => ?_) | with_reducible refine keeps_foldl (fun _ _ _ => ?_) _ ?_
    | with_reducible refine keeps_treeReady ?_ _ _ _ | with_reducible refine keeps_note ?_ _ _ _ _ _ _ _
    | with_reducible refine keeps_rotPublish ?_ _ _ _ | with_reducible refine keeps_onRegion ?_ _ _
    | fail_if_no_progress (with_reducible refine keeps_mk ?_ rfl rfl rfl rfl rfl rfl rfl) | split | dsimp only

theorem keeps_regionErase {s t : State} (h : Keeps s t) : ∀ a1, Keeps s (@State.regionErase t a1) := by
  intro a1
  unfold State.regionErase
  repeat' first
    | with_reducible assumption | with_reducible refine keeps_ite ?_ (fun _ => ?_) | with_reducible refine keeps_onDom ?_ _
    | with_reducible refine keeps_regionLost ?_ _ | with_reducible refine keeps_freshKey ?_ _ _ _ _ | with_reducible refine keeps_onRegion ?_ _ _
    | with_reducible refine keeps_invalidate ?_ _ _ | with_reducible refine keeps_onSlot ?_ _ _ | with_reducible refine keeps_regionScrub ?_ _
    | split | dsimp only

theorem keeps_regionPublish {s t : State} (h : Keeps s t) : ∀ a1, Keeps s (@State.regionPublish t a1) := by
  intro a1
  unfold State.regionPublish
  repeat' first
    | with_reducible assumption | with_reducible refine keeps_foldl (fun _ _ _ => ?_) _ ?_ | with_reducible refine keeps_rotPublish ?_ _ _ _
    | with_reducible refine keeps_note ?_ _ _ _ _ _ _ _ | with_reducible refine keeps_onRegion ?_ _ _
    | fail_if_no_progress (with_reducible refine keeps_mk ?_ rfl rfl rfl rfl rfl rfl rfl) | dsimp only

theorem keeps_regionLive {s t : State} (h : Keeps s t) : ∀ a1, Keeps s (@State.regionLive t a1) := by
  intro a1
  unfold State.regionLive
  repeat' first
    | with_reducible assumption | with_reducible refine keeps_ite ?_ (fun _ => ?_) | with_reducible refine keeps_foldl (fun _ _ _ => ?_) _ ?_
    | with_reducible refine keeps_clearStarted ?_ _ | with_reducible refine keeps_nextDrain ?_ _ | with_reducible refine keeps_regionDone ?_ _ _
    | with_reducible refine keeps_drainOver ?_ _ | with_reducible refine keeps_onRegion ?_ _ _ | split | dsimp only

theorem keeps_sendBegin {s t : State} (h : Keeps s t) : ∀ a1, Keeps s (@State.sendBegin t a1) := by
  intro a1
  unfold State.sendBegin
  repeat' first
    | with_reducible assumption | with_reducible refine keeps_ite ?_ (fun _ => ?_) | with_reducible refine keeps_powerOn ?_ _
    | with_reducible refine keeps_onMove ?_ _ _ | fail_if_no_progress (with_reducible refine keeps_mk ?_ rfl rfl rfl rfl rfl rfl rfl) | split
    | dsimp only

theorem keeps_settle {s t : State} (h : Keeps s t) : Keeps s (@State.settle t) := by
  unfold State.settle
  repeat' first
    | with_reducible assumption | with_reducible refine keeps_foldl (fun _ _ _ => ?_) _ ?_ | with_reducible refine keeps_sendBegin ?_ _
    | with_reducible refine keeps_reap ?_ | with_reducible refine keeps_moveEnds ?_ | with_reducible refine keeps_regionLive ?_ _
    | with_reducible refine keeps_regionPublish ?_ _ | with_reducible refine keeps_regionErase ?_ _
    | with_reducible refine keeps_destroyDrained ?_ _ | dsimp only

theorem keeps_afterOwnership {s t : State} (h : Keeps s t) : Keeps s (@State.afterOwnership t) := by
  unfold State.afterOwnership
  repeat' first
    | with_reducible assumption | with_reducible refine keeps_sigOpensDone ?_ | with_reducible refine keeps_settle ?_

theorem keeps_slotReady {s t : State} (h : Keeps s t) : ∀ a1, Keeps s (@State.slotReady t a1) := by
  intro a1
  unfold State.slotReady
  repeat' first
    | with_reducible assumption | with_reducible refine keeps_ite ?_ (fun _ => ?_) | with_reducible refine keeps_reap ?_
    | with_reducible refine keeps_regionLost ?_ _ | with_reducible refine keeps_regionScrub ?_ _ | with_reducible refine keeps_moveStart ?_ _ _
    | with_reducible refine keeps_settle ?_ | split | dsimp only

theorem keeps_deriveDone {s t : State} (h : Keeps s t) : Keeps s (@State.deriveDone t) := by
  unfold State.deriveDone
  repeat' first
    | with_reducible assumption | with_reducible refine keeps_deriveEnd ?_ | with_reducible refine keeps_slotReady ?_ _ | split | dsimp only

theorem keeps_drainDoneTaken {s t : State} (h : Keeps s t) : ∀ a1 a2, Keeps s (@State.drainDoneTaken t a1 a2) := by
  intro a1 a2
  unfold State.drainDoneTaken
  repeat' first
    | with_reducible assumption | with_reducible refine keeps_ite ?_ (fun _ => ?_) | with_reducible refine keeps_settle ?_
    | fail_if_no_progress (with_reducible refine keeps_mk ?_ rfl rfl rfl rfl rfl rfl rfl) | split | dsimp only

theorem keeps_exportPart {s t : State} (h : Keeps s t) : ∀ a1 a2 a3 a4 a5, Keeps s (@State.exportPart t a1 a2 a3 a4 a5) := by
  intro a1 a2 a3 a4 a5
  unfold State.exportPart
  repeat' first
    | with_reducible assumption | with_reducible refine keeps_ite ?_ (fun _ => ?_) | with_reducible refine keeps_onPart ?_ _ _
    | with_reducible refine keeps_dmaWrite ?_ _ _ _ | with_reducible refine keeps_draw_eq ?_ _ _ _ (by assumption)
    | with_reducible refine keeps_draw ?_ _ | with_reducible refine keeps_freeReason ?_ _ | with_reducible refine keeps_answer ?_ _ _ _ | split
    | dsimp only

theorem keeps_fenceCreate {s t : State} (h : Keeps s t) : ∀ a1 a2 a3 a4 a5, Keeps s (@State.fenceCreate t a1 a2 a3 a4 a5) := by
  intro a1 a2 a3 a4 a5
  unfold State.fenceCreate
  repeat' first
    | with_reducible assumption | with_reducible refine keeps_ite ?_ (fun _ => ?_) | with_reducible refine keepsE_ok ?_
    | with_reducible exact keepsE_error | with_reducible refine keepsE_pure ?_ | with_reducible refine keepsE_ite ?_ ?_
    | with_reducible refine keepsE_bind (fun _ => ?_) | with_reducible refine keeps_fenceWrite ?_ _ _ | with_reducible refine keeps_answer ?_ _ _ _
    | with_reducible refine keeps_newObj ?_ _ _ _ _ | with_reducible refine keeps_onFence ?_ _ _ | with_reducible refine keeps_outcome ?_ _ _ ?_
    | split | dsimp only

theorem keeps_regionGo {s t : State} (h : Keeps s t) : ∀ a1 a2, Keeps s (@State.regionGo t a1 a2) := by
  intro a1 a2
  unfold State.regionGo
  repeat' first
    | with_reducible assumption | with_reducible refine keeps_ite ?_ (fun _ => ?_) | with_reducible refine keeps_regionScrub ?_ _
    | with_reducible refine keeps_regionLost ?_ _ | with_reducible refine keeps_freshKey ?_ _ _ _ _ | split | dsimp only

theorem keeps_regionMake {s t : State} (h : Keeps s t) : ∀ a1 a2 a3 a4 a5 a6 a7, Keeps s (@State.regionMake t a1 a2 a3 a4 a5 a6 a7) := by
  intro a1 a2 a3 a4 a5 a6 a7
  unfold State.regionMake
  repeat' first
    | with_reducible assumption | with_reducible refine keeps_ite ?_ (fun _ => ?_) | with_reducible refine keeps_foldl (fun _ _ _ => ?_) _ ?_
    | with_reducible refine keeps_setMaster ?_ _ _ | with_reducible refine keeps_onRegion ?_ _ _ | with_reducible refine keeps_newObj ?_ _ _ _ _
    | fail_if_no_progress (with_reducible refine keeps_mk ?_ rfl rfl rfl rfl rfl rfl rfl) | split | dsimp only

theorem keeps_importRecord {s : State} (c : Cmd) (p : Nat) (place : Bytes) (acc : State × List Nat × Nat) (r : List Nat)
    (h : Keeps s acc.1) : ∀ x, State.importRecord c p place acc r = .ok x → Keeps s x.1 := by
  obtain ⟨t, made, i⟩ := acc
  intro x e
  unfold State.importRecord at e
  dsimp only at e h
  split at e
  · simp only [must, bind, Except.bind, pure, Except.pure] at e
    split at e
    · simp at e
    · split at e
      · simp at e
      · simp only [Except.ok.injEq] at e
        rw [← e]
        exact keeps_regionGo (keeps_regionMake h _ _ _ _ _ _ _) _ _
  · simp only [must, bind, Except.bind, pure, Except.pure] at e
    split at e
    · simp at e
    · split at e
      · simp at e
      · simp only [Except.ok.injEq] at e
        rw [← e]
        exact keeps_fenceWrite (keeps_onFence (keeps_newObj (keeps_draw h _) _ _ _ _) _ _) _ _
  · simp only [pure, Except.pure, Except.ok.injEq] at e
    exact e ▸ h

theorem keeps_importRecords {s : State} (c : Cmd) (p : Nat) (place : Bytes) : ∀ (l : List (List Nat)) (acc : State × List Nat × Nat),
    Keeps s acc.1 → ∀ x, l.foldlM (State.importRecord c p place) acc = .ok x → Keeps s x.1
  | [], acc, h, x, e => by
    simp only [List.foldlM, pure, Except.pure, Except.ok.injEq] at e
    exact e ▸ h
  | r :: l, acc, h, x, e => by
    simp only [List.foldlM, bind, Except.bind] at e
    split at e
    · simp at e
    · rename_i y hy
      exact keeps_importRecords c p place l y (keeps_importRecord c p place acc r h y hy) x e

theorem keeps_importPart {s t : State} (h : Keeps s t) : ∀ c n recs place, Keeps s (t.importPart c n recs place) := by
  intro c n recs place
  unfold State.importPart
  dsimp only
  split
  · exact keeps_freeReason h _
  · refine keeps_outcome h _ _ ?_
    intro u e
    simp only [bind, Except.bind, pure, Except.pure] at e
    split at e
    · simp at e
    · rename_i x hx
      have k : Keeps s x.1 := keeps_importRecords c _ place recs (t, [], 0) h x hx
      split at e
      · simp only [Except.ok.injEq] at e
        exact e ▸ keeps_answer k _ _ _
      · simp only [Except.ok.injEq] at e
        rw [← e]
        exact keeps_settle (keeps_foldl (fun _ _ k => keeps_importStep k _ _) _ (keeps_hold k _))

theorem keeps_partDone {s t : State} (h : Keeps s t) : ∀ a1 a2 a3, Keeps s (@State.partDone t a1 a2 a3) := by
  intro a1 a2 a3
  unfold State.partDone
  repeat' first
    | with_reducible assumption | with_reducible refine keeps_ite ?_ (fun _ => ?_) | with_reducible refine keeps_onRegion ?_ _ _
    | with_reducible refine keeps_settle ?_ | split | dsimp only

theorem keeps_lineDone {s t : State} (h : Keeps s t) : ∀ a1 a2 a3 a4, Keeps s (@State.lineDone t a1 a2 a3 a4) := by
  intro a1 a2 a3 a4
  unfold State.lineDone
  repeat' first
    | with_reducible assumption | with_reducible refine keeps_ite ?_ (fun _ => ?_) | with_reducible refine keeps_partDone ?_ _ _ _
    | with_reducible refine keeps_countT ?_ _ _ _ _ | with_reducible refine keeps_onMcc ?_ _ _ | split | dsimp only

theorem keeps_initStored {s t : State} (h : Keeps s t) : ∀ a1 a2 a3 a4 a5, Keeps s (@State.initStored t a1 a2 a3 a4 a5) := by
  intro a1 a2 a3 a4 a5
  unfold State.initStored
  repeat' first
    | with_reducible assumption | with_reducible refine keeps_ite ?_ (fun _ => ?_) | with_reducible refine keeps_storeLine ?_ _ _ _ _
    | with_reducible refine keeps_lineDone ?_ _ _ _ _ | split | dsimp only

theorem keeps_initLine {s t : State} (h : Keeps s t) : ∀ a1 a2 a3, Keeps s (@State.initLine t a1 a2 a3) := by
  intro a1 a2 a3
  unfold State.initLine
  repeat' first
    | with_reducible assumption | with_reducible refine keeps_ite ?_ (fun _ => ?_) | with_reducible refine keeps_emit ?_ _
    | with_reducible refine keeps_initStored ?_ _ _ _ _ _ | with_reducible refine keeps_lineWritten ?_ _ _
    | with_reducible refine keeps_issueThen ?_ _ _ _ _ (fun _ _ => ?_) | with_reducible refine keeps_readySched_eq ?_ _ _ _ _ (by assumption)
    | with_reducible refine keeps_readySched ?_ _ _ | with_reducible refine keeps_lineDone ?_ _ _ _ _
    | with_reducible refine keeps_writeId_eq ?_ _ _ _ (by assumption) | with_reducible refine keeps_writeId ?_ _
    | with_reducible refine keeps_partDone ?_ _ _ _ | split | dsimp only

theorem keeps_initPool {s t : State} (h : Keeps s t) : ∀ a1 a2 a3, Keeps s (@State.initPool t a1 a2 a3) := by
  intro a1 a2 a3
  unfold State.initPool
  repeat' first
    | with_reducible assumption | with_reducible refine keeps_ite ?_ (fun _ => ?_) | with_reducible refine keeps_emit ?_ _
    | with_reducible refine keeps_countT ?_ _ _ _ _ | with_reducible refine keeps_onPcc ?_ _ _
    | with_reducible refine keeps_counterLineInit_eq ?_ _ _ _ _ (by assumption) | with_reducible refine keeps_counterLineInit ?_ _ _
    | with_reducible refine keeps_writeId_eq ?_ _ _ _ (by assumption) | with_reducible refine keeps_writeId ?_ _
    | with_reducible refine keeps_partDone ?_ _ _ _ | split | dsimp only

theorem keeps_lineInit {s t : State} (h : Keeps s t) : ∀ a1 a2, Keeps s (@State.lineInit t a1 a2) := by
  intro a1 a2
  unfold State.lineInit
  repeat' first
    | with_reducible assumption | with_reducible refine keeps_ite ?_ (fun _ => ?_) | with_reducible refine keeps_initPool ?_ _ _ _
    | with_reducible refine keeps_initLine ?_ _ _ _ | with_reducible refine keeps_regionLost ?_ _ | with_reducible refine keeps_settle ?_ | split
    | dsimp only

theorem keeps_regionClear {s t : State} (h : Keeps s t) : ∀ a1 a2 a3 a4, Keeps s (@State.regionClear t a1 a2 a3 a4) := by
  intro a1 a2 a3 a4
  unfold State.regionClear
  repeat' first
    | with_reducible assumption | with_reducible refine keeps_ite ?_ (fun _ => ?_) | with_reducible refine keeps_foldl (fun _ _ _ => ?_) _ ?_
    | with_reducible refine keeps_drain ?_ _ _ | with_reducible refine keeps_settle ?_ | with_reducible refine keeps_regionDone ?_ _ _
    | with_reducible refine keeps_acceptA ?_ _ _ | split | dsimp only

theorem keeps_regionCreate {s t : State} (h : Keeps s t) : ∀ a1 a2, Keeps s (@State.regionCreate t a1 a2) := by
  intro a1 a2
  unfold State.regionCreate
  repeat' first
    | with_reducible assumption | with_reducible refine keeps_ite ?_ (fun _ => ?_) | with_reducible refine keepsE_ok ?_
    | with_reducible exact keepsE_error | with_reducible refine keepsE_pure ?_ | with_reducible refine keepsE_ite ?_ ?_
    | with_reducible refine keepsE_bind (fun _ => ?_) | with_reducible refine keeps_regionGo ?_ _ _ | with_reducible refine keeps_settle ?_
    | with_reducible refine keeps_acceptA ?_ _ _ | with_reducible refine keeps_regionMake ?_ _ _ _ _ _ _ _
    | with_reducible refine keeps_outcome ?_ _ _ ?_ | split | dsimp only

theorem keeps_regionDestroy {s t : State} (h : Keeps s t) : ∀ a1 a2, Keeps s (@State.regionDestroy t a1 a2) := by
  intro a1 a2
  unfold State.regionDestroy
  repeat' first
    | with_reducible assumption | with_reducible refine keeps_ite ?_ (fun _ => ?_) | with_reducible refine keeps_destroyEntries ?_ _
    | with_reducible refine keeps_regionLost ?_ _ | with_reducible refine keeps_settle ?_ | with_reducible refine keeps_hold ?_ _
    | with_reducible refine keeps_moveStop ?_ _ _ | with_reducible refine keeps_completeWhere ?_ _ _ _ _
    | with_reducible refine keeps_onRegion ?_ _ _ | fail_if_no_progress (with_reducible refine keeps_mk ?_ rfl rfl rfl rfl rfl rfl rfl) | split
    | dsimp only

theorem keeps_rotApplied {s t : State} (h : Keeps s t) : ∀ a1, Keeps s (@State.rotApplied t a1) := by
  intro a1
  unfold State.rotApplied
  repeat' first
    | with_reducible assumption | with_reducible refine keeps_rotUpdate ?_ _ | with_reducible refine keeps_afterOwnership ?_

theorem keeps_execFenceCreate {s t : State} (h : Keeps s t) : ∀ a1 a2 a3 a4 a5, KeepsN s (@execFenceCreate a1 a2 a3 a4 a5 t) := by
  intro a1 a2 a3 a4 a5
  unfold execFenceCreate
  repeat' first
    | with_reducible assumption | with_reducible refine keepsN_next ?_ | with_reducible refine keeps_fenceCreate ?_ _ _ _ _ _
    | with_reducible refine keeps_command ?_ _ _ _ _ (fun _ _ _ => ?_)

theorem keeps_execIommuDone {s t : State} (h : Keeps s t) : ∀ a1 a2 a3, KeepsN s (@execIommuDone a1 a2 a3 t) := by
  intro a1 a2 a3
  unfold execIommuDone
  repeat' first
    | with_reducible assumption | with_reducible refine keeps_foldl (fun _ _ _ => ?_) _ ?_ | with_reducible refine keepsN_next ?_
    | with_reducible refine keepsE_ok ?_ | with_reducible exact keepsE_error | with_reducible refine keepsE_pure ?_
    | with_reducible refine keepsE_ite ?_ ?_ | with_reducible refine keepsE_bind (fun _ => ?_) | with_reducible refine keeps_rotFields ?_ _ _
    | with_reducible refine keeps_answer ?_ _ _ _ | with_reducible refine keeps_outcome ?_ _ _ ?_
    | with_reducible refine keeps_command ?_ _ _ _ _ (fun _ _ _ => ?_) | split | dsimp only

theorem keeps_execMigrateSend {s t : State} (h : Keeps s t) : ∀ a1 a2 a3 a4 a5 a6, KeepsN s (@execMigrateSend a1 a2 a3 a4 a5 a6 t) := by
  intro a1 a2 a3 a4 a5 a6
  unfold execMigrateSend
  repeat' first
    | with_reducible assumption | with_reducible refine keeps_ite ?_ (fun _ => ?_) | with_reducible refine keepsN_next ?_
    | with_reducible refine keepsE_ok ?_ | with_reducible exact keepsE_error | with_reducible refine keepsE_pure ?_
    | with_reducible refine keepsE_ite ?_ ?_ | with_reducible refine keepsE_bind (fun _ => ?_) | with_reducible refine keeps_settle ?_
    | with_reducible refine keeps_completeWhere ?_ _ _ _ _ | with_reducible refine keeps_acceptA ?_ _ _
    | with_reducible refine keeps_freeReason ?_ _ | with_reducible refine keeps_outcome ?_ _ _ ?_
    | with_reducible refine keeps_command ?_ _ _ _ _ (fun _ _ _ => ?_) | split | dsimp only

theorem keeps_execNewtCopy {s t : State} (h : Keeps s t) : ∀ a1 a2 a3, KeepsN s (@execNewtCopy a1 a2 a3 t) := by
  intro a1 a2 a3
  unfold execNewtCopy
  repeat' first
    | with_reducible assumption | with_reducible refine keepsN_next ?_ | with_reducible refine keeps_newtCopy ?_ _ _ _
    | with_reducible refine keeps_settle ?_

theorem keeps_execNewtMoveComplete {s t : State} (h : Keeps s t) : ∀ a1, KeepsN s (@execNewtMoveComplete a1 t) := by
  intro a1
  unfold execNewtMoveComplete
  repeat' first
    | with_reducible assumption | with_reducible refine keepsN_next ?_ | with_reducible refine keeps_moveComplete ?_ _
    | with_reducible refine keeps_settle ?_ | with_reducible refine keeps_tryRekey ?_

theorem keeps_execPartExport {s t : State} (h : Keeps s t) : ∀ a1 a2 a3 a4 a5, KeepsN s (@execPartExport a1 a2 a3 a4 a5 t) := by
  intro a1 a2 a3 a4 a5
  unfold execPartExport
  repeat' first
    | with_reducible assumption | with_reducible refine keepsN_next ?_ | with_reducible refine keepsE_ok ?_ | with_reducible exact keepsE_error
    | with_reducible refine keepsE_pure ?_ | with_reducible refine keepsE_ite ?_ ?_ | with_reducible refine keepsE_bind (fun _ => ?_)
    | with_reducible refine keeps_exportPart ?_ _ _ _ _ _ | with_reducible refine keeps_withBuffer ?_ _ _ _ _ _ (fun _ _ _ => ?_)
    | with_reducible refine keeps_outcome ?_ _ _ ?_ | with_reducible refine keeps_command ?_ _ _ _ _ (fun _ _ _ => ?_) | split

theorem keeps_execPartImport {s t : State} (h : Keeps s t) : ∀ a1 a2 a3 a4 a5 a6, KeepsN s (@execPartImport a1 a2 a3 a4 a5 a6 t) := by
  intro a1 a2 a3 a4 a5 a6
  unfold execPartImport
  repeat' first
    | with_reducible assumption | with_reducible refine keeps_ite ?_ (fun _ => ?_) | with_reducible refine keepsN_next ?_
    | with_reducible refine keepsE_ok ?_ | with_reducible exact keepsE_error | with_reducible refine keepsE_pure ?_
    | with_reducible refine keepsE_ite ?_ ?_ | with_reducible refine keepsE_bind (fun _ => ?_) | with_reducible refine keeps_importPart ?_ _ _ _ _
    | with_reducible refine keeps_freeReason ?_ _ | with_reducible refine keeps_answer ?_ _ _ _ | with_reducible refine keeps_dmaRead ?_ _ _ _
    | with_reducible refine keeps_outcome ?_ _ _ ?_ | with_reducible refine keeps_command ?_ _ _ _ _ (fun _ _ _ => ?_) | split | dsimp only

theorem keeps_execRegionAttr {s t : State} (h : Keeps s t) : ∀ a1 a2 a3, KeepsN s (@execRegionAttr a1 a2 a3 t) := by
  intro a1 a2 a3
  unfold execRegionAttr
  repeat' first
    | with_reducible assumption | with_reducible refine keeps_foldl (fun _ _ _ => ?_) _ ?_ | with_reducible refine keepsN_next ?_
    | with_reducible refine keepsE_ok ?_ | with_reducible exact keepsE_error | with_reducible refine keepsE_pure ?_
    | with_reducible refine keepsE_ite ?_ ?_ | with_reducible refine keepsE_bind (fun _ => ?_) | with_reducible refine keeps_onRegion ?_ _ _
    | with_reducible refine keeps_answer ?_ _ _ _ | with_reducible refine keeps_rotFields ?_ _ _ | with_reducible refine keeps_outcome ?_ _ _ ?_
    | with_reducible refine keeps_command ?_ _ _ _ _ (fun _ _ _ => ?_) | split | dsimp only

theorem keeps_execRegionClear {s t : State} (h : Keeps s t) : ∀ a1 a2 a3 a4, KeepsN s (@execRegionClear a1 a2 a3 a4 t) := by
  intro a1 a2 a3 a4
  unfold execRegionClear
  repeat' first
    | with_reducible assumption | with_reducible refine keeps_ite ?_ (fun _ => ?_) | with_reducible refine keepsN_next ?_
    | with_reducible refine keepsE_ok ?_ | with_reducible exact keepsE_error | with_reducible refine keepsE_pure ?_
    | with_reducible refine keepsE_ite ?_ ?_ | with_reducible refine keepsE_bind (fun _ => ?_) | with_reducible refine keeps_regionClear ?_ _ _ _ _
    | with_reducible refine keeps_freeReason ?_ _ | with_reducible refine keeps_outcome ?_ _ _ ?_
    | with_reducible refine keeps_command ?_ _ _ _ _ (fun _ _ _ => ?_) | split | dsimp only

theorem keeps_execRegionCreate {s t : State} (h : Keeps s t) : ∀ a1 a2 a3, KeepsN s (@execRegionCreate a1 a2 a3 t) := by
  intro a1 a2 a3
  unfold execRegionCreate
  repeat' first
    | with_reducible assumption | with_reducible refine keepsN_next ?_ | with_reducible refine keeps_regionCreate ?_ _ _
    | with_reducible refine keeps_withBuffer ?_ _ _ _ _ _ (fun _ _ _ => ?_) | with_reducible refine keeps_command ?_ _ _ _ _ (fun _ _ _ => ?_)

theorem keeps_execRegionDestroy {s t : State} (h : Keeps s t) : ∀ a1 a2, KeepsN s (@execRegionDestroy a1 a2 t) := by
  intro a1 a2
  unfold execRegionDestroy
  repeat' first
    | with_reducible assumption | with_reducible refine keepsN_next ?_ | with_reducible refine keepsE_ok ?_ | with_reducible exact keepsE_error
    | with_reducible refine keepsE_pure ?_ | with_reducible refine keepsE_ite ?_ ?_ | with_reducible refine keepsE_bind (fun _ => ?_)
    | with_reducible refine keeps_regionDestroy ?_ _ _ | with_reducible refine keeps_outcome ?_ _ _ ?_
    | with_reducible refine keeps_command ?_ _ _ _ _ (fun _ _ _ => ?_) | split

theorem keeps_admitSend {s t : State} (h : Keeps s t) : ∀ a1 a2 a3, Keeps s (@State.admitSend t a1 a2 a3) := by
  intro a1 a2 a3
  unfold State.admitSend
  repeat' first
    | with_reducible assumption | with_reducible refine keeps_emit ?_ _

theorem keeps_onSite {s t : State} (h : Keeps s t) : ∀ a1 a2, Keeps s (@State.onSite t a1 a2) := by
  intro a1 a2
  unfold State.onSite
  repeat' first
    | with_reducible assumption | fail_if_no_progress (with_reducible refine keeps_mk ?_ rfl rfl rfl rfl rfl rfl rfl) | dsimp only

theorem keeps_withdraw {s t : State} (h : Keeps s t) : ∀ a1, Keeps s (@State.withdraw t a1) := by
  intro a1
  unfold State.withdraw
  repeat' first
    | with_reducible assumption | with_reducible refine keeps_foldl (fun _ _ _ => ?_) _ ?_ | with_reducible refine keeps_onSite ?_ _ _
    | fail_if_no_progress (with_reducible refine keeps_mk ?_ rfl rfl rfl rfl rfl rfl rfl) | dsimp only

theorem keeps_noteSite {s t : State} (h : Keeps s t) : ∀ a1, Keeps s (@State.noteSite t a1) := by
  intro a1
  unfold State.noteSite
  repeat' first
    | with_reducible assumption | with_reducible refine keeps_note ?_ _ _ _ _ _ _ _

theorem keeps_admitFailed {s t : State} (h : Keeps s t) : ∀ a1 a2, Keeps s (@State.admitFailed t a1 a2) := by
  intro a1 a2
  unfold State.admitFailed
  repeat' first
    | with_reducible assumption | with_reducible refine keeps_onSite ?_ _ _ | with_reducible refine keeps_report ?_ _ _ _ _
    | with_reducible refine keeps_noteSite ?_ _

theorem keeps_admitAnswer {s t : State} (h : Keeps s t) : ∀ a1, Keeps s (@State.admitAnswer t a1) := by
  intro a1
  unfold State.admitAnswer
  repeat' first
    | with_reducible assumption | with_reducible refine keeps_completeWhere ?_ _ _ _ _

theorem keeps_evict {s t : State} (h : Keeps s t) : ∀ a1 a2 a3, Keeps s (@State.evict t a1 a2 a3) := by
  intro a1 a2 a3
  unfold State.evict
  repeat' first
    | with_reducible assumption | with_reducible refine keeps_ite ?_ (fun _ => ?_) | with_reducible refine keeps_admitAnswer ?_ _
    | with_reducible refine keeps_admitFailed ?_ _ _ | with_reducible refine keeps_onSite ?_ _ _ | with_reducible refine keeps_noteSite ?_ _
    | with_reducible refine keeps_withdraw ?_ _ | split | dsimp only

theorem keeps_admitNext {s t : State} (h : Keeps s t) : ∀ a1 a2 a3 a4, Keeps s (@State.admitNext t a1 a2 a3 a4) := by
  intro a1 a2 a3 a4
  unfold State.admitNext
  repeat' first
    | with_reducible assumption | with_reducible refine keeps_onSite ?_ _ _ | with_reducible refine keeps_admitSend ?_ _ _ _

theorem keeps_admitNonce {s t : State} (h : Keeps s t) : ∀ a1 a2 a3, Keeps s (@State.admitNonce t a1 a2 a3) := by
  intro a1 a2 a3
  unfold State.admitNonce
  repeat' first
    | with_reducible assumption | with_reducible refine keeps_onSite ?_ _ _ | with_reducible refine keeps_admitSend ?_ _ _ _
    | with_reducible refine keeps_draw_eq ?_ _ _ _ (by assumption) | with_reducible refine keeps_draw ?_ _ | split | dsimp only

theorem keeps_admitChain {s t : State} (h : Keeps s t) : ∀ a1 a2, Keeps s (@State.admitChain t a1 a2) := by
  intro a1 a2
  unfold State.admitChain
  repeat' first
    | with_reducible assumption | with_reducible refine keeps_ite ?_ (fun _ => ?_) | with_reducible refine keeps_admitNonce ?_ _ _ _
    | with_reducible refine keeps_admitSend ?_ _ _ _ | with_reducible refine keeps_admitFailed ?_ _ _ | with_reducible refine keeps_admitAnswer ?_ _
    | with_reducible refine keeps_onSite ?_ _ _ | split | dsimp only

theorem keeps_admitDone {s t : State} (h : Keeps s t) : ∀ a1 a2, Keeps s (@State.admitDone t a1 a2) := by
  intro a1 a2
  unfold State.admitDone
  repeat' first
    | with_reducible assumption | with_reducible refine keeps_noteSite ?_ _ | with_reducible refine keeps_admitAnswer ?_ _
    | with_reducible refine keeps_onSite ?_ _ _

theorem keeps_admitMeas {s t : State} (h : Keeps s t) : ∀ a1 a2, Keeps s (@State.admitMeas t a1 a2) := by
  intro a1 a2
  unfold State.admitMeas
  repeat' first
    | with_reducible assumption | with_reducible refine keeps_ite ?_ (fun _ => ?_) | with_reducible refine keeps_admitDone ?_ _ _
    | with_reducible refine keeps_onSite ?_ _ _ | with_reducible refine keeps_admitFailed ?_ _ _ | with_reducible refine keeps_admitAnswer ?_ _
    | with_reducible refine keeps_evict ?_ _ _ _ | split | dsimp only

theorem keeps_admitStep {s t : State} (h : Keeps s t) : ∀ a1 a2, Keeps s (@State.admitStep t a1 a2) := by
  intro a1 a2
  unfold State.admitStep
  repeat' first
    | with_reducible assumption | with_reducible refine keeps_ite ?_ (fun _ => ?_) | with_reducible refine keeps_admitMeas ?_ _ _
    | with_reducible refine keeps_admitNonce ?_ _ _ _ | with_reducible refine keeps_admitChain ?_ _ _
    | with_reducible refine keeps_admitNext ?_ _ _ _ _ | with_reducible refine keeps_admitFailed ?_ _ _
    | with_reducible refine keeps_admitAnswer ?_ _ | with_reducible refine keeps_evict ?_ _ _ _ | split | dsimp only

theorem keeps_admission {s t : State} (h : Keeps s t) : ∀ a1 a2, Keeps s (@State.admission t a1 a2) := by
  intro a1 a2
  unfold State.admission
  repeat' first
    | with_reducible assumption | with_reducible refine keeps_ite ?_ (fun _ => ?_) | with_reducible refine keeps_onSite ?_ _ _
    | with_reducible refine keeps_admitStep ?_ _ _ | with_reducible refine keeps_admitSend ?_ _ _ _ | split | dsimp only

theorem keeps_admitStart {s t : State} (h : Keeps s t) : ∀ a1, Keeps s (@State.admitStart t a1) := by
  intro a1
  unfold State.admitStart
  repeat' first
    | with_reducible assumption | with_reducible refine keeps_ite ?_ (fun _ => ?_) | with_reducible refine keeps_onSite ?_ _ _
    | with_reducible refine keeps_noteSite ?_ _ | with_reducible refine keeps_admitSend ?_ _ _ _ | with_reducible refine keeps_admitFailed ?_ _ _
    | with_reducible refine keeps_admitAnswer ?_ _ | split | dsimp only

theorem keeps_contextsClear {s t : State} (h : Keeps s t) : ∀ a1, Keeps s (@State.contextsClear t a1) := by
  intro a1
  unfold State.contextsClear
  repeat' first
    | with_reducible assumption | with_reducible refine keeps_foldl (fun _ _ _ => ?_) _ ?_ | with_reducible refine keeps_onPart ?_ _ _
    | fail_if_no_progress (with_reducible refine keeps_mk ?_ rfl rfl rfl rfl rfl rfl rfl) | dsimp only

theorem keeps_contextsRestore {s t : State} (h : Keeps s t) : ∀ a1, Keeps s (@State.contextsRestore t a1) := by
  intro a1
  unfold State.contextsRestore
  repeat' first
    | with_reducible assumption | with_reducible refine keeps_ite ?_ (fun _ => ?_) | with_reducible refine keeps_foldl (fun _ _ _ => ?_) _ ?_
    | with_reducible refine keeps_onPart ?_ _ _ | fail_if_no_progress (with_reducible refine keeps_mk ?_ rfl rfl rfl rfl rfl rfl rfl) | split
    | dsimp only

theorem keeps_contextsZero {s t : State} (h : Keeps s t) : ∀ a1, Keeps s (@State.contextsZero t a1) := by
  intro a1
  unfold State.contextsZero
  repeat' first
    | with_reducible assumption | with_reducible refine keeps_foldl (fun _ _ _ => ?_) _ ?_ | with_reducible refine keeps_onPart ?_ _ _
    | fail_if_no_progress (with_reducible refine keeps_mk ?_ rfl rfl rfl rfl rfl rfl rfl) | dsimp only

theorem keeps_inboundSite {s t : State} (h : Keeps s t) : ∀ a1 a2 a3, Keeps s (@State.inboundSite t a1 a2 a3) := by
  intro a1 a2 a3
  unfold State.inboundSite
  repeat' first
    | with_reducible assumption | with_reducible refine keeps_ite ?_ (fun _ => ?_) | with_reducible refine keeps_emit ?_ _
    | with_reducible refine keeps_note ?_ _ _ _ _ _ _ _ | with_reducible refine keeps_reportOwn ?_ _ | with_reducible refine keeps_done ?_ _ _ _ _
    | split | dsimp only

theorem keeps_remeasure {s t : State} (h : Keeps s t) : ∀ a1, Keeps s (@State.remeasure t a1) := by
  intro a1
  unfold State.remeasure
  repeat' first
    | with_reducible assumption | with_reducible refine keeps_ite ?_ (fun _ => ?_) | with_reducible refine keeps_onSite ?_ _ _
    | with_reducible refine keeps_admitNonce ?_ _ _ _ | split | dsimp only

theorem keeps_setSct {s t : State} (h : Keeps s t) : ∀ a1 a2 a3, Keeps s (@State.setSct t a1 a2 a3) := by
  intro a1 a2 a3
  unfold State.setSct
  repeat' first
    | with_reducible assumption | fail_if_no_progress (with_reducible refine keeps_mk ?_ rfl rfl rfl rfl rfl rfl rfl) | dsimp only

theorem keeps_siteCompletion {s t : State} (h : Keeps s t) : ∀ a1 a2 a3 a4, Keeps s (@State.siteCompletion t a1 a2 a3 a4) := by
  intro a1 a2 a3 a4
  unfold State.siteCompletion
  repeat' first
    | with_reducible assumption | with_reducible refine keeps_ite ?_ (fun _ => ?_) | with_reducible refine keeps_emit ?_ _
    | fail_if_no_progress (with_reducible refine keeps_mk ?_ rfl rfl rfl rfl rfl rfl rfl) | split | dsimp only

theorem keeps_siteContext {s t : State} (h : Keeps s t) : ∀ a1 a2 a3, KeepsE s (@State.siteContext t a1 a2 a3) := by
  intro a1 a2 a3
  unfold State.siteContext
  repeat' first
    | with_reducible assumption | with_reducible refine keepsE_ok ?_ | with_reducible exact keepsE_error | with_reducible refine keepsE_pure ?_
    | with_reducible refine keepsE_ite ?_ ?_ | with_reducible refine keepsE_bind (fun _ => ?_) | with_reducible refine keeps_setSct ?_ _ _ _

theorem keeps_siteRefuse {s t : State} (h : Keeps s t) : ∀ a1 a2 a3 a4, Keeps s (@State.siteRefuse t a1 a2 a3 a4) := by
  intro a1 a2 a3 a4
  unfold State.siteRefuse
  repeat' first
    | with_reducible assumption | with_reducible refine keeps_ite ?_ (fun _ => ?_) | with_reducible refine keeps_emit ?_ _
    | with_reducible refine keeps_reportOwn ?_ _ | with_reducible refine keeps_countS ?_ _ _ _ _ | with_reducible refine keeps_note ?_ _ _ _ _ _ _ _
    | split | dsimp only

theorem keeps_siteStamp {s t : State} (h : Keeps s t) : ∀ a1 a2, Keeps s (@State.siteStamp t a1 a2) := by
  intro a1 a2
  unfold State.siteStamp
  repeat' first
    | with_reducible assumption | with_reducible refine keeps_ite ?_ (fun _ => ?_) | with_reducible refine keeps_emit ?_ _
    | with_reducible refine keeps_countT ?_ _ _ _ _ | with_reducible refine keeps_siteRefuse ?_ _ _ _ _
    | fail_if_no_progress (with_reducible refine keeps_mk ?_ rfl rfl rfl rfl rfl rfl rfl) | split | dsimp only

theorem keeps_siteRequest {s t : State} (h : Keeps s t) : ∀ a1 a2, Keeps s (@State.siteRequest t a1 a2) := by
  intro a1 a2
  unfold State.siteRequest
  repeat' first
    | with_reducible assumption | with_reducible refine keeps_ite ?_ (fun _ => ?_) | with_reducible refine keeps_emit ?_ _
    | with_reducible refine keeps_siteStamp ?_ _ _ | with_reducible refine keeps_siteRefuse ?_ _ _ _ _ | split | dsimp only

theorem keeps_execAdmissionResponse {s t : State} (h : Keeps s t) : ∀ a1 a2, KeepsN s (@execAdmissionResponse a1 a2 t) := by
  intro a1 a2
  unfold execAdmissionResponse
  repeat' first
    | with_reducible assumption | with_reducible refine keepsN_next ?_ | with_reducible refine keeps_admission ?_ _ _

theorem keeps_execAdmissionTimeout {s t : State} (h : Keeps s t) : ∀ a1, KeepsN s (@execAdmissionTimeout a1 t) := by
  intro a1
  unfold execAdmissionTimeout
  repeat' first
    | with_reducible assumption | with_reducible refine keeps_ite ?_ (fun _ => ?_) | with_reducible refine keepsN_next ?_
    | with_reducible refine keeps_admitFailed ?_ _ _ | with_reducible refine keeps_admitAnswer ?_ _ | split | dsimp only

theorem keeps_execInboundSiteRequest {s t : State} (h : Keeps s t) : ∀ a1 a2 a3, KeepsN s (@execInboundSiteRequest a1 a2 a3 t) := by
  intro a1 a2 a3
  unfold execInboundSiteRequest
  repeat' first
    | with_reducible assumption | with_reducible refine keepsN_next ?_ | with_reducible refine keeps_inboundSite ?_ _ _ _
    | with_reducible refine keeps_atIngress ?_ _ _ _ (fun _ _ => ?_)

theorem keeps_execRemeasureTimer {s t : State} (h : Keeps s t) : ∀ a1, KeepsN s (@execRemeasureTimer a1 t) := by
  intro a1
  unfold execRemeasureTimer
  repeat' first
    | with_reducible assumption | with_reducible refine keepsN_next ?_ | with_reducible refine keeps_remeasure ?_ _

theorem keeps_execSiteAdmit {s t : State} (h : Keeps s t) : ∀ a1 a2, KeepsN s (@execSiteAdmit a1 a2 t) := by
  intro a1 a2
  unfold execSiteAdmit
  repeat' first
    | with_reducible assumption | with_reducible refine keepsN_next ?_ | with_reducible refine keeps_hold ?_ _
    | with_reducible refine keeps_admitStart ?_ _ | with_reducible refine keeps_answer ?_ _ _ _
    | with_reducible refine keeps_command ?_ _ _ _ _ (fun _ _ _ => ?_) | split | dsimp only

theorem keeps_execSiteCompletion {s t : State} (h : Keeps s t) : ∀ a1 a2 a3 a4, KeepsN s (@execSiteCompletion a1 a2 a3 a4 t) := by
  intro a1 a2 a3 a4
  unfold execSiteCompletion
  repeat' first
    | with_reducible assumption | with_reducible refine keepsN_next ?_ | with_reducible refine keeps_siteCompletion ?_ _ _ _ _

theorem keeps_execSiteContext {s t : State} (h : Keeps s t) : ∀ a b c d, KeepsN s (execSiteContext a b c d t) := by
  intro a b c d
  unfold execSiteContext
  refine keepsN_next (keeps_command h _ _ _ _ (fun u c k => ?_))
  split
  · rename_i v e
    exact keeps_answer (keeps_siteContext k _ _ _ v e) _ _ _
  · exact keeps_answer k _ _ _

theorem keeps_execSiteEvict {s t : State} (h : Keeps s t) : ∀ a1 a2, KeepsN s (@execSiteEvict a1 a2 t) := by
  intro a1 a2
  unfold execSiteEvict
  repeat' first
    | with_reducible assumption | with_reducible refine keepsN_next ?_ | with_reducible refine keeps_evict ?_ _ _ _
    | with_reducible refine keeps_answer ?_ _ _ _ | with_reducible refine keeps_command ?_ _ _ _ _ (fun _ _ _ => ?_) | split | dsimp only

theorem keeps_execSiteLinkDown {s t : State} (h : Keeps s t) : ∀ a1, KeepsN s (@execSiteLinkDown a1 t) := by
  intro a1
  unfold execSiteLinkDown
  repeat' first
    | with_reducible assumption | with_reducible refine keepsN_next ?_ | with_reducible refine keeps_onSite ?_ _ _
    | with_reducible refine keeps_evict ?_ _ _ _

theorem keeps_execSiteLinkUp {s t : State} (h : Keeps s t) : ∀ a1, KeepsN s (@execSiteLinkUp a1 t) := by
  intro a1
  unfold execSiteLinkUp
  repeat' first
    | with_reducible assumption | with_reducible refine keeps_ite ?_ (fun _ => ?_) | with_reducible refine keepsN_next ?_
    | with_reducible refine keeps_admitStart ?_ _ | with_reducible refine keeps_onSite ?_ _ _ | split | dsimp only

theorem keeps_execSitePolicy {s t : State} (h : Keeps s t) : ∀ a1 a2 a3 a4, KeepsN s (@execSitePolicy a1 a2 a3 a4 t) := by
  intro a1 a2 a3 a4
  unfold execSitePolicy
  repeat' first
    | with_reducible assumption | with_reducible refine keeps_ite ?_ (fun _ => ?_) | with_reducible refine keepsN_next ?_
    | with_reducible refine keeps_onSite ?_ _ _ | with_reducible refine keeps_withBuffer ?_ _ _ _ _ _ (fun _ _ _ => ?_)
    | with_reducible refine keeps_answer ?_ _ _ _ | with_reducible refine keeps_command ?_ _ _ _ _ (fun _ _ _ => ?_) | split | dsimp only

theorem keeps_execSiteRequest {s t : State} (h : Keeps s t) : ∀ a1 a2, KeepsN s (@execSiteRequest a1 a2 t) := by
  intro a1 a2
  unfold execSiteRequest
  repeat' first
    | with_reducible assumption | with_reducible refine keepsN_next ?_ | with_reducible refine keeps_siteRequest ?_ _ _
    | with_reducible refine keeps_atIngress ?_ _ _ _ (fun _ _ => ?_)

theorem keeps_blobUnwrap {s t : State} (h : Keeps s t) : ∀ a1 a2 a3, Keeps s (@State.blobUnwrap t a1 a2 a3) := by
  intro a1 a2 a3
  unfold State.blobUnwrap
  repeat' first
    | with_reducible assumption | with_reducible refine keeps_ite ?_ (fun _ => ?_) | with_reducible refine keepsE_ok ?_
    | with_reducible exact keepsE_error | with_reducible refine keepsE_pure ?_ | with_reducible refine keepsE_ite ?_ ?_
    | with_reducible refine keepsE_bind (fun _ => ?_) | with_reducible refine keeps_answer ?_ _ _ _ | with_reducible refine keeps_newObj ?_ _ _ _ _
    | with_reducible refine keeps_onSlot ?_ _ _ | with_reducible refine keeps_fillSlot ?_ _ _ _ | with_reducible refine keeps_outcome ?_ _ _ ?_
    | with_reducible refine keeps_freeReason ?_ _ | split | dsimp only

theorem keeps_cancelExit {s t : State} (h : Keeps s t) : ∀ a1 a2 a3, Keeps s (@State.cancelExit t a1 a2 a3) := by
  intro a1 a2 a3
  unfold State.cancelExit
  repeat' first
    | with_reducible assumption | with_reducible refine keeps_ite ?_ (fun _ => ?_) | with_reducible refine keeps_foldl (fun _ _ _ => ?_) _ ?_
    | with_reducible refine keeps_answer ?_ _ _ _ | with_reducible refine keeps_respond ?_ _ _ _ _ | with_reducible refine keeps_signal ?_ _ _ _
    | fail_if_no_progress (with_reducible refine keeps_mk ?_ rfl rfl rfl rfl rfl rfl rfl) | split | dsimp only

theorem keeps_partMake {s t : State} (h : Keeps s t) : ∀ a1 a2 a3 a4 a5 a6, Keeps s (@State.partMake t a1 a2 a3 a4 a5 a6) := by
  intro a1 a2 a3 a4 a5 a6
  unfold State.partMake
  repeat' first
    | with_reducible assumption | with_reducible refine keeps_ite ?_ (fun _ => ?_) | with_reducible refine keeps_foldl (fun _ _ _ => ?_) _ ?_
    | (with_reducible refine keeps_onSpr ?_ _ ?_) <;> [skip; exact fun _ => rfl] | with_reducible refine keeps_newObj ?_ _ _ _ _
    | with_reducible refine keeps_onPart ?_ _ _ | split | dsimp only

theorem keeps_partCreate {s t : State} (h : Keeps s t) : ∀ a1 a2, Keeps s (@State.partCreate t a1 a2) := by
  intro a1 a2
  unfold State.partCreate
  repeat' first
    | with_reducible assumption | with_reducible refine keepsE_ok ?_ | with_reducible exact keepsE_error | with_reducible refine keepsE_pure ?_
    | with_reducible refine keepsE_ite ?_ ?_ | with_reducible refine keepsE_bind (fun _ => ?_) | with_reducible refine keeps_partMake ?_ _ _ _ _ _ _
    | with_reducible refine keeps_answer ?_ _ _ _ | with_reducible refine keeps_outcome ?_ _ _ ?_ | split | dsimp only

theorem keeps_processExit {s t : State} (h : Keeps s t) : ∀ a1 a2, Keeps s (@State.processExit t a1 a2) := by
  intro a1 a2
  unfold State.processExit
  repeat' first
    | with_reducible assumption | with_reducible refine keeps_ite ?_ (fun _ => ?_) | with_reducible refine keeps_foldl (fun _ _ _ => ?_) _ ?_
    | with_reducible refine keeps_onSig ?_ _ _ | with_reducible refine keeps_sigRelease ?_ _ | with_reducible refine keeps_settle ?_
    | with_reducible refine keeps_signal ?_ _ _ _ | with_reducible refine keeps_onPrt ?_ _ | with_reducible refine keeps_reap ?_
    | with_reducible refine keeps_cancelExit ?_ _ _ _ | fail_if_no_progress (with_reducible refine keeps_mk ?_ rfl rfl rfl rfl rfl rfl rfl) | split
    | dsimp only

theorem keeps_quiesceStart {s t : State} (h : Keeps s t) : ∀ a1, Keeps s (@State.quiesceStart t a1) := by
  intro a1
  unfold State.quiesceStart
  repeat' first
    | with_reducible assumption | with_reducible refine keeps_contextsClear ?_ _ | with_reducible refine keeps_onPart ?_ _ _

theorem keeps_quiesced {s t : State} (h : Keeps s t) : ∀ a1, Keeps s (@State.quiesced t a1) := by
  intro a1
  unfold State.quiesced
  repeat' first
    | with_reducible assumption | with_reducible refine keeps_ite ?_ (fun _ => ?_) | with_reducible refine keeps_onPart ?_ _ _
    | with_reducible refine keeps_completeWhere ?_ _ _ _ _ | split | dsimp only

theorem keeps_toStep {s t : State} (h : Keeps s t) : ∀ a1 a2, Keeps s (@State.toStep t a1 a2) := by
  intro a1 a2
  unfold State.toStep
  repeat' first
    | with_reducible assumption | with_reducible refine keeps_onPart ?_ _ _

theorem keeps_removeSignals {s t : State} (h : Keeps s t) : ∀ a1, Keeps s (@State.removeSignals t a1) := by
  intro a1
  unfold State.removeSignals
  repeat' first
    | with_reducible assumption | with_reducible refine keeps_foldl (fun _ _ _ => ?_) _ ?_ | with_reducible refine keeps_streamFenceEnd ?_ _ _ _ _
    | with_reducible refine keeps_onEntry ?_ _ _ _ | with_reducible refine keeps_checkAbort ?_ _ | dsimp only

theorem keeps_removeEntries {s t : State} (h : Keeps s t) : ∀ a1, Keeps s (@State.removeEntries t a1) := by
  intro a1
  unfold State.removeEntries
  repeat' first
    | with_reducible assumption | with_reducible refine keeps_foldl (fun _ _ _ => ?_) _ ?_ | with_reducible refine keeps_drain ?_ _ _
    | with_reducible refine keeps_settle ?_ | with_reducible refine keeps_onRegion ?_ _ _ | with_reducible refine keeps_moveStop ?_ _ _ | dsimp only

theorem keeps_removeSigs {s t : State} (h : Keeps s t) : ∀ a1, Keeps s (@State.removeSigs t a1) := by
  intro a1
  unfold State.removeSigs
  repeat' first
    | with_reducible assumption | with_reducible refine keeps_foldl (fun _ _ _ => ?_) _ ?_ | with_reducible refine keeps_combine ?_
    | with_reducible refine keeps_dropSig ?_ _ | with_reducible refine keeps_onSig ?_ _ _
    | fail_if_no_progress (with_reducible refine keeps_mk ?_ rfl rfl rfl rfl rfl rfl rfl) | split | dsimp only

theorem keeps_removeEnd {s t : State} (h : Keeps s t) : ∀ a1, Keeps s (@State.removeEnd t a1) := by
  intro a1
  unfold State.removeEnd
  repeat' first
    | with_reducible assumption | with_reducible refine keeps_ite ?_ (fun _ => ?_) | with_reducible refine keeps_foldl (fun _ _ _ => ?_) _ ?_
    | (with_reducible refine keeps_onSpr ?_ _ ?_) <;> [skip; exact fun _ => rfl] | with_reducible refine keeps_completeWhere ?_ _ _ _ _
    | with_reducible refine keeps_onPart ?_ _ _ | with_reducible refine keeps_onSlot ?_ _ _ | with_reducible refine keeps_onPrt ?_ _
    | with_reducible refine keeps_endObj ?_ _ | fail_if_no_progress (with_reducible refine keeps_mk ?_ rfl rfl rfl rfl rfl rfl rfl) | split
    | dsimp only

theorem keeps_removeStep {s t : State} (h : Keeps s t) : ∀ a1, Keeps s (@State.removeStep t a1) := by
  intro a1
  unfold State.removeStep
  repeat' first
    | with_reducible assumption | with_reducible refine keeps_ite ?_ (fun _ => ?_) | with_reducible refine keeps_foldl (fun _ _ _ => ?_) _ ?_
    | with_reducible refine keeps_removeEnd ?_ _ | with_reducible refine keeps_removeSigs ?_ _ | with_reducible refine keeps_contextsZero ?_ _
    | with_reducible refine keeps_tdiUnlock ?_ _ | with_reducible refine keeps_ideTeardown ?_ _ | with_reducible refine keeps_removeEntries ?_ _
    | with_reducible refine keeps_closeStream ?_ _ _ | with_reducible refine keeps_retireSlot ?_ _ | with_reducible refine keeps_removeSignals ?_ _
    | with_reducible refine keeps_toStep ?_ _ _ | split | dsimp only

theorem keeps_removals {s t : State} (h : Keeps s t) : Keeps s (@State.removals t) := by
  unfold State.removals
  repeat' first
    | with_reducible assumption | with_reducible refine keeps_ite ?_ (fun _ => ?_) | with_reducible refine keeps_foldl (fun _ _ _ => ?_) _ ?_
    | with_reducible refine keeps_removeStep ?_ _ | split | dsimp only

theorem keeps_removeStart {s t : State} (h : Keeps s t) : ∀ a1 a2, Keeps s (@State.removeStart t a1 a2) := by
  intro a1 a2
  unfold State.removeStart
  repeat' first
    | with_reducible assumption | with_reducible refine keeps_ite ?_ (fun _ => ?_) | with_reducible refine keeps_foldl (fun _ _ _ => ?_) _ ?_
    | with_reducible refine keeps_hold ?_ _ | with_reducible refine keeps_removals ?_ | with_reducible refine keeps_completeWhere ?_ _ _ _ _
    | with_reducible refine keeps_sendStop ?_ _ _ | with_reducible refine keeps_onPart ?_ _ _ | with_reducible refine keeps_answer ?_ _ _ _
    | fail_if_no_progress (with_reducible refine keeps_mk ?_ rfl rfl rfl rfl rfl rfl rfl) | split | dsimp only

theorem keeps_resume {s t : State} (h : Keeps s t) : ∀ a1 a2, Keeps s (@State.resume t a1 a2) := by
  intro a1 a2
  unfold State.resume
  repeat' first
    | with_reducible assumption | with_reducible refine keeps_ite ?_ (fun _ => ?_) | with_reducible refine keeps_answer ?_ _ _ _
    | with_reducible refine keeps_onPart ?_ _ _ | with_reducible refine keeps_completeWhere ?_ _ _ _ _
    | with_reducible refine keeps_contextsRestore ?_ _ | fail_if_no_progress (with_reducible refine keeps_mk ?_ rfl rfl rfl rfl rfl rfl rfl) | split
    | dsimp only

theorem keeps_slotAcked {s t : State} (h : Keeps s t) : ∀ a1, Keeps s (@State.slotAcked t a1) := by
  intro a1
  unfold State.slotAcked
  repeat' first
    | with_reducible assumption | with_reducible refine keeps_ite ?_ (fun _ => ?_) | with_reducible refine keeps_slotDead ?_ _
    | with_reducible refine keeps_slotEmpty ?_ _ | with_reducible refine keeps_settle ?_ | with_reducible refine keeps_tryRekey ?_
    | with_reducible refine keeps_removals ?_ | split | dsimp only

theorem keeps_execBlobUnwrap {s t : State} (h : Keeps s t) : ∀ a1 a2 a3 a4, KeepsN s (@execBlobUnwrap a1 a2 a3 a4 t) := by
  intro a1 a2 a3 a4
  unfold execBlobUnwrap
  repeat' first
    | with_reducible assumption | with_reducible refine keepsN_next ?_ | with_reducible refine keepsE_ok ?_ | with_reducible exact keepsE_error
    | with_reducible refine keepsE_pure ?_ | with_reducible refine keepsE_ite ?_ ?_ | with_reducible refine keepsE_bind (fun _ => ?_)
    | with_reducible refine keeps_blobUnwrap ?_ _ _ _ | with_reducible refine keeps_withBuffer ?_ _ _ _ _ _ (fun _ _ _ => ?_)
    | with_reducible refine keeps_outcome ?_ _ _ ?_ | with_reducible refine keeps_command ?_ _ _ _ _ (fun _ _ _ => ?_) | split

theorem keeps_execCheckComplete {s t : State} (h : Keeps s t) : KeepsN s (@execCheckComplete t) := by
  unfold execCheckComplete
  repeat' first
    | with_reducible assumption | with_reducible refine keepsN_next ?_ | with_reducible refine keeps_checkComplete ?_
    | with_reducible refine keeps_removals ?_

theorem keeps_execCpeDone {s t : State} (h : Keeps s t) : KeepsN s (@execCpeDone t) := by
  unfold execCpeDone
  repeat' first
    | with_reducible assumption | with_reducible refine keepsN_next ?_ | with_reducible refine keeps_cpeDone ?_
    | with_reducible refine keeps_settle ?_ | with_reducible refine keeps_removals ?_

theorem keeps_execDomeDeriveDone {s t : State} (h : Keeps s t) : KeepsN s (@execDomeDeriveDone t) := by
  unfold execDomeDeriveDone
  repeat' first
    | with_reducible assumption | with_reducible refine keepsN_next ?_ | with_reducible refine keeps_deriveDone ?_
    | with_reducible refine keeps_removals ?_

theorem keeps_execDrainDoneReceived {s t : State} (h : Keeps s t) : ∀ a1 a2, KeepsN s (@execDrainDoneReceived a1 a2 t) := by
  intro a1 a2
  unfold execDrainDoneReceived
  repeat' first
    | with_reducible assumption | with_reducible refine keepsN_next ?_ | with_reducible refine keeps_drainDoneTaken ?_ _ _
    | with_reducible refine keeps_removals ?_

theorem keeps_execFreeze {s t : State} (h : Keeps s t) : ∀ a1 a2, KeepsN s (@execFreeze a1 a2 t) := by
  intro a1 a2
  unfold execFreeze
  repeat' first
    | with_reducible assumption | with_reducible refine keeps_ite ?_ (fun _ => ?_) | with_reducible refine keepsN_next ?_
    | with_reducible refine keepsE_ok ?_ | with_reducible exact keepsE_error | with_reducible refine keepsE_pure ?_
    | with_reducible refine keepsE_ite ?_ ?_ | with_reducible refine keepsE_bind (fun _ => ?_) | with_reducible refine keeps_freeReason ?_ _
    | with_reducible refine keeps_onPart ?_ _ _ | with_reducible refine keeps_answer ?_ _ _ _ | with_reducible refine keeps_outcome ?_ _ _ ?_
    | with_reducible refine keeps_command ?_ _ _ _ _ (fun _ _ _ => ?_) | split | dsimp only

theorem keeps_execLineInit {s t : State} (h : Keeps s t) : ∀ a1 a2, KeepsN s (@execLineInit a1 a2 t) := by
  intro a1 a2
  unfold execLineInit
  repeat' first
    | with_reducible assumption | with_reducible refine keepsN_next ?_ | with_reducible refine keeps_lineInit ?_ _ _
    | with_reducible refine keeps_tryRekey ?_ | with_reducible refine keeps_removals ?_

theorem keeps_execPacketReceive {s t : State} (h : Keeps s t) : ∀ a1 a2 a3, KeepsN s (@execPacketReceive a1 a2 a3 t) := by
  intro a1 a2 a3
  unfold execPacketReceive
  repeat' first
    | with_reducible assumption | with_reducible refine keepsN_next ?_ | with_reducible refine keeps_packetReceive ?_ _ _ _
    | with_reducible refine keeps_removals ?_ | with_reducible refine keeps_atIngress ?_ _ _ _ (fun _ _ => ?_)

theorem keeps_execPartCreate {s t : State} (h : Keeps s t) : ∀ a1 a2 a3, KeepsN s (@execPartCreate a1 a2 a3 t) := by
  intro a1 a2 a3
  unfold execPartCreate
  repeat' first
    | with_reducible assumption | with_reducible refine keepsN_next ?_ | with_reducible refine keeps_partCreate ?_ _ _
    | with_reducible refine keeps_withBuffer ?_ _ _ _ _ _ (fun _ _ _ => ?_) | with_reducible refine keeps_command ?_ _ _ _ _ (fun _ _ _ => ?_)

theorem keeps_execProcessExit {s t : State} (h : Keeps s t) : ∀ a1 a2 a3, KeepsN s (@execProcessExit a1 a2 a3 t) := by
  intro a1 a2 a3
  unfold execProcessExit
  repeat' first
    | with_reducible assumption | with_reducible refine keepsN_next ?_ | with_reducible refine keepsE_ok ?_ | with_reducible exact keepsE_error
    | with_reducible refine keepsE_pure ?_ | with_reducible refine keepsE_ite ?_ ?_ | with_reducible refine keepsE_bind (fun _ => ?_)
    | with_reducible refine keeps_processExit ?_ _ _ | with_reducible refine keeps_answer ?_ _ _ _ | with_reducible refine keeps_outcome ?_ _ _ ?_
    | with_reducible refine keeps_command ?_ _ _ _ _ (fun _ _ _ => ?_) | split

theorem keeps_execQuiesce {s t : State} (h : Keeps s t) : ∀ a1 a2 a3 a4, KeepsN s (@execQuiesce a1 a2 a3 a4 t) := by
  intro a1 a2 a3 a4
  unfold execQuiesce
  repeat' first
    | with_reducible assumption | with_reducible refine keepsN_next ?_ | with_reducible refine keepsE_ok ?_ | with_reducible exact keepsE_error
    | with_reducible refine keepsE_pure ?_ | with_reducible refine keepsE_ite ?_ ?_ | with_reducible refine keepsE_bind (fun _ => ?_)
    | with_reducible refine keeps_acceptA ?_ _ _ | with_reducible refine keeps_quiesceStart ?_ _ | with_reducible refine keeps_onPart ?_ _ _
    | with_reducible refine keeps_outcome ?_ _ _ ?_ | with_reducible refine keeps_command ?_ _ _ _ _ (fun _ _ _ => ?_) | split

theorem keeps_execQuiescenceReached {s t : State} (h : Keeps s t) : ∀ a1, KeepsN s (@execQuiescenceReached a1 t) := by
  intro a1
  unfold execQuiescenceReached
  repeat' first
    | with_reducible assumption | with_reducible refine keepsN_next ?_ | with_reducible refine keeps_quiesced ?_ _

theorem keeps_execRelease {s t : State} (h : Keeps s t) : ∀ a1 a2, KeepsN s (@execRelease a1 a2 t) := by
  intro a1 a2
  unfold execRelease
  repeat' first
    | with_reducible assumption | with_reducible refine keeps_ite ?_ (fun _ => ?_) | with_reducible refine keepsN_next ?_
    | with_reducible refine keepsE_ok ?_ | with_reducible exact keepsE_error | with_reducible refine keepsE_pure ?_
    | with_reducible refine keepsE_ite ?_ ?_ | with_reducible refine keepsE_bind (fun _ => ?_) | with_reducible refine keeps_freeReason ?_ _
    | with_reducible refine keeps_dropRef ?_ _ _ | with_reducible refine keeps_reap ?_ | with_reducible refine keeps_answer ?_ _ _ _
    | with_reducible refine keeps_settle ?_ | with_reducible refine keeps_outcome ?_ _ _ ?_
    | with_reducible refine keeps_command ?_ _ _ _ _ (fun _ _ _ => ?_) | split | dsimp only

theorem keeps_execRemove {s t : State} (h : Keeps s t) : ∀ a1 a2, KeepsN s (@execRemove a1 a2 t) := by
  intro a1 a2
  unfold execRemove
  repeat' first
    | with_reducible assumption | with_reducible refine keepsN_next ?_ | with_reducible refine keepsE_ok ?_ | with_reducible exact keepsE_error
    | with_reducible refine keepsE_pure ?_ | with_reducible refine keepsE_ite ?_ ?_ | with_reducible refine keepsE_bind (fun _ => ?_)
    | with_reducible refine keeps_removeStart ?_ _ _ | with_reducible refine keeps_outcome ?_ _ _ ?_
    | with_reducible refine keeps_command ?_ _ _ _ _ (fun _ _ _ => ?_) | split

theorem keeps_execResume {s t : State} (h : Keeps s t) : ∀ a1 a2, KeepsN s (@execResume a1 a2 t) := by
  intro a1 a2
  unfold execResume
  repeat' first
    | with_reducible assumption | with_reducible refine keepsN_next ?_ | with_reducible refine keepsE_ok ?_ | with_reducible exact keepsE_error
    | with_reducible refine keepsE_pure ?_ | with_reducible refine keepsE_ite ?_ ?_ | with_reducible refine keepsE_bind (fun _ => ?_)
    | with_reducible refine keeps_resume ?_ _ _ | with_reducible refine keeps_outcome ?_ _ _ ?_
    | with_reducible refine keeps_command ?_ _ _ _ _ (fun _ _ _ => ?_) | split

theorem keeps_execRetain {s t : State} (h : Keeps s t) : ∀ a1 a2, KeepsN s (@execRetain a1 a2 t) := by
  intro a1 a2
  unfold execRetain
  repeat' first
    | with_reducible assumption | with_reducible refine keeps_ite ?_ (fun _ => ?_) | with_reducible refine keepsN_next ?_
    | with_reducible refine keepsE_ok ?_ | with_reducible exact keepsE_error | with_reducible refine keepsE_pure ?_
    | with_reducible refine keepsE_ite ?_ ?_ | with_reducible refine keepsE_bind (fun _ => ?_) | with_reducible refine keeps_addRef ?_ _ _ _
    | with_reducible refine keeps_answer ?_ _ _ _ | with_reducible refine keeps_freeReason ?_ _ | with_reducible refine keeps_outcome ?_ _ _ ?_
    | with_reducible refine keeps_command ?_ _ _ _ _ (fun _ _ _ => ?_) | split | dsimp only

theorem keeps_execRetrySpanExpiry {s t : State} (h : Keeps s t) : ∀ a1 a2, KeepsN s (@execRetrySpanExpiry a1 a2 t) := by
  intro a1 a2
  unfold execRetrySpanExpiry
  repeat' first
    | with_reducible assumption | with_reducible refine keeps_ite ?_ (fun _ => ?_) | with_reducible refine keepsN_next ?_
    | with_reducible refine keeps_streamLost ?_ _ _ | with_reducible refine keeps_removals ?_ | split | dsimp only

theorem keeps_execRotUpdate {s t : State} (h : Keeps s t) : ∀ a1, KeepsN s (@execRotUpdate a1 t) := by
  intro a1
  unfold execRotUpdate
  repeat' first
    | with_reducible assumption | with_reducible refine keepsN_next ?_ | with_reducible refine keeps_rotApplied ?_ _
    | with_reducible refine keeps_removals ?_

theorem keeps_execSlotInvalidationAcked {s t : State} (h : Keeps s t) : ∀ a1, KeepsN s (@execSlotInvalidationAcked a1 t) := by
  intro a1
  unfold execSlotInvalidationAcked
  repeat' first
    | with_reducible assumption | with_reducible refine keepsN_next ?_ | with_reducible refine keeps_slotAcked ?_ _

theorem keeps_acksAfter {s t : State} (h : Keeps s t) : ∀ a1, Keeps s (@State.acksAfter t a1) := by
  intro a1
  unfold State.acksAfter
  repeat' first
    | with_reducible assumption | with_reducible refine keeps_ite ?_ (fun _ => ?_) | with_reducible refine keeps_settle ?_
    | with_reducible refine keeps_removals ?_ | with_reducible refine keeps_reapSchedules ?_ _ | split | dsimp only

theorem keeps_drainsIdle {s t : State} (h : Keeps s t) : ∀ a1, Keeps s (@State.drainsIdle t a1) := by
  intro a1
  unfold State.drainsIdle
  repeat' first
    | with_reducible assumption | with_reducible refine keeps_foldl (fun _ _ _ => ?_) _ ?_ | with_reducible refine keeps_drainIfIdle ?_ _ _
    | dsimp only

theorem keeps_mccAfter {s t : State} (h : Keeps s t) : ∀ a1, Keeps s (@State.mccAfter t a1) := by
  intro a1
  unfold State.mccAfter
  repeat' first
    | with_reducible assumption | with_reducible refine keeps_drainsIdle ?_ _ | with_reducible refine keeps_acksAfter ?_ _
    | with_reducible refine keeps_tryRekey ?_

theorem keeps_mccTake {s t : State} (h : Keeps s t) : ∀ a1 a2 a3, Keeps s (@State.mccTake t a1 a2 a3) := by
  intro a1 a2 a3
  unfold State.mccTake
  repeat' first
    | with_reducible assumption | with_reducible refine keeps_mccRequest ?_ _ _ _ | with_reducible refine keeps_mccAfter ?_ _

theorem keeps_pccAfter {s t : State} (h : Keeps s t) : ∀ a1, Keeps s (@State.pccAfter t a1) := by
  intro a1
  unfold State.pccAfter
  repeat' first
    | with_reducible assumption | with_reducible refine keeps_drainsIdle ?_ _ | with_reducible refine keeps_acksAfter ?_ _

theorem keeps_pccTake {s t : State} (h : Keeps s t) : ∀ a1 a2 a3, Keeps s (@State.pccTake t a1 a2 a3) := by
  intro a1 a2 a3
  unfold State.pccTake
  repeat' first
    | with_reducible assumption | with_reducible refine keeps_pccRequest ?_ _ _ _ | with_reducible refine keeps_pccAfter ?_ _

theorem keeps_execMccAtomicRequest {s t : State} (h : Keeps s t) : ∀ a1 a2, KeepsN s (@execMccAtomicRequest a1 a2 t) := by
  intro a1 a2
  unfold execMccAtomicRequest
  repeat' first
    | with_reducible assumption | with_reducible refine keepsN_next ?_ | with_reducible refine keeps_mccTake ?_ _ _ _
    | with_reducible refine keeps_atIngress ?_ _ _ _ (fun _ _ => ?_)

theorem keeps_execMccReadRequest {s t : State} (h : Keeps s t) : ∀ a1 a2, KeepsN s (@execMccReadRequest a1 a2 t) := by
  intro a1 a2
  unfold execMccReadRequest
  repeat' first
    | with_reducible assumption | with_reducible refine keepsN_next ?_ | with_reducible refine keeps_mccTake ?_ _ _ _
    | with_reducible refine keeps_atIngress ?_ _ _ _ (fun _ _ => ?_)

theorem keeps_execMccWriteRequest {s t : State} (h : Keeps s t) : ∀ a1 a2, KeepsN s (@execMccWriteRequest a1 a2 t) := by
  intro a1 a2
  unfold execMccWriteRequest
  repeat' first
    | with_reducible assumption | with_reducible refine keepsN_next ?_ | with_reducible refine keeps_mccTake ?_ _ _ _
    | with_reducible refine keeps_atIngress ?_ _ _ _ (fun _ _ => ?_)

theorem keeps_execMetadataArrival {s t : State} (h : Keeps s t) : ∀ a1 a2 a3 a4, KeepsN s (@execMetadataArrival a1 a2 a3 a4 t) := by
  intro a1 a2 a3 a4
  unfold execMetadataArrival
  repeat' first
    | with_reducible assumption | with_reducible refine keepsN_next ?_ | with_reducible refine keeps_metaArrival ?_ _ _ _ _
    | with_reducible refine keeps_pccAfter ?_ _

theorem keeps_execMpDataArrival {s t : State} (h : Keeps s t) : ∀ a1 a2 a3 a4, KeepsN s (@execMpDataArrival a1 a2 a3 a4 t) := by
  intro a1 a2 a3 a4
  unfold execMpDataArrival
  repeat' first
    | with_reducible assumption | with_reducible refine keepsN_next ?_ | with_reducible refine keeps_mpData ?_ _ _ _ _
    | with_reducible refine keeps_mccAfter ?_ _

theorem keeps_execMpWriteAccept {s t : State} (h : Keeps s t) : ∀ a1 a2, KeepsN s (@execMpWriteAccept a1 a2 t) := by
  intro a1 a2
  unfold execMpWriteAccept
  repeat' first
    | with_reducible assumption | with_reducible refine keepsN_next ?_ | with_reducible refine keeps_mpAccept ?_ _ _
    | with_reducible refine keeps_mccAfter ?_ _

theorem keeps_execPccAtomicRequest {s t : State} (h : Keeps s t) : ∀ a1 a2, KeepsN s (@execPccAtomicRequest a1 a2 t) := by
  intro a1 a2
  unfold execPccAtomicRequest
  repeat' first
    | with_reducible assumption | with_reducible refine keepsN_next ?_ | with_reducible refine keeps_pccTake ?_ _ _ _
    | with_reducible refine keeps_atIngress ?_ _ _ _ (fun _ _ => ?_)

theorem keeps_execPccReadRequest {s t : State} (h : Keeps s t) : ∀ a1 a2, KeepsN s (@execPccReadRequest a1 a2 t) := by
  intro a1 a2
  unfold execPccReadRequest
  repeat' first
    | with_reducible assumption | with_reducible refine keepsN_next ?_ | with_reducible refine keeps_pccTake ?_ _ _ _
    | with_reducible refine keeps_atIngress ?_ _ _ _ (fun _ _ => ?_)

theorem keeps_execPccWriteRequest {s t : State} (h : Keeps s t) : ∀ a1 a2, KeepsN s (@execPccWriteRequest a1 a2 t) := by
  intro a1 a2
  unfold execPccWriteRequest
  repeat' first
    | with_reducible assumption | with_reducible refine keepsN_next ?_ | with_reducible refine keeps_pccTake ?_ _ _ _
    | with_reducible refine keeps_atIngress ?_ _ _ _ (fun _ _ => ?_)

theorem keeps_execPpDataArrival {s t : State} (h : Keeps s t) : ∀ a1 a2 a3 a4, KeepsN s (@execPpDataArrival a1 a2 a3 a4 t) := by
  intro a1 a2 a3 a4
  unfold execPpDataArrival
  repeat' first
    | with_reducible assumption | with_reducible refine keepsN_next ?_ | with_reducible refine keeps_ppData ?_ _ _ _ _
    | with_reducible refine keeps_pccAfter ?_ _

theorem keeps_execPpWriteAccept {s t : State} (h : Keeps s t) : ∀ a1 a2, KeepsN s (@execPpWriteAccept a1 a2 t) := by
  intro a1 a2
  unfold execPpWriteAccept
  repeat' first
    | with_reducible assumption | with_reducible refine keepsN_next ?_ | with_reducible refine keeps_ppAccept ?_ _ _
    | with_reducible refine keeps_pccAfter ?_ _

theorem keeps_execReadVerdict {s t : State} (h : Keeps s t) : ∀ a1 a2, KeepsN s (@execReadVerdict a1 a2 t) := by
  intro a1 a2
  unfold execReadVerdict
  repeat' first
    | with_reducible assumption | with_reducible refine keepsN_next ?_ | with_reducible refine keeps_mccVerdict ?_ _ _
    | with_reducible refine keeps_mccAfter ?_ _

theorem keeps_execTagFlush {s t : State} (h : Keeps s t) : ∀ a1, KeepsN s (@execTagFlush a1 t) := by
  intro a1
  unfold execTagFlush
  repeat' first
    | with_reducible assumption | with_reducible refine keeps_ite ?_ (fun _ => ?_) | with_reducible refine keepsN_next ?_
    | with_reducible refine keeps_tagFlush ?_ _ | split | dsimp only

theorem keeps_execTagLineArrival {s t : State} (h : Keeps s t) : ∀ a1 a2 a3 a4, KeepsN s (@execTagLineArrival a1 a2 a3 a4 t) := by
  intro a1 a2 a3 a4
  unfold execTagLineArrival
  repeat' first
    | with_reducible assumption | with_reducible refine keepsN_next ?_ | with_reducible refine keeps_tagArrival ?_ _ _ _ _
    | with_reducible refine keeps_mccAfter ?_ _

theorem keeps_fccPump {s t : State} (h : Keeps s t) : ∀ a1, Keeps s (@State.fccPump t a1) := by
  intro a1
  unfold State.fccPump
  repeat' first
    | with_reducible assumption | with_reducible refine keeps_ite ?_ (fun _ => ?_) | with_reducible refine keeps_foldl (fun _ _ _ => ?_) _ ?_
    | with_reducible refine keeps_payReplies ?_ _ _ | with_reducible refine keeps_ackIfDue ?_ _ _ | with_reducible refine keeps_sendWaiting ?_ _ _
    | with_reducible refine keeps_authWaiting ?_ _ _ | split | dsimp only

theorem keeps_clusterPump {s t : State} (h : Keeps s t) : ∀ a1, Keeps s (@State.clusterPump t a1) := by
  intro a1
  unfold State.clusterPump
  repeat' first
    | with_reducible assumption | with_reducible refine keeps_ite ?_ (fun _ => ?_) | with_reducible refine keeps_hccRetry ?_
    | with_reducible refine keeps_fccPump ?_ _ | with_reducible refine keeps_acksAfter ?_ _ | with_reducible refine keeps_pccPump ?_ _
    | with_reducible refine keeps_pccAfter ?_ _ | with_reducible refine keeps_mccPump ?_ _ | with_reducible refine keeps_mccAfter ?_ _ | split
    | dsimp only

theorem keeps_newtDropped {s t : State} (h : Keeps s t) : ∀ a1 a2, Keeps s (@State.newtDropped t a1 a2) := by
  intro a1 a2
  unfold State.newtDropped
  repeat' first
    | with_reducible assumption | with_reducible refine keeps_onMotion ?_ _ _ _

theorem keeps_discardItem {s t : State} (h : Keeps s t) : ∀ a1 a2, Keeps s (@State.discardItem t a1 a2) := by
  intro a1 a2
  unfold State.discardItem
  repeat' first
    | with_reducible assumption | with_reducible refine keeps_onPcc ?_ _ _ | with_reducible refine keeps_nodeUndecided ?_ _ _
    | with_reducible refine keeps_overflowLost ?_ _ _ _ | with_reducible refine keeps_onOverflow ?_ _ _ _
    | with_reducible refine keeps_sendGot ?_ _ _ _ | with_reducible refine keeps_newtDropped ?_ _ _
    | with_reducible refine keeps_packetFinished ?_ _ _ _ _ | with_reducible refine keeps_tlpDiscarded ?_ _ _
    | with_reducible refine keeps_unmarkNewkey ?_ _ | with_reducible refine keeps_finishOp ?_ _ _ _ _ | split | dsimp only

theorem keeps_waitersEnd {s t : State} (h : Keeps s t) : ∀ c n (f : State → LineOp → State), (∀ u o, Keeps s u → Keeps s (f u o)) →
    Keeps s (t.waitersEnd c n f) := by
  intro c n f hf
  unfold State.waitersEnd
  have k := keeps_foldl (fun u o => hf u o) ((t.mem.get c).ops.filter (t.waitsFor c n)) h
  exact keeps_ite (keeps_onPcc k _ _) (fun _ => k)

theorem keeps_fillRefused {s t : State} (h : Keeps s t) : ∀ a1 a2, Keeps s (@State.fillRefused t a1 a2) := by
  intro a1 a2
  unfold State.fillRefused
  repeat' first
    | with_reducible assumption | with_reducible refine keeps_ite ?_ (fun _ => ?_) | with_reducible refine keeps_clusterPump ?_ _
    | with_reducible refine keeps_movesHaltIf ?_ _ | with_reducible refine keeps_failOp ?_ _ _ _
    | with_reducible refine keeps_waitersEnd ?_ _ _ _ (fun _ _ _ => ?_) | with_reducible refine keeps_report ?_ _ _ _ _
    | with_reducible refine keeps_hccFail ?_ _ | with_reducible refine keeps_onCluster ?_ _ _ | split | dsimp only

theorem keeps_releaseItem {s t : State} (h : Keeps s t) : ∀ a1 a2, Keeps s (@State.releaseItem t a1 a2) := by
  intro a1 a2
  unfold State.releaseItem
  repeat' first
    | with_reducible assumption | with_reducible refine keeps_ite ?_ (fun _ => ?_) | with_reducible refine keeps_foldl (fun _ _ _ => ?_) _ ?_
    | with_reducible refine keeps_emit ?_ _ | with_reducible refine keeps_nodeWritten ?_ _ _ _ _ | with_reducible refine keeps_nodeChecked ?_ _ _ _
    | with_reducible refine keeps_overflowOut ?_ _ _ _ _ _ | with_reducible refine keeps_overflowGot ?_ _ _ _ _
    | with_reducible refine keeps_initStored ?_ _ _ _ _ _ | with_reducible refine keeps_sendVerdict ?_ _ _ _ _
    | with_reducible refine keeps_newtStored ?_ _ _ _ _ _ | with_reducible refine keeps_newtCopied ?_ _ _ _ _
    | with_reducible refine keeps_packetOpened ?_ _ _ _ | with_reducible refine keeps_packetAct ?_ _ _
    | with_reducible refine keeps_sealOut ?_ _ _ _ _ | with_reducible refine keeps_tlpOpened ?_ _ _ _
    | with_reducible refine keeps_pccWriteOut ?_ _ _ | with_reducible refine keeps_mccWriteOut ?_ _ _
    | with_reducible refine keeps_pccReadOut ?_ _ _ | with_reducible refine keeps_onOp ?_ _ _ _ | split | dsimp only

theorem keeps_itemEnds {s t : State} (h : Keeps s t) : ∀ a1 a2 a3, Keeps s (@State.itemEnds t a1 a2 a3) := by
  intro a1 a2 a3
  unfold State.itemEnds
  repeat' first
    | with_reducible assumption | with_reducible refine keeps_discardItem ?_ _ _ | with_reducible refine keeps_dropItem ?_ _ _
    | with_reducible refine keeps_releaseItem ?_ _ _ | with_reducible refine keeps_lanesGone ?_ _ | with_reducible refine keeps_clusterPump ?_ _
    | with_reducible refine keeps_settle ?_ | with_reducible refine keeps_removals ?_ | split | dsimp only

theorem keeps_laneOutput {s t : State} (h : Keeps s t) : ∀ a1 a2 a3, Keeps s (@State.laneOutput t a1 a2 a3) := by
  intro a1 a2 a3
  unfold State.laneOutput
  repeat' first
    | with_reducible assumption | with_reducible refine keeps_itemEnds ?_ _ _ _
    | with_reducible refine keeps_compare_eq ?_ _ _ _ _ _ (by assumption) | with_reducible refine keeps_compare ?_ _ _ _ | split | dsimp only

theorem keeps_laneVote {s t : State} (h : Keeps s t) : ∀ a1 a2 a3, Keeps s (@State.laneVote t a1 a2 a3) := by
  intro a1 a2 a3
  unfold State.laneVote
  repeat' first
    | with_reducible assumption | with_reducible refine keeps_itemEnds ?_ _ _ _ | with_reducible refine keeps_vote_eq ?_ _ _ _ _ _ (by assumption)
    | with_reducible refine keeps_vote ?_ _ _ _ | split | dsimp only

theorem keeps_lanesAfter {s t : State} (h : Keeps s t) : ∀ a1, Keeps s (@State.lanesAfter t a1) := by
  intro a1
  unfold State.lanesAfter
  repeat' first
    | with_reducible assumption | with_reducible refine keeps_unclamp ?_ _ | with_reducible refine keeps_lanesGone ?_ _
    | with_reducible refine keeps_clusterPump ?_ _

theorem keeps_scheduleFill {s t : State} (h : Keeps s t) : ∀ a1 a2, Keeps s (@State.scheduleFill t a1 a2) := by
  intro a1 a2
  unfold State.scheduleFill
  repeat' first
    | with_reducible assumption | with_reducible refine keeps_ite ?_ (fun _ => ?_) | with_reducible refine keeps_fillRefused ?_ _ _
    | with_reducible refine keeps_installSchedule ?_ _ _ | with_reducible refine keeps_clusterPump ?_ _ | split | dsimp only

theorem keeps_scheduleInvalidate {s t : State} (h : Keeps s t) : ∀ a1 a2, Keeps s (@State.scheduleInvalidate t a1 a2) := by
  intro a1 a2
  unfold State.scheduleInvalidate
  repeat' first
    | with_reducible assumption | with_reducible refine keeps_ite ?_ (fun _ => ?_) | with_reducible refine keeps_invalidateSchedule ?_ _ _
    | with_reducible refine keeps_clusterPump ?_ _ | split | dsimp only

theorem keeps_execLaneKnownAnswerTest {s t : State} (h : Keeps s t) : ∀ a1 a2 a3, KeepsN s (@execLaneKnownAnswerTest a1 a2 a3 t) := by
  intro a1 a2 a3
  unfold execLaneKnownAnswerTest
  repeat' first
    | with_reducible assumption | with_reducible refine keepsN_next ?_ | with_reducible refine keeps_knownAnswer ?_ _ _ _
    | with_reducible refine keeps_lanesAfter ?_ _

theorem keeps_execLaneOutput {s t : State} (h : Keeps s t) : ∀ a1 a2 a3, KeepsN s (@execLaneOutput a1 a2 a3 t) := by
  intro a1 a2 a3
  unfold execLaneOutput
  repeat' first
    | with_reducible assumption | with_reducible refine keepsN_next ?_ | with_reducible refine keeps_laneOutput ?_ _ _ _

theorem keeps_execLaneVote {s t : State} (h : Keeps s t) : ∀ a1 a2 a3, KeepsN s (@execLaneVote a1 a2 a3 t) := by
  intro a1 a2 a3
  unfold execLaneVote
  repeat' first
    | with_reducible assumption | with_reducible refine keepsN_next ?_ | with_reducible refine keeps_laneVote ?_ _ _ _

theorem keeps_execScheduleFill {s t : State} (h : Keeps s t) : ∀ a1 a2, KeepsN s (@execScheduleFill a1 a2 t) := by
  intro a1 a2
  unfold execScheduleFill
  repeat' first
    | with_reducible assumption | with_reducible refine keepsN_next ?_ | with_reducible refine keeps_scheduleFill ?_ _ _

theorem keeps_execScheduleFillRefused {s t : State} (h : Keeps s t) : ∀ a1 a2, KeepsN s (@execScheduleFillRefused a1 a2 t) := by
  intro a1 a2
  unfold execScheduleFillRefused
  repeat' first
    | with_reducible assumption | with_reducible refine keeps_ite ?_ (fun _ => ?_) | with_reducible refine keepsN_next ?_
    | with_reducible refine keeps_fillRefused ?_ _ _ | split | dsimp only

theorem keeps_execScheduleInvalidate {s t : State} (h : Keeps s t) : ∀ a1 a2, KeepsN s (@execScheduleInvalidate a1 a2 t) := by
  intro a1 a2
  unfold execScheduleInvalidate
  repeat' first
    | with_reducible assumption | with_reducible refine keepsN_next ?_ | with_reducible refine keeps_scheduleInvalidate ?_ _ _
    | with_reducible refine keeps_settle ?_ | with_reducible refine keeps_removals ?_

theorem keeps_execSocketSwitch {s t : State} (h : Keeps s t) : ∀ a1, KeepsN s (@execSocketSwitch a1 t) := by
  intro a1
  unfold execSocketSwitch
  repeat' first
    | with_reducible assumption | with_reducible refine keepsN_next ?_ | with_reducible refine keeps_socketSwitch ?_ _
    | with_reducible refine keeps_lanesAfter ?_ _

theorem keeps_readReg {s t : State} (h : Keeps s t) : ∀ a1 a2 a3, Keeps s (@State.readReg t a1 a2 a3).2 := by
  intro a1 a2 a3
  unfold State.readReg
  repeat' first
    | with_reducible assumption | with_reducible refine keeps_ite ?_ (fun _ => ?_)
    | fail_if_no_progress (with_reducible refine keeps_mk ?_ rfl rfl rfl rfl rfl rfl rfl) | split | dsimp only

theorem keeps_readReg_eq {s t : State} (h : Keeps s t) : ∀ a1 a2 a3 x y, (@State.readReg t a1 a2 a3) = (x, y) → Keeps s y := by
  intro a1 a2 a3 x y e
  have k := keeps_readReg h a1 a2 a3
  rw [e] at k
  exact k

theorem keeps_readPort {s t : State} (h : Keeps s t) : ∀ a1 a2 a3, Keeps s (@State.readPort t a1 a2 a3) := by
  intro a1 a2 a3
  unfold State.readPort
  repeat' first
    | with_reducible assumption | with_reducible refine keeps_ite ?_ (fun _ => ?_) | with_reducible refine keeps_emit ?_ _
    | with_reducible refine keeps_readReg_eq ?_ _ _ _ _ _ (by assumption) | with_reducible refine keeps_readReg ?_ _ _ _ | split | dsimp only

theorem keeps_regClear {s t : State} (h : Keeps s t) : ∀ a1 a2 a3, Keeps s (@State.regClear t a1 a2 a3) := by
  intro a1 a2 a3
  unfold State.regClear
  repeat' first
    | with_reducible assumption | with_reducible refine keeps_ite ?_ (fun _ => ?_)
    | (with_reducible refine keeps_onSpr ?_ _ ?_) <;> [skip; exact fun _ => rfl] | with_reducible refine keeps_onEsc ?_ _
    | with_reducible refine keeps_onMbx ?_ _ _ | fail_if_no_progress (with_reducible refine keeps_mk ?_ rfl rfl rfl rfl rfl rfl rfl) | split
    | dsimp only

theorem keeps_regPut {s t : State} (h : Keeps s t) : ∀ a1 a2 a3, Keeps s (@State.regPut t a1 a2 a3) := by
  intro a1 a2 a3
  unfold State.regPut
  repeat' first
    | with_reducible assumption | with_reducible refine keeps_ite ?_ (fun _ => ?_) | with_reducible refine keeps_onSite ?_ _ _
    | with_reducible refine keeps_onFcc ?_ _ _ | with_reducible refine keeps_onPcc ?_ _ _ | with_reducible refine keeps_onMcc ?_ _ _
    | with_reducible refine keeps_schedWriteHi ?_ _ _ | with_reducible refine keeps_schedWriteLo ?_ _ _ | with_reducible refine keeps_onEsc ?_ _
    | with_reducible refine keeps_onTime ?_ _ | with_reducible refine keeps_onMbx ?_ _ _ | with_reducible refine keeps_onDom ?_ _
    | fail_if_no_progress (with_reducible refine keeps_mk ?_ rfl rfl rfl rfl rfl rfl rfl) | split | dsimp only

theorem keeps_writeReg {s t : State} (h : Keeps s t) : ∀ a1 a2 a3, Keeps s (@State.writeReg t a1 a2 a3) := by
  intro a1 a2 a3
  unfold State.writeReg
  repeat' first
    | with_reducible assumption | with_reducible refine keeps_ite ?_ (fun _ => ?_) | with_reducible refine keeps_regPut ?_ _ _ _
    | with_reducible refine keeps_regClear ?_ _ _ _ | split | dsimp only

theorem keeps_writePort {s t : State} (h : Keeps s t) : ∀ a1 a2 a3 a4, Keeps s (@State.writePort t a1 a2 a3 a4) := by
  intro a1 a2 a3 a4
  unfold State.writePort
  repeat' first
    | with_reducible assumption | with_reducible refine keeps_ite ?_ (fun _ => ?_) | with_reducible refine keeps_emit ?_ _
    | with_reducible refine keeps_writeReg ?_ _ _ _ | split | dsimp only

theorem keeps_execEntryLowWordRead {s t : State} (h : Keeps s t) : ∀ a1 a2 a3, KeepsN s (@execEntryLowWordRead a1 a2 a3 t) := by
  intro a1 a2 a3
  unfold execEntryLowWordRead
  repeat' first
    | with_reducible assumption | with_reducible refine keepsN_next ?_ | with_reducible refine keeps_readPort ?_ _ _ _

theorem keeps_execLoRegisterRead {s t : State} (h : Keeps s t) : ∀ a1 a2 a3, KeepsN s (@execLoRegisterRead a1 a2 a3 t) := by
  intro a1 a2 a3
  unfold execLoRegisterRead
  repeat' first
    | with_reducible assumption | with_reducible refine keepsN_next ?_ | with_reducible refine keeps_readPort ?_ _ _ _

theorem keeps_execRegisterWrite {s t : State} (h : Keeps s t) : ∀ a1 a2 a3 a4, KeepsN s (@execRegisterWrite a1 a2 a3 a4 t) := by
  intro a1 a2 a3 a4
  unfold execRegisterWrite
  repeat' first
    | with_reducible assumption | with_reducible refine keepsN_next ?_ | with_reducible refine keeps_writePort ?_ _ _ _ _

theorem keeps_flush {s t : State} (h : Keeps s t) : ∀ a1, Keeps s (@State.flush t a1) := by
  intro a1
  unfold State.flush
  repeat' first
    | with_reducible assumption | with_reducible refine keeps_ite ?_ (fun _ => ?_) | with_reducible refine keeps_foldl (fun _ _ _ => ?_) _ ?_
    | (with_reducible refine keeps_onObs ?_ _ ?_) <;> [skip; exact fun _ => rfl] | with_reducible refine keeps_onIsl ?_ _ _ | split | dsimp only

theorem keeps_traceWrite {s t : State} (h : Keeps s t) : ∀ b, Keeps s (t.traceWrite b) := by
  intro b
  unfold State.traceWrite
  have k := keeps_countFixed h obsIx 4 1
  revert k
  generalize t.countFixed obsIx 4 = u
  intro k
  dsimp only
  split
  · rename_i n
    exact keeps_trace k _ (fun _ => by simp only [List.length_append, List.length_cons, List.length_nil]; omega)
  · exact keeps_countFixed (keeps_trace k _ (fun x => by
      simp only [List.length_append, List.length_drop, List.length_cons, List.length_nil]; omega)) _ _ _

theorem keeps_trigPulse {s t : State} (h : Keeps s t) : Keeps s (@State.trigPulse t) := by
  unfold State.trigPulse
  repeat' first
    | with_reducible assumption | with_reducible refine keeps_ite ?_ (fun _ => ?_) | with_reducible refine keeps_emit ?_ _
    | fail_if_no_progress (with_reducible refine keeps_mk ?_ rfl rfl rfl rfl rfl rfl rfl) | split | dsimp only

theorem keeps_traceFire {s t : State} (h : Keeps s t) : ∀ a1, Keeps s (@State.traceFire t a1) := by
  intro a1
  unfold State.traceFire
  repeat' first
    | with_reducible assumption | with_reducible refine keeps_ite ?_ (fun _ => ?_)
    | (with_reducible refine keeps_onObs ?_ _ ?_) <;> [skip; exact fun _ => rfl] | with_reducible refine keeps_countFixed ?_ _ _ _
    | with_reducible refine keeps_trigPulse ?_ | with_reducible refine keeps_traceWrite ?_ _ | split | dsimp only

theorem keeps_freeze {s t : State} (h : Keeps s t) : ∀ a1, Keeps s (@State.freeze t a1) := by
  intro a1
  unfold State.freeze
  repeat' first
    | with_reducible assumption | with_reducible refine keeps_ite ?_ (fun _ => ?_)
    | (with_reducible refine keeps_onObs ?_ _ ?_) <;> [skip; exact fun _ => rfl] | with_reducible refine keeps_traceFire ?_ _
    | with_reducible refine keeps_countFixed ?_ _ _ _ | split | dsimp only

theorem keeps_obsWrite {s t : State} (h : Keeps s t) : ∀ a1 a2, Keeps s (@State.obsWrite t a1 a2) := by
  intro a1 a2
  unfold State.obsWrite
  repeat' first
    | with_reducible assumption | with_reducible refine keeps_emit ?_ _

theorem keeps_snapshotStart {s t : State} (h : Keeps s t) : Keeps s (@State.snapshotStart t) := by
  unfold State.snapshotStart
  repeat' first
    | with_reducible assumption | with_reducible refine keeps_ite ?_ (fun _ => ?_)
    | (with_reducible refine keeps_onObs ?_ _ ?_) <;> [skip; exact fun _ => rfl] | with_reducible refine keeps_countFixed ?_ _ _ _
    | with_reducible refine keeps_obsWrite ?_ _ _ | split | dsimp only

theorem keeps_markerBack {s t : State} (h : Keeps s t) : ∀ a1, Keeps s (@State.markerBack t a1) := by
  intro a1
  unfold State.markerBack
  repeat' first
    | with_reducible assumption | with_reducible refine keeps_ite ?_ (fun _ => ?_)
    | (with_reducible refine keeps_onObs ?_ _ ?_) <;> [skip; exact fun _ => rfl] | with_reducible refine keeps_snapshotStart ?_
    | with_reducible refine keeps_flush ?_ _ | split | dsimp only

end Sys2Proof.Laws
end

