-- ==== Sys2Proof/Laws/KeepsD.lean ====
section
/-!
SUPPORT. One lemma for each operation of the machine: what it keeps (Laws/Keeps.lean). Part D of four, in the order in which
the operations use one another.
-/

set_option maxRecDepth 4000
set_option linter.unusedTactic false
set_option linter.unreachableTactic false

namespace Sys2Proof.Laws

open Sys2Proof.Machine

theorem keeps_periodicFreeze {s t : State} (h : Keeps s t) : Keeps s (@State.periodicFreeze t) := by
  unfold State.periodicFreeze
  repeat' first
    | with_reducible assumption | with_reducible refine keeps_ite ?_ (fun _ => ?_)
    | (with_reducible refine keeps_onObs ?_ _ ?_) <;> [skip; exact fun _ => rfl] | with_reducible refine keeps_freeze ?_ _
    | with_reducible refine keeps_countFixed ?_ _ _ _ | split | dsimp only

theorem keeps_schedFire {s t : State} (h : Keeps s t) : ∀ a1, Keeps s (@State.schedFire t a1) := by
  intro a1
  unfold State.schedFire
  repeat' first
    | with_reducible assumption | with_reducible refine keeps_ite ?_ (fun _ => ?_) | with_reducible refine keeps_freeze ?_ _
    | with_reducible refine keeps_raiseEvent ?_ _ _ _ _ | with_reducible refine keeps_onTime ?_ _ | split | dsimp only

theorem keeps_thawNow {s t : State} (h : Keeps s t) : Keeps s (@State.thawNow t) := by
  unfold State.thawNow
  repeat' first
    | with_reducible assumption | (with_reducible refine keeps_onObs ?_ _ ?_) <;> [skip; exact fun _ => rfl]

theorem keeps_snapshotDone {s t : State} (h : Keeps s t) : ∀ a1, Keeps s (@State.snapshotDone t a1) := by
  intro a1
  unfold State.snapshotDone
  repeat' first
    | with_reducible assumption | with_reducible refine keeps_ite ?_ (fun _ => ?_)
    | (with_reducible refine keeps_onObs ?_ _ ?_) <;> [skip; exact fun _ => rfl] | with_reducible refine keeps_thawNow ?_
    | with_reducible refine keeps_countFixed ?_ _ _ _ | split | dsimp only

theorem keeps_thaw {s t : State} (h : Keeps s t) : Keeps s (@State.thaw t) := by
  unfold State.thaw
  repeat' first
    | with_reducible assumption | with_reducible refine keeps_ite ?_ (fun _ => ?_)
    | (with_reducible refine keeps_onObs ?_ _ ?_) <;> [skip; exact fun _ => rfl] | with_reducible refine keeps_thawNow ?_ | split | dsimp only

theorem keeps_traceDrop {s t : State} (h : Keeps s t) : Keeps s (@State.traceDrop t) := by
  unfold State.traceDrop
  repeat' first
    | with_reducible assumption | (with_reducible refine keeps_onObs ?_ _ ?_) <;> [skip; exact fun _ => rfl]
    | with_reducible refine keeps_countFixed ?_ _ _ _

theorem keeps_traceArrive {s t : State} (h : Keeps s t) : ∀ a1, Keeps s (@State.traceArrive t a1) := by
  intro a1
  unfold State.traceArrive
  repeat' first
    | with_reducible assumption | with_reducible refine keeps_ite ?_ (fun _ => ?_)
    | (with_reducible refine keeps_onObs ?_ _ ?_) <;> [skip; exact fun _ => rfl] | with_reducible refine keeps_traceDrop ?_
    | with_reducible refine keeps_traceWrite ?_ _ | split | dsimp only

theorem keeps_traceDrain {s t : State} (h : Keeps s t) : Keeps s (@State.traceDrain t) := by
  unfold State.traceDrain
  repeat' first
    | with_reducible assumption | with_reducible refine keeps_ite ?_ (fun _ => ?_)
    | (with_reducible refine keeps_onObs ?_ _ ?_) <;> [skip; exact fun _ => rfl] | with_reducible refine keeps_obsWrite ?_ _ _ | split | dsimp only

theorem keeps_traceEmpty {s t : State} (h : Keeps s t) : ∀ x, Keeps s (t.traceEmpty x) := by
  intro x
  unfold State.traceEmpty
  exact keeps_trace h _ (fun _ => by simp only [List.length_nil]; omega)

theorem keeps_traceDrainDone {s t : State} (h : Keeps s t) : ∀ a1, Keeps s (@State.traceDrainDone t a1) := by
  intro a1
  unfold State.traceDrainDone
  repeat' first
    | with_reducible assumption | with_reducible refine keeps_ite ?_ (fun _ => ?_)
    | (with_reducible refine keeps_onObs ?_ _ ?_) <;> [skip; exact fun _ => rfl] | with_reducible refine keeps_traceEmpty ?_ _
    | with_reducible refine keeps_countFixed ?_ _ _ _ | split | dsimp only

theorem keeps_traceTake {s t : State} (h : Keeps s t) : ∀ a1, Keeps s (@State.traceTake t a1) := by
  intro a1
  unfold State.traceTake
  repeat' first
    | with_reducible assumption | with_reducible refine keeps_ite ?_ (fun _ => ?_) | with_reducible refine keeps_traceFire ?_ _
    | with_reducible refine keeps_traceArrive ?_ _ | split | dsimp only

theorem keeps_traceRecord {s t : State} (h : Keeps s t) : ∀ a1, Keeps s (@State.traceRecord t a1) := by
  intro a1
  unfold State.traceRecord
  repeat' first
    | with_reducible assumption | with_reducible refine keeps_ite ?_ (fun _ => ?_) | with_reducible refine keeps_onIsl ?_ _ _
    | with_reducible refine keeps_traceTake ?_ _ | split | dsimp only

theorem keeps_traceRelease {s t : State} (h : Keeps s t) : Keeps s (@State.traceRelease t) := by
  unfold State.traceRelease
  repeat' first
    | with_reducible assumption | with_reducible refine keeps_ite ?_ (fun _ => ?_)
    | (with_reducible refine keeps_onObs ?_ _ ?_) <;> [skip; exact fun _ => rfl] | with_reducible refine keeps_traceEmpty ?_ _ | split | dsimp only

theorem keeps_traceTrigger {s t : State} (h : Keeps s t) : Keeps s (@State.traceTrigger t) := by
  unfold State.traceTrigger
  repeat' first
    | with_reducible assumption | with_reducible refine keeps_ite ?_ (fun _ => ?_) | with_reducible refine keeps_traceFire ?_ _ | split | dsimp only

theorem keeps_trigEdge {s t : State} (h : Keeps s t) : Keeps s (@State.trigEdge t) := by
  unfold State.trigEdge
  repeat' first
    | with_reducible assumption | with_reducible refine keeps_ite ?_ (fun _ => ?_) | with_reducible refine keeps_raiseEvent ?_ _ _ _ _
    | with_reducible refine keeps_freeze ?_ _ | split | dsimp only

theorem keeps_trigRelease {s t : State} (h : Keeps s t) : Keeps s (@State.trigRelease t) := by
  unfold State.trigRelease
  repeat' first
    | with_reducible assumption | with_reducible refine keeps_ite ?_ (fun _ => ?_) | with_reducible refine keeps_emit ?_ _
    | fail_if_no_progress (with_reducible refine keeps_mk ?_ rfl rfl rfl rfl rfl rfl rfl) | split | dsimp only

theorem keeps_execCounterFlush {s t : State} (h : Keeps s t) : ∀ a1, KeepsN s (@execCounterFlush a1 t) := by
  intro a1
  unfold execCounterFlush
  repeat' first
    | with_reducible assumption | with_reducible refine keepsN_next ?_ | with_reducible refine keeps_flush ?_ _

theorem keeps_execFreezeComplete {s t : State} (h : Keeps s t) : ∀ a1, KeepsN s (@execFreezeComplete a1 t) := by
  intro a1
  unfold execFreezeComplete
  repeat' first
    | with_reducible assumption | with_reducible refine keepsN_next ?_ | with_reducible refine keeps_markerBack ?_ _

theorem keeps_execFreezeTrigger {s t : State} (h : Keeps s t) : KeepsN s (@execFreezeTrigger t) := by
  unfold execFreezeTrigger
  repeat' first
    | with_reducible assumption | with_reducible refine keeps_ite ?_ (fun _ => ?_) | with_reducible refine keepsN_next ?_
    | with_reducible refine keeps_freeze ?_ _ | split | dsimp only

theorem keeps_execPeriodicFreeze {s t : State} (h : Keeps s t) : ∀ a1, KeepsN s (@execPeriodicFreeze a1 t) := by
  intro a1
  unfold execPeriodicFreeze
  repeat' first
    | with_reducible assumption | with_reducible refine keepsN_next ?_ | with_reducible refine keeps_advance ?_ _
    | with_reducible refine keeps_periodicFreeze ?_

theorem keeps_execScheduleSlotFire {s t : State} (h : Keeps s t) : ∀ a1 a2, KeepsN s (@execScheduleSlotFire a1 a2 t) := by
  intro a1 a2
  unfold execScheduleSlotFire
  repeat' first
    | with_reducible assumption | with_reducible refine keepsN_next ?_ | with_reducible refine keeps_advance ?_ _
    | with_reducible refine keeps_atStep ?_ _ | with_reducible refine keeps_schedFire ?_ _

theorem keeps_execSnapshotDone {s t : State} (h : Keeps s t) : ∀ a1, KeepsN s (@execSnapshotDone a1 t) := by
  intro a1
  unfold execSnapshotDone
  repeat' first
    | with_reducible assumption | with_reducible refine keepsN_next ?_ | with_reducible refine keeps_snapshotDone ?_ _

theorem keeps_execThaw {s t : State} (h : Keeps s t) : KeepsN s (@execThaw t) := by
  unfold execThaw
  repeat' first
    | with_reducible assumption | with_reducible refine keepsN_next ?_ | with_reducible refine keeps_thaw ?_

theorem keeps_execTraceDrain {s t : State} (h : Keeps s t) : KeepsN s (@execTraceDrain t) := by
  unfold execTraceDrain
  repeat' first
    | with_reducible assumption | with_reducible refine keepsN_next ?_ | with_reducible refine keeps_traceDrain ?_

theorem keeps_execTraceDrainDone {s t : State} (h : Keeps s t) : ∀ a1, KeepsN s (@execTraceDrainDone a1 t) := by
  intro a1
  unfold execTraceDrainDone
  repeat' first
    | with_reducible assumption | with_reducible refine keepsN_next ?_ | with_reducible refine keeps_traceDrainDone ?_ _

theorem keeps_execTraceRecord {s t : State} (h : Keeps s t) : ∀ a1, KeepsN s (@execTraceRecord a1 t) := by
  intro a1
  unfold execTraceRecord
  repeat' first
    | with_reducible assumption | with_reducible refine keepsN_next ?_ | with_reducible refine keeps_traceRecord ?_ _

theorem keeps_execTraceRelease {s t : State} (h : Keeps s t) : KeepsN s (@execTraceRelease t) := by
  unfold execTraceRelease
  repeat' first
    | with_reducible assumption | with_reducible refine keepsN_next ?_ | with_reducible refine keeps_traceRelease ?_

theorem keeps_execTraceTrigger {s t : State} (h : Keeps s t) : KeepsN s (@execTraceTrigger t) := by
  unfold execTraceTrigger
  repeat' first
    | with_reducible assumption | with_reducible refine keepsN_next ?_ | with_reducible refine keeps_traceTrigger ?_

theorem keeps_execTrigIoEdge {s t : State} (h : Keeps s t) : KeepsN s (@execTrigIoEdge t) := by
  unfold execTrigIoEdge
  repeat' first
    | with_reducible assumption | with_reducible refine keepsN_next ?_ | with_reducible refine keeps_atStep ?_ _
    | with_reducible refine keeps_trigEdge ?_

theorem keeps_execTrigIoPulseEnd {s t : State} (h : Keeps s t) : KeepsN s (@execTrigIoPulseEnd t) := by
  unfold execTrigIoPulseEnd
  repeat' first
    | with_reducible assumption | with_reducible refine keepsN_next ?_ | with_reducible refine keeps_trigRelease ?_

theorem keeps_execWakePulseEnd {s t : State} (h : Keeps s t) : KeepsN s (@execWakePulseEnd t) := by
  unfold execWakePulseEnd
  repeat' first
    | with_reducible assumption | with_reducible refine keeps_ite ?_ (fun _ => ?_) | with_reducible refine keeps_emit ?_ _
    | with_reducible refine keepsN_next ?_ | fail_if_no_progress (with_reducible refine keeps_mk ?_ rfl rfl rfl rfl rfl rfl rfl) | split
    | dsimp only

theorem keeps_withPresets {s t : State} (h : Keeps s t) : ∀ a1, Keeps s (@State.withPresets t a1) := by
  intro a1
  unfold State.withPresets
  repeat' first
    | with_reducible assumption | with_reducible refine keeps_ite ?_ (fun _ => ?_) | with_reducible refine keeps_foldl (fun _ _ _ => ?_) _ ?_
    | with_reducible refine keeps_regPut ?_ _ _ _ | split | dsimp only

theorem keeps_replay {s t : State} (h : Keeps s t) : ∀ a1, Keeps s (@State.replay t a1) := by
  intro a1
  unfold State.replay
  repeat' first
    | with_reducible assumption | with_reducible refine keeps_inboundSite ?_ _ _ _ | with_reducible refine keeps_siteRequest ?_ _ _
    | with_reducible refine keeps_hostInbound ?_ _ _ | with_reducible refine keeps_hccRetry ?_ | with_reducible refine keeps_hostOutbound ?_ _
    | with_reducible refine keeps_packetReceive ?_ _ _ _ | with_reducible refine keeps_removals ?_ | with_reducible refine keeps_fabricSend ?_ _ _
    | with_reducible refine keeps_pccTake ?_ _ _ _ | with_reducible refine keeps_mccTake ?_ _ _ _ | split | dsimp only

theorem keeps_admitWork {s t : State} (h : Keeps s t) : ∀ a1, Keeps s (@State.admitWork t a1) := by
  intro a1
  unfold State.admitWork
  repeat' first
    | with_reducible assumption | with_reducible refine keeps_ite ?_ (fun _ => ?_) | with_reducible refine keeps_foldl (fun _ _ _ => ?_) _ ?_
    | with_reducible refine keeps_replay ?_ _ | with_reducible refine keeps_trigDrive ?_ _ | with_reducible refine keeps_combine ?_
    | with_reducible refine keeps_clusterPump ?_ _ | with_reducible refine keeps_onIsl ?_ _ _ | split | dsimp only

theorem keeps_archiveWrite {s t : State} (h : Keeps s t) : ∀ a1 a2, Keeps s (@State.archiveWrite t a1 a2) := by
  intro a1 a2
  unfold State.archiveWrite
  repeat' first
    | with_reducible assumption | with_reducible refine keeps_emit ?_ _

theorem keeps_onStr {s t : State} (h : Keeps s t) : ∀ a1, Keeps s (@State.onStr t a1) := by
  intro a1
  unfold State.onStr
  repeat' first
    | with_reducible assumption | fail_if_no_progress (with_reducible refine keeps_mk ?_ rfl rfl rfl rfl rfl rfl rfl) | dsimp only

theorem keeps_archiveCopy {s t : State} (h : Keeps s t) : Keeps s (@State.archiveCopy t) := by
  unfold State.archiveCopy
  repeat' first
    | with_reducible assumption | with_reducible refine keeps_ite ?_ (fun _ => ?_) | with_reducible refine keeps_foldl (fun _ _ _ => ?_) _ ?_
    | with_reducible refine keeps_onStr ?_ _ | with_reducible refine keeps_archiveWrite ?_ _ _ | split | dsimp only

theorem keeps_archiveCreate {s t : State} (h : Keeps s t) : ∀ a1, Keeps s (@State.archiveCreate t a1) := by
  intro a1
  unfold State.archiveCreate
  repeat' first
    | with_reducible assumption | with_reducible refine keeps_ite ?_ (fun _ => ?_) | with_reducible refine keeps_regionScrub ?_ _
    | with_reducible refine keeps_settle ?_ | with_reducible refine keeps_onRegion ?_ _ _ | with_reducible refine keeps_setMaster ?_ _ _ | split
    | dsimp only

theorem keeps_dropShadows {s t : State} (h : Keeps s t) : Keeps s (@State.dropShadows t) := by
  unfold State.dropShadows
  repeat' first
    | with_reducible assumption | fail_if_no_progress (with_reducible refine keeps_mk ?_ rfl rfl rfl rfl rfl rfl rfl) | dsimp only

theorem keeps_writeShadows {s t : State} (h : Keeps s t) : ∀ a1, Keeps s (@State.writeShadows t a1) := by
  intro a1
  unfold State.writeShadows
  repeat' first
    | with_reducible assumption | with_reducible refine keeps_ite ?_ (fun _ => ?_) | with_reducible refine keeps_foldl (fun _ _ _ => ?_) _ ?_
    | with_reducible refine keeps_onIsl ?_ _ _ | split | dsimp only

theorem keeps_streamReject {s t : State} (h : Keeps s t) : ∀ a1, Keeps s (@State.streamReject t a1) := by
  intro a1
  unfold State.streamReject
  repeat' first
    | with_reducible assumption | with_reducible refine keeps_dropShadows ?_ | with_reducible refine keeps_onStr ?_ _ | split | dsimp only

theorem keeps_streamRead {s t : State} (h : Keeps s t) : ∀ a1 a2, Keeps s (@State.streamRead t a1 a2) := by
  intro a1 a2
  unfold State.streamRead
  repeat' first
    | with_reducible assumption | with_reducible refine keeps_streamReject ?_ _ | with_reducible refine keeps_writeShadows ?_ _
    | with_reducible refine keeps_onStr ?_ _ | with_reducible refine keeps_dropShadows ?_ | split | dsimp only

theorem keeps_bootLoad {s t : State} (h : Keeps s t) : ∀ a1, Keeps s (@State.bootLoad t a1) := by
  intro a1
  unfold State.bootLoad
  repeat' first
    | with_reducible assumption | with_reducible refine keeps_ite ?_ (fun _ => ?_) | with_reducible refine keeps_reservedKeys ?_
    | with_reducible refine keeps_streamRead ?_ _ _ | split | dsimp only

theorem keeps_boundary {s t : State} (h : Keeps s t) : ∀ a1, Keeps s (@State.boundary t a1) := by
  intro a1
  unfold State.boundary
  repeat' first
    | with_reducible assumption | with_reducible refine keeps_ite ?_ (fun _ => ?_) | with_reducible refine keeps_trigDrive ?_ _
    | with_reducible refine keeps_onIsl ?_ _ _ | split | dsimp only

theorem keeps_firstCommit {s t : State} (h : Keeps s t) : ∀ a1 a2, Keeps s (@State.firstCommit t a1 a2) := by
  intro a1 a2
  unfold State.firstCommit
  repeat' first
    | with_reducible assumption | with_reducible refine keeps_ite ?_ (fun _ => ?_) | with_reducible refine keeps_foldl (fun _ _ _ => ?_) _ ?_
    | with_reducible refine keeps_archiveCreate ?_ _ | with_reducible refine keeps_onStr ?_ _ | with_reducible refine keeps_onIsl ?_ _ _
    | with_reducible refine keeps_onMcc ?_ _ _ | with_reducible refine keeps_regPut ?_ _ _ _ | split | dsimp only

theorem keeps_restartCounters {s t : State} (h : Keeps s t) : ∀ a1 a2 a3, Keeps s (@State.restartCounters t a1 a2 a3) := by
  intro a1 a2 a3
  unfold State.restartCounters
  repeat' first
    | with_reducible assumption | with_reducible refine keeps_ite ?_ (fun _ => ?_) | with_reducible refine keeps_foldl (fun _ _ _ => ?_) _ ?_
    | (with_reducible refine keeps_onObs ?_ _ ?_) <;> [skip; exact fun _ => rfl] | split | dsimp only

theorem keeps_machineRestart {s t : State} (h : Keeps s t) : ∀ a1, Keeps s (@State.machineRestart t a1) := by
  intro a1
  unfold State.machineRestart
  repeat' first
    | with_reducible assumption | with_reducible refine keeps_ite ?_ (fun _ => ?_)
    | (with_reducible refine keeps_onSpr ?_ _ ?_) <;> [skip; exact fun _ => rfl] | split | dsimp only

theorem keeps_spireTables {s t : State} (h : Keeps s t) : ∀ a1 a2, Keeps s (@State.spireTables t a1 a2) := by
  intro a1 a2
  unfold State.spireTables
  repeat' first
    | with_reducible assumption | with_reducible refine keeps_ite ?_ (fun _ => ?_) | with_reducible refine keeps_foldl (fun _ _ _ => ?_) _ ?_
    | (with_reducible refine keeps_onSpr ?_ _ ?_) <;> [skip; exact fun _ => rfl] | with_reducible refine keeps_onTime ?_ _
    | with_reducible refine keeps_onTimer ?_ _ _ | with_reducible refine keeps_machineRestart ?_ _ | split | dsimp only

theorem keeps_placeLanes {s t : State} (h : Keeps s t) : ∀ a1 a2, Keeps s (@State.placeLanes t a1 a2) := by
  intro a1 a2
  unfold State.placeLanes
  repeat' first
    | with_reducible assumption | with_reducible refine keeps_ite ?_ (fun _ => ?_) | with_reducible refine keeps_foldl (fun _ _ _ => ?_) _ ?_
    | with_reducible refine keeps_onCluster ?_ _ _ | with_reducible refine keeps_onSocket ?_ _ _ _ | split | dsimp only

theorem keeps_setModes {s t : State} (h : Keeps s t) : ∀ a1, Keeps s (@State.setModes t a1) := by
  intro a1
  unfold State.setModes
  repeat' first
    | with_reducible assumption | with_reducible refine keeps_foldl (fun _ _ _ => ?_) _ ?_ | with_reducible refine keeps_onMbx ?_ _ _ | dsimp only

theorem keeps_obsOwners {s t : State} (h : Keeps s t) : ∀ a1 a2, Keeps s (@State.obsOwners t a1 a2) := by
  intro a1 a2
  unfold State.obsOwners
  repeat' first
    | with_reducible assumption | with_reducible refine keeps_ite ?_ (fun _ => ?_) | with_reducible refine keeps_traceDrainDone ?_ _
    | with_reducible refine keeps_snapshotDone ?_ _ | with_reducible refine keeps_trigDrive ?_ _ | split | dsimp only

theorem keeps_loadReplica {s t : State} (h : Keeps s t) : ∀ a1, Keeps s (@State.loadReplica t a1) := by
  intro a1
  unfold State.loadReplica
  repeat' first
    | with_reducible assumption | with_reducible refine keeps_ite ?_ (fun _ => ?_) | with_reducible refine keeps_foldl (fun _ _ _ => ?_) _ ?_
    | with_reducible refine keeps_sigCleared ?_ _ | with_reducible refine keeps_setRep ?_ _ _ _
    | fail_if_no_progress (with_reducible refine keeps_mk ?_ rfl rfl rfl rfl rfl rfl rfl) | split | dsimp only

theorem keeps_takeSections {s t : State} (h : Keeps s t) : ∀ a1 a2, Keeps s (@State.takeSections t a1 a2) := by
  intro a1 a2
  unfold State.takeSections
  repeat' first
    | with_reducible assumption | with_reducible refine keeps_ite ?_ (fun _ => ?_) | with_reducible refine keeps_onIsl ?_ _ _
    | with_reducible refine keeps_unclamp ?_ _ | with_reducible refine keeps_loadReplica ?_ _ | with_reducible refine keeps_obsOwners ?_ _ _
    | with_reducible refine keeps_setModes ?_ _ | with_reducible refine keeps_placeLanes ?_ _ _ | with_reducible refine keeps_spireTables ?_ _ _
    | with_reducible refine keeps_flush ?_ _ | with_reducible refine keeps_restartCounters ?_ _ _ _ | with_reducible refine keeps_firstCommit ?_ _ _
    | split | dsimp only

theorem keeps_resetNotice {s t : State} (h : Keeps s t) : Keeps s (@State.resetNotice t) := by
  unfold State.resetNotice
  repeat' first
    | with_reducible assumption | with_reducible refine keeps_ite ?_ (fun _ => ?_)
    | fail_if_no_progress (with_reducible refine keeps_mk ?_ rfl rfl rfl rfl rfl rfl rfl) | split | dsimp only

theorem keeps_outdate {s t : State} (h : Keeps s t) : ∀ a1 a2, Keeps s (@State.outdate t a1 a2) := by
  intro a1 a2
  unfold State.outdate
  repeat' first
    | with_reducible assumption | with_reducible refine keeps_ite ?_ (fun _ => ?_) | with_reducible refine keeps_onIsl ?_ _ _
    | with_reducible refine keeps_firstCommit ?_ _ _ | split | dsimp only

theorem keeps_commitBroadcast {s t : State} (h : Keeps s t) : Keeps s (@State.commitBroadcast t) := by
  unfold State.commitBroadcast
  repeat' first
    | with_reducible assumption | with_reducible refine keeps_ite ?_ (fun _ => ?_) | with_reducible refine keeps_foldl (fun _ _ _ => ?_) _ ?_
    | (with_reducible refine keeps_onSpr ?_ _ ?_) <;> [skip; exact fun _ => rfl] | with_reducible refine keeps_outdate ?_ _ _
    | with_reducible refine keeps_resetNotice ?_ | with_reducible refine keeps_raiseEvent ?_ _ _ _ _ | with_reducible refine keeps_onDom ?_ _
    | with_reducible refine keeps_onStr ?_ _ | with_reducible refine keeps_takeSections ?_ _ _
    | fail_if_no_progress (with_reducible refine keeps_mk ?_ rfl rfl rfl rfl rfl rfl rfl) | split | dsimp only

theorem keeps_streamAnswer {s t : State} (h : Keeps s t) : Keeps s (@State.streamAnswer t) := by
  unfold State.streamAnswer
  repeat' first
    | with_reducible assumption | with_reducible refine keeps_completeWhere ?_ _ _ _ _

theorem keeps_swapAbort {s t : State} (h : Keeps s t) : ∀ a1 a2 a3, Keeps s (@State.swapAbort t a1 a2 a3) := by
  intro a1 a2 a3
  unfold State.swapAbort
  repeat' first
    | with_reducible assumption | (with_reducible refine keeps_onSpr ?_ _ ?_) <;> [skip; exact fun _ => rfl]
    | with_reducible refine keeps_onStr ?_ _ | with_reducible refine keeps_streamAnswer ?_

theorem keeps_prepareStart {s t : State} (h : Keeps s t) : Keeps s (@State.prepareStart t) := by
  unfold State.prepareStart
  repeat' first
    | with_reducible assumption | with_reducible refine keeps_ite ?_ (fun _ => ?_)
    | (with_reducible refine keeps_onSpr ?_ _ ?_) <;> [skip; exact fun _ => rfl] | with_reducible refine keeps_swapAbort ?_ _ _ _
    | with_reducible refine keeps_writeShadows ?_ _ | with_reducible refine keeps_onStr ?_ _ | split | dsimp only

theorem keeps_commitTime {s t : State} (h : Keeps s t) : Keeps s (@State.commitTime t) := by
  unfold State.commitTime
  repeat' first
    | with_reducible assumption | with_reducible refine keeps_ite ?_ (fun _ => ?_) | with_reducible refine keeps_prepareStart ?_ | split
    | dsimp only

theorem keeps_countCommitted {s t : State} (h : Keeps s t) : ∀ a1, Keeps s (@State.countCommitted t a1) := by
  intro a1
  unfold State.countCommitted
  repeat' first
    | with_reducible assumption | with_reducible refine keeps_ite ?_ (fun _ => ?_)
    | (with_reducible refine keeps_onSpr ?_ _ ?_) <;> [skip; exact fun _ => rfl] | with_reducible refine keeps_onStr ?_ _
    | with_reducible refine keeps_streamAnswer ?_ | split | dsimp only

theorem keeps_islandAbort {s t : State} (h : Keeps s t) : ∀ a1, Keeps s (@State.islandAbort t a1) := by
  intro a1
  unfold State.islandAbort
  repeat' first
    | with_reducible assumption | with_reducible refine keeps_ite ?_ (fun _ => ?_)
    | (with_reducible refine keeps_onSpr ?_ _ ?_) <;> [skip; exact fun _ => rfl] | with_reducible refine keeps_admitWork ?_ _ | split | dsimp only

theorem keeps_islandCommit {s t : State} (h : Keeps s t) : ∀ a1, Keeps s (@State.islandCommit t a1) := by
  intro a1
  unfold State.islandCommit
  repeat' first
    | with_reducible assumption | with_reducible refine keeps_ite ?_ (fun _ => ?_)
    | (with_reducible refine keeps_onSpr ?_ _ ?_) <;> [skip; exact fun _ => rfl] | with_reducible refine keeps_takeSections ?_ _ _
    | with_reducible refine keeps_admitWork ?_ _ | split | dsimp only

theorem keeps_islandPrepare {s t : State} (h : Keeps s t) : ∀ a1, Keeps s (@State.islandPrepare t a1) := by
  intro a1
  unfold State.islandPrepare
  repeat' first
    | with_reducible assumption | with_reducible refine keeps_ite ?_ (fun _ => ?_)
    | (with_reducible refine keeps_onSpr ?_ _ ?_) <;> [skip; exact fun _ => rfl] | with_reducible refine keeps_onIsl ?_ _ _ | split | dsimp only

theorem keeps_preparedTaken {s t : State} (h : Keeps s t) : ∀ a1, Keeps s (@State.preparedTaken t a1) := by
  intro a1
  unfold State.preparedTaken
  repeat' first
    | with_reducible assumption | with_reducible refine keeps_ite ?_ (fun _ => ?_)
    | (with_reducible refine keeps_onSpr ?_ _ ?_) <;> [skip; exact fun _ => rfl] | with_reducible refine keeps_commitBroadcast ?_ | split
    | dsimp only

theorem keeps_refusedTaken {s t : State} (h : Keeps s t) : ∀ a1, Keeps s (@State.refusedTaken t a1) := by
  intro a1
  unfold State.refusedTaken
  repeat' first
    | with_reducible assumption | with_reducible refine keeps_swapAbort ?_ _ _ _ | split | dsimp only

theorem keeps_rwlRestore {s t : State} (h : Keeps s t) : ∀ a1, Keeps s (@State.rwlRestore t a1) := by
  intro a1
  unfold State.rwlRestore
  repeat' first
    | with_reducible assumption | with_reducible refine keeps_foldl (fun _ _ _ => ?_) _ ?_ | with_reducible refine keeps_onIsl ?_ _ _
    | with_reducible refine keeps_regPut ?_ _ _ _ | dsimp only

theorem keeps_sectionLoad {s t : State} (h : Keeps s t) : ∀ a1 a2, Keeps s (@State.sectionLoad t a1 a2) := by
  intro a1 a2
  unfold State.sectionLoad
  repeat' first
    | with_reducible assumption | with_reducible refine keeps_ite ?_ (fun _ => ?_) | with_reducible refine keeps_takeSections ?_ _ _
    | with_reducible refine keeps_admitWork ?_ _ | with_reducible refine keeps_rwlRestore ?_ _ | with_reducible refine keeps_report ?_ _ _ _ _
    | split | dsimp only

theorem keeps_streamLoad {s t : State} (h : Keeps s t) : ∀ a1 a2 a3 a4, Keeps s (@State.streamLoad t a1 a2 a3 a4) := by
  intro a1 a2 a3 a4
  unfold State.streamLoad
  repeat' first
    | with_reducible assumption | with_reducible refine keeps_ite ?_ (fun _ => ?_) | with_reducible refine keeps_streamAnswer ?_
    | with_reducible refine keeps_streamRead ?_ _ _ | with_reducible refine keeps_hold ?_ _
    | with_reducible refine keeps_withBuffer ?_ _ _ _ _ _ (fun _ _ _ => ?_) | with_reducible refine keeps_answer ?_ _ _ _ | split | dsimp only

theorem keeps_streamRetry {s t : State} (h : Keeps s t) : ∀ a1, Keeps s (@State.streamRetry t a1) := by
  intro a1
  unfold State.streamRetry
  repeat' first
    | with_reducible assumption | with_reducible refine keeps_ite ?_ (fun _ => ?_) | with_reducible refine keeps_streamReject ?_ _
    | with_reducible refine keeps_streamAnswer ?_ | with_reducible refine keeps_onStr ?_ _ | with_reducible refine keeps_hold ?_ _
    | with_reducible refine keeps_prepareStart ?_ | with_reducible refine keeps_answer ?_ _ _ _ | split | dsimp only

theorem keeps_swapReset {s t : State} (h : Keeps s t) : ∀ a1, Keeps s (@State.swapReset t a1) := by
  intro a1
  unfold State.swapReset
  repeat' first
    | with_reducible assumption | with_reducible refine keeps_ite ?_ (fun _ => ?_)
    | (with_reducible refine keeps_onSpr ?_ _ ?_) <;> [skip; exact fun _ => rfl] | with_reducible refine keeps_swapAbort ?_ _ _ _
    | with_reducible refine keeps_countCommitted ?_ _ | split | dsimp only

theorem keeps_windowExpiry {s t : State} (h : Keeps s t) : Keeps s (@State.windowExpiry t) := by
  unfold State.windowExpiry
  repeat' first
    | with_reducible assumption | with_reducible refine keeps_ite ?_ (fun _ => ?_) | with_reducible refine keeps_swapAbort ?_ _ _ _ | split
    | dsimp only

theorem keeps_execArchiveCopy {s t : State} (h : Keeps s t) : KeepsN s (@execArchiveCopy t) := by
  unfold execArchiveCopy
  repeat' first
    | with_reducible assumption | with_reducible refine keepsN_next ?_ | with_reducible refine keeps_archiveCopy ?_

theorem keeps_execBootStreamLoad {s t : State} (h : Keeps s t) : ∀ a1 a2, KeepsN s (@execBootStreamLoad a1 a2 t) := by
  intro a1 a2
  unfold execBootStreamLoad
  repeat' first
    | with_reducible assumption | with_reducible refine keepsN_next ?_ | with_reducible refine keeps_advance ?_ _
    | with_reducible refine keeps_bootLoad ?_ _

theorem keeps_execBoundaryReached {s t : State} (h : Keeps s t) : ∀ a1, KeepsN s (@execBoundaryReached a1 t) := by
  intro a1
  unfold execBoundaryReached
  repeat' first
    | with_reducible assumption | with_reducible refine keepsN_next ?_ | with_reducible refine keeps_boundary ?_ _

theorem keeps_execCommitTimeReached {s t : State} (h : Keeps s t) : ∀ a1, KeepsN s (@execCommitTimeReached a1 t) := by
  intro a1
  unfold execCommitTimeReached
  repeat' first
    | with_reducible assumption | with_reducible refine keepsN_next ?_ | with_reducible refine keeps_advance ?_ _
    | with_reducible refine keeps_atStep ?_ _ | with_reducible refine keeps_commitTime ?_

theorem keeps_execCommittedReceived {s t : State} (h : Keeps s t) : ∀ a1, KeepsN s (@execCommittedReceived a1 t) := by
  intro a1
  unfold execCommittedReceived
  repeat' first
    | with_reducible assumption | with_reducible refine keeps_ite ?_ (fun _ => ?_) | with_reducible refine keepsN_next ?_
    | with_reducible refine keeps_countCommitted ?_ _ | with_reducible refine keeps_atStep ?_ _ | split | dsimp only

theorem keeps_execCommittedTimeout {s t : State} (h : Keeps s t) : ∀ a1, KeepsN s (@execCommittedTimeout a1 t) := by
  intro a1
  unfold execCommittedTimeout
  repeat' first
    | with_reducible assumption | with_reducible refine keeps_ite ?_ (fun _ => ?_) | with_reducible refine keepsN_next ?_
    | with_reducible refine keeps_report ?_ _ _ _ _ | with_reducible refine keeps_countCommitted ?_ _ | with_reducible refine keeps_atStep ?_ _
    | split | dsimp only

theorem keeps_execIslandAbort {s t : State} (h : Keeps s t) : ∀ a1, KeepsN s (@execIslandAbort a1 t) := by
  intro a1
  unfold execIslandAbort
  repeat' first
    | with_reducible assumption | with_reducible refine keepsN_next ?_ | with_reducible refine keeps_islandAbort ?_ _

theorem keeps_execIslandCommit {s t : State} (h : Keeps s t) : ∀ a1, KeepsN s (@execIslandCommit a1 t) := by
  intro a1
  unfold execIslandCommit
  repeat' first
    | with_reducible assumption | with_reducible refine keepsN_next ?_ | with_reducible refine keeps_islandCommit ?_ _

theorem keeps_execIslandPrepare {s t : State} (h : Keeps s t) : ∀ a1, KeepsN s (@execIslandPrepare a1 t) := by
  intro a1
  unfold execIslandPrepare
  repeat' first
    | with_reducible assumption | with_reducible refine keepsN_next ?_ | with_reducible refine keeps_islandPrepare ?_ _

theorem keeps_execIslandSectionLoad {s t : State} (h : Keeps s t) : ∀ a1 a2, KeepsN s (@execIslandSectionLoad a1 a2 t) := by
  intro a1 a2
  unfold execIslandSectionLoad
  repeat' first
    | with_reducible assumption | with_reducible refine keepsN_next ?_ | with_reducible refine keeps_sectionLoad ?_ _ _

theorem keeps_execPrepareWindowExpiry {s t : State} (h : Keeps s t) : KeepsN s (@execPrepareWindowExpiry t) := by
  unfold execPrepareWindowExpiry
  repeat' first
    | with_reducible assumption | with_reducible refine keepsN_next ?_ | with_reducible refine keeps_atStep ?_ _
    | with_reducible refine keeps_windowExpiry ?_

theorem keeps_execPreparedReceived {s t : State} (h : Keeps s t) : ∀ a1, KeepsN s (@execPreparedReceived a1 t) := by
  intro a1
  unfold execPreparedReceived
  repeat' first
    | with_reducible assumption | with_reducible refine keepsN_next ?_ | with_reducible refine keeps_atStep ?_ _
    | with_reducible refine keeps_preparedTaken ?_ _

theorem keeps_execRefusedReceived {s t : State} (h : Keeps s t) : ∀ a1, KeepsN s (@execRefusedReceived a1 t) := by
  intro a1
  unfold execRefusedReceived
  repeat' first
    | with_reducible assumption | with_reducible refine keepsN_next ?_ | with_reducible refine keeps_atStep ?_ _
    | with_reducible refine keeps_refusedTaken ?_ _

theorem keeps_execStreamLoad {s t : State} (h : Keeps s t) : ∀ a1 a2 a3 a4 a5, KeepsN s (@execStreamLoad a1 a2 a3 a4 a5 t) := by
  intro a1 a2 a3 a4 a5
  unfold execStreamLoad
  repeat' first
    | with_reducible assumption | with_reducible refine keepsN_next ?_ | with_reducible refine keeps_streamLoad ?_ _ _ _ _
    | with_reducible refine keeps_advance ?_ _ | with_reducible refine keeps_command ?_ _ _ _ _ (fun _ _ _ => ?_)

theorem keeps_execStreamRetry {s t : State} (h : Keeps s t) : ∀ a1, KeepsN s (@execStreamRetry a1 t) := by
  intro a1
  unfold execStreamRetry
  repeat' first
    | with_reducible assumption | with_reducible refine keepsN_next ?_ | with_reducible refine keeps_streamRetry ?_ _
    | with_reducible refine keeps_command ?_ _ _ _ _ (fun _ _ _ => ?_)

theorem keeps_onFtu {s t : State} (h : Keeps s t) : ∀ a1, Keeps s (@State.onFtu t a1) := by
  intro a1
  unfold State.onFtu
  repeat' first
    | with_reducible assumption | fail_if_no_progress (with_reducible refine keeps_mk ?_ rfl rfl rfl rfl rfl rfl rfl) | dsimp only

theorem keeps_testBeat {s t : State} (h : Keeps s t) : ∀ a1 a2, Keeps s (@State.testBeat t a1 a2) := by
  intro a1 a2
  unfold State.testBeat
  repeat' first
    | with_reducible assumption | with_reducible refine keeps_ite ?_ (fun _ => ?_) | with_reducible refine keeps_onFtu ?_ _
    | with_reducible refine keeps_countT ?_ _ _ _ _ | split | dsimp only

theorem keeps_testTake {s t : State} (h : Keeps s t) : ∀ a1 a2 a3, Keeps s (@State.testTake t a1 a2 a3) := by
  intro a1 a2 a3
  unfold State.testTake
  repeat' first
    | with_reducible assumption | with_reducible refine keeps_ite ?_ (fun _ => ?_) | with_reducible refine keeps_emit ?_ _
    | with_reducible refine keeps_onSocket ?_ _ _ _ | with_reducible refine keeps_orderSwap ?_ _ _
    | fail_if_no_progress (with_reducible refine keeps_mk ?_ rfl rfl rfl rfl rfl rfl rfl) | split | dsimp only

theorem keeps_testBegin {s t : State} (h : Keeps s t) : ∀ a1 a2 a3 a4, Keeps s (@State.testBegin t a1 a2 a3 a4) := by
  intro a1 a2 a3 a4
  unfold State.testBegin
  repeat' first
    | with_reducible assumption | with_reducible refine keeps_ite ?_ (fun _ => ?_) | with_reducible refine keeps_testTake ?_ _ _ _
    | with_reducible refine keeps_onFtu ?_ _ | with_reducible refine keeps_powerOn ?_ _ | with_reducible refine keeps_traceEmpty ?_ _ | split
    | dsimp only

theorem keeps_testLane {s t : State} (h : Keeps s t) : ∀ a1 a2 a3, Keeps s (@State.testLane t a1 a2 a3) := by
  intro a1 a2 a3
  unfold State.testLane
  repeat' first
    | with_reducible assumption | with_reducible refine keeps_ite ?_ (fun _ => ?_)
    | (with_reducible refine keeps_onSpr ?_ _ ?_) <;> [skip; exact fun _ => rfl] | with_reducible refine keeps_faultLane ?_ _ _
    | with_reducible refine keeps_report ?_ _ _ _ _ | with_reducible refine keeps_onSocket ?_ _ _ _ | split | dsimp only

theorem keeps_testReturn {s t : State} (h : Keeps s t) : ∀ a1, Keeps s (@State.testReturn t a1) := by
  intro a1
  unfold State.testReturn
  repeat' first
    | with_reducible assumption | with_reducible refine keeps_ite ?_ (fun _ => ?_) | with_reducible refine keeps_emit ?_ _
    | with_reducible refine keeps_report ?_ _ _ _ _ | with_reducible refine keeps_onFtu ?_ _ | with_reducible refine keeps_testLane ?_ _ _ _ | split
    | dsimp only

theorem keeps_testEnd {s t : State} (h : Keeps s t) : ∀ a1, Keeps s (@State.testEnd t a1) := by
  intro a1
  unfold State.testEnd
  repeat' first
    | with_reducible assumption | with_reducible refine keeps_traceEmpty ?_ _ | with_reducible refine keeps_onFtu ?_ _
    | with_reducible refine keeps_testReturn ?_ _

theorem keeps_testFinish {s t : State} (h : Keeps s t) : ∀ a1, Keeps s (@State.testFinish t a1) := by
  intro a1
  unfold State.testFinish
  repeat' first
    | with_reducible assumption | with_reducible refine keeps_ite ?_ (fun _ => ?_) | with_reducible refine keeps_testEnd ?_ _ | split | dsimp only

theorem keeps_testStart {s t : State} (h : Keeps s t) : ∀ a1 a2, Keeps s (@State.testStart t a1 a2) := by
  intro a1 a2
  unfold State.testStart
  repeat' first
    | with_reducible assumption | with_reducible refine keeps_ite ?_ (fun _ => ?_) | with_reducible refine keeps_testBegin ?_ _ _ _ _
    | with_reducible refine keeps_onFtu ?_ _ | with_reducible refine keeps_regPut ?_ _ _ _ | split | dsimp only

theorem keeps_execFieldTestAbort {s t : State} (h : Keeps s t) : KeepsN s (@execFieldTestAbort t) := by
  unfold execFieldTestAbort
  repeat' first
    | with_reducible assumption | with_reducible refine keeps_ite ?_ (fun _ => ?_) | with_reducible refine keepsN_next ?_
    | with_reducible refine keeps_testEnd ?_ _ | split | dsimp only

theorem keeps_execFieldTestBeat {s t : State} (h : Keeps s t) : ∀ a1 a2, KeepsN s (@execFieldTestBeat a1 a2 t) := by
  intro a1 a2
  unfold execFieldTestBeat
  repeat' first
    | with_reducible assumption | with_reducible refine keepsN_next ?_ | with_reducible refine keeps_testBeat ?_ _ _

theorem keeps_execFieldTestEnd {s t : State} (h : Keeps s t) : ∀ a1, KeepsN s (@execFieldTestEnd a1 t) := by
  intro a1
  unfold execFieldTestEnd
  repeat' first
    | with_reducible assumption | with_reducible refine keepsN_next ?_ | with_reducible refine keeps_testFinish ?_ _

theorem keeps_execFieldTestStart {s t : State} (h : Keeps s t) : ∀ a1 a2, KeepsN s (@execFieldTestStart a1 a2 t) := by
  intro a1 a2
  unfold execFieldTestStart
  repeat' first
    | with_reducible assumption | with_reducible refine keepsN_next ?_ | with_reducible refine keeps_testStart ?_ _ _

theorem keeps_acked {s t : State} (h : Keeps s t) : ∀ a1 a2, Keeps s (@State.acked t a1 a2) := by
  intro a1 a2
  unfold State.acked
  repeat' first
    | with_reducible assumption | with_reducible refine keeps_ite ?_ (fun _ => ?_) | with_reducible refine keeps_raiseEvent ?_ _ _ _ _
    | with_reducible refine keeps_updateFaultN ?_ | split | dsimp only

theorem keeps_parityCount {s t : State} (h : Keeps s t) : ∀ a1, Keeps s (@State.parityCount t a1) := by
  intro a1
  unfold State.parityCount
  repeat' first
    | with_reducible assumption | with_reducible refine keeps_onIsl ?_ _ _

theorem keeps_badParity {s t : State} (h : Keeps s t) : ∀ a1, Keeps s (@State.badParity t a1) := by
  intro a1
  unfold State.badParity
  repeat' first
    | with_reducible assumption | with_reducible refine keeps_ite ?_ (fun _ => ?_) | with_reducible refine keeps_parityCount ?_ _
    | with_reducible refine keeps_report ?_ _ _ _ _ | split | dsimp only

theorem keeps_bfcLost {s t : State} (h : Keeps s t) : Keeps s (@State.bfcLost t) := by
  unfold State.bfcLost
  repeat' first
    | with_reducible assumption | fail_if_no_progress (with_reducible refine keeps_mk ?_ rfl rfl rfl rfl rfl rfl rfl) | split | dsimp only

theorem keeps_clockWindow {s t : State} (h : Keeps s t) : ∀ a1 a2, Keeps s (@State.clockWindow t a1 a2) := by
  intro a1 a2
  unfold State.clockWindow
  repeat' first
    | with_reducible assumption | with_reducible refine keeps_ite ?_ (fun _ => ?_) | with_reducible refine keeps_pllLock ?_ _
    | with_reducible refine keeps_onIsl ?_ _ _ | with_reducible refine keeps_deriveStop ?_ | with_reducible refine keeps_report ?_ _ _ _ _ | split
    | dsimp only

theorem keeps_clusterReset {s t : State} (h : Keeps s t) : ∀ a1, Keeps s (@State.clusterReset t a1) := by
  intro a1
  unfold State.clusterReset
  repeat' first
    | with_reducible assumption | with_reducible refine keeps_foldl (fun _ _ _ => ?_) _ ?_ | with_reducible refine keeps_onSocket ?_ _ _ _
    | with_reducible refine keeps_onCluster ?_ _ _ | with_reducible refine keeps_reportWrites ?_ _ _
    | fail_if_no_progress (with_reducible refine keeps_mk ?_ rfl rfl rfl rfl rfl rfl rfl) | dsimp only

theorem keeps_countReport {s t : State} (h : Keeps s t) : ∀ a1, Keeps s (@State.countReport t a1) := by
  intro a1
  unfold State.countReport
  repeat' first
    | with_reducible assumption | with_reducible refine keeps_onEsc ?_ _

theorem keeps_faultAck {s t : State} (h : Keeps s t) : ∀ a1, Keeps s (@State.faultAck t a1) := by
  intro a1
  unfold State.faultAck
  repeat' first
    | with_reducible assumption | with_reducible refine keeps_ite ?_ (fun _ => ?_) | with_reducible refine keeps_onEsc ?_ _
    | with_reducible refine keeps_acked ?_ _ _ | split | dsimp only

theorem keeps_faultActions {s t : State} (h : Keeps s t) : ∀ a1 a2, Keeps s (@State.faultActions t a1 a2) := by
  intro a1 a2
  unfold State.faultActions
  repeat' first
    | with_reducible assumption | with_reducible refine keeps_ite ?_ (fun _ => ?_) | with_reducible refine keeps_updateFaultN ?_
    | with_reducible refine keeps_notice ?_ _ _ _ | with_reducible refine keeps_irq ?_ _ | split | dsimp only

theorem keeps_heldFail {s t : State} (h : Keeps s t) : ∀ a1, Keeps s (@State.heldFail t a1) := by
  intro a1
  unfold State.heldFail
  repeat' first
    | with_reducible assumption | with_reducible refine keeps_ite ?_ (fun _ => ?_) | with_reducible refine keeps_emit ?_ _
    | with_reducible refine keeps_done ?_ _ _ _ _ | with_reducible refine keeps_refuseHost ?_ _ | with_reducible refine keeps_refuseSend ?_ _ _
    | with_reducible refine keeps_refuseReq ?_ _ _ _ _ | split | dsimp only

theorem keeps_latchesGone {s t : State} (h : Keeps s t) : ∀ a1, Keeps s (@State.latchesGone t a1) := by
  intro a1
  unfold State.latchesGone
  repeat' first
    | with_reducible assumption | fail_if_no_progress (with_reducible refine keeps_mk ?_ rfl rfl rfl rfl rfl rfl rfl) | dsimp only

theorem keeps_rwlReset {s t : State} (h : Keeps s t) : ∀ a1, Keeps s (@State.rwlReset t a1) := by
  intro a1
  unfold State.rwlReset
  repeat' first
    | with_reducible assumption | with_reducible refine keeps_ite ?_ (fun _ => ?_) | with_reducible refine keeps_onFcc ?_ _ _
    | with_reducible refine keeps_onPcc ?_ _ _ | with_reducible refine keeps_onMcc ?_ _ _ | split | dsimp only

theorem keeps_movesHalt {s t : State} (h : Keeps s t) : Keeps s (@State.movesHalt t) := by
  unfold State.movesHalt
  repeat' first
    | with_reducible assumption | with_reducible refine keeps_movesHaltIf ?_ _

theorem keeps_newtHeldFail {s t : State} (h : Keeps s t) : ∀ a1, Keeps s (@State.newtHeldFail t a1) := by
  intro a1
  unfold State.newtHeldFail
  repeat' first
    | with_reducible assumption | with_reducible refine keeps_ite ?_ (fun _ => ?_) | with_reducible refine keeps_foldl (fun _ _ _ => ?_) _ ?_
    | with_reducible refine keeps_refuseReq ?_ _ _ _ _ | fail_if_no_progress (with_reducible refine keeps_mk ?_ rfl rfl rfl rfl rfl rfl rfl) | split
    | dsimp only

theorem keeps_mccLost {s t : State} (h : Keeps s t) : ∀ a1, Keeps s (@State.mccLost t a1) := by
  intro a1
  unfold State.mccLost
  repeat' first
    | with_reducible assumption | with_reducible refine keeps_onFtu ?_ _ | with_reducible refine keeps_onMcc ?_ _ _
    | with_reducible refine keeps_newtHeldFail ?_ _ | with_reducible refine keeps_movesHalt ?_ | with_reducible refine keeps_mccReset ?_ _ _
    | with_reducible refine keeps_belfryReset ?_ _

theorem keeps_fetchesFree {s t : State} (h : Keeps s t) : ∀ a1 a2, Keeps s (@State.fetchesFree t a1 a2) := by
  intro a1 a2
  unfold State.fetchesFree
  repeat' first
    | with_reducible assumption | with_reducible refine keeps_ite ?_ (fun _ => ?_) | with_reducible refine keeps_foldl (fun _ _ _ => ?_) _ ?_
    | with_reducible refine keeps_metaFetchEnd ?_ _ _ | with_reducible refine keeps_onMcc ?_ _ _ | split | dsimp only

theorem keeps_writeUndone {s t : State} (h : Keeps s t) : ∀ a1 a2, Keeps s (@State.writeUndone t a1 a2) := by
  intro a1 a2
  unfold State.writeUndone
  repeat' first
    | with_reducible assumption | with_reducible refine keeps_ite ?_ (fun _ => ?_) | with_reducible refine keeps_metaTagBack ?_ _ _ _
    | with_reducible refine keeps_unmarkNewkey ?_ _ | with_reducible refine keeps_tagRestore ?_ _ _ _ | split | dsimp only

theorem keeps_memFail {s t : State} (h : Keeps s t) : ∀ a1 a2, Keeps s (@State.memFail t a1 a2) := by
  intro a1 a2
  unfold State.memFail
  repeat' first
    | with_reducible assumption | with_reducible refine keeps_foldl (fun _ _ _ => ?_) _ ?_ | with_reducible refine keeps_onMem ?_ _ _
    | with_reducible refine keeps_retireReq ?_ _ _ _ | with_reducible refine keeps_writeUndone ?_ _ _
    | with_reducible refine keeps_belfryFailed ?_ _ | with_reducible refine keeps_fetchesFree ?_ _ _ | dsimp only

theorem keeps_fccLost {s t : State} (h : Keeps s t) : ∀ a1, Keeps s (@State.fccLost t a1) := by
  intro a1
  unfold State.fccLost
  repeat' first
    | with_reducible assumption | with_reducible refine keeps_fccErase ?_ _ | with_reducible refine keeps_onFcc ?_ _ _

theorem keeps_hccLost {s t : State} (h : Keeps s t) : Keeps s (@State.hccLost t) := by
  unfold State.hccLost
  repeat' first
    | with_reducible assumption | with_reducible refine keeps_foldl (fun _ _ _ => ?_) _ ?_ | with_reducible refine keeps_emit ?_ _
    | with_reducible refine keeps_onHcc ?_ _ | with_reducible refine keeps_refuseHost ?_ _ | with_reducible refine keeps_streamInsecure ?_ _
    | dsimp only

theorem keeps_sguLost {s t : State} (h : Keeps s t) : ∀ a1, Keeps s (@State.sguLost t a1) := by
  intro a1
  unfold State.sguLost
  repeat' first
    | with_reducible assumption | with_reducible refine keeps_ite ?_ (fun _ => ?_) | with_reducible refine keeps_foldl (fun _ _ _ => ?_) _ ?_
    | with_reducible refine keeps_emit ?_ _ | with_reducible refine keeps_onSite ?_ _ _ | with_reducible refine keeps_admitAnswer ?_ _
    | fail_if_no_progress (with_reducible refine keeps_mk ?_ rfl rfl rfl rfl rfl rfl rfl) | split | dsimp only

theorem keeps_obsLost {s t : State} (h : Keeps s t) : Keeps s t.obsLost := by
  unfold State.obsLost
  exact keeps_trace (keeps_trigDrive h _) _ (fun _ => by simp only [List.length_nil]; omega)

theorem keeps_ftuLost {s t : State} (h : Keeps s t) : Keeps s (@State.ftuLost t) := by
  unfold State.ftuLost
  repeat' first
    | with_reducible assumption | with_reducible refine keeps_ite ?_ (fun _ => ?_) | with_reducible refine keeps_onFtu ?_ _
    | with_reducible refine keeps_testEnd ?_ _ | split | dsimp only

theorem keeps_kindLost {s t : State} (h : Keeps s t) : ∀ a1, Keeps s (@State.kindLost t a1) := by
  intro a1
  unfold State.kindLost
  repeat' first
    | with_reducible assumption | with_reducible refine keeps_ite ?_ (fun _ => ?_) | with_reducible refine keeps_ftuLost ?_
    | with_reducible refine keeps_obsLost ?_ | with_reducible refine keeps_bfcLost ?_ | with_reducible refine keeps_movesHalt ?_
    | with_reducible refine keeps_sguLost ?_ _ | with_reducible refine keeps_hccLost ?_ | with_reducible refine keeps_fccLost ?_ _
    | with_reducible refine keeps_pccReset ?_ _ | with_reducible refine keeps_memFail ?_ _ _ | with_reducible refine keeps_mccLost ?_ _ | split
    | dsimp only

theorem keeps_replicaLost {s t : State} (h : Keeps s t) : ∀ a1, Keeps s (@State.replicaLost t a1) := by
  intro a1
  unfold State.replicaLost
  repeat' first
    | with_reducible assumption | fail_if_no_progress (with_reducible refine keeps_mk ?_ rfl rfl rfl rfl rfl rfl rfl) | dsimp only

theorem keeps_islandReset {s t : State} (h : Keeps s t) : ∀ a1, Keeps s (@State.islandReset t a1) := by
  intro a1
  unfold State.islandReset
  repeat' first
    | with_reducible assumption | with_reducible refine keeps_ite ?_ (fun _ => ?_) | with_reducible refine keeps_foldl (fun _ _ _ => ?_) _ ?_
    | with_reducible refine keeps_swapReset ?_ _ | with_reducible refine keeps_markerBack ?_ _ | with_reducible refine keeps_afterOwnership ?_
    | with_reducible refine keeps_removals ?_ | with_reducible refine keeps_onIsl ?_ _ _ | with_reducible refine keeps_replicaLost ?_ _
    | with_reducible refine keeps_clusterReset ?_ _ | with_reducible refine keeps_kindLost ?_ _ | with_reducible refine keeps_rwlReset ?_ _
    | with_reducible refine keeps_latchesGone ?_ _ | with_reducible refine keeps_heldFail ?_ _ | split | dsimp only

theorem keeps_fenceL1 {s t : State} (h : Keeps s t) : ∀ a1 a2 a3 a4 a5, Keeps s (@State.fenceL1 t a1 a2 a3 a4 a5) := by
  intro a1 a2 a3 a4 a5
  unfold State.fenceL1
  repeat' first
    | with_reducible assumption | with_reducible refine keeps_ite ?_ (fun _ => ?_) | with_reducible refine keeps_onIsl ?_ _ _
    | with_reducible refine keeps_islandReset ?_ _ | with_reducible refine keeps_belfryReset ?_ _ | with_reducible refine keeps_closeStream ?_ _ _
    | with_reducible refine keeps_evict ?_ _ _ _ | with_reducible refine keeps_draw_eq ?_ _ _ _ (by assumption)
    | with_reducible refine keeps_draw ?_ _ | with_reducible refine keeps_spanFence ?_ _ _ _ | split | dsimp only

theorem keeps_fenceL2 {s t : State} (h : Keeps s t) : ∀ a1, Keeps s (@State.fenceL2 t a1) := by
  intro a1
  unfold State.fenceL2
  repeat' first
    | with_reducible assumption | with_reducible refine keeps_ite ?_ (fun _ => ?_) | with_reducible refine keeps_onPart ?_ _ _
    | with_reducible refine keeps_quiesceStart ?_ _ | with_reducible refine keeps_contextsClear ?_ _ | with_reducible refine keeps_onTdi ?_ _ _
    | split | dsimp only

theorem keeps_faultFences {s t : State} (h : Keeps s t) : ∀ a1 a2, Keeps s (@State.faultFences t a1 a2) := by
  intro a1 a2
  unfold State.faultFences
  repeat' first
    | with_reducible assumption | with_reducible refine keeps_ite ?_ (fun _ => ?_) | with_reducible refine keeps_fenceL2 ?_ _
    | with_reducible refine keeps_fenceL1 ?_ _ _ _ _ _ | split | dsimp only

theorem keeps_faultNotice {s t : State} (h : Keeps s t) : ∀ a1, Keeps s (@State.faultNotice t a1) := by
  intro a1
  unfold State.faultNotice
  repeat' first
    | with_reducible assumption | with_reducible refine keeps_ite ?_ (fun _ => ?_)
    | fail_if_no_progress (with_reducible refine keeps_mk ?_ rfl rfl rfl rfl rfl rfl rfl) | split | dsimp only

theorem keeps_faultReset {s t : State} (h : Keeps s t) : ∀ a1, Keeps s (@State.faultReset t a1) := by
  intro a1
  unfold State.faultReset
  repeat' first
    | with_reducible assumption | with_reducible refine keeps_ite ?_ (fun _ => ?_) | with_reducible refine keeps_emit ?_ _
    | with_reducible refine keeps_onEsc ?_ _ | with_reducible refine keeps_updateFaultN ?_ | with_reducible refine keeps_chipReset ?_
    | fail_if_no_progress (with_reducible refine keeps_mk ?_ rfl rfl rfl rfl rfl rfl rfl) | split | dsimp only

theorem keeps_faultTop {s t : State} (h : Keeps s t) : ∀ a1 a2, Keeps s (@State.faultTop t a1 a2) := by
  intro a1 a2
  unfold State.faultTop
  repeat' first
    | with_reducible assumption | with_reducible refine keeps_ite ?_ (fun _ => ?_) | with_reducible refine keeps_faultReset ?_ _
    | with_reducible refine keeps_onEsc ?_ _ | fail_if_no_progress (with_reducible refine keeps_mk ?_ rfl rfl rfl rfl rfl rfl rfl) | split
    | dsimp only

theorem keeps_fenceL0 {s t : State} (h : Keeps s t) : ∀ a1, Keeps s (@State.fenceL0 t a1) := by
  intro a1
  unfold State.fenceL0
  repeat' first
    | with_reducible assumption | with_reducible refine keeps_ite ?_ (fun _ => ?_)
    | fail_if_no_progress (with_reducible refine keeps_mk ?_ rfl rfl rfl rfl rfl rfl rfl) | split | dsimp only

theorem keeps_logFault {s t : State} (h : Keeps s t) : ∀ a1, Keeps s (@State.logFault t a1) := by
  intro a1
  unfold State.logFault
  repeat' first
    | with_reducible assumption | with_reducible refine keeps_onEsc ?_ _

theorem keeps_ownfFree {s t : State} (h : Keeps s t) : ∀ a1, Keeps s (@State.ownfFree t a1) := by
  intro a1
  unfold State.ownfFree
  repeat' first
    | with_reducible assumption | with_reducible refine keeps_ite ?_ (fun _ => ?_) | with_reducible refine keeps_onEsc ?_ _
    | with_reducible refine keeps_acked ?_ _ _ | split | dsimp only

theorem keeps_raiseFault {s t : State} (h : Keeps s t) : ∀ a1 a2 a3 a4 a5 a6, Keeps s (@State.raiseFault t a1 a2 a3 a4 a5 a6) := by
  intro a1 a2 a3 a4 a5 a6
  unfold State.raiseFault
  repeat' first
    | with_reducible assumption | with_reducible refine keeps_ite ?_ (fun _ => ?_) | with_reducible refine keeps_faultNotice ?_ _
    | with_reducible refine keeps_faultTop ?_ _ _ | with_reducible refine keeps_faultActions ?_ _ _ | with_reducible refine keeps_fenceL0 ?_ _
    | with_reducible refine keeps_faultFences ?_ _ _ | with_reducible refine keeps_raiseEvent ?_ _ _ _ _
    | with_reducible refine keeps_countS ?_ _ _ _ _ | with_reducible refine keeps_note ?_ _ _ _ _ _ _ _ | with_reducible refine keeps_logFault ?_ _
    | with_reducible refine keeps_onEsc ?_ _ | fail_if_no_progress (with_reducible refine keeps_mk ?_ rfl rfl rfl rfl rfl rfl rfl) | split
    | dsimp only

theorem keeps_takeOwnReport {s t : State} (h : Keeps s t) : ∀ a1, Keeps s (@State.takeOwnReport t a1) := by
  intro a1
  unfold State.takeOwnReport
  repeat' first
    | with_reducible assumption | with_reducible refine keeps_ite ?_ (fun _ => ?_) | with_reducible refine keeps_raiseFault ?_ _ _ _ _ _ _
    | with_reducible refine keeps_onEsc ?_ _ | with_reducible refine keeps_countReport ?_ _ | with_reducible refine keeps_crossed ?_ _ _ | split
    | dsimp only

theorem keeps_takeReport {s t : State} (h : Keeps s t) : ∀ a1, Keeps s (@State.takeReport t a1) := by
  intro a1
  unfold State.takeReport
  repeat' first
    | with_reducible assumption | with_reducible refine keeps_ite ?_ (fun _ => ?_) | with_reducible refine keeps_raiseFault ?_ _ _ _ _ _ _
    | with_reducible refine keeps_onEsc ?_ _ | with_reducible refine keeps_countReport ?_ _ | with_reducible refine keeps_crossed ?_ _ _ | split
    | dsimp only

theorem keeps_execBadParityBeat {s t : State} (h : Keeps s t) : ∀ a1, KeepsN s (@execBadParityBeat a1 t) := by
  intro a1
  unfold execBadParityBeat
  repeat' first
    | with_reducible assumption | with_reducible refine keepsN_next ?_ | with_reducible refine keeps_badParity ?_ _

theorem keeps_execClockMonitorWindow {s t : State} (h : Keeps s t) : ∀ a1 a2, KeepsN s (@execClockMonitorWindow a1 a2 t) := by
  intro a1 a2
  unfold execClockMonitorWindow
  repeat' first
    | with_reducible assumption | with_reducible refine keepsN_next ?_ | with_reducible refine keeps_clockWindow ?_ _ _

theorem keeps_execFaultAck {s t : State} (h : Keeps s t) : ∀ a1, KeepsN s (@execFaultAck a1 t) := by
  intro a1
  unfold execFaultAck
  repeat' first
    | with_reducible assumption | with_reducible refine keepsN_next ?_ | with_reducible refine keeps_atStep ?_ _
    | with_reducible refine keeps_faultAck ?_ _

theorem keeps_execFaultReport {s t : State} (h : Keeps s t) : ∀ a1 a2, KeepsN s (@execFaultReport a1 a2 t) := by
  intro a1 a2
  unfold execFaultReport
  repeat' first
    | with_reducible assumption | with_reducible refine keepsN_next ?_ | with_reducible refine keeps_advance ?_ _
    | with_reducible refine keeps_atStep ?_ _ | with_reducible refine keeps_takeReport ?_ _

theorem keeps_execOwnershipReport {s t : State} (h : Keeps s t) : ∀ a1 a2, KeepsN s (@execOwnershipReport a1 a2 t) := by
  intro a1 a2
  unfold execOwnershipReport
  repeat' first
    | with_reducible assumption | with_reducible refine keepsN_next ?_ | with_reducible refine keeps_advance ?_ _
    | with_reducible refine keeps_atStep ?_ _ | with_reducible refine keeps_takeOwnReport ?_ _

theorem keeps_execOwnfRecordFree {s t : State} (h : Keeps s t) : ∀ a1, KeepsN s (@execOwnfRecordFree a1 t) := by
  intro a1
  unfold execOwnfRecordFree
  repeat' first
    | with_reducible assumption | with_reducible refine keepsN_next ?_ | with_reducible refine keeps_atStep ?_ _
    | with_reducible refine keeps_ownfFree ?_ _

theorem keeps_captureExpiry {s t : State} (h : Keeps s t) : Keeps s (@State.captureExpiry t) := by
  unfold State.captureExpiry
  repeat' first
    | with_reducible assumption | with_reducible refine keeps_faultReset ?_ _ | split | dsimp only

theorem keeps_captureSealed {s t : State} (h : Keeps s t) : Keeps s (@State.captureSealed t) := by
  unfold State.captureSealed
  repeat' first
    | with_reducible assumption | with_reducible refine keeps_faultReset ?_ _ | split | dsimp only

theorem keeps_captureWrite {s t : State} (h : Keeps s t) : Keeps s (@State.captureWrite t) := by
  unfold State.captureWrite
  repeat' first
    | with_reducible assumption | with_reducible refine keeps_ite ?_ (fun _ => ?_) | with_reducible refine keeps_dmaWrite ?_ _ _ _
    | fail_if_no_progress (with_reducible refine keeps_mk ?_ rfl rfl rfl rfl rfl rfl rfl) | split | dsimp only

theorem keeps_hangReport {s t : State} (h : Keeps s t) : ∀ a1 a2 a3, Keeps s (@State.hangReport t a1 a2 a3) := by
  intro a1 a2 a3
  unfold State.hangReport
  repeat' first
    | with_reducible assumption | with_reducible refine keeps_ite ?_ (fun _ => ?_) | with_reducible refine keeps_report ?_ _ _ _ _
    | with_reducible refine keeps_onEsc ?_ _ | split | dsimp only

theorem keeps_domeAbandon {s t : State} (h : Keeps s t) : ∀ a1, Keeps s (@State.domeAbandon t a1) := by
  intro a1
  unfold State.domeAbandon
  repeat' first
    | with_reducible assumption | with_reducible refine keeps_onDom ?_ _ | with_reducible refine keeps_deriveLost ?_ _
    | with_reducible refine keeps_completeWhere ?_ _ _ _ _

theorem keeps_commandHang {s t : State} (h : Keeps s t) : ∀ a1, Keeps s (@State.commandHang t a1) := by
  intro a1
  unfold State.commandHang
  repeat' first
    | with_reducible assumption | with_reducible refine keeps_ite ?_ (fun _ => ?_) | with_reducible refine keeps_domeAbandon ?_ _
    | with_reducible refine keeps_settle ?_ | with_reducible refine keeps_retireWaiting ?_ | with_reducible refine keeps_retireRoots ?_
    | with_reducible refine keeps_completeWhere ?_ _ _ _ _ | with_reducible refine keeps_hangReport ?_ _ _ _
    | fail_if_no_progress (with_reducible refine keeps_mk ?_ rfl rfl rfl rfl rfl rfl rfl) | split | dsimp only

theorem keeps_drainFail {s t : State} (h : Keeps s t) : ∀ a1 a2, KeepsO s (@State.drainFail t a1 a2) := by
  intro a1 a2
  unfold State.drainFail
  repeat' first
    | with_reducible assumption | with_reducible refine keeps_ite ?_ (fun _ => ?_) | with_reducible refine keeps_foldl (fun _ _ _ => ?_) _ ?_
    | with_reducible refine keepsO_some ?_ | with_reducible exact keepsO_none | with_reducible refine keeps_drainIfIdle ?_ _ _
    | with_reducible refine keeps_refuseReq ?_ _ _ _ _ | with_reducible refine keeps_memFail ?_ _ _
    | fail_if_no_progress (with_reducible refine keeps_mk ?_ rfl rfl rfl rfl rfl rfl rfl) | split | dsimp only

theorem keeps_fetchFail {s t : State} (h : Keeps s t) : ∀ a1 a2, KeepsO s (@State.fetchFail t a1 a2) := by
  intro a1 a2
  unfold State.fetchFail
  repeat' first
    | with_reducible assumption | with_reducible refine keeps_ite ?_ (fun _ => ?_) | with_reducible refine keeps_foldl (fun _ _ _ => ?_) _ ?_
    | with_reducible refine keepsO_some ?_ | with_reducible exact keepsO_none | with_reducible refine keeps_metaFetchEnd ?_ _ _
    | with_reducible refine keeps_finishOp ?_ _ _ _ _ | with_reducible refine keeps_onMcc ?_ _ _ | split | dsimp only

theorem keeps_opFail {s t : State} (h : Keeps s t) : ∀ a1 a2, KeepsO s (@State.opFail t a1 a2) := by
  intro a1 a2
  unfold State.opFail
  repeat' first
    | with_reducible assumption | with_reducible refine keeps_ite ?_ (fun _ => ?_) | with_reducible refine keepsO_some ?_
    | with_reducible exact keepsO_none | with_reducible refine keeps_writeUndone ?_ _ _ | with_reducible refine keeps_finishOp ?_ _ _ _ _ | split
    | dsimp only

theorem keeps_packetFail {s t : State} (h : Keeps s t) : ∀ a1 a2, KeepsO s (@State.packetFail t a1 a2) := by
  intro a1 a2
  unfold State.packetFail
  repeat' first
    | with_reducible assumption | with_reducible refine keeps_ite ?_ (fun _ => ?_) | with_reducible refine keepsO_some ?_
    | with_reducible exact keepsO_none | with_reducible refine keeps_packetDone ?_ _ _ _ _ | with_reducible refine keeps_atomicResult ?_ _ _ _ _ _
    | split | dsimp only

theorem keeps_hostFail {s t : State} (h : Keeps s t) : ∀ a1, KeepsO s (@State.hostFail t a1) := by
  intro a1
  unfold State.hostFail
  repeat' first
    | with_reducible assumption | with_reducible refine keepsO_some ?_ | with_reducible exact keepsO_none | with_reducible refine keeps_onHcc ?_ _
    | with_reducible refine keeps_done ?_ _ _ _ _ | split | dsimp only

theorem keeps_siteFail {s t : State} (h : Keeps s t) : ∀ a1 a2, KeepsO s (@State.siteFail t a1 a2) := by
  intro a1 a2
  unfold State.siteFail
  repeat' first
    | with_reducible assumption | with_reducible refine keeps_ite ?_ (fun _ => ?_) | with_reducible refine keeps_emit ?_ _
    | with_reducible refine keepsO_some ?_ | with_reducible exact keepsO_none
    | fail_if_no_progress (with_reducible refine keeps_mk ?_ rfl rfl rfl rfl rfl rfl rfl) | split | dsimp only

theorem keeps_waitFail {s t : State} (h : Keeps s t) : ∀ a1 a2, KeepsO s (@State.waitFail t a1 a2) := by
  intro a1 a2
  unfold State.waitFail
  repeat' first
    | with_reducible assumption | with_reducible refine keeps_ite ?_ (fun _ => ?_) | with_reducible refine keepsO_some ?_
    | with_reducible exact keepsO_none | exact keeps_drainFail (by assumption) _ _ _ (by assumption) | with_reducible refine keeps_drainFail ?_ _ _
    | with_reducible refine keeps_drainFail ?_ _ _ _ (by assumption) | exact keeps_fetchFail (by assumption) _ _ _ (by assumption)
    | with_reducible refine keeps_fetchFail ?_ _ _ | with_reducible refine keeps_fetchFail ?_ _ _ _ (by assumption)
    | exact keeps_siteFail (by assumption) _ _ _ (by assumption) | with_reducible refine keeps_siteFail ?_ _ _
    | with_reducible refine keeps_siteFail ?_ _ _ _ (by assumption) | exact keeps_hostFail (by assumption) _ _ (by assumption)
    | with_reducible refine keeps_hostFail ?_ _ | with_reducible refine keeps_hostFail ?_ _ _ (by assumption)
    | exact keeps_packetFail (by assumption) _ _ _ (by assumption) | with_reducible refine keeps_packetFail ?_ _ _
    | with_reducible refine keeps_packetFail ?_ _ _ _ (by assumption) | exact keeps_opFail (by assumption) _ _ _ (by assumption)
    | with_reducible refine keeps_opFail ?_ _ _ | with_reducible refine keeps_opFail ?_ _ _ _ (by assumption) | split | dsimp only

theorem keeps_waitOver {s t : State} (h : Keeps s t) : ∀ a1, Keeps s (@State.waitOver t a1) := by
  intro a1
  unfold State.waitOver
  repeat' first
    | with_reducible assumption | with_reducible refine keeps_ite ?_ (fun _ => ?_) | with_reducible refine keeps_clusterPump ?_ _
    | with_reducible refine keeps_afterOwnership ?_ | with_reducible refine keeps_removals ?_ | split | dsimp only

theorem keeps_fifoParity {s t : State} (h : Keeps s t) : ∀ i w, Keeps s (t.fifoParity i w) := by
  intro i w
  have k := keeps_parityCount h i
  revert k
  unfold State.fifoParity
  generalize t.parityCount i = u
  intro k
  split
  · exact h
  · dsimp only
    refine keeps_report ?_ _ _ _ _
    split
    · split
      · rename_i v e
        exact keeps_waitOver (keeps_waitFail k _ _ v e) _
      · exact k
    · exact k

theorem keeps_fillHang {s t : State} (h : Keeps s t) : ∀ a1 a2, KeepsO s (@State.fillHang t a1 a2) := by
  intro a1 a2
  unfold State.fillHang
  repeat' first
    | with_reducible assumption | with_reducible refine keeps_ite ?_ (fun _ => ?_) | with_reducible refine keeps_foldl (fun _ _ _ => ?_) _ ?_
    | with_reducible refine keepsO_some ?_ | with_reducible exact keepsO_none | with_reducible refine keeps_finishOp ?_ _ _ _ _
    | with_reducible refine keeps_waitersEnd ?_ _ _ _ (fun _ _ _ => ?_) | with_reducible refine keeps_hccFail ?_ _
    | with_reducible refine keeps_onCluster ?_ _ _ | with_reducible refine keeps_refuseSend ?_ _ _ | with_reducible refine keeps_onEntry ?_ _ _ _
    | with_reducible refine keeps_dropPacket ?_ _ _ _ | split | dsimp only

theorem keeps_memoryHang {s t : State} (h : Keeps s t) : ∀ a1 a2, Keeps s (@State.memoryHang t a1 a2) := by
  intro a1 a2
  unfold State.memoryHang
  repeat' first
    | with_reducible assumption | with_reducible refine keeps_waitOver ?_ _ | with_reducible refine keeps_hangReport ?_ _ _ _
    | exact keeps_waitFail (by assumption) _ _ _ (by assumption) | with_reducible refine keeps_waitFail ?_ _ _
    | with_reducible refine keeps_waitFail ?_ _ _ _ (by assumption) | split | dsimp only

theorem keeps_noticeIssue {s t : State} (h : Keeps s t) : Keeps s (@State.noticeIssue t) := by
  unfold State.noticeIssue
  repeat' first
    | with_reducible assumption | with_reducible refine keeps_ite ?_ (fun _ => ?_) | with_reducible refine keeps_noticeWords ?_ _ _
    | with_reducible refine keeps_dmaWrite ?_ _ _ _ | fail_if_no_progress (with_reducible refine keeps_mk ?_ rfl rfl rfl rfl rfl rfl rfl) | split
    | dsimp only

theorem keeps_serviceHang {s t : State} (h : Keeps s t) : ∀ i n, Keeps s (t.serviceHang i n) := by
  intro i n
  unfold State.serviceHang
  have k : ∀ b : Bool, KeepsO s (if b then t.fillHang i n else none) := by
    intro b
    cases b
    · exact keepsO_none
    · exact keeps_fillHang h _ _
  split
  · rename_i u e
    exact keeps_hangReport (keeps_waitOver (k _ u e) _) _ _ _
  · exact keeps_ite h (fun _ => keeps_hangReport h _ _ _)

theorem keeps_execCaptureRecordWrite {s t : State} (h : Keeps s t) : ∀ a1, KeepsN s (@execCaptureRecordWrite a1 t) := by
  intro a1
  unfold execCaptureRecordWrite
  repeat' first
    | with_reducible assumption | with_reducible refine keepsN_next ?_ | with_reducible refine keeps_advance ?_ _
    | with_reducible refine keeps_captureWrite ?_

theorem keeps_execCaptureSealed {s t : State} (h : Keeps s t) : KeepsN s (@execCaptureSealed t) := by
  unfold execCaptureSealed
  repeat' first
    | with_reducible assumption | with_reducible refine keepsN_next ?_ | with_reducible refine keeps_atStep ?_ _
    | with_reducible refine keeps_captureSealed ?_

theorem keeps_execCaptureWaitExpiry {s t : State} (h : Keeps s t) : ∀ a1, KeepsN s (@execCaptureWaitExpiry a1 t) := by
  intro a1
  unfold execCaptureWaitExpiry
  repeat' first
    | with_reducible assumption | with_reducible refine keepsN_next ?_ | with_reducible refine keeps_advance ?_ _
    | with_reducible refine keeps_atStep ?_ _ | with_reducible refine keeps_captureExpiry ?_

theorem keeps_execCommandHang {s t : State} (h : Keeps s t) : ∀ a1, KeepsN s (@execCommandHang a1 t) := by
  intro a1
  unfold execCommandHang
  repeat' first
    | with_reducible assumption | with_reducible refine keepsN_next ?_ | with_reducible refine keeps_commandHang ?_ _

theorem keeps_execDomainStatusNotice {s t : State} (h : Keeps s t) : KeepsN s (@execDomainStatusNotice t) := by
  unfold execDomainStatusNotice
  repeat' first
    | with_reducible assumption | with_reducible refine keepsN_next ?_ | with_reducible refine keeps_noticeIssue ?_

theorem keeps_execFifoParityError {s t : State} (h : Keeps s t) : ∀ a1 a2, KeepsN s (@execFifoParityError a1 a2 t) := by
  intro a1 a2
  unfold execFifoParityError
  repeat' first
    | with_reducible assumption | with_reducible refine keepsN_next ?_ | with_reducible refine keeps_fifoParity ?_ _ _

theorem keeps_execIslandHang {s t : State} (h : Keeps s t) : ∀ a1, KeepsN s (@execIslandHang a1 t) := by
  intro a1
  unfold execIslandHang
  repeat' first
    | with_reducible assumption | with_reducible refine keeps_ite ?_ (fun _ => ?_) | with_reducible refine keepsN_next ?_
    | with_reducible refine keeps_hangReport ?_ _ _ _ | split | dsimp only

theorem keeps_execLateResponse {s t : State} (h : Keeps s t) : ∀ a1, KeepsN s (@execLateResponse a1 t) := by
  intro a1
  unfold execLateResponse
  repeat' first
    | with_reducible assumption | with_reducible refine keeps_ite ?_ (fun _ => ?_) | with_reducible refine keepsN_next ?_
    | with_reducible refine keeps_countFixed ?_ _ _ _ | split | dsimp only

theorem keeps_execMemoryHang {s t : State} (h : Keeps s t) : ∀ a1 a2, KeepsN s (@execMemoryHang a1 a2 t) := by
  intro a1 a2
  unfold execMemoryHang
  repeat' first
    | with_reducible assumption | with_reducible refine keepsN_next ?_ | with_reducible refine keeps_memoryHang ?_ _ _

theorem keeps_execTowerServiceHang {s t : State} (h : Keeps s t) : ∀ a1 a2, KeepsN s (@execTowerServiceHang a1 a2 t) := by
  intro a1 a2
  unfold execTowerServiceHang
  repeat' first
    | with_reducible assumption | with_reducible refine keepsN_next ?_ | with_reducible refine keeps_serviceHang ?_ _ _

theorem keeps_onGov {s t : State} (h : Keeps s t) : ∀ a1, Keeps s (@State.onGov t a1) := by
  intro a1
  unfold State.onGov
  repeat' first
    | with_reducible assumption | (with_reducible refine keeps_onSpr ?_ _ ?_) <;> [skip; exact fun _ => rfl]

theorem keeps_releaseStop {s t : State} (h : Keeps s t) : Keeps s (@State.releaseStop t) := by
  unfold State.releaseStop
  repeat' first
    | with_reducible assumption | with_reducible refine keeps_ite ?_ (fun _ => ?_) | with_reducible refine keeps_onGov ?_ _
    | with_reducible refine keeps_onTimer ?_ _ _ | split | dsimp only

theorem keeps_stageApply {s t : State} (h : Keeps s t) : ∀ a1, Keeps s (@State.stageApply t a1) := by
  intro a1
  unfold State.stageApply
  repeat' first
    | with_reducible assumption | with_reducible refine keeps_ite ?_ (fun _ => ?_) | with_reducible refine keeps_movesHalt ?_
    | fail_if_no_progress (with_reducible refine keeps_mk ?_ rfl rfl rfl rfl rfl rfl rfl) | split | dsimp only

theorem keeps_throttle {s t : State} (h : Keeps s t) : ∀ a1, Keeps s (@State.throttle t a1) := by
  intro a1
  unfold State.throttle
  repeat' first
    | with_reducible assumption | with_reducible refine keeps_ite ?_ (fun _ => ?_) | with_reducible refine keeps_foldl (fun _ _ _ => ?_) _ ?_
    | with_reducible refine keeps_raiseEvent ?_ _ _ _ _ | with_reducible refine keeps_note ?_ _ _ _ _ _ _ _
    | with_reducible refine keeps_stageApply ?_ _ | with_reducible refine keeps_releaseStop ?_ | with_reducible refine keeps_onGov ?_ _ | split
    | dsimp only

theorem keeps_insufficient {s t : State} (h : Keeps s t) : ∀ a1, Keeps s (@State.insufficient t a1) := by
  intro a1
  unfold State.insufficient
  repeat' first
    | with_reducible assumption | with_reducible refine keeps_ite ?_ (fun _ => ?_) | with_reducible refine keeps_raiseEvent ?_ _ _ _ _
    | with_reducible refine keeps_report ?_ _ _ _ _ | with_reducible refine keeps_onGov ?_ _ | split | dsimp only

theorem keeps_stageRelease {s t : State} (h : Keeps s t) : ∀ a1, Keeps s (@State.stageRelease t a1) := by
  intro a1
  unfold State.stageRelease
  repeat' first
    | with_reducible assumption | with_reducible refine keeps_ite ?_ (fun _ => ?_)
    | fail_if_no_progress (with_reducible refine keeps_mk ?_ rfl rfl rfl rfl rfl rfl rfl) | split | dsimp only

theorem keeps_releaseOne {s t : State} (h : Keeps s t) : Keeps s (@State.releaseOne t) := by
  unfold State.releaseOne
  repeat' first
    | with_reducible assumption | with_reducible refine keeps_stageRelease ?_ _ | with_reducible refine keeps_raiseEvent ?_ _ _ _ _
    | with_reducible refine keeps_onGov ?_ _ | split | dsimp only

theorem keeps_releaseNext {s t : State} (h : Keeps s t) : Keeps s (@State.releaseNext t) := by
  unfold State.releaseNext
  repeat' first
    | with_reducible assumption | with_reducible refine keeps_ite ?_ (fun _ => ?_) | with_reducible refine keeps_onTimer ?_ _ _
    | with_reducible refine keeps_onGov ?_ _ | split | dsimp only

theorem keeps_release {s t : State} (h : Keeps s t) : Keeps s (@State.release t) := by
  unfold State.release
  repeat' first
    | with_reducible assumption | with_reducible refine keeps_ite ?_ (fun _ => ?_) | with_reducible refine keeps_releaseNext ?_
    | with_reducible refine keeps_releaseOne ?_ | split | dsimp only

theorem keeps_governorTick {s t : State} (h : Keeps s t) : ∀ a1, Keeps s (@State.governorTick t a1) := by
  intro a1
  unfold State.governorTick
  repeat' first
    | with_reducible assumption | with_reducible refine keeps_ite ?_ (fun _ => ?_) | with_reducible refine keeps_release ?_
    | with_reducible refine keeps_insufficient ?_ _ | with_reducible refine keeps_throttle ?_ _ | with_reducible refine keeps_countFixed ?_ _ _ _
    | with_reducible refine keeps_onGov ?_ _ | split | dsimp only

theorem keeps_releaseExpiry {s t : State} (h : Keeps s t) : Keeps s (@State.releaseExpiry t) := by
  unfold State.releaseExpiry
  repeat' first
    | with_reducible assumption | with_reducible refine keeps_ite ?_ (fun _ => ?_) | with_reducible refine keeps_onTimer ?_ _ _
    | with_reducible refine keeps_raiseEvent ?_ _ _ _ _ | with_reducible refine keeps_releaseOne ?_ | with_reducible refine keeps_releaseNext ?_
    | split | dsimp only

theorem keeps_execGovernorTick {s t : State} (h : Keeps s t) : ∀ a1 a2, KeepsN s (@execGovernorTick a1 a2 t) := by
  intro a1 a2
  unfold execGovernorTick
  repeat' first
    | with_reducible assumption | with_reducible refine keeps_ite ?_ (fun _ => ?_) | with_reducible refine keepsN_next ?_
    | with_reducible refine keeps_governorTick ?_ _ | with_reducible refine keeps_advance ?_ _ | with_reducible refine keeps_atStep ?_ _ | split
    | dsimp only

theorem keeps_execReleaseTimerExpiry {s t : State} (h : Keeps s t) : ∀ a1, KeepsN s (@execReleaseTimerExpiry a1 t) := by
  intro a1
  unfold execReleaseTimerExpiry
  repeat' first
    | with_reducible assumption | with_reducible refine keepsN_next ?_ | with_reducible refine keeps_advance ?_ _
    | with_reducible refine keeps_atStep ?_ _ | with_reducible refine keeps_releaseExpiry ?_

theorem keeps_setDemands {s t : State} (h : Keeps s t) : ∀ a1, Keeps s (@State.setDemands t a1) := by
  intro a1
  unfold State.setDemands
  repeat' first
    | with_reducible assumption | with_reducible refine keeps_ite ?_ (fun _ => ?_) | with_reducible refine keeps_foldl (fun _ _ _ => ?_) _ ?_
    | with_reducible refine keeps_onCluster ?_ _ _ | split | dsimp only

theorem keeps_windowSwap {s t : State} (h : Keeps s t) : KeepsO s t.windowSwap := by
  intro u e
  unfold State.windowSwap at e
  cases hf : t.spr.swapQueue.findSome? (fun o => (t.swapBegin o.1 o.2.1 o.2.2).map (fun t => (o, t))) with
  | none => rw [hf] at e; simp at e
  | some x =>
    rw [hf] at e
    simp only [Option.map_some, Option.some.injEq] at e
    obtain ⟨o, _, ho⟩ := List.exists_of_findSome?_eq_some hf
    cases hs : t.swapBegin o.1 o.2.1 o.2.2 with
    | none => rw [hs] at ho; simp at ho
    | some v =>
      rw [hs] at ho
      simp only [Option.map_some, Option.some.injEq] at ho
      have k := keeps_swapBegin h _ _ _ v hs
      rw [← e, ← ho]
      exact keeps_onSpr k _ (fun _ => rfl)

theorem keeps_windowGrant {s t : State} (h : Keeps s t) : Keeps s (@State.windowGrant t) := by
  unfold State.windowGrant
  repeat' first
    | with_reducible assumption | with_reducible refine keeps_onCluster ?_ _ _
    | fail_if_no_progress (with_reducible refine keeps_mk ?_ rfl rfl rfl rfl rfl rfl rfl) | split | dsimp only

theorem keeps_rampWindow {s t : State} (h : Keeps s t) : ∀ d, Keeps s (t.rampWindow d) := by
  intro d
  have key : ∀ u : State, Keeps s u → Keeps s (match u.windowSwap with
      | some t => t
      | none =>
        if 0 < u.pwr.belfryWait then { u with pwr := { u.pwr with belfryWait := u.pwr.belfryWait - 1, stepTaken := true } }
        else if 0 < u.pwr.testWait then { u with pwr := { u.pwr with testWait := u.pwr.testWait - 1, stepTaken := true } }
        else u.windowGrant) := by
    intro u k
    split
    · rename_i v e
      exact keeps_windowSwap k v e
    · split
      · with_reducible exact keeps_mk k rfl rfl rfl rfl rfl rfl rfl
      · split
        · with_reducible exact keeps_mk k rfl rfl rfl rfl rfl rfl rfl
        · exact keeps_windowGrant k
  unfold State.rampWindow
  refine key _ (keeps_setDemands ?_ _)
  with_reducible exact keeps_mk h rfl rfl rfl rfl rfl rfl rfl

theorem keeps_execCapHoldExpiry {s t : State} (h : Keeps s t) : ∀ a1, KeepsN s (@execCapHoldExpiry a1 t) := by
  intro a1
  unfold execCapHoldExpiry
  repeat' first
    | with_reducible assumption | with_reducible refine keeps_ite ?_ (fun _ => ?_) | with_reducible refine keepsN_next ?_
    | with_reducible refine keeps_onCluster ?_ _ _ | split | dsimp only

theorem keeps_execRampWindow {s t : State} (h : Keeps s t) : ∀ a1, KeepsN s (@execRampWindow a1 t) := by
  intro a1
  unfold execRampWindow
  repeat' first
    | with_reducible assumption | with_reducible refine keeps_ite ?_ (fun _ => ?_) | with_reducible refine keepsN_next ?_
    | with_reducible refine keeps_rampWindow ?_ _ | split | dsimp only

theorem keeps_onAtt {s t : State} (h : Keeps s t) : ∀ a1, Keeps s (@State.onAtt t a1) := by
  intro a1
  unfold State.onAtt
  repeat' first
    | with_reducible assumption | fail_if_no_progress (with_reducible refine keeps_mk ?_ rfl rfl rfl rfl rfl rfl rfl) | dsimp only

theorem keeps_onSess {s t : State} (h : Keeps s t) : ∀ a1 a2, Keeps s (@State.onSess t a1 a2) := by
  intro a1 a2
  unfold State.onSess
  repeat' first
    | with_reducible assumption | with_reducible refine keeps_onAtt ?_ _

theorem keeps_spdmOut {s t : State} (h : Keeps s t) : ∀ a1 a2 a3, Keeps s (@State.spdmOut t a1 a2 a3) := by
  intro a1 a2 a3
  unfold State.spdmOut
  repeat' first
    | with_reducible assumption | with_reducible refine keeps_ite ?_ (fun _ => ?_) | with_reducible refine keeps_emit ?_ _
    | with_reducible refine keeps_complete ?_ _ _ _ _ | with_reducible refine keeps_dmaWrite ?_ _ _ _ | with_reducible refine keeps_onSess ?_ _ _
    | fail_if_no_progress (with_reducible refine keeps_mk ?_ rfl rfl rfl rfl rfl rfl rfl) | split | dsimp only

theorem keeps_onConn {s t : State} (h : Keeps s t) : ∀ a1 a2, Keeps s (@State.onConn t a1 a2) := by
  intro a1 a2
  unfold State.onConn
  repeat' first
    | with_reducible assumption | with_reducible refine keeps_onAtt ?_ _

theorem keeps_spdmReply {s t : State} (h : Keeps s t) : ∀ a1 a2 a3 a4, Keeps s (@State.spdmReply t a1 a2 a3 a4) := by
  intro a1 a2 a3 a4
  unfold State.spdmReply
  repeat' first
    | with_reducible assumption | with_reducible refine keeps_ite ?_ (fun _ => ?_) | with_reducible refine keeps_onConn ?_ _ _
    | with_reducible refine keeps_spdmOut ?_ _ _ _ | split | dsimp only

theorem keeps_spdmAnswer {s t : State} (h : Keeps s t) : ∀ a1 a2 a3, Keeps s (@State.spdmAnswer t a1 a2 a3) := by
  intro a1 a2 a3
  unfold State.spdmAnswer
  repeat' first
    | with_reducible assumption | with_reducible refine keeps_spdmReply ?_ _ _ _ _

theorem keeps_deliverKey {s t : State} (h : Keeps s t) : ∀ a1 a2, Keeps s (@State.deliverKey t a1 a2) := by
  intro a1 a2
  unfold State.deliverKey
  repeat' first
    | with_reducible assumption | with_reducible refine keeps_ite ?_ (fun _ => ?_) | with_reducible refine keeps_foldl (fun _ _ _ => ?_) _ ?_
    | with_reducible refine keeps_fillSlot ?_ _ _ _ | with_reducible refine keeps_slotObject ?_ _ _ _ | with_reducible refine keeps_retireAny ?_ _
    | with_reducible refine keeps_spdmAnswer ?_ _ _ _ | fail_if_no_progress (with_reducible refine keeps_mk ?_ rfl rfl rfl rfl rfl rfl rfl) | split
    | dsimp only

theorem keeps_spdmError {s t : State} (h : Keeps s t) : ∀ a1 a2 a3, Keeps s (@State.spdmError t a1 a2 a3) := by
  intro a1 a2 a3
  unfold State.spdmError
  repeat' first
    | with_reducible assumption | with_reducible refine keeps_spdmReply ?_ _ _ _ _

theorem keeps_spdmRefuse {s t : State} (h : Keeps s t) : ∀ a1 a2, Keeps s (@State.spdmRefuse t a1 a2) := by
  intro a1 a2
  unfold State.spdmRefuse
  repeat' first
    | with_reducible assumption | with_reducible refine keeps_spdmError ?_ _ _ _

theorem keeps_sessEnd {s t : State} (h : Keeps s t) : ∀ a1, Keeps s (@State.sessEnd t a1) := by
  intro a1
  unfold State.sessEnd
  repeat' first
    | with_reducible assumption | with_reducible refine keeps_onAtt ?_ _

theorem keeps_finish {s t : State} (h : Keeps s t) : ∀ a1 a2, Keeps s (@State.finish t a1 a2) := by
  intro a1 a2
  unfold State.finish
  repeat' first
    | with_reducible assumption | with_reducible refine keeps_ite ?_ (fun _ => ?_) | with_reducible refine keeps_sessEnd ?_ _
    | with_reducible refine keeps_onSess ?_ _ _ | with_reducible refine keeps_spdmAnswer ?_ _ _ _ | with_reducible refine keeps_spdmRefuse ?_ _ _
    | split | dsimp only

theorem keeps_signQueue {s t : State} (h : Keeps s t) : ∀ a1 a2, Keeps s (@State.signQueue t a1 a2) := by
  intro a1 a2
  unfold State.signQueue
  repeat' first
    | with_reducible assumption | with_reducible refine keeps_ite ?_ (fun _ => ?_) | with_reducible refine keeps_onAtt ?_ _
    | with_reducible refine keeps_spdmRefuse ?_ _ _ | split | dsimp only

theorem keeps_getEvidence {s t : State} (h : Keeps s t) : ∀ a1, Keeps s (@State.getEvidence t a1) := by
  intro a1
  unfold State.getEvidence
  repeat' first
    | with_reducible assumption | with_reducible refine keeps_ite ?_ (fun _ => ?_) | with_reducible refine keeps_signQueue ?_ _ _
    | with_reducible refine keeps_spdmAnswer ?_ _ _ _ | with_reducible refine keeps_spdmRefuse ?_ _ _ | split | dsimp only

theorem keeps_inSession {s t : State} (h : Keeps s t) (m : SpdmMsg) (body : State → Nat → State) (hb : ∀ u k, Keeps s u → Keeps s (body u k)) :
    Keeps s (t.inSession m body) := by
  unfold State.inSession
  split
  · split
    · exact hb _ _ h
    · exact keeps_spdmRefuse h _ _
  · exact keeps_spdmRefuse h _ _

theorem keeps_kemAugment {s t : State} (h : Keeps s t) : ∀ a1 a2, Keeps s (@State.kemAugment t a1 a2) := by
  intro a1 a2
  unfold State.kemAugment
  repeat' first
    | with_reducible assumption | with_reducible refine keeps_ite ?_ (fun _ => ?_) | with_reducible refine keeps_signQueue ?_ _ _
    | with_reducible refine keeps_draw_eq ?_ _ _ _ (by assumption) | with_reducible refine keeps_draw ?_ _
    | with_reducible refine keeps_sessEnd ?_ _ | with_reducible refine keeps_spdmRefuse ?_ _ _ | split | dsimp only

theorem keeps_signedReply {s t : State} (h : Keeps s t) : ∀ a1 a2 a3, Keeps s (@State.signedReply t a1 a2 a3) := by
  intro a1 a2 a3
  unfold State.signedReply
  repeat' first
    | with_reducible assumption | with_reducible refine keeps_signQueue ?_ _ _

theorem keeps_keyExchange {s t : State} (h : Keeps s t) : ∀ a1, Keeps s (@State.keyExchange t a1) := by
  intro a1
  unfold State.keyExchange
  repeat' first
    | with_reducible assumption | with_reducible refine keeps_ite ?_ (fun _ => ?_) | with_reducible refine keeps_onSess ?_ _ _
    | with_reducible refine keeps_signedReply ?_ _ _ _ | with_reducible refine keeps_draw_eq ?_ _ _ _ (by assumption)
    | with_reducible refine keeps_draw ?_ _ | with_reducible refine keeps_spdmRefuse ?_ _ _ | split | dsimp only

theorem keeps_relayBind {s t : State} (h : Keeps s t) : ∀ a1 a2 a3, KeepsE s (@State.relayBind t a1 a2 a3) := by
  intro a1 a2 a3
  unfold State.relayBind
  repeat' first
    | with_reducible assumption | with_reducible refine keeps_ite ?_ (fun _ => ?_) | with_reducible refine keepsE_ok ?_
    | with_reducible exact keepsE_error | with_reducible refine keepsE_pure ?_ | with_reducible refine keepsE_ite ?_ ?_
    | with_reducible refine keepsE_bind (fun _ => ?_) | with_reducible refine keeps_onConn ?_ _ _ | split | dsimp only

theorem keeps_signDeliver {s t : State} (h : Keeps s t) : ∀ a1 a2, Keeps s (@State.signDeliver t a1 a2) := by
  intro a1 a2
  unfold State.signDeliver
  repeat' first
    | with_reducible assumption | with_reducible refine keeps_ite ?_ (fun _ => ?_) | with_reducible refine keeps_spdmReply ?_ _ _ _ _
    | with_reducible refine keeps_onConn ?_ _ _ | split | dsimp only

theorem keeps_signComplete {s t : State} (h : Keeps s t) : Keeps s (@State.signComplete t) := by
  unfold State.signComplete
  repeat' first
    | with_reducible assumption | with_reducible refine keeps_ite ?_ (fun _ => ?_) | with_reducible refine keeps_onSess ?_ _ _
    | with_reducible refine keeps_signDeliver ?_ _ _ | with_reducible refine keeps_countT ?_ _ _ _ _ | with_reducible refine keeps_onAtt ?_ _
    | split | dsimp only

theorem keeps_spdm {s t : State} (h : Keeps s t) (m : SpdmMsg) (code stage : Nat) (body : State → State) (hb : ∀ u, Keeps s u → Keeps s (body u)) :
    Keeps s (t.spdm m code stage body) := by
  unfold State.spdm
  dsimp only
  split
  · exact h
  · split
    · split
      · exact keeps_spdmError h _ _ _
      · exact hb _ (keeps_onConn h _ _)
    · split
      · exact keeps_spdmError h _ _ _
      · exact hb _ (keeps_onConn h _ _)

theorem keeps_spdmMsg {s t : State} (h : Keeps s t) : ∀ a1 a2 a3, Keeps s (@State.spdmMsg t a1 a2 a3) := by
  intro a1 a2 a3
  unfold State.spdmMsg
  repeat' first
    | with_reducible assumption | with_reducible refine keeps_ite ?_ (fun _ => ?_) | with_reducible refine keeps_emit ?_ _
    | with_reducible refine keeps_hold ?_ _ | with_reducible refine keeps_dmaRead ?_ _ _ _ | with_reducible refine keeps_answer ?_ _ _ _ | split
    | dsimp only

theorem keeps_standingRegen {s t : State} (h : Keeps s t) : ∀ a1, Keeps s (@State.standingRegen t a1) := by
  intro a1
  unfold State.standingRegen
  repeat' first
    | with_reducible assumption | with_reducible refine keeps_ite ?_ (fun _ => ?_) | with_reducible refine keeps_onAtt ?_ _ | split | dsimp only

theorem keeps_vendor {s t : State} (h : Keeps s t) (m : SpdmMsg) (body : State → State) (hb : ∀ u, Keeps s u → Keeps s (body u)) :
    Keeps s (t.vendor m body) := by
  unfold State.vendor
  refine keeps_spdm h _ _ _ _ (fun u k => ?_)
  split
  · exact keeps_spdmRefuse k _ _
  · split
    · exact keeps_spdmRefuse k _ _
    · exact hb _ k

theorem keeps_execChallenge {s t : State} (h : Keeps s t) : ∀ a1, KeepsN s (@execChallenge a1 t) := by
  intro a1
  unfold execChallenge
  repeat' first
    | with_reducible assumption | with_reducible refine keeps_ite ?_ (fun _ => ?_) | with_reducible refine keepsN_next ?_
    | with_reducible refine keeps_signedReply ?_ _ _ _ | with_reducible refine keeps_draw_eq ?_ _ _ _ (by assumption)
    | with_reducible refine keeps_draw ?_ _ | with_reducible refine keeps_spdmRefuse ?_ _ _
    | with_reducible refine keeps_spdm ?_ _ _ _ _ (fun _ _ => ?_) | split | dsimp only

theorem keeps_execChunkGet {s t : State} (h : Keeps s t) : ∀ a1, KeepsN s (@execChunkGet a1 t) := by
  intro a1
  unfold execChunkGet
  repeat' first
    | with_reducible assumption | with_reducible refine keeps_ite ?_ (fun _ => ?_) | with_reducible refine keepsN_next ?_
    | with_reducible refine keeps_onConn ?_ _ _ | with_reducible refine keeps_spdmOut ?_ _ _ _ | with_reducible refine keeps_spdmRefuse ?_ _ _
    | with_reducible refine keeps_spdm ?_ _ _ _ _ (fun _ _ => ?_) | split | dsimp only

theorem keeps_execChunkSend {s t : State} (h : Keeps s t) : ∀ a1, KeepsN s (@execChunkSend a1 t) := by
  intro a1
  unfold execChunkSend
  repeat' first
    | with_reducible assumption | with_reducible refine keeps_ite ?_ (fun _ => ?_) | with_reducible refine keepsN_next ?_
    | with_reducible refine keeps_onConn ?_ _ _ | with_reducible refine keeps_spdmAnswer ?_ _ _ _
    | with_reducible refine keeps_spdm ?_ _ _ _ _ (fun _ _ => ?_) | split | dsimp only

theorem keeps_execDeliverKey {s t : State} (h : Keeps s t) : ∀ a1, KeepsN s (@execDeliverKey a1 t) := by
  intro a1
  unfold execDeliverKey
  repeat' first
    | with_reducible assumption | with_reducible refine keepsN_next ?_ | with_reducible refine keeps_deliverKey ?_ _ _
    | with_reducible refine keeps_inSession ?_ _ _ (fun _ _ _ => ?_) | with_reducible refine keeps_vendor ?_ _ _ (fun _ _ => ?_)

theorem keeps_execEndSession {s t : State} (h : Keeps s t) : ∀ a1, KeepsN s (@execEndSession a1 t) := by
  intro a1
  unfold execEndSession
  repeat' first
    | with_reducible assumption | with_reducible refine keepsN_next ?_ | with_reducible refine keeps_spdmAnswer ?_ _ _ _
    | with_reducible refine keeps_sessEnd ?_ _ | with_reducible refine keeps_inSession ?_ _ _ (fun _ _ _ => ?_)
    | with_reducible refine keeps_spdm ?_ _ _ _ _ (fun _ _ => ?_)

theorem keeps_execFinish {s t : State} (h : Keeps s t) : ∀ a1, KeepsN s (@execFinish a1 t) := by
  intro a1
  unfold execFinish
  repeat' first
    | with_reducible assumption | with_reducible refine keepsN_next ?_ | with_reducible refine keeps_spdmRefuse ?_ _ _
    | with_reducible refine keeps_finish ?_ _ _ | with_reducible refine keeps_spdm ?_ _ _ _ _ (fun _ _ => ?_) | split | dsimp only

theorem keeps_execGetCapabilities {s t : State} (h : Keeps s t) : ∀ a1, KeepsN s (@execGetCapabilities a1 t) := by
  intro a1
  unfold execGetCapabilities
  repeat' first
    | with_reducible assumption | with_reducible refine keeps_ite ?_ (fun _ => ?_) | with_reducible refine keepsN_next ?_
    | with_reducible refine keeps_spdmRefuse ?_ _ _ | with_reducible refine keeps_onConn ?_ _ _ | with_reducible refine keeps_spdmAnswer ?_ _ _ _
    | with_reducible refine keeps_spdm ?_ _ _ _ _ (fun _ _ => ?_) | split | dsimp only

theorem keeps_execGetCertificate {s t : State} (h : Keeps s t) : ∀ a1, KeepsN s (@execGetCertificate a1 t) := by
  intro a1
  unfold execGetCertificate
  repeat' first
    | with_reducible assumption | with_reducible refine keeps_ite ?_ (fun _ => ?_) | with_reducible refine keepsN_next ?_
    | with_reducible refine keeps_spdmAnswer ?_ _ _ _ | with_reducible refine keeps_spdmRefuse ?_ _ _
    | with_reducible refine keeps_spdm ?_ _ _ _ _ (fun _ _ => ?_) | split | dsimp only

theorem keeps_execGetDigests {s t : State} (h : Keeps s t) : ∀ a1, KeepsN s (@execGetDigests a1 t) := by
  intro a1
  unfold execGetDigests
  repeat' first
    | with_reducible assumption | with_reducible refine keepsN_next ?_ | with_reducible refine keeps_spdmAnswer ?_ _ _ _
    | with_reducible refine keeps_spdm ?_ _ _ _ _ (fun _ _ => ?_)

theorem keeps_execGetEvidence {s t : State} (h : Keeps s t) : ∀ a1, KeepsN s (@execGetEvidence a1 t) := by
  intro a1
  unfold execGetEvidence
  repeat' first
    | with_reducible assumption | with_reducible refine keepsN_next ?_ | with_reducible refine keeps_getEvidence ?_ _
    | with_reducible refine keeps_vendor ?_ _ _ (fun _ _ => ?_)

theorem keeps_execGetMeasurements {s t : State} (h : Keeps s t) : ∀ a1, KeepsN s (@execGetMeasurements a1 t) := by
  intro a1
  unfold execGetMeasurements
  repeat' first
    | with_reducible assumption | with_reducible refine keeps_ite ?_ (fun _ => ?_) | with_reducible refine keepsN_next ?_
    | with_reducible refine keeps_spdmAnswer ?_ _ _ _ | with_reducible refine keeps_signedReply ?_ _ _ _
    | with_reducible refine keeps_draw_eq ?_ _ _ _ (by assumption) | with_reducible refine keeps_draw ?_ _
    | with_reducible refine keeps_spdmRefuse ?_ _ _ | with_reducible refine keeps_spdm ?_ _ _ _ _ (fun _ _ => ?_) | split | dsimp only

theorem keeps_execGetMldsaChain {s t : State} (h : Keeps s t) : ∀ a1, KeepsN s (@execGetMldsaChain a1 t) := by
  intro a1
  unfold execGetMldsaChain
  repeat' first
    | with_reducible assumption | with_reducible refine keeps_ite ?_ (fun _ => ?_) | with_reducible refine keepsN_next ?_
    | with_reducible refine keeps_spdmAnswer ?_ _ _ _ | with_reducible refine keeps_spdmRefuse ?_ _ _
    | with_reducible refine keeps_vendor ?_ _ _ (fun _ _ => ?_) | split | dsimp only

theorem keeps_execGetVersion {s t : State} (h : Keeps s t) : ∀ a1, KeepsN s (@execGetVersion a1 t) := by
  intro a1
  unfold execGetVersion
  repeat' first
    | with_reducible assumption | with_reducible refine keepsN_next ?_ | with_reducible refine keeps_onConn ?_ _ _
    | with_reducible refine keeps_spdmAnswer ?_ _ _ _ | with_reducible refine keeps_spdm ?_ _ _ _ _ (fun _ _ => ?_)

theorem keeps_execHeartbeat {s t : State} (h : Keeps s t) : ∀ a1, KeepsN s (@execHeartbeat a1 t) := by
  intro a1
  unfold execHeartbeat
  repeat' first
    | with_reducible assumption | with_reducible refine keepsN_next ?_ | with_reducible refine keeps_spdmAnswer ?_ _ _ _
    | with_reducible refine keeps_inSession ?_ _ _ (fun _ _ _ => ?_) | with_reducible refine keeps_spdm ?_ _ _ _ _ (fun _ _ => ?_)

theorem keeps_execHeartbeatTimeout {s t : State} (h : Keeps s t) : ∀ a1, KeepsN s (@execHeartbeatTimeout a1 t) := by
  intro a1
  unfold execHeartbeatTimeout
  repeat' first
    | with_reducible assumption | with_reducible refine keeps_ite ?_ (fun _ => ?_) | with_reducible refine keepsN_next ?_
    | with_reducible refine keeps_sessEnd ?_ _ | split | dsimp only

theorem keeps_execKemAugment {s t : State} (h : Keeps s t) : ∀ a1, KeepsN s (@execKemAugment a1 t) := by
  intro a1
  unfold execKemAugment
  repeat' first
    | with_reducible assumption | with_reducible refine keepsN_next ?_ | with_reducible refine keeps_kemAugment ?_ _ _
    | with_reducible refine keeps_inSession ?_ _ _ (fun _ _ _ => ?_) | with_reducible refine keeps_vendor ?_ _ _ (fun _ _ => ?_)

theorem keeps_execKeyExchange {s t : State} (h : Keeps s t) : ∀ a1, KeepsN s (@execKeyExchange a1 t) := by
  intro a1
  unfold execKeyExchange
  repeat' first
    | with_reducible assumption | with_reducible refine keepsN_next ?_ | with_reducible refine keeps_keyExchange ?_ _
    | with_reducible refine keeps_spdm ?_ _ _ _ _ (fun _ _ => ?_)

theorem keeps_execKeyUpdate {s t : State} (h : Keeps s t) : ∀ a1, KeepsN s (@execKeyUpdate a1 t) := by
  intro a1
  unfold execKeyUpdate
  repeat' first
    | with_reducible assumption | with_reducible refine keeps_ite ?_ (fun _ => ?_) | with_reducible refine keepsN_next ?_
    | with_reducible refine keeps_spdmRefuse ?_ _ _ | with_reducible refine keeps_spdmAnswer ?_ _ _ _ | with_reducible refine keeps_onSess ?_ _ _
    | with_reducible refine keeps_inSession ?_ _ _ (fun _ _ _ => ?_) | with_reducible refine keeps_spdm ?_ _ _ _ _ (fun _ _ => ?_) | split
    | dsimp only

theorem keeps_execNegotiateAlgorithms {s t : State} (h : Keeps s t) : ∀ a1, KeepsN s (@execNegotiateAlgorithms a1 t) := by
  intro a1
  unfold execNegotiateAlgorithms
  repeat' first
    | with_reducible assumption | with_reducible refine keeps_ite ?_ (fun _ => ?_) | with_reducible refine keepsN_next ?_
    | with_reducible refine keeps_spdmRefuse ?_ _ _ | with_reducible refine keeps_onConn ?_ _ _ | with_reducible refine keeps_spdmAnswer ?_ _ _ _
    | with_reducible refine keeps_spdm ?_ _ _ _ _ (fun _ _ => ?_) | split | dsimp only

theorem keeps_execRelayBind {s t : State} (h : Keeps s t) : ∀ a b c d, KeepsN s (execRelayBind a b c d t) := by
  intro a b c d
  unfold execRelayBind
  refine keepsN_next (keeps_command h _ _ _ _ (fun u c k => ?_))
  split
  · rename_i v e
    exact keeps_answer (keeps_relayBind k _ _ _ v e) _ _ _
  · exact keeps_answer k _ _ _

theorem keeps_execRespondIfReady {s t : State} (h : Keeps s t) : ∀ a1, KeepsN s (@execRespondIfReady a1 t) := by
  intro a1
  unfold execRespondIfReady
  repeat' first
    | with_reducible assumption | with_reducible refine keeps_ite ?_ (fun _ => ?_) | with_reducible refine keepsN_next ?_
    | with_reducible refine keeps_spdmRefuse ?_ _ _ | with_reducible refine keeps_onConn ?_ _ _ | with_reducible refine keeps_spdmOut ?_ _ _ _
    | with_reducible refine keeps_spdm ?_ _ _ _ _ (fun _ _ => ?_) | split | dsimp only

theorem keeps_execSignComplete {s t : State} (h : Keeps s t) : KeepsN s (@execSignComplete t) := by
  unfold execSignComplete
  repeat' first
    | with_reducible assumption | with_reducible refine keepsN_next ?_ | with_reducible refine keeps_signComplete ?_

theorem keeps_execSpdmMsg {s t : State} (h : Keeps s t) : ∀ a1 a2 a3, KeepsN s (@execSpdmMsg a1 a2 a3 t) := by
  intro a1 a2 a3
  unfold execSpdmMsg
  repeat' first
    | with_reducible assumption | with_reducible refine keepsN_next ?_ | with_reducible refine keeps_spdmMsg ?_ _ _ _
    | with_reducible refine keeps_command ?_ _ _ _ _ (fun _ _ _ => ?_)

theorem keeps_execSpdmUnsupportedRequest {s t : State} (h : Keeps s t) : ∀ a1, KeepsN s (@execSpdmUnsupportedRequest a1 t) := by
  intro a1
  unfold execSpdmUnsupportedRequest
  repeat' first
    | with_reducible assumption | with_reducible refine keepsN_next ?_ | with_reducible refine keeps_spdmRefuse ?_ _ _
    | with_reducible refine keeps_spdm ?_ _ _ _ _ (fun _ _ => ?_)

theorem keeps_execStandingRecordRegen {s t : State} (h : Keeps s t) : ∀ a1, KeepsN s (@execStandingRecordRegen a1 t) := by
  intro a1
  unfold execStandingRecordRegen
  repeat' first
    | with_reducible assumption | with_reducible refine keepsN_next ?_ | with_reducible refine keeps_standingRegen ?_ _

end Sys2Proof.Laws
end

