-- ==== Sys2Proof/WellFormed.lean ====
section
/-!
DEFINITION. Which commands are well formed: what a request, an arriving line, a packet or a message must have so that the
port it comes on can carry it (spec/17_ports_and_pads.md R670 to R672; spec/07_fabric_and_host_links.md R312).
-/

namespace Sys2Proof

/-- LEN is 1 to 4,096 bytes (R670). -/
def MemReq.lenOk (q : MemReq) : Bool := decide (1 ≤ q.len ∧ q.len ≤ 4096)

/-- NODE is zero outside FORM fabric (R670). -/
def MemReq.nodeOk (q : MemReq) : Bool := q.form == 3 || q.node == 0

/-- A READ: no ATOP, and an answer, since only a WRITE or a MSG may be posted (R670, R672). -/
def MemReq.wfRead (q : MemReq) : Bool := q.lenOk && q.nodeOk && q.atop == 0 && !q.posted

/-- A WRITE: a byte and its enable for each of its LEN bytes (R670, R672). -/
def MemReq.wfWrite (q : MemReq) : Bool :=
  q.lenOk && q.nodeOk && q.atop == 0 && q.data.length == q.len && q.be.length == q.len

/-- An ATOMIC: of the size of ASIZE, answered (R670, R672). A reserved ATOP or a misaligned address is no matter of form:
the cluster answers it (R769). -/
def MemReq.wfAtomic (q : MemReq) : Bool :=
  q.lenOk && q.nodeOk && !q.posted && q.len == (if q.wide then 8 else 4)

/-- A request of a site has the form of its operation (R670, R672). -/
def SiteReq.wf (r : SiteReq) : Bool :=
  match r.op with
  | .read => r.q.wfRead
  | .write => r.q.wfWrite
  | .atomic => r.q.wfAtomic
  | .msg => r.q.lenOk && r.q.posted && r.q.addr == 0

/-- A TLP's sub-stream is one of the three of PCIe IDE (R341, R342). -/
def Tlp.wf (t : Tlp) : Bool := decide (t.sub.toNat ≤ 2)

/-- A line has 64 bytes (R671). -/
def isLine (l : Bytes) : Bool := l.length == 64

/-- The lines that Newt reads of a group: at most eight, at different places, each of 64 bytes (R249). -/
def newtLinesOk (ls : List (Nat × Bytes × Bytes × MemErr)) : Bool :=
  decide (ls.length ≤ 8) && decide ((ls.map Prod.fst).Nodup) && ls.all (fun l => isLine l.2.1)

/-- A well-formed command. -/
def wellFormed : Instr → Bool
  | .domeSeal _ b => b.length == 16
  | .mccWriteRequest _ q => q.wfWrite
  | .mccReadRequest _ q => q.wfRead
  | .mccAtomicRequest _ q => q.wfAtomic
  | .mpDataArrival _ _ l _ => isLine l
  | .tagLineArrival _ _ l _ => isLine l
  | .pccReadRequest _ q => q.wfRead
  | .pccWriteRequest _ q => q.wfWrite
  | .metadataArrival _ _ l _ => isLine l
  | .newtCopy _ _ ls => newtLinesOk ls
  | .newtCommit _ _ n => decide (1 ≤ n.val)
  | .siteRequest _ r => r.wf
  | .inboundSiteRequest _ _ q => q.wfRead || q.wfWrite || q.wfAtomic
  | .fabricSend _ q => q.wfWrite || q.wfAtomic
  | .packetReceive _ p _ => decide (p.length ≤ 4136)
  | .hostInboundTlp _ t => t.wf
  | .hostOutboundRequest q => q.wfRead || q.wfWrite || q.wfAtomic
  | .ideKmKeyProg m => m.key.length == 32
  | .startInterfaceRequest _ n => n.length == 32
  | .ppDataArrival _ _ l _ => isLine l
  | .pccAtomicRequest _ q => q.wfAtomic
  | .streamLoad .. | .bootStreamLoad .. | .streamRetry .. | .commitTimeReached .. | .islandPrepare ..
  | .boundaryReached .. | .preparedReceived .. | .refusedReceived .. | .prepareWindowExpiry | .islandCommit ..
  | .islandAbort .. | .committedReceived .. | .committedTimeout .. | .archiveCopy | .islandSectionLoad ..
  | .laneKnownAnswerTest .. | .laneGroupPowerOn | .auditWindowEnd .. | .laneOutput .. | .laneVote ..
  | .laneSwapOrder .. | .lockstepComplete .. | .socketSwitch .. | .ageingReading .. | .wearPeriod ..
  | .scheduleFill .. | .scheduleFillRefused .. | .scheduleInvalidate .. | .cpeStart .. | .cpeDone | .domeDerive ..
  | .domeDeriveDone | .domeUnseal .. | .readVerdict .. | .mpWriteAccept .. | .tagFlush .. | .lineInit ..
  | .newtHoldTimeout .. | .newtGroupRetire .. | .newtMoveComplete .. | .siteCompletion .. | .rotUpdate ..
  | .inflightZero .. | .drainDoneReceived .. | .iommuDone .. | .ownershipReport .. | .ownfRecordFree ..
  | .geckoDecay .. | .geckoWindowWrite .. | .pairKeyArrival .. | .sendEpochChange .. | .receiveEpochChange ..
  | .packetRelease .. | .packetDone .. | .ackSend .. | .ackIntervalExpiry .. | .atomicResult .. | .retryTimeout ..
  | .retrySpanExpiry .. | .replyHoldExpiry .. | .replyCacheAgeTick .. | .ideKmQuery .. | .ideKmKSetGo ..
  | .ideKmKSetStop .. | .getTdispVersion .. | .getTdispCapabilities .. | .lockInterfaceRequest ..
  | .getDeviceInterfaceReport .. | .getDeviceInterfaceState .. | .stopInterfaceRequest .. | .sigOpen ..
  | .sigClose .. | .sigFree .. | .partialReady .. | .mergeComplete | .checkSubmit .. | .checkStart | .checkComplete
  | .faultReport .. | .captureSealed | .captureWaitExpiry .. | .captureRecordWrite .. | .domainStatusNotice
  | .faultAck .. | .eventDispatch .. | .eventPost .. | .fsmTimerExpiry .. | .scheduleArm .. | .scheduleSlotFire ..
  | .ppsEdge .. | .ppsMissed .. | .timeSeed .. | .curveSample .. | .governorTick .. | .releaseTimerExpiry ..
  | .islandHang .. | .towerServiceHang .. | .memoryHang .. | .commandHang .. | .lateResponse ..
  | .clockMonitorWindow .. | .fifoParityError .. | .badParityBeat .. | .railUp | .railDown | .vbatApply | .hresetFall
  | .hresetRise | .romLoaderStart .. | .recoveryWord .. | .tamperInput .. | .vbatLowTimeout | .noiseFail
  | .latchedClear .. | .slotExpiry .. | .slotInvalidationAcked .. | .blobUnwrap .. | .slotRetire .. | .lcChallenge ..
  | .lcTransition .. | .debugOpen .. | .lcStatus .. | .getVersion .. | .getCapabilities .. | .negotiateAlgorithms ..
  | .getDigests .. | .getCertificate .. | .challenge .. | .getMeasurements .. | .keyExchange .. | .finish ..
  | .heartbeat .. | .heartbeatTimeout .. | .keyUpdate .. | .endSession .. | .respondIfReady .. | .chunkSend ..
  | .chunkGet .. | .spdmUnsupportedRequest .. | .getEvidence .. | .getMldsaChain .. | .kemAugment .. | .deliverKey ..
  | .signComplete | .standingRecordRegen .. | .sitePolicy .. | .siteAdmit .. | .admissionResponse ..
  | .admissionTimeout .. | .remeasureTimer .. | .siteLinkDown .. | .siteLinkUp .. | .siteEvict .. | .siteContext ..
  | .relayBind .. | .spdmMsg .. | .partCreate .. | .quiesce .. | .quiescenceReached .. | .resume .. | .freeze ..
  | .remove .. | .processExit .. | .retain .. | .release .. | .regionCreate .. | .regionDestroy .. | .regionClear ..
  | .regionAttr .. | .fenceCreate .. | .fenceWriteError .. | .streamOpen .. | .streamClose .. | .streamFence ..
  | .streamRekey .. | .partExport .. | .partImport .. | .migrateSend .. | .unknownCommand .. | .commandCollision ..
  | .mbxTxWrite .. | .mbxTake .. | .mbxRxWrite .. | .mbxTowerTake .. | .noticeWrite | .towerSleep | .towerWake
  | .lockstepMismatch | .fieldTestStart .. | .fieldTestBeat .. | .fieldTestEnd .. | .fieldTestAbort
  | .counterFlush .. | .freezeTrigger | .periodicFreeze .. | .freezeComplete .. | .thaw | .snapshotDone ..
  | .traceRecord .. | .traceTrigger | .traceRelease | .traceDrain | .traceDrainDone .. | .trigIoEdge
  | .trigIoPulseEnd | .wakePulseEnd | .rampWindow .. | .capHoldExpiry .. | .loRegisterRead .. | .entryLowWordRead ..
  | .registerWrite .. | .fuseProgramDone | .islandPllLock .. | .vbatLowChange .. | .noiseHealthRestored
  | .ppWriteAccept .. => true

/-- The request on a network link that a command brings, if any (R670). -/
def Instr.request : Instr → Option MemReq
  | .mccWriteRequest _ q => some q
  | .mccReadRequest _ q => some q
  | .mccAtomicRequest _ q => some q
  | .pccReadRequest _ q => some q
  | .pccWriteRequest _ q => some q
  | .siteRequest _ r => some r.q
  | .inboundSiteRequest _ _ q => some q
  | .fabricSend _ q => some q
  | .hostOutboundRequest q => some q
  | .pccAtomicRequest _ q => some q
  | .streamLoad .. | .bootStreamLoad .. | .streamRetry .. | .commitTimeReached .. | .islandPrepare ..
  | .boundaryReached .. | .preparedReceived .. | .refusedReceived .. | .prepareWindowExpiry | .islandCommit ..
  | .islandAbort .. | .committedReceived .. | .committedTimeout .. | .archiveCopy | .islandSectionLoad ..
  | .laneKnownAnswerTest .. | .laneGroupPowerOn | .auditWindowEnd .. | .laneOutput .. | .laneVote ..
  | .laneSwapOrder .. | .lockstepComplete .. | .socketSwitch .. | .ageingReading .. | .wearPeriod ..
  | .scheduleFill .. | .scheduleFillRefused .. | .scheduleInvalidate .. | .cpeStart .. | .cpeDone | .domeDerive ..
  | .domeDeriveDone | .domeSeal .. | .domeUnseal .. | .mpDataArrival .. | .tagLineArrival .. | .readVerdict ..
  | .mpWriteAccept .. | .tagFlush .. | .lineInit .. | .metadataArrival .. | .newtCopy .. | .newtCommit ..
  | .newtHoldTimeout .. | .newtGroupRetire .. | .newtMoveComplete .. | .siteCompletion .. | .rotUpdate ..
  | .inflightZero .. | .drainDoneReceived .. | .iommuDone .. | .ownershipReport .. | .ownfRecordFree ..
  | .geckoDecay .. | .geckoWindowWrite .. | .pairKeyArrival .. | .sendEpochChange .. | .packetReceive ..
  | .receiveEpochChange .. | .packetRelease .. | .packetDone .. | .ackSend .. | .ackIntervalExpiry ..
  | .atomicResult .. | .retryTimeout .. | .retrySpanExpiry .. | .replyHoldExpiry .. | .replyCacheAgeTick ..
  | .hostInboundTlp .. | .ideKmQuery .. | .ideKmKeyProg .. | .ideKmKSetGo .. | .ideKmKSetStop ..
  | .getTdispVersion .. | .getTdispCapabilities .. | .lockInterfaceRequest .. | .getDeviceInterfaceReport ..
  | .getDeviceInterfaceState .. | .startInterfaceRequest .. | .stopInterfaceRequest .. | .sigOpen .. | .sigClose ..
  | .sigFree .. | .partialReady .. | .mergeComplete | .checkSubmit .. | .checkStart | .checkComplete
  | .faultReport .. | .captureSealed | .captureWaitExpiry .. | .captureRecordWrite .. | .domainStatusNotice
  | .faultAck .. | .eventDispatch .. | .eventPost .. | .fsmTimerExpiry .. | .scheduleArm .. | .scheduleSlotFire ..
  | .ppsEdge .. | .ppsMissed .. | .timeSeed .. | .curveSample .. | .governorTick .. | .releaseTimerExpiry ..
  | .islandHang .. | .towerServiceHang .. | .memoryHang .. | .commandHang .. | .lateResponse ..
  | .clockMonitorWindow .. | .fifoParityError .. | .badParityBeat .. | .railUp | .railDown | .vbatApply | .hresetFall
  | .hresetRise | .romLoaderStart .. | .recoveryWord .. | .tamperInput .. | .vbatLowTimeout | .noiseFail
  | .latchedClear .. | .slotExpiry .. | .slotInvalidationAcked .. | .blobUnwrap .. | .slotRetire .. | .lcChallenge ..
  | .lcTransition .. | .debugOpen .. | .lcStatus .. | .getVersion .. | .getCapabilities .. | .negotiateAlgorithms ..
  | .getDigests .. | .getCertificate .. | .challenge .. | .getMeasurements .. | .keyExchange .. | .finish ..
  | .heartbeat .. | .heartbeatTimeout .. | .keyUpdate .. | .endSession .. | .respondIfReady .. | .chunkSend ..
  | .chunkGet .. | .spdmUnsupportedRequest .. | .getEvidence .. | .getMldsaChain .. | .kemAugment .. | .deliverKey ..
  | .signComplete | .standingRecordRegen .. | .sitePolicy .. | .siteAdmit .. | .admissionResponse ..
  | .admissionTimeout .. | .remeasureTimer .. | .siteLinkDown .. | .siteLinkUp .. | .siteEvict .. | .siteContext ..
  | .relayBind .. | .spdmMsg .. | .partCreate .. | .quiesce .. | .quiescenceReached .. | .resume .. | .freeze ..
  | .remove .. | .processExit .. | .retain .. | .release .. | .regionCreate .. | .regionDestroy .. | .regionClear ..
  | .regionAttr .. | .fenceCreate .. | .fenceWriteError .. | .streamOpen .. | .streamClose .. | .streamFence ..
  | .streamRekey .. | .partExport .. | .partImport .. | .migrateSend .. | .unknownCommand .. | .commandCollision ..
  | .mbxTxWrite .. | .mbxTake .. | .mbxRxWrite .. | .mbxTowerTake .. | .noticeWrite | .towerSleep | .towerWake
  | .lockstepMismatch | .fieldTestStart .. | .fieldTestBeat .. | .fieldTestEnd .. | .fieldTestAbort
  | .counterFlush .. | .freezeTrigger | .periodicFreeze .. | .freezeComplete .. | .thaw | .snapshotDone ..
  | .traceRecord .. | .traceTrigger | .traceRelease | .traceDrain | .traceDrainDone .. | .trigIoEdge
  | .trigIoPulseEnd | .wakePulseEnd | .rampWindow .. | .capHoldExpiry .. | .loRegisterRead .. | .entryLowWordRead ..
  | .registerWrite .. | .fuseProgramDone | .islandPllLock .. | .vbatLowChange .. | .noiseHealthRestored
  | .ppDataArrival .. | .ppWriteAccept .. => none

end Sys2Proof
end

