-- ==== Sys2Proof/Laws/PerInstr.lean ====
section
/-!
SUPPORT. The family Lines, said of every command: a well-formed request is of 1 to 4,096 bytes, so it falls into 1 to 65 lines.
-/

namespace Sys2Proof.Laws

open Sys2Proof.Machine

/-- The number of lines that a request of `len` bytes touches, 1 to 65 for a LEN of 1 to 4,096 (R670, R672). -/
theorem linesOf_length_bounds {q : MemReq} (h : q.lenOk = true) :
    1 ≤ (linesOf q.addr.toNat q.len).length ∧ (linesOf q.addr.toNat q.len).length ≤ 65 := by
  unfold MemReq.lenOk at h
  have h' := of_decide_eq_true h
  unfold linesOf
  rw [List.length_map, List.length_range]
  have := Nat.mod_lt q.addr.toNat (show 0 < 64 by decide)
  omega

/-- A well-formed command's request, if it brings one, touches 1 to 65 lines. -/
def Lines.Statement (i : Instr) : Prop :=
  wellFormed i = true → ∀ q, i.request = some q → 1 ≤ (linesOf q.addr.toNat q.len).length ∧ (linesOf q.addr.toNat q.len).length ≤ 65

theorem wfRead_lenOk {q : MemReq} (h : q.wfRead = true) : q.lenOk = true := by
  unfold MemReq.wfRead at h; simp only [Bool.and_eq_true] at h; exact h.1.1.1

theorem wfWrite_lenOk {q : MemReq} (h : q.wfWrite = true) : q.lenOk = true := by
  unfold MemReq.wfWrite at h; simp only [Bool.and_eq_true] at h; exact h.1.1.1.1

theorem wfAtomic_lenOk {q : MemReq} (h : q.wfAtomic = true) : q.lenOk = true := by
  unfold MemReq.wfAtomic at h; simp only [Bool.and_eq_true] at h; exact h.1.1.1

theorem wfAny_lenOk {q : MemReq} (h : (q.wfRead || q.wfWrite || q.wfAtomic) = true) : q.lenOk = true := by
  simp only [Bool.or_eq_true] at h
  rcases h with (h | h) | h
  · exact wfRead_lenOk h
  · exact wfWrite_lenOk h
  · exact wfAtomic_lenOk h

theorem siteWf_lenOk {r : SiteReq} (h : r.wf = true) : r.q.lenOk = true := by
  unfold SiteReq.wf at h
  split at h
  · exact wfRead_lenOk h
  · exact wfWrite_lenOk h
  · exact wfAtomic_lenOk h
  · simp only [Bool.and_eq_true] at h; exact h.1.1

theorem Lines.streamLoad (hdr : Hdr) (addr : BitVec 64) (len : Word32) (buf : Buf) (dt : Nat)
    : Lines.Statement (.streamLoad hdr addr len buf dt) := fun _ _ e => nomatch e
theorem Lines.bootStreamLoad (stream : Buf) (dt : Nat) : Lines.Statement (.bootStreamLoad stream dt) := fun _ _ e => nomatch e
theorem Lines.streamRetry (hdr : Hdr) : Lines.Statement (.streamRetry hdr) := fun _ _ e => nomatch e
theorem Lines.commitTimeReached (dt : Nat) : Lines.Statement (.commitTimeReached dt) := fun _ _ e => nomatch e
theorem Lines.islandPrepare (i : Fin 46) : Lines.Statement (.islandPrepare i) := fun _ _ e => nomatch e
theorem Lines.boundaryReached (i : Fin 46) : Lines.Statement (.boundaryReached i) := fun _ _ e => nomatch e
theorem Lines.preparedReceived (i : Fin 46) : Lines.Statement (.preparedReceived i) := fun _ _ e => nomatch e
theorem Lines.refusedReceived (i : Fin 46) : Lines.Statement (.refusedReceived i) := fun _ _ e => nomatch e
theorem Lines.prepareWindowExpiry : Lines.Statement (.prepareWindowExpiry) := fun _ _ e => nomatch e
theorem Lines.islandCommit (i : Fin 46) : Lines.Statement (.islandCommit i) := fun _ _ e => nomatch e
theorem Lines.islandAbort (i : Fin 46) : Lines.Statement (.islandAbort i) := fun _ _ e => nomatch e
theorem Lines.committedReceived (i : Fin 46) : Lines.Statement (.committedReceived i) := fun _ _ e => nomatch e
theorem Lines.committedTimeout (i : Fin 46) : Lines.Statement (.committedTimeout i) := fun _ _ e => nomatch e
theorem Lines.archiveCopy : Lines.Statement (.archiveCopy) := fun _ _ e => nomatch e
theorem Lines.islandSectionLoad (i : Fin 46) (archive : Buf) : Lines.Statement (.islandSectionLoad i archive) := fun _ _ e => nomatch e
theorem Lines.laneKnownAnswerTest (c : Cl) (sock : Fin 16) (pass : Bool)
    : Lines.Statement (.laneKnownAnswerTest c sock pass) := fun _ _ e => nomatch e
theorem Lines.laneGroupPowerOn : Lines.Statement (.laneGroupPowerOn) := fun _ _ e => nomatch e
theorem Lines.auditWindowEnd (c : Cl) : Lines.Statement (.auditWindowEnd c) := fun _ _ e => nomatch e
theorem Lines.laneOutput (c : Cl) (id : Nat) (equal : Bool) : Lines.Statement (.laneOutput c id equal) := fun _ _ e => nomatch e
theorem Lines.laneVote (c : Cl) (id : Nat) (third : Third) : Lines.Statement (.laneVote c id third) := fun _ _ e => nomatch e
theorem Lines.laneSwapOrder (c : Cl) (sock : Fin 16) : Lines.Statement (.laneSwapOrder c sock) := fun _ _ e => nomatch e
theorem Lines.lockstepComplete (c : Cl) : Lines.Statement (.lockstepComplete c) := fun _ _ e => nomatch e
theorem Lines.socketSwitch (c : Cl) : Lines.Statement (.socketSwitch c) := fun _ _ e => nomatch e
theorem Lines.ageingReading (c : Cl) (sock : Fin 16) (v : BitVec 8) : Lines.Statement (.ageingReading c sock v) := fun _ _ e => nomatch e
theorem Lines.wearPeriod (dt : Nat) : Lines.Statement (.wearPeriod dt) := fun _ _ e => nomatch e
theorem Lines.scheduleFill (c : Cl) (slot : Nat) : Lines.Statement (.scheduleFill c slot) := fun _ _ e => nomatch e
theorem Lines.scheduleFillRefused (c : Cl) (slot : Nat) : Lines.Statement (.scheduleFillRefused c slot) := fun _ _ e => nomatch e
theorem Lines.scheduleInvalidate (c : Cl) (slot : Nat) : Lines.Statement (.scheduleInvalidate c slot) := fun _ _ e => nomatch e
theorem Lines.cpeStart (addr : Word32) (desc aad inp aux : Buf)
    : Lines.Statement (.cpeStart addr desc aad inp aux) := fun _ _ e => nomatch e
theorem Lines.cpeDone : Lines.Statement (.cpeDone) := fun _ _ e => nomatch e
theorem Lines.domeDerive (kind : BitVec 2) (slot : Fin 4096) : Lines.Statement (.domeDerive kind slot) := fun _ _ e => nomatch e
theorem Lines.domeDeriveDone : Lines.Statement (.domeDeriveDone) := fun _ _ e => nomatch e
theorem Lines.domeSeal (slot : Fin 4096) (sealId : Bytes) : Lines.Statement (.domeSeal slot sealId) := fun _ _ e => nomatch e
theorem Lines.domeUnseal (slot : Fin 4096) (blob : Bytes) : Lines.Statement (.domeUnseal slot blob) := fun _ _ e => nomatch e
theorem Lines.mccWriteRequest (k : Fin 8) (q : MemReq) : Lines.Statement (.mccWriteRequest k q) := fun h _ e => by
  cases e; exact linesOf_length_bounds (wfWrite_lenOk h)

theorem Lines.mccReadRequest (k : Fin 8) (q : MemReq) : Lines.Statement (.mccReadRequest k q) := fun h _ e => by
  cases e; exact linesOf_length_bounds (wfRead_lenOk h)

theorem Lines.mccAtomicRequest (k : Fin 8) (q : MemReq) : Lines.Statement (.mccAtomicRequest k q) := fun h _ e => by
  cases e; exact linesOf_length_bounds (wfAtomic_lenOk h)

theorem Lines.mpDataArrival (k : Fin 8) (id : Nat) (data : Bytes) (err : MemErr)
    : Lines.Statement (.mpDataArrival k id data err) := fun _ _ e => nomatch e
theorem Lines.tagLineArrival (k : Fin 8) (t : Nat) (data : Bytes) (err : MemErr)
    : Lines.Statement (.tagLineArrival k t data err) := fun _ _ e => nomatch e
theorem Lines.readVerdict (k : Fin 8) (id : Nat) : Lines.Statement (.readVerdict k id) := fun _ _ e => nomatch e
theorem Lines.mpWriteAccept (k : Fin 8) (id : Nat) : Lines.Statement (.mpWriteAccept k id) := fun _ _ e => nomatch e
theorem Lines.tagFlush (k : Fin 8) : Lines.Statement (.tagFlush k) := fun _ _ e => nomatch e
theorem Lines.lineInit (k : Fin 10) (e : Fin 8192) : Lines.Statement (.lineInit k e) := fun _ _ e => nomatch e
theorem Lines.pccReadRequest (p : Fin 2) (q : MemReq) : Lines.Statement (.pccReadRequest p q) := fun h _ e => by
  cases e; exact linesOf_length_bounds (wfRead_lenOk h)

theorem Lines.pccWriteRequest (p : Fin 2) (q : MemReq) : Lines.Statement (.pccWriteRequest p q) := fun h _ e => by
  cases e; exact linesOf_length_bounds (wfWrite_lenOk h)

theorem Lines.metadataArrival (p : Fin 2) (off : Nat) (data : Bytes) (err : MemErr)
    : Lines.Statement (.metadataArrival p off data err) := fun _ _ e => nomatch e
theorem Lines.newtCopy (ctx : Fin 4) (group : Nat) (lines : List (Nat × Bytes × Bytes × MemErr))
    : Lines.Statement (.newtCopy ctx group lines) := fun _ _ e => nomatch e
theorem Lines.newtCommit (ctx : Fin 4) (group : Nat) (n : Fin 9) : Lines.Statement (.newtCommit ctx group n) := fun _ _ e => nomatch e
theorem Lines.newtHoldTimeout (ctx : Fin 4) (group : Nat) : Lines.Statement (.newtHoldTimeout ctx group) := fun _ _ e => nomatch e
theorem Lines.newtGroupRetire (ctx : Fin 4) : Lines.Statement (.newtGroupRetire ctx) := fun _ _ e => nomatch e
theorem Lines.newtMoveComplete (ctx : Fin 4) : Lines.Statement (.newtMoveComplete ctx) := fun _ _ e => nomatch e
theorem Lines.siteRequest (i : Fin 12) (q : SiteReq) : Lines.Statement (.siteRequest i q) := fun h _ e => by
  cases e; exact linesOf_length_bounds (siteWf_lenOk h)

theorem Lines.inboundSiteRequest (i : Fin 12) (link : Nat) (q : MemReq) : Lines.Statement (.inboundSiteRequest i link q) := fun h _ e => by
  cases e; exact linesOf_length_bounds (wfAny_lenOk h)

theorem Lines.siteCompletion (i : Fin 12) (tid : BitVec 16) (ok : Bool) (data : Bytes)
    : Lines.Statement (.siteCompletion i tid ok data) := fun _ _ e => nomatch e
theorem Lines.rotUpdate (r : Fin 10) : Lines.Statement (.rotUpdate r) := fun _ _ e => nomatch e
theorem Lines.inflightZero (r : Fin 10) (e : Fin 8192) : Lines.Statement (.inflightZero r e) := fun _ _ e => nomatch e
theorem Lines.drainDoneReceived (r : Fin 10) (e : Fin 8192) : Lines.Statement (.drainDoneReceived r e) := fun _ _ e => nomatch e
theorem Lines.iommuDone (hdr : Hdr) (part region : Word32) : Lines.Statement (.iommuDone hdr part region) := fun _ _ e => nomatch e
theorem Lines.ownershipReport (rep : OwnRep) (dt : Nat) : Lines.Statement (.ownershipReport rep dt) := fun _ _ e => nomatch e
theorem Lines.ownfRecordFree (n : Fin 16) : Lines.Statement (.ownfRecordFree n) := fun _ _ e => nomatch e
theorem Lines.geckoDecay (k : Fin 8) : Lines.Statement (.geckoDecay k) := fun _ _ e => nomatch e
theorem Lines.geckoWindowWrite (k : Fin 8) (n : Fin 64) (v : Word32) : Lines.Statement (.geckoWindowWrite k n v) := fun _ _ e => nomatch e
theorem Lines.fabricSend (f : Fin 16) (q : MemReq) : Lines.Statement (.fabricSend f q) := fun h _ e => by
  cases e
  have k : (q.wfWrite || q.wfAtomic) = true := h
  exact linesOf_length_bounds (wfAny_lenOk (by rw [Bool.or_assoc, k, Bool.or_true]))

theorem Lines.pairKeyArrival (f : Fin 16) (e : Fin 2048) : Lines.Statement (.pairKeyArrival f e) := fun _ _ e => nomatch e
theorem Lines.sendEpochChange (f : Fin 16) (e : Fin 2048) : Lines.Statement (.sendEpochChange f e) := fun _ _ e => nomatch e
theorem Lines.packetReceive (f : Fin 16) (pkt : Bytes) (buf : BitVec 16)
    : Lines.Statement (.packetReceive f pkt buf) := fun _ _ e => nomatch e
theorem Lines.receiveEpochChange (f : Fin 16) (e : Fin 2048) : Lines.Statement (.receiveEpochChange f e) := fun _ _ e => nomatch e
theorem Lines.packetRelease (f : Fin 16) (e : Fin 2048) : Lines.Statement (.packetRelease f e) := fun _ _ e => nomatch e
theorem Lines.packetDone (f : Fin 16) (e : Fin 2048) (seq : BitVec 48) (ok : Bool)
    : Lines.Statement (.packetDone f e seq ok) := fun _ _ e => nomatch e
theorem Lines.ackSend (f : Fin 16) (e : Fin 2048) : Lines.Statement (.ackSend f e) := fun _ _ e => nomatch e
theorem Lines.ackIntervalExpiry (f : Fin 16) (e : Fin 2048) : Lines.Statement (.ackIntervalExpiry f e) := fun _ _ e => nomatch e
theorem Lines.atomicResult (f : Fin 16) (e : Fin 2048) (seq : BitVec 48) (ok : Bool) (old : BitVec 64)
    : Lines.Statement (.atomicResult f e seq ok old) := fun _ _ e => nomatch e
theorem Lines.retryTimeout (f : Fin 16) (e : Fin 2048) : Lines.Statement (.retryTimeout f e) := fun _ _ e => nomatch e
theorem Lines.retrySpanExpiry (f : Fin 16) (e : Fin 2048) : Lines.Statement (.retrySpanExpiry f e) := fun _ _ e => nomatch e
theorem Lines.replyHoldExpiry (f : Fin 16) (n : Fin 8192) : Lines.Statement (.replyHoldExpiry f n) := fun _ _ e => nomatch e
theorem Lines.replyCacheAgeTick (f : Fin 16) : Lines.Statement (.replyCacheAgeTick f) := fun _ _ e => nomatch e
theorem Lines.hostInboundTlp (ctx : Option (BitVec 8)) (tlp : Tlp) : Lines.Statement (.hostInboundTlp ctx tlp) := fun _ _ e => nomatch e
theorem Lines.hostOutboundRequest (q : MemReq) : Lines.Statement (.hostOutboundRequest q) := fun h _ e => by
  cases e; exact linesOf_length_bounds (wfAny_lenOk h)

theorem Lines.ideKmQuery (m : KmMsg) : Lines.Statement (.ideKmQuery m) := fun _ _ e => nomatch e
theorem Lines.ideKmKeyProg (m : KmMsg) : Lines.Statement (.ideKmKeyProg m) := fun _ _ e => nomatch e
theorem Lines.ideKmKSetGo (m : KmMsg) : Lines.Statement (.ideKmKSetGo m) := fun _ _ e => nomatch e
theorem Lines.ideKmKSetStop (m : KmMsg) : Lines.Statement (.ideKmKSetStop m) := fun _ _ e => nomatch e
theorem Lines.getTdispVersion (part : Fin 128) : Lines.Statement (.getTdispVersion part) := fun _ _ e => nomatch e
theorem Lines.getTdispCapabilities (part : Fin 128) : Lines.Statement (.getTdispCapabilities part) := fun _ _ e => nomatch e
theorem Lines.lockInterfaceRequest (part : Fin 128) (stream : BitVec 8)
    : Lines.Statement (.lockInterfaceRequest part stream) := fun _ _ e => nomatch e
theorem Lines.getDeviceInterfaceReport (part : Fin 128) : Lines.Statement (.getDeviceInterfaceReport part) := fun _ _ e => nomatch e
theorem Lines.getDeviceInterfaceState (part : Fin 128) : Lines.Statement (.getDeviceInterfaceState part) := fun _ _ e => nomatch e
theorem Lines.startInterfaceRequest (part : Fin 128) (nonce : Bytes)
    : Lines.Statement (.startInterfaceRequest part nonce) := fun _ _ e => nomatch e
theorem Lines.stopInterfaceRequest (part : Fin 128) : Lines.Statement (.stopInterfaceRequest part) := fun _ _ e => nomatch e
theorem Lines.sigOpen (hdr : Hdr) (addr : BitVec 64) (buf : Buf) : Lines.Statement (.sigOpen hdr addr buf) := fun _ _ e => nomatch e
theorem Lines.sigClose (hdr : Hdr) (sig : Word32) : Lines.Statement (.sigClose hdr sig) := fun _ _ e => nomatch e
theorem Lines.sigFree (hdr : Hdr) (sig : Word32) : Lines.Statement (.sigFree hdr sig) := fun _ _ e => nomatch e
theorem Lines.partialReady (k : Fin 8) (idx : Fin 64) : Lines.Statement (.partialReady k idx) := fun _ _ e => nomatch e
theorem Lines.mergeComplete : Lines.Statement (.mergeComplete) := fun _ _ e => nomatch e
theorem Lines.checkSubmit (hdr : Hdr) (addr : BitVec 64) (buf : Buf) : Lines.Statement (.checkSubmit hdr addr buf) := fun _ _ e => nomatch e
theorem Lines.checkStart : Lines.Statement (.checkStart) := fun _ _ e => nomatch e
theorem Lines.checkComplete : Lines.Statement (.checkComplete) := fun _ _ e => nomatch e
theorem Lines.faultReport (rep : FaultRep) (dt : Nat) : Lines.Statement (.faultReport rep dt) := fun _ _ e => nomatch e
theorem Lines.captureSealed : Lines.Statement (.captureSealed) := fun _ _ e => nomatch e
theorem Lines.captureWaitExpiry (dt : Nat) : Lines.Statement (.captureWaitExpiry dt) := fun _ _ e => nomatch e
theorem Lines.captureRecordWrite (dt : Nat) : Lines.Statement (.captureRecordWrite dt) := fun _ _ e => nomatch e
theorem Lines.domainStatusNotice : Lines.Statement (.domainStatusNotice) := fun _ _ e => nomatch e
theorem Lines.faultAck (c : Fin 24) : Lines.Statement (.faultAck c) := fun _ _ e => nomatch e
theorem Lines.eventDispatch (dt : Nat) : Lines.Statement (.eventDispatch dt) := fun _ _ e => nomatch e
theorem Lines.eventPost (tower : Bool) (v : Word32) : Lines.Statement (.eventPost tower v) := fun _ _ e => nomatch e
theorem Lines.fsmTimerExpiry (n : Fin 32) (dt : Nat) : Lines.Statement (.fsmTimerExpiry n dt) := fun _ _ e => nomatch e
theorem Lines.scheduleArm (n : Fin 8) (hi : Word32) : Lines.Statement (.scheduleArm n hi) := fun _ _ e => nomatch e
theorem Lines.scheduleSlotFire (n : Fin 8) (dt : Nat) : Lines.Statement (.scheduleSlotFire n dt) := fun _ _ e => nomatch e
theorem Lines.ppsEdge (dt : Nat) : Lines.Statement (.ppsEdge dt) := fun _ _ e => nomatch e
theorem Lines.ppsMissed (dt : Nat) : Lines.Statement (.ppsMissed dt) := fun _ _ e => nomatch e
theorem Lines.timeSeed (v : Word32) : Lines.Statement (.timeSeed v) := fun _ _ e => nomatch e
theorem Lines.curveSample (n : Fin 64) (dt : Nat) : Lines.Statement (.curveSample n dt) := fun _ _ e => nomatch e
theorem Lines.governorTick (dt : Nat) (act : Activity) : Lines.Statement (.governorTick dt act) := fun _ _ e => nomatch e
theorem Lines.releaseTimerExpiry (dt : Nat) : Lines.Statement (.releaseTimerExpiry dt) := fun _ _ e => nomatch e
theorem Lines.islandHang (i : Fin 46) : Lines.Statement (.islandHang i) := fun _ _ e => nomatch e
theorem Lines.towerServiceHang (i : Fin 46) (slot : Fin 4096) : Lines.Statement (.towerServiceHang i slot) := fun _ _ e => nomatch e
theorem Lines.memoryHang (i : Fin 46) (w : Waiting) : Lines.Statement (.memoryHang i w) := fun _ _ e => nomatch e
theorem Lines.commandHang (w : CmdWait) : Lines.Statement (.commandHang w) := fun _ _ e => nomatch e
theorem Lines.lateResponse (i : Fin 46) : Lines.Statement (.lateResponse i) := fun _ _ e => nomatch e
theorem Lines.clockMonitorWindow (i : Fin 46) (good : Bool) : Lines.Statement (.clockMonitorWindow i good) := fun _ _ e => nomatch e
theorem Lines.fifoParityError (i : Fin 46) (w : Option Waiting) : Lines.Statement (.fifoParityError i w) := fun _ _ e => nomatch e
theorem Lines.badParityBeat (p : Fin 39) : Lines.Statement (.badParityBeat p) := fun _ _ e => nomatch e
theorem Lines.railUp : Lines.Statement (.railUp) := fun _ _ e => nomatch e
theorem Lines.railDown : Lines.Statement (.railDown) := fun _ _ e => nomatch e
theorem Lines.vbatApply : Lines.Statement (.vbatApply) := fun _ _ e => nomatch e
theorem Lines.hresetFall : Lines.Statement (.hresetFall) := fun _ _ e => nomatch e
theorem Lines.hresetRise : Lines.Statement (.hresetRise) := fun _ _ e => nomatch e
theorem Lines.romLoaderStart (image : Buf) : Lines.Statement (.romLoaderStart image) := fun _ _ e => nomatch e
theorem Lines.recoveryWord (w : Word32) (buf : Buf) : Lines.Statement (.recoveryWord w buf) := fun _ _ e => nomatch e
theorem Lines.tamperInput (n : Fin 4) : Lines.Statement (.tamperInput n) := fun _ _ e => nomatch e
theorem Lines.vbatLowTimeout : Lines.Statement (.vbatLowTimeout) := fun _ _ e => nomatch e
theorem Lines.noiseFail : Lines.Statement (.noiseFail) := fun _ _ e => nomatch e
theorem Lines.latchedClear (v : Word32) : Lines.Statement (.latchedClear v) := fun _ _ e => nomatch e
theorem Lines.slotExpiry (slot : Fin 4096) : Lines.Statement (.slotExpiry slot) := fun _ _ e => nomatch e
theorem Lines.slotInvalidationAcked (slot : Fin 4096) : Lines.Statement (.slotInvalidationAcked slot) := fun _ _ e => nomatch e
theorem Lines.blobUnwrap (hdr : Hdr) (wrap : Word32) (addr : BitVec 64) (buf : Buf)
    : Lines.Statement (.blobUnwrap hdr wrap addr buf) := fun _ _ e => nomatch e
theorem Lines.slotRetire (hdr : Hdr) (slot : Word32) : Lines.Statement (.slotRetire hdr slot) := fun _ _ e => nomatch e
theorem Lines.lcChallenge (hdr : Hdr) : Lines.Statement (.lcChallenge hdr) := fun _ _ e => nomatch e
theorem Lines.lcTransition (hdr : Hdr) (addr : BitVec 64) (token : Buf)
    : Lines.Statement (.lcTransition hdr addr token) := fun _ _ e => nomatch e
theorem Lines.debugOpen (hdr : Hdr) (addr : BitVec 64) (token : Buf) : Lines.Statement (.debugOpen hdr addr token) := fun _ _ e => nomatch e
theorem Lines.lcStatus (hdr : Hdr) : Lines.Statement (.lcStatus hdr) := fun _ _ e => nomatch e
theorem Lines.getVersion (m : SpdmMsg) : Lines.Statement (.getVersion m) := fun _ _ e => nomatch e
theorem Lines.getCapabilities (m : SpdmMsg) : Lines.Statement (.getCapabilities m) := fun _ _ e => nomatch e
theorem Lines.negotiateAlgorithms (m : SpdmMsg) : Lines.Statement (.negotiateAlgorithms m) := fun _ _ e => nomatch e
theorem Lines.getDigests (m : SpdmMsg) : Lines.Statement (.getDigests m) := fun _ _ e => nomatch e
theorem Lines.getCertificate (m : SpdmMsg) : Lines.Statement (.getCertificate m) := fun _ _ e => nomatch e
theorem Lines.challenge (m : SpdmMsg) : Lines.Statement (.challenge m) := fun _ _ e => nomatch e
theorem Lines.getMeasurements (m : SpdmMsg) : Lines.Statement (.getMeasurements m) := fun _ _ e => nomatch e
theorem Lines.keyExchange (m : SpdmMsg) : Lines.Statement (.keyExchange m) := fun _ _ e => nomatch e
theorem Lines.finish (m : SpdmMsg) : Lines.Statement (.finish m) := fun _ _ e => nomatch e
theorem Lines.heartbeat (m : SpdmMsg) : Lines.Statement (.heartbeat m) := fun _ _ e => nomatch e
theorem Lines.heartbeatTimeout (sess : Fin 128) : Lines.Statement (.heartbeatTimeout sess) := fun _ _ e => nomatch e
theorem Lines.keyUpdate (m : SpdmMsg) : Lines.Statement (.keyUpdate m) := fun _ _ e => nomatch e
theorem Lines.endSession (m : SpdmMsg) : Lines.Statement (.endSession m) := fun _ _ e => nomatch e
theorem Lines.respondIfReady (m : SpdmMsg) : Lines.Statement (.respondIfReady m) := fun _ _ e => nomatch e
theorem Lines.chunkSend (m : SpdmMsg) : Lines.Statement (.chunkSend m) := fun _ _ e => nomatch e
theorem Lines.chunkGet (m : SpdmMsg) : Lines.Statement (.chunkGet m) := fun _ _ e => nomatch e
theorem Lines.spdmUnsupportedRequest (m : SpdmMsg) : Lines.Statement (.spdmUnsupportedRequest m) := fun _ _ e => nomatch e
theorem Lines.getEvidence (m : SpdmMsg) : Lines.Statement (.getEvidence m) := fun _ _ e => nomatch e
theorem Lines.getMldsaChain (m : SpdmMsg) : Lines.Statement (.getMldsaChain m) := fun _ _ e => nomatch e
theorem Lines.kemAugment (m : SpdmMsg) : Lines.Statement (.kemAugment m) := fun _ _ e => nomatch e
theorem Lines.deliverKey (m : SpdmMsg) : Lines.Statement (.deliverKey m) := fun _ _ e => nomatch e
theorem Lines.signComplete : Lines.Statement (.signComplete) := fun _ _ e => nomatch e
theorem Lines.standingRecordRegen (part : Fin 128) : Lines.Statement (.standingRecordRegen part) := fun _ _ e => nomatch e
theorem Lines.sitePolicy (hdr : Hdr) (site : Word32) (addr : BitVec 64) (buf : Buf)
    : Lines.Statement (.sitePolicy hdr site addr buf) := fun _ _ e => nomatch e
theorem Lines.siteAdmit (hdr : Hdr) (site : Word32) : Lines.Statement (.siteAdmit hdr site) := fun _ _ e => nomatch e
theorem Lines.admissionResponse (site : Fin 12) (msg : Bytes) : Lines.Statement (.admissionResponse site msg) := fun _ _ e => nomatch e
theorem Lines.admissionTimeout (site : Fin 12) : Lines.Statement (.admissionTimeout site) := fun _ _ e => nomatch e
theorem Lines.remeasureTimer (site : Fin 12) : Lines.Statement (.remeasureTimer site) := fun _ _ e => nomatch e
theorem Lines.siteLinkDown (site : Fin 12) : Lines.Statement (.siteLinkDown site) := fun _ _ e => nomatch e
theorem Lines.siteLinkUp (site : Fin 12) : Lines.Statement (.siteLinkUp site) := fun _ _ e => nomatch e
theorem Lines.siteEvict (hdr : Hdr) (site : Word32) : Lines.Statement (.siteEvict hdr site) := fun _ _ e => nomatch e
theorem Lines.siteContext (hdr : Hdr) (part sel entry : Word32)
    : Lines.Statement (.siteContext hdr part sel entry) := fun _ _ e => nomatch e
theorem Lines.relayBind (hdr : Hdr) (conn mbx : Word32) (addr : BitVec 64)
    : Lines.Statement (.relayBind hdr conn mbx addr) := fun _ _ e => nomatch e
theorem Lines.spdmMsg (hdr : Hdr) (len : Word32) (buf : Buf) : Lines.Statement (.spdmMsg hdr len buf) := fun _ _ e => nomatch e
theorem Lines.partCreate (hdr : Hdr) (addr : BitVec 64) (buf : Buf) : Lines.Statement (.partCreate hdr addr buf) := fun _ _ e => nomatch e
theorem Lines.quiesce (hdr : Hdr) (part fence value : Word32) : Lines.Statement (.quiesce hdr part fence value) := fun _ _ e => nomatch e
theorem Lines.quiescenceReached (part : Fin 128) : Lines.Statement (.quiescenceReached part) := fun _ _ e => nomatch e
theorem Lines.resume (hdr : Hdr) (part : Word32) : Lines.Statement (.resume hdr part) := fun _ _ e => nomatch e
theorem Lines.freeze (hdr : Hdr) (part : Word32) : Lines.Statement (.freeze hdr part) := fun _ _ e => nomatch e
theorem Lines.remove (hdr : Hdr) (part : Word32) : Lines.Statement (.remove hdr part) := fun _ _ e => nomatch e
theorem Lines.processExit (hdr : Hdr) (part tag : Word32) : Lines.Statement (.processExit hdr part tag) := fun _ _ e => nomatch e
theorem Lines.retain (hdr : Hdr) (handle : Word32) : Lines.Statement (.retain hdr handle) := fun _ _ e => nomatch e
theorem Lines.release (hdr : Hdr) (handle : Word32) : Lines.Statement (.release hdr handle) := fun _ _ e => nomatch e
theorem Lines.regionCreate (hdr : Hdr) (addr : BitVec 64) (buf : Buf)
    : Lines.Statement (.regionCreate hdr addr buf) := fun _ _ e => nomatch e
theorem Lines.regionDestroy (hdr : Hdr) (region : Word32) : Lines.Statement (.regionDestroy hdr region) := fun _ _ e => nomatch e
theorem Lines.regionClear (hdr : Hdr) (region fence value : Word32)
    : Lines.Statement (.regionClear hdr region fence value) := fun _ _ e => nomatch e
theorem Lines.regionAttr (hdr : Hdr) (region attr : Word32) : Lines.Statement (.regionAttr hdr region attr) := fun _ _ e => nomatch e
theorem Lines.fenceCreate (hdr : Hdr) (kindTdid : Word32) (loc : BitVec 64) (stream : Word32) (initial : BitVec 64)
    : Lines.Statement (.fenceCreate hdr kindTdid loc stream initial) := fun _ _ e => nomatch e
theorem Lines.fenceWriteError (fence : Fin 16384) : Lines.Statement (.fenceWriteError fence) := fun _ _ e => nomatch e
theorem Lines.streamOpen (hdr : Hdr) (sel peer root : Word32) : Lines.Statement (.streamOpen hdr sel peer root) := fun _ _ e => nomatch e
theorem Lines.streamClose (hdr : Hdr) (stream fence value : Word32)
    : Lines.Statement (.streamClose hdr stream fence value) := fun _ _ e => nomatch e
theorem Lines.streamFence (hdr : Hdr) (stream fence value : Word32)
    : Lines.Statement (.streamFence hdr stream fence value) := fun _ _ e => nomatch e
theorem Lines.streamRekey (hdr : Hdr) (stream : Word32) : Lines.Statement (.streamRekey hdr stream) := fun _ _ e => nomatch e
theorem Lines.partExport (hdr : Hdr) (wrap : Word32) (addr : BitVec 64) (len : Word32) (buf : Buf)
    : Lines.Statement (.partExport hdr wrap addr len buf) := fun _ _ e => nomatch e
theorem Lines.partImport (hdr : Hdr) (wrap : Word32) (addr place : BitVec 64) (buf placement : Buf)
    : Lines.Statement (.partImport hdr wrap addr place buf placement) := fun _ _ e => nomatch e
theorem Lines.migrateSend (hdr : Hdr) (region stream : Word32) (dest : BitVec 64) (fence value : Word32)
    : Lines.Statement (.migrateSend hdr region stream dest fence value) := fun _ _ e => nomatch e
theorem Lines.unknownCommand (mbx : Fin 160) : Lines.Statement (.unknownCommand mbx) := fun _ _ e => nomatch e
theorem Lines.commandCollision (mbx : Fin 160) : Lines.Statement (.commandCollision mbx) := fun _ _ e => nomatch e
theorem Lines.mbxTxWrite (mbx : Fin 160) (w : Word32) : Lines.Statement (.mbxTxWrite mbx w) := fun _ _ e => nomatch e
theorem Lines.mbxTake (mbx : Fin 160) (v : Word32) : Lines.Statement (.mbxTake mbx v) := fun _ _ e => nomatch e
theorem Lines.mbxRxWrite (mbx : Fin 160) : Lines.Statement (.mbxRxWrite mbx) := fun _ _ e => nomatch e
theorem Lines.mbxTowerTake (mbx : Fin 160) : Lines.Statement (.mbxTowerTake mbx) := fun _ _ e => nomatch e
theorem Lines.noticeWrite : Lines.Statement (.noticeWrite) := fun _ _ e => nomatch e
theorem Lines.towerSleep : Lines.Statement (.towerSleep) := fun _ _ e => nomatch e
theorem Lines.towerWake : Lines.Statement (.towerWake) := fun _ _ e => nomatch e
theorem Lines.lockstepMismatch : Lines.Statement (.lockstepMismatch) := fun _ _ e => nomatch e
theorem Lines.fieldTestStart (v : Word32) (header : Buf) : Lines.Statement (.fieldTestStart v header) := fun _ _ e => nomatch e
theorem Lines.fieldTestBeat (beat : Bytes) (response : Bytes) : Lines.Statement (.fieldTestBeat beat response) := fun _ _ e => nomatch e
theorem Lines.fieldTestEnd (flashOk : Bool) : Lines.Statement (.fieldTestEnd flashOk) := fun _ _ e => nomatch e
theorem Lines.fieldTestAbort : Lines.Statement (.fieldTestAbort) := fun _ _ e => nomatch e
theorem Lines.counterFlush (i : Fin 46) : Lines.Statement (.counterFlush i) := fun _ _ e => nomatch e
theorem Lines.freezeTrigger : Lines.Statement (.freezeTrigger) := fun _ _ e => nomatch e
theorem Lines.periodicFreeze (dt : Nat) : Lines.Statement (.periodicFreeze dt) := fun _ _ e => nomatch e
theorem Lines.freezeComplete (i : Fin 46) : Lines.Statement (.freezeComplete i) := fun _ _ e => nomatch e
theorem Lines.thaw : Lines.Statement (.thaw) := fun _ _ e => nomatch e
theorem Lines.snapshotDone (ok : Bool) : Lines.Statement (.snapshotDone ok) := fun _ _ e => nomatch e
theorem Lines.traceRecord (i : Fin 46) : Lines.Statement (.traceRecord i) := fun _ _ e => nomatch e
theorem Lines.traceTrigger : Lines.Statement (.traceTrigger) := fun _ _ e => nomatch e
theorem Lines.traceRelease : Lines.Statement (.traceRelease) := fun _ _ e => nomatch e
theorem Lines.traceDrain : Lines.Statement (.traceDrain) := fun _ _ e => nomatch e
theorem Lines.traceDrainDone (ok : Bool) : Lines.Statement (.traceDrainDone ok) := fun _ _ e => nomatch e
theorem Lines.trigIoEdge : Lines.Statement (.trigIoEdge) := fun _ _ e => nomatch e
theorem Lines.trigIoPulseEnd : Lines.Statement (.trigIoPulseEnd) := fun _ _ e => nomatch e
theorem Lines.wakePulseEnd : Lines.Statement (.wakePulseEnd) := fun _ _ e => nomatch e
theorem Lines.rampWindow (demands : List (Nat × Nat)) : Lines.Statement (.rampWindow demands) := fun _ _ e => nomatch e
theorem Lines.capHoldExpiry (c : Cl) : Lines.Statement (.capHoldExpiry c) := fun _ _ e => nomatch e
theorem Lines.loRegisterRead (tower : Bool) (island : Fin 64) (off : BitVec 20)
    : Lines.Statement (.loRegisterRead tower island off) := fun _ _ e => nomatch e
theorem Lines.entryLowWordRead (tower : Bool) (island : Fin 64) (off : BitVec 20)
    : Lines.Statement (.entryLowWordRead tower island off) := fun _ _ e => nomatch e
theorem Lines.registerWrite (tower : Bool) (island : Fin 64) (off : BitVec 20) (v : Word32)
    : Lines.Statement (.registerWrite tower island off v) := fun _ _ e => nomatch e
theorem Lines.fuseProgramDone : Lines.Statement (.fuseProgramDone) := fun _ _ e => nomatch e
theorem Lines.islandPllLock (i : Fin 46) : Lines.Statement (.islandPllLock i) := fun _ _ e => nomatch e
theorem Lines.vbatLowChange (low : Bool) : Lines.Statement (.vbatLowChange low) := fun _ _ e => nomatch e
theorem Lines.noiseHealthRestored : Lines.Statement (.noiseHealthRestored) := fun _ _ e => nomatch e
theorem Lines.ppDataArrival (p : Fin 2) (id : Nat) (data : Bytes) (err : MemErr)
    : Lines.Statement (.ppDataArrival p id data err) := fun _ _ e => nomatch e
theorem Lines.ppWriteAccept (p : Fin 2) (id : Nat) : Lines.Statement (.ppWriteAccept p id) := fun _ _ e => nomatch e
theorem Lines.pccAtomicRequest (p : Fin 2) (q : MemReq) : Lines.Statement (.pccAtomicRequest p q) := fun h _ e => by
  cases e; exact linesOf_length_bounds (wfAtomic_lenOk h)

end Sys2Proof.Laws
end

