-- ==== Sys2Proof/Laws/Same.lean ====
section
/-!
SUPPORT. `Same s t`: Dome and the life cycle stay as they are. What an erasure does outside Dome (R469) is of this kind; the
lemmas here build it over the shapes that operations have.
-/

namespace Sys2Proof.Laws

open Sys2Proof.Machine

/-- Dome's registers and the life cycle are unchanged. -/
structure Same (s t : State) : Prop where
  dom : t.dom = s.dom
  lc : t.lc = s.lc

variable {s t u : State}

theorem same_refl : Same s s := ⟨rfl, rfl⟩

theorem same_of (h : Same s t) (e1 : u.dom = t.dom) (e2 : u.lc = t.lc) : Same s u := ⟨e1.trans h.1, e2.trans h.2⟩

/-- A state written out, with Dome and the life cycle of `t`. -/
theorem same_mk (h : Same s t) {a0 a1 a2 a3 a4 a5 a6 a7 a8 a9 a10 a11 a12 a13 a14 a15 a16 a17 a18 a19 a20 a21 a22 a23 a24 a25 a26 a27 a28
    a29 a30 a31 a32 a33 a34 a35 a36 a37 a38 a39 a40} (e1 : a23 = t.dom) (e2 : a24 = t.lc) : Same s (State.mk a0 a1 a2 a3 a4 a5 a6 a7 a8 a9
    a10 a11 a12 a13 a14 a15 a16 a17 a18 a19 a20 a21 a22 a23 a24 a25 a26 a27 a28 a29 a30 a31 a32 a33 a34 a35 a36 a37 a38 a39 a40) := same_of
    h e1 e2

theorem same_onSpr (h : Same s t) (f : Spr → Spr) : Same s (t.onSpr f) := same_of h rfl rfl

theorem same_emit (h : Same s t) (o : PortOut) : Same s (t.emit o) := same_of h rfl rfl

theorem same_ite {c : Prop} {i : Decidable c} (h : Same s u) (k : Same s u → Same s t) : Same s (@ite State c i t u) := by
  split
  · exact k h
  · exact h

theorem same_foldl {α : Type} {f : State → α → State} (hf : ∀ t a, Same s t → Same s (f t a)) :
    ∀ (l : List α) {t : State}, Same s t → Same s (l.foldl f t)
  | [], _, h => h
  | a :: l, _, h => same_foldl hf l (hf _ a h)

end Sys2Proof.Laws
end

