-- ==== Sys2Proof/Laws/SameOps.lean ====
section
/-!
SUPPORT. Every operation that an erasure runs leaves Dome and the life cycle alone.
-/

set_option maxRecDepth 4000
set_option linter.unusedTactic false
set_option linter.unreachableTactic false

namespace Sys2Proof.Laws

open Sys2Proof.Machine

theorem same_onEntry {s t : State} (h : Same s t) : ∀ a1 a2 a3, Same s (@State.onEntry t a1 a2 a3) := by
  intro a1 a2 a3
  unfold State.onEntry
  repeat' first
    | with_reducible assumption | fail_if_no_progress (with_reducible refine same_mk ?_ rfl rfl) | dsimp only

theorem same_onCluster {s t : State} (h : Same s t) : ∀ a1 a2, Same s (@State.onCluster t a1 a2) := by
  intro a1 a2
  unfold State.onCluster
  repeat' first
    | with_reducible assumption | fail_if_no_progress (with_reducible refine same_mk ?_ rfl rfl) | dsimp only

theorem same_reapSchedules {s t : State} (h : Same s t) : ∀ a1, Same s (@State.reapSchedules t a1) := by
  intro a1
  unfold State.reapSchedules
  repeat' first
    | with_reducible assumption | with_reducible refine same_ite ?_ (fun _ => ?_) | with_reducible refine same_onCluster ?_ _ _
    | fail_if_no_progress (with_reducible refine same_mk ?_ rfl rfl) | split | dsimp only

theorem same_dropSchedule {s t : State} (h : Same s t) : ∀ a1 a2, Same s (@State.dropSchedule t a1 a2) := by
  intro a1 a2
  unfold State.dropSchedule
  repeat' first
    | with_reducible assumption | with_reducible refine same_onCluster ?_ _ _ | with_reducible refine same_reapSchedules ?_ _

theorem same_signedDrain {s t : State} (h : Same s t) : ∀ a1, Same s (@State.signedDrain t a1) := by
  intro a1
  unfold State.signedDrain
  repeat' first
    | with_reducible assumption | with_reducible refine same_ite ?_ (fun _ => ?_) | fail_if_no_progress (with_reducible refine same_mk ?_ rfl rfl)
    | split | dsimp only

theorem same_onIsl {s t : State} (h : Same s t) : ∀ a1 a2, Same s (@State.onIsl t a1 a2) := by
  intro a1 a2
  unfold State.onIsl
  repeat' first
    | with_reducible assumption | fail_if_no_progress (with_reducible refine same_mk ?_ rfl rfl) | dsimp only

theorem same_count {s t : State} (h : Same s t) : ∀ a1 a2, Same s (@State.count t a1 a2) := by
  intro a1 a2
  unfold State.count
  repeat' first
    | with_reducible assumption | with_reducible refine same_ite ?_ (fun _ => ?_) | with_reducible refine same_onIsl ?_ _ _ | split | dsimp only

theorem same_countFixed {s t : State} (h : Same s t) : ∀ a1 a2 a3, Same s (@State.countFixed t a1 a2 a3) := by
  intro a1 a2 a3
  unfold State.countFixed
  repeat' first
    | with_reducible assumption | with_reducible refine same_count ?_ _ _

theorem same_note {s t : State} (h : Same s t) : ∀ a1 a2 a3 a4 a5 a6 a7, Same s (@State.note t a1 a2 a3 a4 a5 a6 a7) := by
  intro a1 a2 a3 a4 a5 a6 a7
  unfold State.note
  repeat' first
    | with_reducible assumption | with_reducible refine same_ite ?_ (fun _ => ?_) | with_reducible refine same_countFixed ?_ _ _ _
    | with_reducible refine same_onIsl ?_ _ _ | split | dsimp only

theorem same_setMaster {s t : State} (h : Same s t) : ∀ a1 a2, Same s (@State.setMaster t a1 a2) := by
  intro a1 a2
  unfold State.setMaster
  repeat' first
    | with_reducible assumption | fail_if_no_progress (with_reducible refine same_mk ?_ rfl rfl) | dsimp only

theorem same_rotSend {s t : State} (h : Same s t) : ∀ a1 a2, Same s (@State.rotSend t a1 a2) := by
  intro a1 a2
  unfold State.rotSend
  repeat' first
    | with_reducible assumption | fail_if_no_progress (with_reducible refine same_mk ?_ rfl rfl) | dsimp only

theorem same_drainStart {s t : State} (h : Same s t) : ∀ a1 a2, Same s (@State.drainStart t a1 a2) := by
  intro a1 a2
  unfold State.drainStart
  repeat' first
    | with_reducible assumption | with_reducible refine same_rotSend ?_ _ _ | with_reducible refine same_setMaster ?_ _ _
    | fail_if_no_progress (with_reducible refine same_mk ?_ rfl rfl) | dsimp only

theorem same_drain {s t : State} (h : Same s t) : ∀ a1 a2, Same s (@State.drain t a1 a2) := by
  intro a1 a2
  unfold State.drain
  repeat' first
    | with_reducible assumption | with_reducible refine same_ite ?_ (fun _ => ?_) | with_reducible refine same_drainStart ?_ _ _
    | with_reducible refine same_note ?_ _ _ _ _ _ _ _ | with_reducible refine same_signedDrain ?_ _
    | fail_if_no_progress (with_reducible refine same_mk ?_ rfl rfl) | split | dsimp only

theorem same_destroyEntries {s t : State} (h : Same s t) : ∀ a1, Same s (@State.destroyEntries t a1) := by
  intro a1
  unfold State.destroyEntries
  repeat' first
    | with_reducible assumption | with_reducible refine same_ite ?_ (fun _ => ?_) | with_reducible refine same_foldl (fun _ _ _ => ?_) _ ?_
    | with_reducible refine same_drain ?_ _ _ | split | dsimp only

theorem same_onPrt {s t : State} (h : Same s t) : ∀ a1, Same s (@State.onPrt t a1) := by
  intro a1
  unfold State.onPrt
  repeat' first
    | with_reducible assumption | fail_if_no_progress (with_reducible refine same_mk ?_ rfl rfl) | dsimp only

theorem same_endObj {s t : State} (h : Same s t) : ∀ a1, Same s (@State.endObj t a1) := by
  intro a1
  unfold State.endObj
  repeat' first
    | with_reducible assumption | with_reducible refine same_onPrt ?_ _

theorem same_onSlot {s t : State} (h : Same s t) : ∀ a1 a2, Same s (@State.onSlot t a1 a2) := by
  intro a1 a2
  unfold State.onSlot
  repeat' first
    | with_reducible assumption | fail_if_no_progress (with_reducible refine same_mk ?_ rfl rfl) | dsimp only

theorem same_slotEmpty {s t : State} (h : Same s t) : ∀ a1, Same s (@State.slotEmpty t a1) := by
  intro a1
  unfold State.slotEmpty
  repeat' first
    | with_reducible assumption | with_reducible refine same_ite ?_ (fun _ => ?_) | with_reducible refine same_onSlot ?_ _ _ | split | dsimp only

theorem same_invalidate {s t : State} (h : Same s t) : ∀ a1 a2, Same s (@State.invalidate t a1 a2) := by
  intro a1 a2
  unfold State.invalidate
  repeat' first
    | with_reducible assumption | fail_if_no_progress (with_reducible refine same_mk ?_ rfl rfl) | dsimp only

theorem same_retireSlot {s t : State} (h : Same s t) : ∀ a1, Same s (@State.retireSlot t a1) := by
  intro a1
  unfold State.retireSlot
  repeat' first
    | with_reducible assumption | with_reducible refine same_ite ?_ (fun _ => ?_) | with_reducible refine same_note ?_ _ _ _ _ _ _ _
    | with_reducible refine same_onSlot ?_ _ _ | with_reducible refine same_invalidate ?_ _ _
    | fail_if_no_progress (with_reducible refine same_mk ?_ rfl rfl) | split | dsimp only

theorem same_freeObj {s t : State} (h : Same s t) : ∀ a1, Same s (@State.freeObj t a1) := by
  intro a1
  unfold State.freeObj
  repeat' first
    | with_reducible assumption | with_reducible refine same_ite ?_ (fun _ => ?_) | with_reducible refine same_retireSlot ?_ _
    | with_reducible refine same_slotEmpty ?_ _ | with_reducible refine same_endObj ?_ _ | with_reducible refine same_onPrt ?_ _
    | with_reducible refine same_destroyEntries ?_ _ | split | dsimp only

theorem same_reap {s t : State} (h : Same s t) : Same s (@State.reap t) := by
  unfold State.reap
  repeat' first
    | with_reducible assumption | with_reducible refine same_foldl (fun _ _ _ => ?_) _ ?_ | with_reducible refine same_freeObj ?_ _ | dsimp only

theorem same_retireRoots {s t : State} (h : Same s t) : Same s (@State.retireRoots t) := by
  unfold State.retireRoots
  repeat' first
    | with_reducible assumption | with_reducible refine same_foldl (fun _ _ _ => ?_) _ ?_ | with_reducible refine same_retireSlot ?_ _
    | fail_if_no_progress (with_reducible refine same_mk ?_ rfl rfl) | dsimp only

theorem same_onFence {s t : State} (h : Same s t) : ∀ a1 a2, Same s (@State.onFence t a1 a2) := by
  intro a1 a2
  unfold State.onFence
  repeat' first
    | with_reducible assumption | with_reducible refine same_onPrt ?_ _

theorem same_fenceLost {s t : State} (h : Same s t) : ∀ a1, Same s (@State.fenceLost t a1) := by
  intro a1
  unfold State.fenceLost
  repeat' first
    | with_reducible assumption | with_reducible refine same_onFence ?_ _ _ | with_reducible refine same_onPrt ?_ _
    | with_reducible refine same_countFixed ?_ _ _ _

theorem same_countT {s t : State} (h : Same s t) : ∀ a1 a2 a3 a4, Same s (@State.countT t a1 a2 a3 a4) := by
  intro a1 a2 a3 a4
  unfold State.countT
  repeat' first
    | with_reducible assumption | with_reducible refine same_count ?_ _ _

theorem same_fenceWrite {s t : State} (h : Same s t) : ∀ a1 a2, Same s (@State.fenceWrite t a1 a2) := by
  intro a1 a2
  unfold State.fenceWrite
  repeat' first
    | with_reducible assumption | with_reducible refine same_ite ?_ (fun _ => ?_) | with_reducible refine same_emit ?_ _ | split | dsimp only

theorem same_signal {s t : State} (h : Same s t) : ∀ a1 a2 a3, Same s (@State.signal t a1 a2 a3) := by
  intro a1 a2 a3
  unfold State.signal
  repeat' first
    | with_reducible assumption | with_reducible refine same_ite ?_ (fun _ => ?_) | with_reducible refine same_note ?_ _ _ _ _ _ _ _
    | with_reducible refine same_fenceWrite ?_ _ _ | with_reducible refine same_countT ?_ _ _ _ _ | with_reducible refine same_onFence ?_ _ _
    | with_reducible refine same_fenceLost ?_ _ | split | dsimp only

theorem same_noteCommand {s t : State} (h : Same s t) : ∀ a1 a2, Same s (@State.noteCommand t a1 a2) := by
  intro a1 a2
  unfold State.noteCommand
  repeat' first
    | with_reducible assumption | with_reducible refine same_note ?_ _ _ _ _ _ _ _

theorem same_onMbx {s t : State} (h : Same s t) : ∀ a1 a2, Same s (@State.onMbx t a1 a2) := by
  intro a1 a2
  unfold State.onMbx
  repeat' first
    | with_reducible assumption | fail_if_no_progress (with_reducible refine same_mk ?_ rfl rfl) | dsimp only

theorem same_respond {s t : State} (h : Same s t) : ∀ a1 a2 a3 a4, Same s (@State.respond t a1 a2 a3 a4) := by
  intro a1 a2 a3 a4
  unfold State.respond
  repeat' first
    | with_reducible assumption | with_reducible refine same_onMbx ?_ _ _

theorem same_complete {s t : State} (h : Same s t) : ∀ a1 a2 a3 a4, Same s (@State.complete t a1 a2 a3 a4) := by
  intro a1 a2 a3 a4
  unfold State.complete
  repeat' first
    | with_reducible assumption | with_reducible refine same_ite ?_ (fun _ => ?_) | with_reducible refine same_reap ?_
    | with_reducible refine same_respond ?_ _ _ _ _ | with_reducible refine same_noteCommand ?_ _ _ | with_reducible refine same_signal ?_ _ _ _
    | split | dsimp only

theorem same_completeWhere {s t : State} (h : Same s t) : ∀ a1 a2 a3 a4, Same s (@State.completeWhere t a1 a2 a3 a4) := by
  intro a1 a2 a3 a4
  unfold State.completeWhere
  repeat' first
    | with_reducible assumption | with_reducible refine same_foldl (fun _ _ _ => ?_) _ ?_ | with_reducible refine same_complete ?_ _ _ _ _
    | fail_if_no_progress (with_reducible refine same_mk ?_ rfl rfl) | dsimp only

theorem same_closeDone {s t : State} (h : Same s t) : ∀ a1 a2 a3, Same s (@State.closeDone t a1 a2 a3) := by
  intro a1 a2 a3
  unfold State.closeDone
  repeat' first
    | with_reducible assumption | with_reducible refine same_completeWhere ?_ _ _ _ _

theorem same_noteStream {s t : State} (h : Same s t) : ∀ a1 a2, Same s (@State.noteStream t a1 a2) := by
  intro a1 a2
  unfold State.noteStream
  repeat' first
    | with_reducible assumption | with_reducible refine same_ite ?_ (fun _ => ?_) | with_reducible refine same_note ?_ _ _ _ _ _ _ _ | split
    | dsimp only

theorem same_entryClosed {s t : State} (h : Same s t) : ∀ a1 a2 a3, Same s (@State.entryClosed t a1 a2 a3) := by
  intro a1 a2 a3
  unfold State.entryClosed
  repeat' first
    | with_reducible assumption | with_reducible refine same_foldl (fun _ _ _ => ?_) _ ?_ | with_reducible refine same_emit ?_ _
    | with_reducible refine same_noteStream ?_ _ _ | with_reducible refine same_closeDone ?_ _ _ _ | with_reducible refine same_retireRoots ?_
    | with_reducible refine same_reap ?_ | with_reducible refine same_dropSchedule ?_ _ _ | with_reducible refine same_onEntry ?_ _ _ _ | dsimp only

theorem same_onFcc {s t : State} (h : Same s t) : ∀ a1 a2, Same s (@State.onFcc t a1 a2) := by
  intro a1 a2
  unfold State.onFcc
  repeat' first
    | with_reducible assumption | fail_if_no_progress (with_reducible refine same_mk ?_ rfl rfl) | dsimp only

theorem same_askKey {s t : State} (h : Same s t) : ∀ a1 a2, Same s (@State.askKey t a1 a2) := by
  intro a1 a2
  unfold State.askKey
  repeat' first
    | with_reducible assumption | with_reducible refine same_onEntry ?_ _ _ _

theorem same_nextCandidate {s t : State} (h : Same s t) : ∀ a1, Same s (@State.nextCandidate t a1) := by
  intro a1
  unfold State.nextCandidate
  repeat' first
    | with_reducible assumption | with_reducible refine same_askKey ?_ _ _ | with_reducible refine same_onFcc ?_ _ _ | split | dsimp only

theorem same_dropReceive {s t : State} (h : Same s t) : ∀ a1 a2, Same s (@State.dropReceive t a1 a2) := by
  intro a1 a2
  unfold State.dropReceive
  repeat' first
    | with_reducible assumption | with_reducible refine same_ite ?_ (fun _ => ?_) | with_reducible refine same_foldl (fun _ _ _ => ?_) _ ?_
    | with_reducible refine same_emit ?_ _ | with_reducible refine same_nextCandidate ?_ _ | with_reducible refine same_onFcc ?_ _ _
    | with_reducible refine same_onEntry ?_ _ _ _ | split | dsimp only

theorem same_onHcc {s t : State} (h : Same s t) : ∀ a1, Same s (@State.onHcc t a1) := by
  intro a1
  unfold State.onHcc
  repeat' first
    | with_reducible assumption | fail_if_no_progress (with_reducible refine same_mk ?_ rfl rfl) | dsimp only

theorem same_onEsc {s t : State} (h : Same s t) : ∀ a1, Same s (@State.onEsc t a1) := by
  intro a1
  unfold State.onEsc
  repeat' first
    | with_reducible assumption | fail_if_no_progress (with_reducible refine same_mk ?_ rfl rfl) | dsimp only

theorem same_toSpire {s t : State} (h : Same s t) : ∀ a1 a2, Same s (@State.toSpire t a1 a2) := by
  intro a1 a2
  unfold State.toSpire
  repeat' first
    | with_reducible assumption | with_reducible refine same_onEsc ?_ _

theorem same_report {s t : State} (h : Same s t) : ∀ a1 a2 a3 a4, Same s (@State.report t a1 a2 a3 a4) := by
  intro a1 a2 a3 a4
  unfold State.report
  repeat' first
    | with_reducible assumption | with_reducible refine same_toSpire ?_ _ _

theorem same_dropRef {s t : State} (h : Same s t) : ∀ a1 a2, Same s (@State.dropRef t a1 a2) := by
  intro a1 a2
  unfold State.dropRef
  repeat' first
    | with_reducible assumption | with_reducible refine same_onPrt ?_ _

theorem same_ideDrop {s t : State} (h : Same s t) : ∀ a1, Same s (@State.ideDrop t a1) := by
  intro a1
  unfold State.ideDrop
  repeat' first
    | with_reducible assumption | with_reducible refine same_retireSlot ?_ _ | with_reducible refine same_dropRef ?_ _ _
    | with_reducible refine same_reap ?_

theorem same_refuseHost {s t : State} (h : Same s t) : ∀ a1, Same s (@State.refuseHost t a1) := by
  intro a1
  unfold State.refuseHost
  repeat' first
    | with_reducible assumption | with_reducible refine same_ite ?_ (fun _ => ?_) | with_reducible refine same_emit ?_ _ | split | dsimp only

theorem same_streamInsecure {s t : State} (h : Same s t) : ∀ a1, Same s (@State.streamInsecure t a1) := by
  intro a1
  unfold State.streamInsecure
  repeat' first
    | with_reducible assumption | with_reducible refine same_ite ?_ (fun _ => ?_) | with_reducible refine same_foldl (fun _ _ _ => ?_) _ ?_
    | with_reducible refine same_emit ?_ _ | with_reducible refine same_onHcc ?_ _ | with_reducible refine same_refuseHost ?_ _
    | with_reducible refine same_ideDrop ?_ _ | split | dsimp only

theorem same_ideFailed {s t : State} (h : Same s t) : ∀ a1, Same s (@State.ideFailed t a1) := by
  intro a1
  unfold State.ideFailed
  repeat' first
    | with_reducible assumption | with_reducible refine same_streamInsecure ?_ _ | with_reducible refine same_report ?_ _ _ _ _

theorem same_addWrites {s t : State} (h : Same s t) : ∀ a1 a2, Same s (@State.addWrites t a1 a2) := by
  intro a1 a2
  unfold State.addWrites
  repeat' first
    | with_reducible assumption | with_reducible refine same_ite ?_ (fun _ => ?_) | with_reducible refine same_invalidate ?_ _ _
    | with_reducible refine same_onSlot ?_ _ _ | fail_if_no_progress (with_reducible refine same_mk ?_ rfl rfl) | split | dsimp only

theorem same_reportWrites {s t : State} (h : Same s t) : ∀ a1 a2, Same s (@State.reportWrites t a1 a2) := by
  intro a1 a2
  unfold State.reportWrites
  repeat' first
    | with_reducible assumption | with_reducible refine same_ite ?_ (fun _ => ?_) | with_reducible refine same_onCluster ?_ _ _
    | with_reducible refine same_addWrites ?_ _ _ | split | dsimp only

theorem same_schedRoom {s t : State} (h : Same s t) : ∀ a1, Same s (@State.schedRoom t a1).1 := by
  intro a1
  unfold State.schedRoom
  repeat' first
    | with_reducible assumption | with_reducible refine same_ite ?_ (fun _ => ?_) | with_reducible refine same_reportWrites ?_ _ _
    | with_reducible refine same_onCluster ?_ _ _ | with_reducible refine same_reapSchedules ?_ _ | split | dsimp only

theorem same_schedRoom_eq {s t : State} (h : Same s t) : ∀ a1 x y, (@State.schedRoom t a1) = (x, y) → Same s x := by
  intro a1 x y e
  have k := same_schedRoom h a1
  rw [e] at k
  exact k

theorem same_wantSchedule {s t : State} (h : Same s t) : ∀ a1 a2, Same s (@State.wantSchedule t a1 a2) := by
  intro a1 a2
  unfold State.wantSchedule
  repeat' first
    | with_reducible assumption | with_reducible refine same_ite ?_ (fun _ => ?_) | with_reducible refine same_onCluster ?_ _ _
    | with_reducible refine same_countT ?_ _ _ _ _ | with_reducible refine same_schedRoom_eq ?_ _ _ _ (by assumption)
    | with_reducible refine same_schedRoom ?_ _ | split | dsimp only

theorem same_readySched {s t : State} (h : Same s t) : ∀ a1 a2, Same s (@State.readySched t a1 a2).1 := by
  intro a1 a2
  unfold State.readySched
  repeat' first
    | with_reducible assumption | with_reducible refine same_ite ?_ (fun _ => ?_) | with_reducible refine same_wantSchedule ?_ _ _
    | with_reducible refine same_onCluster ?_ _ _ | split | dsimp only

theorem same_readySched_eq {s t : State} (h : Same s t) : ∀ a1 a2 x y, (@State.readySched t a1 a2) = (x, y) → Same s x := by
  intro a1 a2 x y e
  have k := same_readySched h a1 a2
  rw [e] at k
  exact k

theorem same_ideKey {s t : State} (h : Same s t) : ∀ a1 a2 a3, Same s (@State.ideKey t a1 a2 a3).1 := by
  intro a1 a2 a3
  unfold State.ideKey
  repeat' first
    | with_reducible assumption | with_reducible refine same_ite ?_ (fun _ => ?_)
    | with_reducible refine same_readySched_eq ?_ _ _ _ _ (by assumption) | with_reducible refine same_readySched ?_ _ _ | split | dsimp only

theorem same_ideKey_eq {s t : State} (h : Same s t) : ∀ a1 a2 a3 x y, (@State.ideKey t a1 a2 a3) = (x, y) → Same s x := by
  intro a1 a2 a3 x y e
  have k := same_ideKey h a1 a2 a3
  rw [e] at k
  exact k

theorem same_onCtx {s t : State} (h : Same s t) : ∀ a1 a2, Same s (@State.onCtx t a1 a2) := by
  intro a1 a2
  unfold State.onCtx
  repeat' first
    | with_reducible assumption | with_reducible refine same_onHcc ?_ _

theorem same_ideCounted {s t : State} (h : Same s t) : ∀ a1 a2 a3, Same s (@State.ideCounted t a1 a2 a3) := by
  intro a1 a2 a3
  unfold State.ideCounted
  repeat' first
    | with_reducible assumption | with_reducible refine same_onCtx ?_ _ _

theorem same_countS {s t : State} (h : Same s t) : ∀ a1 a2 a3 a4, Same s (@State.countS t a1 a2 a3 a4) := by
  intro a1 a2 a3 a4
  unfold State.countS
  repeat' first
    | with_reducible assumption | with_reducible refine same_count ?_ _ _

theorem same_onSocket {s t : State} (h : Same s t) : ∀ a1 a2 a3, Same s (@State.onSocket t a1 a2 a3) := by
  intro a1 a2 a3
  unfold State.onSocket
  repeat' first
    | with_reducible assumption | fail_if_no_progress (with_reducible refine same_mk ?_ rfl rfl) | dsimp only

theorem same_issue {s t : State} (h : Same s t) : ∀ a1 a2 a3, Same s (@State.issue t a1 a2 a3).1 := by
  intro a1 a2 a3
  unfold State.issue
  repeat' first
    | with_reducible assumption | with_reducible refine same_onCluster ?_ _ _ | with_reducible refine same_onSocket ?_ _ _ _ | split | dsimp only

theorem same_issue_eq {s t : State} (h : Same s t) : ∀ a1 a2 a3 x y, (@State.issue t a1 a2 a3) = (x, y) → Same s x := by
  intro a1 a2 a3 x y e
  have k := same_issue h a1 a2 a3
  rw [e] at k
  exact k

theorem same_issueThen {s t : State} (h : Same s t) : ∀ a1 a2 a3 (f : State → State), (∀ u, Same s u → Same s (f u)) →
    Same s (t.issueThen a1 a2 a3 f) := by
  intro a1 a2 a3 f hf
  have k := same_issue h a1 a2 a3
  unfold State.issueThen
  split
  · next e => rw [e] at k; exact k
  · next e => rw [e] at k; exact hf _ k

theorem same_tlpOut {s t : State} (h : Same s t) : ∀ a1 a2 a3, Same s (@State.tlpOut t a1 a2 a3) := by
  intro a1 a2 a3
  unfold State.tlpOut
  repeat' first
    | with_reducible assumption | with_reducible refine same_emit ?_ _ | with_reducible refine same_issueThen ?_ _ _ _ _ (fun _ _ => ?_) | split
    | dsimp only

theorem same_tlpSend {s t : State} (h : Same s t) : ∀ a1 a2 a3 a4 a5 a6, Same s (@State.tlpSend t a1 a2 a3 a4 a5 a6) := by
  intro a1 a2 a3 a4 a5 a6
  unfold State.tlpSend
  repeat' first
    | with_reducible assumption | with_reducible refine same_tlpOut ?_ _ _ _ | with_reducible refine same_countS ?_ _ _ _ _
    | with_reducible refine same_countT ?_ _ _ _ _ | with_reducible refine same_ideCounted ?_ _ _ _

theorem same_hostReply {s t : State} (h : Same s t) : ∀ a1, Same s (@State.hostReply t a1) := by
  intro a1
  unfold State.hostReply
  repeat' first
    | with_reducible assumption | with_reducible refine same_ite ?_ (fun _ => ?_) | with_reducible refine same_tlpSend ?_ _ _ _ _ _ _
    | with_reducible refine same_onHcc ?_ _ | with_reducible refine same_ideKey_eq ?_ _ _ _ _ _ (by assumption)
    | with_reducible refine same_ideKey ?_ _ _ _ | with_reducible refine same_ideFailed ?_ _ | split | dsimp only

theorem same_hostComplete {s t : State} (h : Same s t) : ∀ a1 a2 a3, Same s (@State.hostComplete t a1 a2 a3) := by
  intro a1 a2 a3
  unfold State.hostComplete
  repeat' first
    | with_reducible assumption | with_reducible refine same_ite ?_ (fun _ => ?_) | with_reducible refine same_emit ?_ _
    | with_reducible refine same_hostReply ?_ _ | with_reducible refine same_onHcc ?_ _ | split | dsimp only

theorem same_done {s t : State} (h : Same s t) : ∀ a1 a2 a3 a4, Same s (@State.done t a1 a2 a3 a4) := by
  intro a1 a2 a3 a4
  unfold State.done
  repeat' first
    | with_reducible assumption | with_reducible refine same_ite ?_ (fun _ => ?_) | with_reducible refine same_emit ?_ _
    | with_reducible refine same_hostComplete ?_ _ _ _ | split | dsimp only

theorem same_atomicDone {s t : State} (h : Same s t) : ∀ a1 a2 a3, Same s (@State.atomicDone t a1 a2 a3) := by
  intro a1 a2 a3
  unfold State.atomicDone
  repeat' first
    | with_reducible assumption | with_reducible refine same_done ?_ _ _ _ _

theorem same_refuseSend {s t : State} (h : Same s t) : ∀ a1 a2, Same s (@State.refuseSend t a1 a2) := by
  intro a1 a2
  unfold State.refuseSend
  repeat' first
    | with_reducible assumption | with_reducible refine same_ite ?_ (fun _ => ?_) | with_reducible refine same_done ?_ _ _ _ _ | split | dsimp only

theorem same_streamFenceEnd {s t : State} (h : Same s t) : ∀ a1 a2 a3 a4, Same s (@State.streamFenceEnd t a1 a2 a3 a4) := by
  intro a1 a2 a3 a4
  unfold State.streamFenceEnd
  repeat' first
    | with_reducible assumption | with_reducible refine same_signal ?_ _ _ _ | with_reducible refine same_complete ?_ _ _ _ _
    | fail_if_no_progress (with_reducible refine same_mk ?_ rfl rfl) | split | dsimp only

theorem same_fencesFail {s t : State} (h : Same s t) : ∀ a1 a2, Same s (@State.fencesFail t a1 a2) := by
  intro a1 a2
  unfold State.fencesFail
  repeat' first
    | with_reducible assumption | with_reducible refine same_foldl (fun _ _ _ => ?_) _ ?_ | with_reducible refine same_streamFenceEnd ?_ _ _ _ _
    | with_reducible refine same_onEntry ?_ _ _ _ | dsimp only

theorem same_failStream {s t : State} (h : Same s t) : ∀ a1 a2, Same s (@State.failStream t a1 a2) := by
  intro a1 a2
  unfold State.failStream
  repeat' first
    | with_reducible assumption | with_reducible refine same_ite ?_ (fun _ => ?_) | with_reducible refine same_foldl (fun _ _ _ => ?_) _ ?_
    | with_reducible refine same_emit ?_ _ | with_reducible refine same_onEntry ?_ _ _ _ | with_reducible refine same_fencesFail ?_ _ _
    | with_reducible refine same_refuseSend ?_ _ _ | with_reducible refine same_atomicDone ?_ _ _ _ | split | dsimp only

theorem same_fccErase {s t : State} (h : Same s t) : ∀ a1, Same s (@State.fccErase t a1) := by
  intro a1
  unfold State.fccErase
  repeat' first
    | with_reducible assumption | with_reducible refine same_foldl (fun _ _ _ => ?_) _ ?_ | with_reducible refine same_onFcc ?_ _ _
    | with_reducible refine same_failStream ?_ _ _ | with_reducible refine same_dropReceive ?_ _ _ | with_reducible refine same_entryClosed ?_ _ _ _
    | dsimp only

theorem same_eraseAll {s t : State} (h : Same s t) : Same s (@State.eraseAll t) := by
  unfold State.eraseAll
  repeat' first
    | with_reducible assumption | with_reducible refine same_foldl (fun _ _ _ => ?_) _ ?_ | with_reducible refine same_fccErase ?_ _
    | fail_if_no_progress (with_reducible refine same_mk ?_ rfl rfl) | dsimp only

theorem same_domeReport {s t : State} (h : Same s t) : Same s (@State.domeReport t) := by
  unfold State.domeReport
  repeat' first
    | with_reducible assumption | with_reducible refine same_ite ?_ (fun _ => ?_) | with_reducible refine same_report ?_ _ _ _ _ | split
    | dsimp only

theorem same_onRegion {s t : State} (h : Same s t) : ∀ a1 a2, Same s (@State.onRegion t a1 a2) := by
  intro a1 a2
  unfold State.onRegion
  repeat' first
    | with_reducible assumption | with_reducible refine same_onPrt ?_ _

theorem same_freeEntries {s t : State} (h : Same s t) : ∀ a1, Same s (@State.freeEntries t a1) := by
  intro a1
  unfold State.freeEntries
  repeat' first
    | with_reducible assumption | with_reducible refine same_foldl (fun _ _ _ => ?_) _ ?_ | with_reducible refine same_onRegion ?_ _ _
    | with_reducible refine same_rotSend ?_ _ _ | with_reducible refine same_setMaster ?_ _ _
    | fail_if_no_progress (with_reducible refine same_mk ?_ rfl rfl) | dsimp only

theorem same_draw {s t : State} (h : Same s t) : ∀ n, Same s (State.draw t n).2 := by
  intro n
  unfold State.draw
  exact same_of h rfl rfl

theorem same_draw_eq {s t : State} (h : Same s t) : ∀ n x y, State.draw t n = (x, y) → Same s y := by
  intro n x y e
  have k := same_draw h n
  rw [e] at k
  exact k

theorem same_importStep {s t : State} (h : Same s t) : ∀ a1 a2, Same s (@State.importStep t a1 a2) := by
  intro a1 a2
  unfold State.importStep
  repeat' first
    | with_reducible assumption | with_reducible refine same_ite ?_ (fun _ => ?_) | with_reducible refine same_completeWhere ?_ _ _ _ _
    | with_reducible refine same_draw_eq ?_ _ _ _ (by assumption) | with_reducible refine same_draw ?_ _
    | fail_if_no_progress (with_reducible refine same_mk ?_ rfl rfl) | split | dsimp only

theorem same_regionDone {s t : State} (h : Same s t) : ∀ a1 a2, Same s (@State.regionDone t a1 a2) := by
  intro a1 a2
  unfold State.regionDone
  repeat' first
    | with_reducible assumption | with_reducible refine same_ite ?_ (fun _ => ?_) | with_reducible refine same_importStep ?_ _ _
    | with_reducible refine same_completeWhere ?_ _ _ _ _ | split | dsimp only

theorem same_regionLost {s t : State} (h : Same s t) : ∀ a1, Same s (@State.regionLost t a1) := by
  intro a1
  unfold State.regionLost
  repeat' first
    | with_reducible assumption | with_reducible refine same_reap ?_ | with_reducible refine same_regionDone ?_ _ _
    | with_reducible refine same_completeWhere ?_ _ _ _ _ | with_reducible refine same_freeEntries ?_ _ | with_reducible refine same_onRegion ?_ _ _

theorem same_deriveLost {s t : State} (h : Same s t) : ∀ a1, Same s (@State.deriveLost t a1) := by
  intro a1
  unfold State.deriveLost
  repeat' first
    | with_reducible assumption | with_reducible refine same_foldl (fun _ _ _ => ?_) _ ?_ | with_reducible refine same_regionLost ?_ _
    | fail_if_no_progress (with_reducible refine same_mk ?_ rfl rfl) | split | dsimp only

end Sys2Proof.Laws
end

