-- ==== Sys2Proof/Laws/Spdm.lean ====
section
/-!
SUPPORT. What every SPDM request does around its operation.
-/

namespace Sys2Proof.Laws

open Sys2Proof.Machine

/-- A request that reaches the responder runs its operation in the state that `State.spdmArrival` gives. -/
theorem spdm_arrival (s t : State) (m : SpdmMsg) (code stage : Nat) (body : State → State)
    (ha : s.spdmArrival m code stage = some t) : s.spdm m code stage body = body t := by
  unfold State.spdmArrival at ha
  unfold State.spdm
  simp only at ha ⊢
  cases hm : m.sess with
  | some k =>
    simp only [hm] at ha ⊢
    split at ha
    · rename_i h
      simp only [Bool.and_eq_true, beq_iff_eq] at h
      simp only [Option.some.injEq] at ha
      obtain ⟨⟨h1, h2⟩, h3, h4⟩ := h
      rw [if_neg (by simp [h1, h2]), if_neg (by simp [h3, h4]), ha]
    · exact absurd ha (by simp)
  | none =>
    simp only [hm] at ha ⊢
    split at ha
    · rename_i h
      simp only [Bool.and_eq_true, decide_eq_true_eq] at h
      simp only [Option.some.injEq] at ha
      obtain ⟨⟨h1, h2⟩, h3⟩ := h
      rw [if_neg (by simp [h1, h2]), if_neg (by omega), ha]
    · exact absurd ha (by simp)

end Sys2Proof.Laws
end

