-- ==== Sys2Proof/Laws/State.lean ====
section
/-!
SUPPORT. What each update of a part of the state leaves alone and what it changes: one lemma per field and update, each by
definition, so that no proof unfolds a record update.
-/

namespace Sys2Proof.Machine

/-! `onIsl` changes `isl` and nothing else. -/

section
variable (s : State) (i : Nat) (f : Isl → Isl)

@[simp] theorem State.onIsl_now : (s.onIsl i f).now = s.now := rfl
@[simp] theorem State.onIsl_free : (s.onIsl i f).free = s.free := rfl
@[simp] theorem State.onIsl_out : (s.onIsl i f).out = s.out := rfl
@[simp] theorem State.onIsl_pwr : (s.onIsl i f).pwr = s.pwr := rfl
@[simp] theorem State.onIsl_pads : (s.onIsl i f).pads = s.pads := rfl
@[simp] theorem State.onIsl_latches : (s.onIsl i f).latches = s.latches := rfl
@[simp] theorem State.onIsl_spr : (s.onIsl i f).spr = s.spr := rfl
@[simp] theorem State.onIsl_mbx : (s.onIsl i f).mbx = s.mbx := rfl
@[simp] theorem State.onIsl_cmds : (s.onIsl i f).cmds = s.cmds := rfl
@[simp] theorem State.onIsl_fw : (s.onIsl i f).fw = s.fw := rfl
@[simp] theorem State.onIsl_ram : (s.onIsl i f).ram = s.ram := rfl
@[simp] theorem State.onIsl_cap : (s.onIsl i f).cap = s.cap := rfl
@[simp] theorem State.onIsl_own : (s.onIsl i f).own = s.own := rfl
@[simp] theorem State.onIsl_sgu : (s.onIsl i f).sgu = s.sgu := rfl
@[simp] theorem State.onIsl_sct : (s.onIsl i f).sct = s.sct := rfl
@[simp] theorem State.onIsl_siteFlights : (s.onIsl i f).siteFlights = s.siteFlights := rfl
@[simp] theorem State.onIsl_sockets : (s.onIsl i f).sockets = s.sockets := rfl
@[simp] theorem State.onIsl_clusters : (s.onIsl i f).clusters = s.clusters := rfl
@[simp] theorem State.onIsl_mem : (s.onIsl i f).mem = s.mem := rfl
@[simp] theorem State.onIsl_mcc : (s.onIsl i f).mcc = s.mcc := rfl
@[simp] theorem State.onIsl_pcc : (s.onIsl i f).pcc = s.pcc := rfl
@[simp] theorem State.onIsl_nwt : (s.onIsl i f).nwt = s.nwt := rfl
@[simp] theorem State.onIsl_dom : (s.onIsl i f).dom = s.dom := rfl
@[simp] theorem State.onIsl_lc : (s.onIsl i f).lc = s.lc := rfl
@[simp] theorem State.onIsl_slots : (s.onIsl i f).slots = s.slots := rfl
@[simp] theorem State.onIsl_sets : (s.onIsl i f).sets = s.sets := rfl
@[simp] theorem State.onIsl_invals : (s.onIsl i f).invals = s.invals := rfl
@[simp] theorem State.onIsl_retireWait : (s.onIsl i f).retireWait = s.retireWait := rfl
@[simp] theorem State.onIsl_cpe : (s.onIsl i f).cpe = s.cpe := rfl
@[simp] theorem State.onIsl_att : (s.onIsl i f).att = s.att := rfl
@[simp] theorem State.onIsl_str : (s.onIsl i f).str = s.str := rfl
@[simp] theorem State.onIsl_obs : (s.onIsl i f).obs = s.obs := rfl
@[simp] theorem State.onIsl_ftu : (s.onIsl i f).ftu = s.ftu := rfl
@[simp] theorem State.onIsl_fcc : (s.onIsl i f).fcc = s.fcc := rfl
@[simp] theorem State.onIsl_streams : (s.onIsl i f).streams = s.streams := rfl
@[simp] theorem State.onIsl_epochs : (s.onIsl i f).epochs = s.epochs := rfl
@[simp] theorem State.onIsl_hcc : (s.onIsl i f).hcc = s.hcc := rfl
@[simp] theorem State.onIsl_bel : (s.onIsl i f).bel = s.bel := rfl
@[simp] theorem State.onIsl_prt : (s.onIsl i f).prt = s.prt := rfl
@[simp] theorem State.onIsl_pending : (s.onIsl i f).pending = s.pending := rfl
@[simp] theorem State.onIsl_isl : (s.onIsl i f).isl = s.isl.modify i f := rfl

end

/-! `onSpr` changes `spr` and nothing else. -/

section
variable (s : State) (f : Spr → Spr)

@[simp] theorem State.onSpr_now : (s.onSpr f).now = s.now := rfl
@[simp] theorem State.onSpr_free : (s.onSpr f).free = s.free := rfl
@[simp] theorem State.onSpr_out : (s.onSpr f).out = s.out := rfl
@[simp] theorem State.onSpr_isl : (s.onSpr f).isl = s.isl := rfl
@[simp] theorem State.onSpr_pwr : (s.onSpr f).pwr = s.pwr := rfl
@[simp] theorem State.onSpr_pads : (s.onSpr f).pads = s.pads := rfl
@[simp] theorem State.onSpr_latches : (s.onSpr f).latches = s.latches := rfl
@[simp] theorem State.onSpr_mbx : (s.onSpr f).mbx = s.mbx := rfl
@[simp] theorem State.onSpr_cmds : (s.onSpr f).cmds = s.cmds := rfl
@[simp] theorem State.onSpr_fw : (s.onSpr f).fw = s.fw := rfl
@[simp] theorem State.onSpr_ram : (s.onSpr f).ram = s.ram := rfl
@[simp] theorem State.onSpr_cap : (s.onSpr f).cap = s.cap := rfl
@[simp] theorem State.onSpr_own : (s.onSpr f).own = s.own := rfl
@[simp] theorem State.onSpr_sgu : (s.onSpr f).sgu = s.sgu := rfl
@[simp] theorem State.onSpr_sct : (s.onSpr f).sct = s.sct := rfl
@[simp] theorem State.onSpr_siteFlights : (s.onSpr f).siteFlights = s.siteFlights := rfl
@[simp] theorem State.onSpr_sockets : (s.onSpr f).sockets = s.sockets := rfl
@[simp] theorem State.onSpr_clusters : (s.onSpr f).clusters = s.clusters := rfl
@[simp] theorem State.onSpr_mem : (s.onSpr f).mem = s.mem := rfl
@[simp] theorem State.onSpr_mcc : (s.onSpr f).mcc = s.mcc := rfl
@[simp] theorem State.onSpr_pcc : (s.onSpr f).pcc = s.pcc := rfl
@[simp] theorem State.onSpr_nwt : (s.onSpr f).nwt = s.nwt := rfl
@[simp] theorem State.onSpr_dom : (s.onSpr f).dom = s.dom := rfl
@[simp] theorem State.onSpr_lc : (s.onSpr f).lc = s.lc := rfl
@[simp] theorem State.onSpr_slots : (s.onSpr f).slots = s.slots := rfl
@[simp] theorem State.onSpr_sets : (s.onSpr f).sets = s.sets := rfl
@[simp] theorem State.onSpr_invals : (s.onSpr f).invals = s.invals := rfl
@[simp] theorem State.onSpr_retireWait : (s.onSpr f).retireWait = s.retireWait := rfl
@[simp] theorem State.onSpr_cpe : (s.onSpr f).cpe = s.cpe := rfl
@[simp] theorem State.onSpr_att : (s.onSpr f).att = s.att := rfl
@[simp] theorem State.onSpr_str : (s.onSpr f).str = s.str := rfl
@[simp] theorem State.onSpr_obs : (s.onSpr f).obs = s.obs := rfl
@[simp] theorem State.onSpr_ftu : (s.onSpr f).ftu = s.ftu := rfl
@[simp] theorem State.onSpr_fcc : (s.onSpr f).fcc = s.fcc := rfl
@[simp] theorem State.onSpr_streams : (s.onSpr f).streams = s.streams := rfl
@[simp] theorem State.onSpr_epochs : (s.onSpr f).epochs = s.epochs := rfl
@[simp] theorem State.onSpr_hcc : (s.onSpr f).hcc = s.hcc := rfl
@[simp] theorem State.onSpr_bel : (s.onSpr f).bel = s.bel := rfl
@[simp] theorem State.onSpr_prt : (s.onSpr f).prt = s.prt := rfl
@[simp] theorem State.onSpr_pending : (s.onSpr f).pending = s.pending := rfl
@[simp] theorem State.onSpr_spr : (s.onSpr f).spr = f s.spr := rfl

end

/-! `onEsc` changes `spr` and nothing else. -/

section
variable (s : State) (f : Escal → Escal)

@[simp] theorem State.onEsc_now : (s.onEsc f).now = s.now := rfl
@[simp] theorem State.onEsc_free : (s.onEsc f).free = s.free := rfl
@[simp] theorem State.onEsc_out : (s.onEsc f).out = s.out := rfl
@[simp] theorem State.onEsc_isl : (s.onEsc f).isl = s.isl := rfl
@[simp] theorem State.onEsc_pwr : (s.onEsc f).pwr = s.pwr := rfl
@[simp] theorem State.onEsc_pads : (s.onEsc f).pads = s.pads := rfl
@[simp] theorem State.onEsc_latches : (s.onEsc f).latches = s.latches := rfl
@[simp] theorem State.onEsc_mbx : (s.onEsc f).mbx = s.mbx := rfl
@[simp] theorem State.onEsc_cmds : (s.onEsc f).cmds = s.cmds := rfl
@[simp] theorem State.onEsc_fw : (s.onEsc f).fw = s.fw := rfl
@[simp] theorem State.onEsc_ram : (s.onEsc f).ram = s.ram := rfl
@[simp] theorem State.onEsc_cap : (s.onEsc f).cap = s.cap := rfl
@[simp] theorem State.onEsc_own : (s.onEsc f).own = s.own := rfl
@[simp] theorem State.onEsc_sgu : (s.onEsc f).sgu = s.sgu := rfl
@[simp] theorem State.onEsc_sct : (s.onEsc f).sct = s.sct := rfl
@[simp] theorem State.onEsc_siteFlights : (s.onEsc f).siteFlights = s.siteFlights := rfl
@[simp] theorem State.onEsc_sockets : (s.onEsc f).sockets = s.sockets := rfl
@[simp] theorem State.onEsc_clusters : (s.onEsc f).clusters = s.clusters := rfl
@[simp] theorem State.onEsc_mem : (s.onEsc f).mem = s.mem := rfl
@[simp] theorem State.onEsc_mcc : (s.onEsc f).mcc = s.mcc := rfl
@[simp] theorem State.onEsc_pcc : (s.onEsc f).pcc = s.pcc := rfl
@[simp] theorem State.onEsc_nwt : (s.onEsc f).nwt = s.nwt := rfl
@[simp] theorem State.onEsc_dom : (s.onEsc f).dom = s.dom := rfl
@[simp] theorem State.onEsc_lc : (s.onEsc f).lc = s.lc := rfl
@[simp] theorem State.onEsc_slots : (s.onEsc f).slots = s.slots := rfl
@[simp] theorem State.onEsc_sets : (s.onEsc f).sets = s.sets := rfl
@[simp] theorem State.onEsc_invals : (s.onEsc f).invals = s.invals := rfl
@[simp] theorem State.onEsc_retireWait : (s.onEsc f).retireWait = s.retireWait := rfl
@[simp] theorem State.onEsc_cpe : (s.onEsc f).cpe = s.cpe := rfl
@[simp] theorem State.onEsc_att : (s.onEsc f).att = s.att := rfl
@[simp] theorem State.onEsc_str : (s.onEsc f).str = s.str := rfl
@[simp] theorem State.onEsc_obs : (s.onEsc f).obs = s.obs := rfl
@[simp] theorem State.onEsc_ftu : (s.onEsc f).ftu = s.ftu := rfl
@[simp] theorem State.onEsc_fcc : (s.onEsc f).fcc = s.fcc := rfl
@[simp] theorem State.onEsc_streams : (s.onEsc f).streams = s.streams := rfl
@[simp] theorem State.onEsc_epochs : (s.onEsc f).epochs = s.epochs := rfl
@[simp] theorem State.onEsc_hcc : (s.onEsc f).hcc = s.hcc := rfl
@[simp] theorem State.onEsc_bel : (s.onEsc f).bel = s.bel := rfl
@[simp] theorem State.onEsc_prt : (s.onEsc f).prt = s.prt := rfl
@[simp] theorem State.onEsc_pending : (s.onEsc f).pending = s.pending := rfl
@[simp] theorem State.onEsc_spr : (s.onEsc f).spr = { s.spr with esc := f s.spr.esc } := rfl

end

/-! `onTime` changes `spr` and nothing else. -/

section
variable (s : State) (f : SecTime → SecTime)

@[simp] theorem State.onTime_now : (s.onTime f).now = s.now := rfl
@[simp] theorem State.onTime_free : (s.onTime f).free = s.free := rfl
@[simp] theorem State.onTime_out : (s.onTime f).out = s.out := rfl
@[simp] theorem State.onTime_isl : (s.onTime f).isl = s.isl := rfl
@[simp] theorem State.onTime_pwr : (s.onTime f).pwr = s.pwr := rfl
@[simp] theorem State.onTime_pads : (s.onTime f).pads = s.pads := rfl
@[simp] theorem State.onTime_latches : (s.onTime f).latches = s.latches := rfl
@[simp] theorem State.onTime_mbx : (s.onTime f).mbx = s.mbx := rfl
@[simp] theorem State.onTime_cmds : (s.onTime f).cmds = s.cmds := rfl
@[simp] theorem State.onTime_fw : (s.onTime f).fw = s.fw := rfl
@[simp] theorem State.onTime_ram : (s.onTime f).ram = s.ram := rfl
@[simp] theorem State.onTime_cap : (s.onTime f).cap = s.cap := rfl
@[simp] theorem State.onTime_own : (s.onTime f).own = s.own := rfl
@[simp] theorem State.onTime_sgu : (s.onTime f).sgu = s.sgu := rfl
@[simp] theorem State.onTime_sct : (s.onTime f).sct = s.sct := rfl
@[simp] theorem State.onTime_siteFlights : (s.onTime f).siteFlights = s.siteFlights := rfl
@[simp] theorem State.onTime_sockets : (s.onTime f).sockets = s.sockets := rfl
@[simp] theorem State.onTime_clusters : (s.onTime f).clusters = s.clusters := rfl
@[simp] theorem State.onTime_mem : (s.onTime f).mem = s.mem := rfl
@[simp] theorem State.onTime_mcc : (s.onTime f).mcc = s.mcc := rfl
@[simp] theorem State.onTime_pcc : (s.onTime f).pcc = s.pcc := rfl
@[simp] theorem State.onTime_nwt : (s.onTime f).nwt = s.nwt := rfl
@[simp] theorem State.onTime_dom : (s.onTime f).dom = s.dom := rfl
@[simp] theorem State.onTime_lc : (s.onTime f).lc = s.lc := rfl
@[simp] theorem State.onTime_slots : (s.onTime f).slots = s.slots := rfl
@[simp] theorem State.onTime_sets : (s.onTime f).sets = s.sets := rfl
@[simp] theorem State.onTime_invals : (s.onTime f).invals = s.invals := rfl
@[simp] theorem State.onTime_retireWait : (s.onTime f).retireWait = s.retireWait := rfl
@[simp] theorem State.onTime_cpe : (s.onTime f).cpe = s.cpe := rfl
@[simp] theorem State.onTime_att : (s.onTime f).att = s.att := rfl
@[simp] theorem State.onTime_str : (s.onTime f).str = s.str := rfl
@[simp] theorem State.onTime_obs : (s.onTime f).obs = s.obs := rfl
@[simp] theorem State.onTime_ftu : (s.onTime f).ftu = s.ftu := rfl
@[simp] theorem State.onTime_fcc : (s.onTime f).fcc = s.fcc := rfl
@[simp] theorem State.onTime_streams : (s.onTime f).streams = s.streams := rfl
@[simp] theorem State.onTime_epochs : (s.onTime f).epochs = s.epochs := rfl
@[simp] theorem State.onTime_hcc : (s.onTime f).hcc = s.hcc := rfl
@[simp] theorem State.onTime_bel : (s.onTime f).bel = s.bel := rfl
@[simp] theorem State.onTime_prt : (s.onTime f).prt = s.prt := rfl
@[simp] theorem State.onTime_pending : (s.onTime f).pending = s.pending := rfl
@[simp] theorem State.onTime_spr : (s.onTime f).spr = { s.spr with time := f s.spr.time } := rfl

end

/-! `onCluster` changes `clusters` and nothing else. -/

section
variable (s : State) (c : Nat) (f : Cluster → Cluster)

@[simp] theorem State.onCluster_now : (s.onCluster c f).now = s.now := rfl
@[simp] theorem State.onCluster_free : (s.onCluster c f).free = s.free := rfl
@[simp] theorem State.onCluster_out : (s.onCluster c f).out = s.out := rfl
@[simp] theorem State.onCluster_isl : (s.onCluster c f).isl = s.isl := rfl
@[simp] theorem State.onCluster_pwr : (s.onCluster c f).pwr = s.pwr := rfl
@[simp] theorem State.onCluster_pads : (s.onCluster c f).pads = s.pads := rfl
@[simp] theorem State.onCluster_latches : (s.onCluster c f).latches = s.latches := rfl
@[simp] theorem State.onCluster_spr : (s.onCluster c f).spr = s.spr := rfl
@[simp] theorem State.onCluster_mbx : (s.onCluster c f).mbx = s.mbx := rfl
@[simp] theorem State.onCluster_cmds : (s.onCluster c f).cmds = s.cmds := rfl
@[simp] theorem State.onCluster_fw : (s.onCluster c f).fw = s.fw := rfl
@[simp] theorem State.onCluster_ram : (s.onCluster c f).ram = s.ram := rfl
@[simp] theorem State.onCluster_cap : (s.onCluster c f).cap = s.cap := rfl
@[simp] theorem State.onCluster_own : (s.onCluster c f).own = s.own := rfl
@[simp] theorem State.onCluster_sgu : (s.onCluster c f).sgu = s.sgu := rfl
@[simp] theorem State.onCluster_sct : (s.onCluster c f).sct = s.sct := rfl
@[simp] theorem State.onCluster_siteFlights : (s.onCluster c f).siteFlights = s.siteFlights := rfl
@[simp] theorem State.onCluster_sockets : (s.onCluster c f).sockets = s.sockets := rfl
@[simp] theorem State.onCluster_mem : (s.onCluster c f).mem = s.mem := rfl
@[simp] theorem State.onCluster_mcc : (s.onCluster c f).mcc = s.mcc := rfl
@[simp] theorem State.onCluster_pcc : (s.onCluster c f).pcc = s.pcc := rfl
@[simp] theorem State.onCluster_nwt : (s.onCluster c f).nwt = s.nwt := rfl
@[simp] theorem State.onCluster_dom : (s.onCluster c f).dom = s.dom := rfl
@[simp] theorem State.onCluster_lc : (s.onCluster c f).lc = s.lc := rfl
@[simp] theorem State.onCluster_slots : (s.onCluster c f).slots = s.slots := rfl
@[simp] theorem State.onCluster_sets : (s.onCluster c f).sets = s.sets := rfl
@[simp] theorem State.onCluster_invals : (s.onCluster c f).invals = s.invals := rfl
@[simp] theorem State.onCluster_retireWait : (s.onCluster c f).retireWait = s.retireWait := rfl
@[simp] theorem State.onCluster_cpe : (s.onCluster c f).cpe = s.cpe := rfl
@[simp] theorem State.onCluster_att : (s.onCluster c f).att = s.att := rfl
@[simp] theorem State.onCluster_str : (s.onCluster c f).str = s.str := rfl
@[simp] theorem State.onCluster_obs : (s.onCluster c f).obs = s.obs := rfl
@[simp] theorem State.onCluster_ftu : (s.onCluster c f).ftu = s.ftu := rfl
@[simp] theorem State.onCluster_fcc : (s.onCluster c f).fcc = s.fcc := rfl
@[simp] theorem State.onCluster_streams : (s.onCluster c f).streams = s.streams := rfl
@[simp] theorem State.onCluster_epochs : (s.onCluster c f).epochs = s.epochs := rfl
@[simp] theorem State.onCluster_hcc : (s.onCluster c f).hcc = s.hcc := rfl
@[simp] theorem State.onCluster_bel : (s.onCluster c f).bel = s.bel := rfl
@[simp] theorem State.onCluster_prt : (s.onCluster c f).prt = s.prt := rfl
@[simp] theorem State.onCluster_pending : (s.onCluster c f).pending = s.pending := rfl
@[simp] theorem State.onCluster_clusters : (s.onCluster c f).clusters = s.clusters.modify c f := rfl

end

/-! `onMem` changes `mem` and nothing else. -/

section
variable (s : State) (c : Nat) (f : MemUnit → MemUnit)

@[simp] theorem State.onMem_now : (s.onMem c f).now = s.now := rfl
@[simp] theorem State.onMem_free : (s.onMem c f).free = s.free := rfl
@[simp] theorem State.onMem_out : (s.onMem c f).out = s.out := rfl
@[simp] theorem State.onMem_isl : (s.onMem c f).isl = s.isl := rfl
@[simp] theorem State.onMem_pwr : (s.onMem c f).pwr = s.pwr := rfl
@[simp] theorem State.onMem_pads : (s.onMem c f).pads = s.pads := rfl
@[simp] theorem State.onMem_latches : (s.onMem c f).latches = s.latches := rfl
@[simp] theorem State.onMem_spr : (s.onMem c f).spr = s.spr := rfl
@[simp] theorem State.onMem_mbx : (s.onMem c f).mbx = s.mbx := rfl
@[simp] theorem State.onMem_cmds : (s.onMem c f).cmds = s.cmds := rfl
@[simp] theorem State.onMem_fw : (s.onMem c f).fw = s.fw := rfl
@[simp] theorem State.onMem_ram : (s.onMem c f).ram = s.ram := rfl
@[simp] theorem State.onMem_cap : (s.onMem c f).cap = s.cap := rfl
@[simp] theorem State.onMem_own : (s.onMem c f).own = s.own := rfl
@[simp] theorem State.onMem_sgu : (s.onMem c f).sgu = s.sgu := rfl
@[simp] theorem State.onMem_sct : (s.onMem c f).sct = s.sct := rfl
@[simp] theorem State.onMem_siteFlights : (s.onMem c f).siteFlights = s.siteFlights := rfl
@[simp] theorem State.onMem_sockets : (s.onMem c f).sockets = s.sockets := rfl
@[simp] theorem State.onMem_clusters : (s.onMem c f).clusters = s.clusters := rfl
@[simp] theorem State.onMem_mcc : (s.onMem c f).mcc = s.mcc := rfl
@[simp] theorem State.onMem_pcc : (s.onMem c f).pcc = s.pcc := rfl
@[simp] theorem State.onMem_nwt : (s.onMem c f).nwt = s.nwt := rfl
@[simp] theorem State.onMem_dom : (s.onMem c f).dom = s.dom := rfl
@[simp] theorem State.onMem_lc : (s.onMem c f).lc = s.lc := rfl
@[simp] theorem State.onMem_slots : (s.onMem c f).slots = s.slots := rfl
@[simp] theorem State.onMem_sets : (s.onMem c f).sets = s.sets := rfl
@[simp] theorem State.onMem_invals : (s.onMem c f).invals = s.invals := rfl
@[simp] theorem State.onMem_retireWait : (s.onMem c f).retireWait = s.retireWait := rfl
@[simp] theorem State.onMem_cpe : (s.onMem c f).cpe = s.cpe := rfl
@[simp] theorem State.onMem_att : (s.onMem c f).att = s.att := rfl
@[simp] theorem State.onMem_str : (s.onMem c f).str = s.str := rfl
@[simp] theorem State.onMem_obs : (s.onMem c f).obs = s.obs := rfl
@[simp] theorem State.onMem_ftu : (s.onMem c f).ftu = s.ftu := rfl
@[simp] theorem State.onMem_fcc : (s.onMem c f).fcc = s.fcc := rfl
@[simp] theorem State.onMem_streams : (s.onMem c f).streams = s.streams := rfl
@[simp] theorem State.onMem_epochs : (s.onMem c f).epochs = s.epochs := rfl
@[simp] theorem State.onMem_hcc : (s.onMem c f).hcc = s.hcc := rfl
@[simp] theorem State.onMem_bel : (s.onMem c f).bel = s.bel := rfl
@[simp] theorem State.onMem_prt : (s.onMem c f).prt = s.prt := rfl
@[simp] theorem State.onMem_pending : (s.onMem c f).pending = s.pending := rfl
@[simp] theorem State.onMem_mem : (s.onMem c f).mem = s.mem.modify c f := rfl

end

/-! `onMcc` changes `mcc` and nothing else. -/

section
variable (s : State) (k : Nat) (f : Mcc → Mcc)

@[simp] theorem State.onMcc_now : (s.onMcc k f).now = s.now := rfl
@[simp] theorem State.onMcc_free : (s.onMcc k f).free = s.free := rfl
@[simp] theorem State.onMcc_out : (s.onMcc k f).out = s.out := rfl
@[simp] theorem State.onMcc_isl : (s.onMcc k f).isl = s.isl := rfl
@[simp] theorem State.onMcc_pwr : (s.onMcc k f).pwr = s.pwr := rfl
@[simp] theorem State.onMcc_pads : (s.onMcc k f).pads = s.pads := rfl
@[simp] theorem State.onMcc_latches : (s.onMcc k f).latches = s.latches := rfl
@[simp] theorem State.onMcc_spr : (s.onMcc k f).spr = s.spr := rfl
@[simp] theorem State.onMcc_mbx : (s.onMcc k f).mbx = s.mbx := rfl
@[simp] theorem State.onMcc_cmds : (s.onMcc k f).cmds = s.cmds := rfl
@[simp] theorem State.onMcc_fw : (s.onMcc k f).fw = s.fw := rfl
@[simp] theorem State.onMcc_ram : (s.onMcc k f).ram = s.ram := rfl
@[simp] theorem State.onMcc_cap : (s.onMcc k f).cap = s.cap := rfl
@[simp] theorem State.onMcc_own : (s.onMcc k f).own = s.own := rfl
@[simp] theorem State.onMcc_sgu : (s.onMcc k f).sgu = s.sgu := rfl
@[simp] theorem State.onMcc_sct : (s.onMcc k f).sct = s.sct := rfl
@[simp] theorem State.onMcc_siteFlights : (s.onMcc k f).siteFlights = s.siteFlights := rfl
@[simp] theorem State.onMcc_sockets : (s.onMcc k f).sockets = s.sockets := rfl
@[simp] theorem State.onMcc_clusters : (s.onMcc k f).clusters = s.clusters := rfl
@[simp] theorem State.onMcc_mem : (s.onMcc k f).mem = s.mem := rfl
@[simp] theorem State.onMcc_pcc : (s.onMcc k f).pcc = s.pcc := rfl
@[simp] theorem State.onMcc_nwt : (s.onMcc k f).nwt = s.nwt := rfl
@[simp] theorem State.onMcc_dom : (s.onMcc k f).dom = s.dom := rfl
@[simp] theorem State.onMcc_lc : (s.onMcc k f).lc = s.lc := rfl
@[simp] theorem State.onMcc_slots : (s.onMcc k f).slots = s.slots := rfl
@[simp] theorem State.onMcc_sets : (s.onMcc k f).sets = s.sets := rfl
@[simp] theorem State.onMcc_invals : (s.onMcc k f).invals = s.invals := rfl
@[simp] theorem State.onMcc_retireWait : (s.onMcc k f).retireWait = s.retireWait := rfl
@[simp] theorem State.onMcc_cpe : (s.onMcc k f).cpe = s.cpe := rfl
@[simp] theorem State.onMcc_att : (s.onMcc k f).att = s.att := rfl
@[simp] theorem State.onMcc_str : (s.onMcc k f).str = s.str := rfl
@[simp] theorem State.onMcc_obs : (s.onMcc k f).obs = s.obs := rfl
@[simp] theorem State.onMcc_ftu : (s.onMcc k f).ftu = s.ftu := rfl
@[simp] theorem State.onMcc_fcc : (s.onMcc k f).fcc = s.fcc := rfl
@[simp] theorem State.onMcc_streams : (s.onMcc k f).streams = s.streams := rfl
@[simp] theorem State.onMcc_epochs : (s.onMcc k f).epochs = s.epochs := rfl
@[simp] theorem State.onMcc_hcc : (s.onMcc k f).hcc = s.hcc := rfl
@[simp] theorem State.onMcc_bel : (s.onMcc k f).bel = s.bel := rfl
@[simp] theorem State.onMcc_prt : (s.onMcc k f).prt = s.prt := rfl
@[simp] theorem State.onMcc_pending : (s.onMcc k f).pending = s.pending := rfl
@[simp] theorem State.onMcc_mcc : (s.onMcc k f).mcc = s.mcc.modify k f := rfl

end

/-! `onPcc` changes `pcc` and nothing else. -/

section
variable (s : State) (p : Nat) (f : Pcc → Pcc)

@[simp] theorem State.onPcc_now : (s.onPcc p f).now = s.now := rfl
@[simp] theorem State.onPcc_free : (s.onPcc p f).free = s.free := rfl
@[simp] theorem State.onPcc_out : (s.onPcc p f).out = s.out := rfl
@[simp] theorem State.onPcc_isl : (s.onPcc p f).isl = s.isl := rfl
@[simp] theorem State.onPcc_pwr : (s.onPcc p f).pwr = s.pwr := rfl
@[simp] theorem State.onPcc_pads : (s.onPcc p f).pads = s.pads := rfl
@[simp] theorem State.onPcc_latches : (s.onPcc p f).latches = s.latches := rfl
@[simp] theorem State.onPcc_spr : (s.onPcc p f).spr = s.spr := rfl
@[simp] theorem State.onPcc_mbx : (s.onPcc p f).mbx = s.mbx := rfl
@[simp] theorem State.onPcc_cmds : (s.onPcc p f).cmds = s.cmds := rfl
@[simp] theorem State.onPcc_fw : (s.onPcc p f).fw = s.fw := rfl
@[simp] theorem State.onPcc_ram : (s.onPcc p f).ram = s.ram := rfl
@[simp] theorem State.onPcc_cap : (s.onPcc p f).cap = s.cap := rfl
@[simp] theorem State.onPcc_own : (s.onPcc p f).own = s.own := rfl
@[simp] theorem State.onPcc_sgu : (s.onPcc p f).sgu = s.sgu := rfl
@[simp] theorem State.onPcc_sct : (s.onPcc p f).sct = s.sct := rfl
@[simp] theorem State.onPcc_siteFlights : (s.onPcc p f).siteFlights = s.siteFlights := rfl
@[simp] theorem State.onPcc_sockets : (s.onPcc p f).sockets = s.sockets := rfl
@[simp] theorem State.onPcc_clusters : (s.onPcc p f).clusters = s.clusters := rfl
@[simp] theorem State.onPcc_mem : (s.onPcc p f).mem = s.mem := rfl
@[simp] theorem State.onPcc_mcc : (s.onPcc p f).mcc = s.mcc := rfl
@[simp] theorem State.onPcc_nwt : (s.onPcc p f).nwt = s.nwt := rfl
@[simp] theorem State.onPcc_dom : (s.onPcc p f).dom = s.dom := rfl
@[simp] theorem State.onPcc_lc : (s.onPcc p f).lc = s.lc := rfl
@[simp] theorem State.onPcc_slots : (s.onPcc p f).slots = s.slots := rfl
@[simp] theorem State.onPcc_sets : (s.onPcc p f).sets = s.sets := rfl
@[simp] theorem State.onPcc_invals : (s.onPcc p f).invals = s.invals := rfl
@[simp] theorem State.onPcc_retireWait : (s.onPcc p f).retireWait = s.retireWait := rfl
@[simp] theorem State.onPcc_cpe : (s.onPcc p f).cpe = s.cpe := rfl
@[simp] theorem State.onPcc_att : (s.onPcc p f).att = s.att := rfl
@[simp] theorem State.onPcc_str : (s.onPcc p f).str = s.str := rfl
@[simp] theorem State.onPcc_obs : (s.onPcc p f).obs = s.obs := rfl
@[simp] theorem State.onPcc_ftu : (s.onPcc p f).ftu = s.ftu := rfl
@[simp] theorem State.onPcc_fcc : (s.onPcc p f).fcc = s.fcc := rfl
@[simp] theorem State.onPcc_streams : (s.onPcc p f).streams = s.streams := rfl
@[simp] theorem State.onPcc_epochs : (s.onPcc p f).epochs = s.epochs := rfl
@[simp] theorem State.onPcc_hcc : (s.onPcc p f).hcc = s.hcc := rfl
@[simp] theorem State.onPcc_bel : (s.onPcc p f).bel = s.bel := rfl
@[simp] theorem State.onPcc_prt : (s.onPcc p f).prt = s.prt := rfl
@[simp] theorem State.onPcc_pending : (s.onPcc p f).pending = s.pending := rfl
@[simp] theorem State.onPcc_pcc : (s.onPcc p f).pcc = s.pcc.modify p f := rfl

end

/-! `onDom` changes `dom` and nothing else. -/

section
variable (s : State) (f : Dom → Dom)

@[simp] theorem State.onDom_now : (s.onDom f).now = s.now := rfl
@[simp] theorem State.onDom_free : (s.onDom f).free = s.free := rfl
@[simp] theorem State.onDom_out : (s.onDom f).out = s.out := rfl
@[simp] theorem State.onDom_isl : (s.onDom f).isl = s.isl := rfl
@[simp] theorem State.onDom_pwr : (s.onDom f).pwr = s.pwr := rfl
@[simp] theorem State.onDom_pads : (s.onDom f).pads = s.pads := rfl
@[simp] theorem State.onDom_latches : (s.onDom f).latches = s.latches := rfl
@[simp] theorem State.onDom_spr : (s.onDom f).spr = s.spr := rfl
@[simp] theorem State.onDom_mbx : (s.onDom f).mbx = s.mbx := rfl
@[simp] theorem State.onDom_cmds : (s.onDom f).cmds = s.cmds := rfl
@[simp] theorem State.onDom_fw : (s.onDom f).fw = s.fw := rfl
@[simp] theorem State.onDom_ram : (s.onDom f).ram = s.ram := rfl
@[simp] theorem State.onDom_cap : (s.onDom f).cap = s.cap := rfl
@[simp] theorem State.onDom_own : (s.onDom f).own = s.own := rfl
@[simp] theorem State.onDom_sgu : (s.onDom f).sgu = s.sgu := rfl
@[simp] theorem State.onDom_sct : (s.onDom f).sct = s.sct := rfl
@[simp] theorem State.onDom_siteFlights : (s.onDom f).siteFlights = s.siteFlights := rfl
@[simp] theorem State.onDom_sockets : (s.onDom f).sockets = s.sockets := rfl
@[simp] theorem State.onDom_clusters : (s.onDom f).clusters = s.clusters := rfl
@[simp] theorem State.onDom_mem : (s.onDom f).mem = s.mem := rfl
@[simp] theorem State.onDom_mcc : (s.onDom f).mcc = s.mcc := rfl
@[simp] theorem State.onDom_pcc : (s.onDom f).pcc = s.pcc := rfl
@[simp] theorem State.onDom_nwt : (s.onDom f).nwt = s.nwt := rfl
@[simp] theorem State.onDom_lc : (s.onDom f).lc = s.lc := rfl
@[simp] theorem State.onDom_slots : (s.onDom f).slots = s.slots := rfl
@[simp] theorem State.onDom_sets : (s.onDom f).sets = s.sets := rfl
@[simp] theorem State.onDom_invals : (s.onDom f).invals = s.invals := rfl
@[simp] theorem State.onDom_retireWait : (s.onDom f).retireWait = s.retireWait := rfl
@[simp] theorem State.onDom_cpe : (s.onDom f).cpe = s.cpe := rfl
@[simp] theorem State.onDom_att : (s.onDom f).att = s.att := rfl
@[simp] theorem State.onDom_str : (s.onDom f).str = s.str := rfl
@[simp] theorem State.onDom_obs : (s.onDom f).obs = s.obs := rfl
@[simp] theorem State.onDom_ftu : (s.onDom f).ftu = s.ftu := rfl
@[simp] theorem State.onDom_fcc : (s.onDom f).fcc = s.fcc := rfl
@[simp] theorem State.onDom_streams : (s.onDom f).streams = s.streams := rfl
@[simp] theorem State.onDom_epochs : (s.onDom f).epochs = s.epochs := rfl
@[simp] theorem State.onDom_hcc : (s.onDom f).hcc = s.hcc := rfl
@[simp] theorem State.onDom_bel : (s.onDom f).bel = s.bel := rfl
@[simp] theorem State.onDom_prt : (s.onDom f).prt = s.prt := rfl
@[simp] theorem State.onDom_pending : (s.onDom f).pending = s.pending := rfl
@[simp] theorem State.onDom_dom : (s.onDom f).dom = f s.dom := rfl

end

/-! `onLc` changes `lc` and nothing else. -/

section
variable (s : State) (f : LifeCycle → LifeCycle)

@[simp] theorem State.onLc_now : (s.onLc f).now = s.now := rfl
@[simp] theorem State.onLc_free : (s.onLc f).free = s.free := rfl
@[simp] theorem State.onLc_out : (s.onLc f).out = s.out := rfl
@[simp] theorem State.onLc_isl : (s.onLc f).isl = s.isl := rfl
@[simp] theorem State.onLc_pwr : (s.onLc f).pwr = s.pwr := rfl
@[simp] theorem State.onLc_pads : (s.onLc f).pads = s.pads := rfl
@[simp] theorem State.onLc_latches : (s.onLc f).latches = s.latches := rfl
@[simp] theorem State.onLc_spr : (s.onLc f).spr = s.spr := rfl
@[simp] theorem State.onLc_mbx : (s.onLc f).mbx = s.mbx := rfl
@[simp] theorem State.onLc_cmds : (s.onLc f).cmds = s.cmds := rfl
@[simp] theorem State.onLc_fw : (s.onLc f).fw = s.fw := rfl
@[simp] theorem State.onLc_ram : (s.onLc f).ram = s.ram := rfl
@[simp] theorem State.onLc_cap : (s.onLc f).cap = s.cap := rfl
@[simp] theorem State.onLc_own : (s.onLc f).own = s.own := rfl
@[simp] theorem State.onLc_sgu : (s.onLc f).sgu = s.sgu := rfl
@[simp] theorem State.onLc_sct : (s.onLc f).sct = s.sct := rfl
@[simp] theorem State.onLc_siteFlights : (s.onLc f).siteFlights = s.siteFlights := rfl
@[simp] theorem State.onLc_sockets : (s.onLc f).sockets = s.sockets := rfl
@[simp] theorem State.onLc_clusters : (s.onLc f).clusters = s.clusters := rfl
@[simp] theorem State.onLc_mem : (s.onLc f).mem = s.mem := rfl
@[simp] theorem State.onLc_mcc : (s.onLc f).mcc = s.mcc := rfl
@[simp] theorem State.onLc_pcc : (s.onLc f).pcc = s.pcc := rfl
@[simp] theorem State.onLc_nwt : (s.onLc f).nwt = s.nwt := rfl
@[simp] theorem State.onLc_dom : (s.onLc f).dom = s.dom := rfl
@[simp] theorem State.onLc_slots : (s.onLc f).slots = s.slots := rfl
@[simp] theorem State.onLc_sets : (s.onLc f).sets = s.sets := rfl
@[simp] theorem State.onLc_invals : (s.onLc f).invals = s.invals := rfl
@[simp] theorem State.onLc_retireWait : (s.onLc f).retireWait = s.retireWait := rfl
@[simp] theorem State.onLc_cpe : (s.onLc f).cpe = s.cpe := rfl
@[simp] theorem State.onLc_att : (s.onLc f).att = s.att := rfl
@[simp] theorem State.onLc_str : (s.onLc f).str = s.str := rfl
@[simp] theorem State.onLc_obs : (s.onLc f).obs = s.obs := rfl
@[simp] theorem State.onLc_ftu : (s.onLc f).ftu = s.ftu := rfl
@[simp] theorem State.onLc_fcc : (s.onLc f).fcc = s.fcc := rfl
@[simp] theorem State.onLc_streams : (s.onLc f).streams = s.streams := rfl
@[simp] theorem State.onLc_epochs : (s.onLc f).epochs = s.epochs := rfl
@[simp] theorem State.onLc_hcc : (s.onLc f).hcc = s.hcc := rfl
@[simp] theorem State.onLc_bel : (s.onLc f).bel = s.bel := rfl
@[simp] theorem State.onLc_prt : (s.onLc f).prt = s.prt := rfl
@[simp] theorem State.onLc_pending : (s.onLc f).pending = s.pending := rfl
@[simp] theorem State.onLc_lc : (s.onLc f).lc = f s.lc := rfl

end

/-! `onSocket` changes `sockets` and nothing else. -/

section
variable (s : State) (c n : Nat) (f : Socket → Socket)

@[simp] theorem State.onSocket_now : (s.onSocket c n f).now = s.now := rfl
@[simp] theorem State.onSocket_free : (s.onSocket c n f).free = s.free := rfl
@[simp] theorem State.onSocket_out : (s.onSocket c n f).out = s.out := rfl
@[simp] theorem State.onSocket_isl : (s.onSocket c n f).isl = s.isl := rfl
@[simp] theorem State.onSocket_pwr : (s.onSocket c n f).pwr = s.pwr := rfl
@[simp] theorem State.onSocket_pads : (s.onSocket c n f).pads = s.pads := rfl
@[simp] theorem State.onSocket_latches : (s.onSocket c n f).latches = s.latches := rfl
@[simp] theorem State.onSocket_spr : (s.onSocket c n f).spr = s.spr := rfl
@[simp] theorem State.onSocket_mbx : (s.onSocket c n f).mbx = s.mbx := rfl
@[simp] theorem State.onSocket_cmds : (s.onSocket c n f).cmds = s.cmds := rfl
@[simp] theorem State.onSocket_fw : (s.onSocket c n f).fw = s.fw := rfl
@[simp] theorem State.onSocket_ram : (s.onSocket c n f).ram = s.ram := rfl
@[simp] theorem State.onSocket_cap : (s.onSocket c n f).cap = s.cap := rfl
@[simp] theorem State.onSocket_own : (s.onSocket c n f).own = s.own := rfl
@[simp] theorem State.onSocket_sgu : (s.onSocket c n f).sgu = s.sgu := rfl
@[simp] theorem State.onSocket_sct : (s.onSocket c n f).sct = s.sct := rfl
@[simp] theorem State.onSocket_siteFlights : (s.onSocket c n f).siteFlights = s.siteFlights := rfl
@[simp] theorem State.onSocket_clusters : (s.onSocket c n f).clusters = s.clusters := rfl
@[simp] theorem State.onSocket_mem : (s.onSocket c n f).mem = s.mem := rfl
@[simp] theorem State.onSocket_mcc : (s.onSocket c n f).mcc = s.mcc := rfl
@[simp] theorem State.onSocket_pcc : (s.onSocket c n f).pcc = s.pcc := rfl
@[simp] theorem State.onSocket_nwt : (s.onSocket c n f).nwt = s.nwt := rfl
@[simp] theorem State.onSocket_dom : (s.onSocket c n f).dom = s.dom := rfl
@[simp] theorem State.onSocket_lc : (s.onSocket c n f).lc = s.lc := rfl
@[simp] theorem State.onSocket_slots : (s.onSocket c n f).slots = s.slots := rfl
@[simp] theorem State.onSocket_sets : (s.onSocket c n f).sets = s.sets := rfl
@[simp] theorem State.onSocket_invals : (s.onSocket c n f).invals = s.invals := rfl
@[simp] theorem State.onSocket_retireWait : (s.onSocket c n f).retireWait = s.retireWait := rfl
@[simp] theorem State.onSocket_cpe : (s.onSocket c n f).cpe = s.cpe := rfl
@[simp] theorem State.onSocket_att : (s.onSocket c n f).att = s.att := rfl
@[simp] theorem State.onSocket_str : (s.onSocket c n f).str = s.str := rfl
@[simp] theorem State.onSocket_obs : (s.onSocket c n f).obs = s.obs := rfl
@[simp] theorem State.onSocket_ftu : (s.onSocket c n f).ftu = s.ftu := rfl
@[simp] theorem State.onSocket_fcc : (s.onSocket c n f).fcc = s.fcc := rfl
@[simp] theorem State.onSocket_streams : (s.onSocket c n f).streams = s.streams := rfl
@[simp] theorem State.onSocket_epochs : (s.onSocket c n f).epochs = s.epochs := rfl
@[simp] theorem State.onSocket_hcc : (s.onSocket c n f).hcc = s.hcc := rfl
@[simp] theorem State.onSocket_bel : (s.onSocket c n f).bel = s.bel := rfl
@[simp] theorem State.onSocket_prt : (s.onSocket c n f).prt = s.prt := rfl
@[simp] theorem State.onSocket_pending : (s.onSocket c n f).pending = s.pending := rfl

end

/-! `onMbx` changes `mbx` and nothing else. -/

section
variable (s : State) (n : Nat) (f : Mbx → Mbx)

@[simp] theorem State.onMbx_now : (s.onMbx n f).now = s.now := rfl
@[simp] theorem State.onMbx_free : (s.onMbx n f).free = s.free := rfl
@[simp] theorem State.onMbx_out : (s.onMbx n f).out = s.out := rfl
@[simp] theorem State.onMbx_isl : (s.onMbx n f).isl = s.isl := rfl
@[simp] theorem State.onMbx_pwr : (s.onMbx n f).pwr = s.pwr := rfl
@[simp] theorem State.onMbx_pads : (s.onMbx n f).pads = s.pads := rfl
@[simp] theorem State.onMbx_latches : (s.onMbx n f).latches = s.latches := rfl
@[simp] theorem State.onMbx_spr : (s.onMbx n f).spr = s.spr := rfl
@[simp] theorem State.onMbx_cmds : (s.onMbx n f).cmds = s.cmds := rfl
@[simp] theorem State.onMbx_fw : (s.onMbx n f).fw = s.fw := rfl
@[simp] theorem State.onMbx_ram : (s.onMbx n f).ram = s.ram := rfl
@[simp] theorem State.onMbx_cap : (s.onMbx n f).cap = s.cap := rfl
@[simp] theorem State.onMbx_own : (s.onMbx n f).own = s.own := rfl
@[simp] theorem State.onMbx_sgu : (s.onMbx n f).sgu = s.sgu := rfl
@[simp] theorem State.onMbx_sct : (s.onMbx n f).sct = s.sct := rfl
@[simp] theorem State.onMbx_siteFlights : (s.onMbx n f).siteFlights = s.siteFlights := rfl
@[simp] theorem State.onMbx_sockets : (s.onMbx n f).sockets = s.sockets := rfl
@[simp] theorem State.onMbx_clusters : (s.onMbx n f).clusters = s.clusters := rfl
@[simp] theorem State.onMbx_mem : (s.onMbx n f).mem = s.mem := rfl
@[simp] theorem State.onMbx_mcc : (s.onMbx n f).mcc = s.mcc := rfl
@[simp] theorem State.onMbx_pcc : (s.onMbx n f).pcc = s.pcc := rfl
@[simp] theorem State.onMbx_nwt : (s.onMbx n f).nwt = s.nwt := rfl
@[simp] theorem State.onMbx_dom : (s.onMbx n f).dom = s.dom := rfl
@[simp] theorem State.onMbx_lc : (s.onMbx n f).lc = s.lc := rfl
@[simp] theorem State.onMbx_slots : (s.onMbx n f).slots = s.slots := rfl
@[simp] theorem State.onMbx_sets : (s.onMbx n f).sets = s.sets := rfl
@[simp] theorem State.onMbx_invals : (s.onMbx n f).invals = s.invals := rfl
@[simp] theorem State.onMbx_retireWait : (s.onMbx n f).retireWait = s.retireWait := rfl
@[simp] theorem State.onMbx_cpe : (s.onMbx n f).cpe = s.cpe := rfl
@[simp] theorem State.onMbx_att : (s.onMbx n f).att = s.att := rfl
@[simp] theorem State.onMbx_str : (s.onMbx n f).str = s.str := rfl
@[simp] theorem State.onMbx_obs : (s.onMbx n f).obs = s.obs := rfl
@[simp] theorem State.onMbx_ftu : (s.onMbx n f).ftu = s.ftu := rfl
@[simp] theorem State.onMbx_fcc : (s.onMbx n f).fcc = s.fcc := rfl
@[simp] theorem State.onMbx_streams : (s.onMbx n f).streams = s.streams := rfl
@[simp] theorem State.onMbx_epochs : (s.onMbx n f).epochs = s.epochs := rfl
@[simp] theorem State.onMbx_hcc : (s.onMbx n f).hcc = s.hcc := rfl
@[simp] theorem State.onMbx_bel : (s.onMbx n f).bel = s.bel := rfl
@[simp] theorem State.onMbx_prt : (s.onMbx n f).prt = s.prt := rfl
@[simp] theorem State.onMbx_pending : (s.onMbx n f).pending = s.pending := rfl
@[simp] theorem State.onMbx_mbx : (s.onMbx n f).mbx = s.mbx.modify n f := rfl

end

/-! `onSig` changes `bel` and nothing else. -/

section
variable (s : State) (h : Nat) (f : Sig → Sig)

@[simp] theorem State.onSig_now : (s.onSig h f).now = s.now := rfl
@[simp] theorem State.onSig_free : (s.onSig h f).free = s.free := rfl
@[simp] theorem State.onSig_out : (s.onSig h f).out = s.out := rfl
@[simp] theorem State.onSig_isl : (s.onSig h f).isl = s.isl := rfl
@[simp] theorem State.onSig_pwr : (s.onSig h f).pwr = s.pwr := rfl
@[simp] theorem State.onSig_pads : (s.onSig h f).pads = s.pads := rfl
@[simp] theorem State.onSig_latches : (s.onSig h f).latches = s.latches := rfl
@[simp] theorem State.onSig_spr : (s.onSig h f).spr = s.spr := rfl
@[simp] theorem State.onSig_mbx : (s.onSig h f).mbx = s.mbx := rfl
@[simp] theorem State.onSig_cmds : (s.onSig h f).cmds = s.cmds := rfl
@[simp] theorem State.onSig_fw : (s.onSig h f).fw = s.fw := rfl
@[simp] theorem State.onSig_ram : (s.onSig h f).ram = s.ram := rfl
@[simp] theorem State.onSig_cap : (s.onSig h f).cap = s.cap := rfl
@[simp] theorem State.onSig_own : (s.onSig h f).own = s.own := rfl
@[simp] theorem State.onSig_sgu : (s.onSig h f).sgu = s.sgu := rfl
@[simp] theorem State.onSig_sct : (s.onSig h f).sct = s.sct := rfl
@[simp] theorem State.onSig_siteFlights : (s.onSig h f).siteFlights = s.siteFlights := rfl
@[simp] theorem State.onSig_sockets : (s.onSig h f).sockets = s.sockets := rfl
@[simp] theorem State.onSig_clusters : (s.onSig h f).clusters = s.clusters := rfl
@[simp] theorem State.onSig_mem : (s.onSig h f).mem = s.mem := rfl
@[simp] theorem State.onSig_mcc : (s.onSig h f).mcc = s.mcc := rfl
@[simp] theorem State.onSig_pcc : (s.onSig h f).pcc = s.pcc := rfl
@[simp] theorem State.onSig_nwt : (s.onSig h f).nwt = s.nwt := rfl
@[simp] theorem State.onSig_dom : (s.onSig h f).dom = s.dom := rfl
@[simp] theorem State.onSig_lc : (s.onSig h f).lc = s.lc := rfl
@[simp] theorem State.onSig_slots : (s.onSig h f).slots = s.slots := rfl
@[simp] theorem State.onSig_sets : (s.onSig h f).sets = s.sets := rfl
@[simp] theorem State.onSig_invals : (s.onSig h f).invals = s.invals := rfl
@[simp] theorem State.onSig_retireWait : (s.onSig h f).retireWait = s.retireWait := rfl
@[simp] theorem State.onSig_cpe : (s.onSig h f).cpe = s.cpe := rfl
@[simp] theorem State.onSig_att : (s.onSig h f).att = s.att := rfl
@[simp] theorem State.onSig_str : (s.onSig h f).str = s.str := rfl
@[simp] theorem State.onSig_obs : (s.onSig h f).obs = s.obs := rfl
@[simp] theorem State.onSig_ftu : (s.onSig h f).ftu = s.ftu := rfl
@[simp] theorem State.onSig_fcc : (s.onSig h f).fcc = s.fcc := rfl
@[simp] theorem State.onSig_streams : (s.onSig h f).streams = s.streams := rfl
@[simp] theorem State.onSig_epochs : (s.onSig h f).epochs = s.epochs := rfl
@[simp] theorem State.onSig_hcc : (s.onSig h f).hcc = s.hcc := rfl
@[simp] theorem State.onSig_prt : (s.onSig h f).prt = s.prt := rfl
@[simp] theorem State.onSig_pending : (s.onSig h f).pending = s.pending := rfl
@[simp] theorem State.onSig_bel : (s.onSig h f).bel = { s.bel with sigs := s.bel.sigs.modify h f } := rfl

end

/-! `onEntry` changes `streams` and nothing else. -/

section
variable (s : State) (f e : Nat) (g : FccEntry → FccEntry)

@[simp] theorem State.onEntry_now : (s.onEntry f e g).now = s.now := rfl
@[simp] theorem State.onEntry_free : (s.onEntry f e g).free = s.free := rfl
@[simp] theorem State.onEntry_out : (s.onEntry f e g).out = s.out := rfl
@[simp] theorem State.onEntry_isl : (s.onEntry f e g).isl = s.isl := rfl
@[simp] theorem State.onEntry_pwr : (s.onEntry f e g).pwr = s.pwr := rfl
@[simp] theorem State.onEntry_pads : (s.onEntry f e g).pads = s.pads := rfl
@[simp] theorem State.onEntry_latches : (s.onEntry f e g).latches = s.latches := rfl
@[simp] theorem State.onEntry_spr : (s.onEntry f e g).spr = s.spr := rfl
@[simp] theorem State.onEntry_mbx : (s.onEntry f e g).mbx = s.mbx := rfl
@[simp] theorem State.onEntry_cmds : (s.onEntry f e g).cmds = s.cmds := rfl
@[simp] theorem State.onEntry_fw : (s.onEntry f e g).fw = s.fw := rfl
@[simp] theorem State.onEntry_ram : (s.onEntry f e g).ram = s.ram := rfl
@[simp] theorem State.onEntry_cap : (s.onEntry f e g).cap = s.cap := rfl
@[simp] theorem State.onEntry_own : (s.onEntry f e g).own = s.own := rfl
@[simp] theorem State.onEntry_sgu : (s.onEntry f e g).sgu = s.sgu := rfl
@[simp] theorem State.onEntry_sct : (s.onEntry f e g).sct = s.sct := rfl
@[simp] theorem State.onEntry_siteFlights : (s.onEntry f e g).siteFlights = s.siteFlights := rfl
@[simp] theorem State.onEntry_sockets : (s.onEntry f e g).sockets = s.sockets := rfl
@[simp] theorem State.onEntry_clusters : (s.onEntry f e g).clusters = s.clusters := rfl
@[simp] theorem State.onEntry_mem : (s.onEntry f e g).mem = s.mem := rfl
@[simp] theorem State.onEntry_mcc : (s.onEntry f e g).mcc = s.mcc := rfl
@[simp] theorem State.onEntry_pcc : (s.onEntry f e g).pcc = s.pcc := rfl
@[simp] theorem State.onEntry_nwt : (s.onEntry f e g).nwt = s.nwt := rfl
@[simp] theorem State.onEntry_dom : (s.onEntry f e g).dom = s.dom := rfl
@[simp] theorem State.onEntry_lc : (s.onEntry f e g).lc = s.lc := rfl
@[simp] theorem State.onEntry_slots : (s.onEntry f e g).slots = s.slots := rfl
@[simp] theorem State.onEntry_sets : (s.onEntry f e g).sets = s.sets := rfl
@[simp] theorem State.onEntry_invals : (s.onEntry f e g).invals = s.invals := rfl
@[simp] theorem State.onEntry_retireWait : (s.onEntry f e g).retireWait = s.retireWait := rfl
@[simp] theorem State.onEntry_cpe : (s.onEntry f e g).cpe = s.cpe := rfl
@[simp] theorem State.onEntry_att : (s.onEntry f e g).att = s.att := rfl
@[simp] theorem State.onEntry_str : (s.onEntry f e g).str = s.str := rfl
@[simp] theorem State.onEntry_obs : (s.onEntry f e g).obs = s.obs := rfl
@[simp] theorem State.onEntry_ftu : (s.onEntry f e g).ftu = s.ftu := rfl
@[simp] theorem State.onEntry_fcc : (s.onEntry f e g).fcc = s.fcc := rfl
@[simp] theorem State.onEntry_epochs : (s.onEntry f e g).epochs = s.epochs := rfl
@[simp] theorem State.onEntry_hcc : (s.onEntry f e g).hcc = s.hcc := rfl
@[simp] theorem State.onEntry_bel : (s.onEntry f e g).bel = s.bel := rfl
@[simp] theorem State.onEntry_prt : (s.onEntry f e g).prt = s.prt := rfl
@[simp] theorem State.onEntry_pending : (s.onEntry f e g).pending = s.pending := rfl
@[simp] theorem State.onEntry_streams : (s.onEntry f e g).streams = s.streams.modify (streamKey f e) g := rfl

end

/-! `onFcc` changes `fcc` and nothing else. -/

section
variable (s : State) (f : Nat) (g : Fcc → Fcc)

@[simp] theorem State.onFcc_now : (s.onFcc f g).now = s.now := rfl
@[simp] theorem State.onFcc_free : (s.onFcc f g).free = s.free := rfl
@[simp] theorem State.onFcc_out : (s.onFcc f g).out = s.out := rfl
@[simp] theorem State.onFcc_isl : (s.onFcc f g).isl = s.isl := rfl
@[simp] theorem State.onFcc_pwr : (s.onFcc f g).pwr = s.pwr := rfl
@[simp] theorem State.onFcc_pads : (s.onFcc f g).pads = s.pads := rfl
@[simp] theorem State.onFcc_latches : (s.onFcc f g).latches = s.latches := rfl
@[simp] theorem State.onFcc_spr : (s.onFcc f g).spr = s.spr := rfl
@[simp] theorem State.onFcc_mbx : (s.onFcc f g).mbx = s.mbx := rfl
@[simp] theorem State.onFcc_cmds : (s.onFcc f g).cmds = s.cmds := rfl
@[simp] theorem State.onFcc_fw : (s.onFcc f g).fw = s.fw := rfl
@[simp] theorem State.onFcc_ram : (s.onFcc f g).ram = s.ram := rfl
@[simp] theorem State.onFcc_cap : (s.onFcc f g).cap = s.cap := rfl
@[simp] theorem State.onFcc_own : (s.onFcc f g).own = s.own := rfl
@[simp] theorem State.onFcc_sgu : (s.onFcc f g).sgu = s.sgu := rfl
@[simp] theorem State.onFcc_sct : (s.onFcc f g).sct = s.sct := rfl
@[simp] theorem State.onFcc_siteFlights : (s.onFcc f g).siteFlights = s.siteFlights := rfl
@[simp] theorem State.onFcc_sockets : (s.onFcc f g).sockets = s.sockets := rfl
@[simp] theorem State.onFcc_clusters : (s.onFcc f g).clusters = s.clusters := rfl
@[simp] theorem State.onFcc_mem : (s.onFcc f g).mem = s.mem := rfl
@[simp] theorem State.onFcc_mcc : (s.onFcc f g).mcc = s.mcc := rfl
@[simp] theorem State.onFcc_pcc : (s.onFcc f g).pcc = s.pcc := rfl
@[simp] theorem State.onFcc_nwt : (s.onFcc f g).nwt = s.nwt := rfl
@[simp] theorem State.onFcc_dom : (s.onFcc f g).dom = s.dom := rfl
@[simp] theorem State.onFcc_lc : (s.onFcc f g).lc = s.lc := rfl
@[simp] theorem State.onFcc_slots : (s.onFcc f g).slots = s.slots := rfl
@[simp] theorem State.onFcc_sets : (s.onFcc f g).sets = s.sets := rfl
@[simp] theorem State.onFcc_invals : (s.onFcc f g).invals = s.invals := rfl
@[simp] theorem State.onFcc_retireWait : (s.onFcc f g).retireWait = s.retireWait := rfl
@[simp] theorem State.onFcc_cpe : (s.onFcc f g).cpe = s.cpe := rfl
@[simp] theorem State.onFcc_att : (s.onFcc f g).att = s.att := rfl
@[simp] theorem State.onFcc_str : (s.onFcc f g).str = s.str := rfl
@[simp] theorem State.onFcc_obs : (s.onFcc f g).obs = s.obs := rfl
@[simp] theorem State.onFcc_ftu : (s.onFcc f g).ftu = s.ftu := rfl
@[simp] theorem State.onFcc_streams : (s.onFcc f g).streams = s.streams := rfl
@[simp] theorem State.onFcc_epochs : (s.onFcc f g).epochs = s.epochs := rfl
@[simp] theorem State.onFcc_hcc : (s.onFcc f g).hcc = s.hcc := rfl
@[simp] theorem State.onFcc_bel : (s.onFcc f g).bel = s.bel := rfl
@[simp] theorem State.onFcc_prt : (s.onFcc f g).prt = s.prt := rfl
@[simp] theorem State.onFcc_pending : (s.onFcc f g).pending = s.pending := rfl
@[simp] theorem State.onFcc_fcc : (s.onFcc f g).fcc = s.fcc.modify f g := rfl

end

/-! `onFtu` changes `ftu` and nothing else. -/

section
variable (s : State) (f : Ftu → Ftu)

@[simp] theorem State.onFtu_now : (s.onFtu f).now = s.now := rfl
@[simp] theorem State.onFtu_free : (s.onFtu f).free = s.free := rfl
@[simp] theorem State.onFtu_out : (s.onFtu f).out = s.out := rfl
@[simp] theorem State.onFtu_isl : (s.onFtu f).isl = s.isl := rfl
@[simp] theorem State.onFtu_pwr : (s.onFtu f).pwr = s.pwr := rfl
@[simp] theorem State.onFtu_pads : (s.onFtu f).pads = s.pads := rfl
@[simp] theorem State.onFtu_latches : (s.onFtu f).latches = s.latches := rfl
@[simp] theorem State.onFtu_spr : (s.onFtu f).spr = s.spr := rfl
@[simp] theorem State.onFtu_mbx : (s.onFtu f).mbx = s.mbx := rfl
@[simp] theorem State.onFtu_cmds : (s.onFtu f).cmds = s.cmds := rfl
@[simp] theorem State.onFtu_fw : (s.onFtu f).fw = s.fw := rfl
@[simp] theorem State.onFtu_ram : (s.onFtu f).ram = s.ram := rfl
@[simp] theorem State.onFtu_cap : (s.onFtu f).cap = s.cap := rfl
@[simp] theorem State.onFtu_own : (s.onFtu f).own = s.own := rfl
@[simp] theorem State.onFtu_sgu : (s.onFtu f).sgu = s.sgu := rfl
@[simp] theorem State.onFtu_sct : (s.onFtu f).sct = s.sct := rfl
@[simp] theorem State.onFtu_siteFlights : (s.onFtu f).siteFlights = s.siteFlights := rfl
@[simp] theorem State.onFtu_sockets : (s.onFtu f).sockets = s.sockets := rfl
@[simp] theorem State.onFtu_clusters : (s.onFtu f).clusters = s.clusters := rfl
@[simp] theorem State.onFtu_mem : (s.onFtu f).mem = s.mem := rfl
@[simp] theorem State.onFtu_mcc : (s.onFtu f).mcc = s.mcc := rfl
@[simp] theorem State.onFtu_pcc : (s.onFtu f).pcc = s.pcc := rfl
@[simp] theorem State.onFtu_nwt : (s.onFtu f).nwt = s.nwt := rfl
@[simp] theorem State.onFtu_dom : (s.onFtu f).dom = s.dom := rfl
@[simp] theorem State.onFtu_lc : (s.onFtu f).lc = s.lc := rfl
@[simp] theorem State.onFtu_slots : (s.onFtu f).slots = s.slots := rfl
@[simp] theorem State.onFtu_sets : (s.onFtu f).sets = s.sets := rfl
@[simp] theorem State.onFtu_invals : (s.onFtu f).invals = s.invals := rfl
@[simp] theorem State.onFtu_retireWait : (s.onFtu f).retireWait = s.retireWait := rfl
@[simp] theorem State.onFtu_cpe : (s.onFtu f).cpe = s.cpe := rfl
@[simp] theorem State.onFtu_att : (s.onFtu f).att = s.att := rfl
@[simp] theorem State.onFtu_str : (s.onFtu f).str = s.str := rfl
@[simp] theorem State.onFtu_obs : (s.onFtu f).obs = s.obs := rfl
@[simp] theorem State.onFtu_fcc : (s.onFtu f).fcc = s.fcc := rfl
@[simp] theorem State.onFtu_streams : (s.onFtu f).streams = s.streams := rfl
@[simp] theorem State.onFtu_epochs : (s.onFtu f).epochs = s.epochs := rfl
@[simp] theorem State.onFtu_hcc : (s.onFtu f).hcc = s.hcc := rfl
@[simp] theorem State.onFtu_bel : (s.onFtu f).bel = s.bel := rfl
@[simp] theorem State.onFtu_prt : (s.onFtu f).prt = s.prt := rfl
@[simp] theorem State.onFtu_pending : (s.onFtu f).pending = s.pending := rfl
@[simp] theorem State.onFtu_ftu : (s.onFtu f).ftu = f s.ftu := rfl

end

/-! `onGov` changes `spr` and nothing else. -/

section
variable (s : State) (f : Governor → Governor)

@[simp] theorem State.onGov_now : (s.onGov f).now = s.now := rfl
@[simp] theorem State.onGov_free : (s.onGov f).free = s.free := rfl
@[simp] theorem State.onGov_out : (s.onGov f).out = s.out := rfl
@[simp] theorem State.onGov_isl : (s.onGov f).isl = s.isl := rfl
@[simp] theorem State.onGov_pwr : (s.onGov f).pwr = s.pwr := rfl
@[simp] theorem State.onGov_pads : (s.onGov f).pads = s.pads := rfl
@[simp] theorem State.onGov_latches : (s.onGov f).latches = s.latches := rfl
@[simp] theorem State.onGov_mbx : (s.onGov f).mbx = s.mbx := rfl
@[simp] theorem State.onGov_cmds : (s.onGov f).cmds = s.cmds := rfl
@[simp] theorem State.onGov_fw : (s.onGov f).fw = s.fw := rfl
@[simp] theorem State.onGov_ram : (s.onGov f).ram = s.ram := rfl
@[simp] theorem State.onGov_cap : (s.onGov f).cap = s.cap := rfl
@[simp] theorem State.onGov_own : (s.onGov f).own = s.own := rfl
@[simp] theorem State.onGov_sgu : (s.onGov f).sgu = s.sgu := rfl
@[simp] theorem State.onGov_sct : (s.onGov f).sct = s.sct := rfl
@[simp] theorem State.onGov_siteFlights : (s.onGov f).siteFlights = s.siteFlights := rfl
@[simp] theorem State.onGov_sockets : (s.onGov f).sockets = s.sockets := rfl
@[simp] theorem State.onGov_clusters : (s.onGov f).clusters = s.clusters := rfl
@[simp] theorem State.onGov_mem : (s.onGov f).mem = s.mem := rfl
@[simp] theorem State.onGov_mcc : (s.onGov f).mcc = s.mcc := rfl
@[simp] theorem State.onGov_pcc : (s.onGov f).pcc = s.pcc := rfl
@[simp] theorem State.onGov_nwt : (s.onGov f).nwt = s.nwt := rfl
@[simp] theorem State.onGov_dom : (s.onGov f).dom = s.dom := rfl
@[simp] theorem State.onGov_lc : (s.onGov f).lc = s.lc := rfl
@[simp] theorem State.onGov_slots : (s.onGov f).slots = s.slots := rfl
@[simp] theorem State.onGov_sets : (s.onGov f).sets = s.sets := rfl
@[simp] theorem State.onGov_invals : (s.onGov f).invals = s.invals := rfl
@[simp] theorem State.onGov_retireWait : (s.onGov f).retireWait = s.retireWait := rfl
@[simp] theorem State.onGov_cpe : (s.onGov f).cpe = s.cpe := rfl
@[simp] theorem State.onGov_att : (s.onGov f).att = s.att := rfl
@[simp] theorem State.onGov_str : (s.onGov f).str = s.str := rfl
@[simp] theorem State.onGov_obs : (s.onGov f).obs = s.obs := rfl
@[simp] theorem State.onGov_ftu : (s.onGov f).ftu = s.ftu := rfl
@[simp] theorem State.onGov_fcc : (s.onGov f).fcc = s.fcc := rfl
@[simp] theorem State.onGov_streams : (s.onGov f).streams = s.streams := rfl
@[simp] theorem State.onGov_epochs : (s.onGov f).epochs = s.epochs := rfl
@[simp] theorem State.onGov_hcc : (s.onGov f).hcc = s.hcc := rfl
@[simp] theorem State.onGov_bel : (s.onGov f).bel = s.bel := rfl
@[simp] theorem State.onGov_prt : (s.onGov f).prt = s.prt := rfl
@[simp] theorem State.onGov_pending : (s.onGov f).pending = s.pending := rfl
@[simp] theorem State.onGov_spr : (s.onGov f).spr = { s.spr with gov := f s.spr.gov } := rfl

end

/-! `onHcc` changes `hcc` and nothing else. -/

section
variable (s : State) (f : Hcc → Hcc)

@[simp] theorem State.onHcc_now : (s.onHcc f).now = s.now := rfl
@[simp] theorem State.onHcc_free : (s.onHcc f).free = s.free := rfl
@[simp] theorem State.onHcc_out : (s.onHcc f).out = s.out := rfl
@[simp] theorem State.onHcc_isl : (s.onHcc f).isl = s.isl := rfl
@[simp] theorem State.onHcc_pwr : (s.onHcc f).pwr = s.pwr := rfl
@[simp] theorem State.onHcc_pads : (s.onHcc f).pads = s.pads := rfl
@[simp] theorem State.onHcc_latches : (s.onHcc f).latches = s.latches := rfl
@[simp] theorem State.onHcc_spr : (s.onHcc f).spr = s.spr := rfl
@[simp] theorem State.onHcc_mbx : (s.onHcc f).mbx = s.mbx := rfl
@[simp] theorem State.onHcc_cmds : (s.onHcc f).cmds = s.cmds := rfl
@[simp] theorem State.onHcc_fw : (s.onHcc f).fw = s.fw := rfl
@[simp] theorem State.onHcc_ram : (s.onHcc f).ram = s.ram := rfl
@[simp] theorem State.onHcc_cap : (s.onHcc f).cap = s.cap := rfl
@[simp] theorem State.onHcc_own : (s.onHcc f).own = s.own := rfl
@[simp] theorem State.onHcc_sgu : (s.onHcc f).sgu = s.sgu := rfl
@[simp] theorem State.onHcc_sct : (s.onHcc f).sct = s.sct := rfl
@[simp] theorem State.onHcc_siteFlights : (s.onHcc f).siteFlights = s.siteFlights := rfl
@[simp] theorem State.onHcc_sockets : (s.onHcc f).sockets = s.sockets := rfl
@[simp] theorem State.onHcc_clusters : (s.onHcc f).clusters = s.clusters := rfl
@[simp] theorem State.onHcc_mem : (s.onHcc f).mem = s.mem := rfl
@[simp] theorem State.onHcc_mcc : (s.onHcc f).mcc = s.mcc := rfl
@[simp] theorem State.onHcc_pcc : (s.onHcc f).pcc = s.pcc := rfl
@[simp] theorem State.onHcc_nwt : (s.onHcc f).nwt = s.nwt := rfl
@[simp] theorem State.onHcc_dom : (s.onHcc f).dom = s.dom := rfl
@[simp] theorem State.onHcc_lc : (s.onHcc f).lc = s.lc := rfl
@[simp] theorem State.onHcc_slots : (s.onHcc f).slots = s.slots := rfl
@[simp] theorem State.onHcc_sets : (s.onHcc f).sets = s.sets := rfl
@[simp] theorem State.onHcc_invals : (s.onHcc f).invals = s.invals := rfl
@[simp] theorem State.onHcc_retireWait : (s.onHcc f).retireWait = s.retireWait := rfl
@[simp] theorem State.onHcc_cpe : (s.onHcc f).cpe = s.cpe := rfl
@[simp] theorem State.onHcc_att : (s.onHcc f).att = s.att := rfl
@[simp] theorem State.onHcc_str : (s.onHcc f).str = s.str := rfl
@[simp] theorem State.onHcc_obs : (s.onHcc f).obs = s.obs := rfl
@[simp] theorem State.onHcc_ftu : (s.onHcc f).ftu = s.ftu := rfl
@[simp] theorem State.onHcc_fcc : (s.onHcc f).fcc = s.fcc := rfl
@[simp] theorem State.onHcc_streams : (s.onHcc f).streams = s.streams := rfl
@[simp] theorem State.onHcc_epochs : (s.onHcc f).epochs = s.epochs := rfl
@[simp] theorem State.onHcc_bel : (s.onHcc f).bel = s.bel := rfl
@[simp] theorem State.onHcc_prt : (s.onHcc f).prt = s.prt := rfl
@[simp] theorem State.onHcc_pending : (s.onHcc f).pending = s.pending := rfl
@[simp] theorem State.onHcc_hcc : (s.onHcc f).hcc = f s.hcc := rfl

end

/-! `onCtx` changes `hcc` and nothing else. -/

section
variable (s : State) (n : Nat) (f : IdeCtx → IdeCtx)

@[simp] theorem State.onCtx_now : (s.onCtx n f).now = s.now := rfl
@[simp] theorem State.onCtx_free : (s.onCtx n f).free = s.free := rfl
@[simp] theorem State.onCtx_out : (s.onCtx n f).out = s.out := rfl
@[simp] theorem State.onCtx_isl : (s.onCtx n f).isl = s.isl := rfl
@[simp] theorem State.onCtx_pwr : (s.onCtx n f).pwr = s.pwr := rfl
@[simp] theorem State.onCtx_pads : (s.onCtx n f).pads = s.pads := rfl
@[simp] theorem State.onCtx_latches : (s.onCtx n f).latches = s.latches := rfl
@[simp] theorem State.onCtx_spr : (s.onCtx n f).spr = s.spr := rfl
@[simp] theorem State.onCtx_mbx : (s.onCtx n f).mbx = s.mbx := rfl
@[simp] theorem State.onCtx_cmds : (s.onCtx n f).cmds = s.cmds := rfl
@[simp] theorem State.onCtx_fw : (s.onCtx n f).fw = s.fw := rfl
@[simp] theorem State.onCtx_ram : (s.onCtx n f).ram = s.ram := rfl
@[simp] theorem State.onCtx_cap : (s.onCtx n f).cap = s.cap := rfl
@[simp] theorem State.onCtx_own : (s.onCtx n f).own = s.own := rfl
@[simp] theorem State.onCtx_sgu : (s.onCtx n f).sgu = s.sgu := rfl
@[simp] theorem State.onCtx_sct : (s.onCtx n f).sct = s.sct := rfl
@[simp] theorem State.onCtx_siteFlights : (s.onCtx n f).siteFlights = s.siteFlights := rfl
@[simp] theorem State.onCtx_sockets : (s.onCtx n f).sockets = s.sockets := rfl
@[simp] theorem State.onCtx_clusters : (s.onCtx n f).clusters = s.clusters := rfl
@[simp] theorem State.onCtx_mem : (s.onCtx n f).mem = s.mem := rfl
@[simp] theorem State.onCtx_mcc : (s.onCtx n f).mcc = s.mcc := rfl
@[simp] theorem State.onCtx_pcc : (s.onCtx n f).pcc = s.pcc := rfl
@[simp] theorem State.onCtx_nwt : (s.onCtx n f).nwt = s.nwt := rfl
@[simp] theorem State.onCtx_dom : (s.onCtx n f).dom = s.dom := rfl
@[simp] theorem State.onCtx_lc : (s.onCtx n f).lc = s.lc := rfl
@[simp] theorem State.onCtx_slots : (s.onCtx n f).slots = s.slots := rfl
@[simp] theorem State.onCtx_sets : (s.onCtx n f).sets = s.sets := rfl
@[simp] theorem State.onCtx_invals : (s.onCtx n f).invals = s.invals := rfl
@[simp] theorem State.onCtx_retireWait : (s.onCtx n f).retireWait = s.retireWait := rfl
@[simp] theorem State.onCtx_cpe : (s.onCtx n f).cpe = s.cpe := rfl
@[simp] theorem State.onCtx_att : (s.onCtx n f).att = s.att := rfl
@[simp] theorem State.onCtx_str : (s.onCtx n f).str = s.str := rfl
@[simp] theorem State.onCtx_obs : (s.onCtx n f).obs = s.obs := rfl
@[simp] theorem State.onCtx_ftu : (s.onCtx n f).ftu = s.ftu := rfl
@[simp] theorem State.onCtx_fcc : (s.onCtx n f).fcc = s.fcc := rfl
@[simp] theorem State.onCtx_streams : (s.onCtx n f).streams = s.streams := rfl
@[simp] theorem State.onCtx_epochs : (s.onCtx n f).epochs = s.epochs := rfl
@[simp] theorem State.onCtx_bel : (s.onCtx n f).bel = s.bel := rfl
@[simp] theorem State.onCtx_prt : (s.onCtx n f).prt = s.prt := rfl
@[simp] theorem State.onCtx_pending : (s.onCtx n f).pending = s.pending := rfl
@[simp] theorem State.onCtx_hcc : (s.onCtx n f).hcc = { s.hcc with ctxs := s.hcc.ctxs.modify n f } := rfl

end

/-! `onTdi` changes `hcc` and nothing else. -/

section
variable (s : State) (p : Nat) (f : Tdi → Tdi)

@[simp] theorem State.onTdi_now : (s.onTdi p f).now = s.now := rfl
@[simp] theorem State.onTdi_free : (s.onTdi p f).free = s.free := rfl
@[simp] theorem State.onTdi_out : (s.onTdi p f).out = s.out := rfl
@[simp] theorem State.onTdi_isl : (s.onTdi p f).isl = s.isl := rfl
@[simp] theorem State.onTdi_pwr : (s.onTdi p f).pwr = s.pwr := rfl
@[simp] theorem State.onTdi_pads : (s.onTdi p f).pads = s.pads := rfl
@[simp] theorem State.onTdi_latches : (s.onTdi p f).latches = s.latches := rfl
@[simp] theorem State.onTdi_spr : (s.onTdi p f).spr = s.spr := rfl
@[simp] theorem State.onTdi_mbx : (s.onTdi p f).mbx = s.mbx := rfl
@[simp] theorem State.onTdi_cmds : (s.onTdi p f).cmds = s.cmds := rfl
@[simp] theorem State.onTdi_fw : (s.onTdi p f).fw = s.fw := rfl
@[simp] theorem State.onTdi_ram : (s.onTdi p f).ram = s.ram := rfl
@[simp] theorem State.onTdi_cap : (s.onTdi p f).cap = s.cap := rfl
@[simp] theorem State.onTdi_own : (s.onTdi p f).own = s.own := rfl
@[simp] theorem State.onTdi_sgu : (s.onTdi p f).sgu = s.sgu := rfl
@[simp] theorem State.onTdi_sct : (s.onTdi p f).sct = s.sct := rfl
@[simp] theorem State.onTdi_siteFlights : (s.onTdi p f).siteFlights = s.siteFlights := rfl
@[simp] theorem State.onTdi_sockets : (s.onTdi p f).sockets = s.sockets := rfl
@[simp] theorem State.onTdi_clusters : (s.onTdi p f).clusters = s.clusters := rfl
@[simp] theorem State.onTdi_mem : (s.onTdi p f).mem = s.mem := rfl
@[simp] theorem State.onTdi_mcc : (s.onTdi p f).mcc = s.mcc := rfl
@[simp] theorem State.onTdi_pcc : (s.onTdi p f).pcc = s.pcc := rfl
@[simp] theorem State.onTdi_nwt : (s.onTdi p f).nwt = s.nwt := rfl
@[simp] theorem State.onTdi_dom : (s.onTdi p f).dom = s.dom := rfl
@[simp] theorem State.onTdi_lc : (s.onTdi p f).lc = s.lc := rfl
@[simp] theorem State.onTdi_slots : (s.onTdi p f).slots = s.slots := rfl
@[simp] theorem State.onTdi_sets : (s.onTdi p f).sets = s.sets := rfl
@[simp] theorem State.onTdi_invals : (s.onTdi p f).invals = s.invals := rfl
@[simp] theorem State.onTdi_retireWait : (s.onTdi p f).retireWait = s.retireWait := rfl
@[simp] theorem State.onTdi_cpe : (s.onTdi p f).cpe = s.cpe := rfl
@[simp] theorem State.onTdi_att : (s.onTdi p f).att = s.att := rfl
@[simp] theorem State.onTdi_str : (s.onTdi p f).str = s.str := rfl
@[simp] theorem State.onTdi_obs : (s.onTdi p f).obs = s.obs := rfl
@[simp] theorem State.onTdi_ftu : (s.onTdi p f).ftu = s.ftu := rfl
@[simp] theorem State.onTdi_fcc : (s.onTdi p f).fcc = s.fcc := rfl
@[simp] theorem State.onTdi_streams : (s.onTdi p f).streams = s.streams := rfl
@[simp] theorem State.onTdi_epochs : (s.onTdi p f).epochs = s.epochs := rfl
@[simp] theorem State.onTdi_bel : (s.onTdi p f).bel = s.bel := rfl
@[simp] theorem State.onTdi_prt : (s.onTdi p f).prt = s.prt := rfl
@[simp] theorem State.onTdi_pending : (s.onTdi p f).pending = s.pending := rfl
@[simp] theorem State.onTdi_hcc : (s.onTdi p f).hcc = { s.hcc with tdis := s.hcc.tdis.modify p f } := rfl

end

/-! `onMove` changes `nwt` and nothing else. -/

section
variable (s : State) (x : Nat) (f : Move → Move)

@[simp] theorem State.onMove_now : (s.onMove x f).now = s.now := rfl
@[simp] theorem State.onMove_free : (s.onMove x f).free = s.free := rfl
@[simp] theorem State.onMove_out : (s.onMove x f).out = s.out := rfl
@[simp] theorem State.onMove_isl : (s.onMove x f).isl = s.isl := rfl
@[simp] theorem State.onMove_pwr : (s.onMove x f).pwr = s.pwr := rfl
@[simp] theorem State.onMove_pads : (s.onMove x f).pads = s.pads := rfl
@[simp] theorem State.onMove_latches : (s.onMove x f).latches = s.latches := rfl
@[simp] theorem State.onMove_spr : (s.onMove x f).spr = s.spr := rfl
@[simp] theorem State.onMove_mbx : (s.onMove x f).mbx = s.mbx := rfl
@[simp] theorem State.onMove_cmds : (s.onMove x f).cmds = s.cmds := rfl
@[simp] theorem State.onMove_fw : (s.onMove x f).fw = s.fw := rfl
@[simp] theorem State.onMove_ram : (s.onMove x f).ram = s.ram := rfl
@[simp] theorem State.onMove_cap : (s.onMove x f).cap = s.cap := rfl
@[simp] theorem State.onMove_own : (s.onMove x f).own = s.own := rfl
@[simp] theorem State.onMove_sgu : (s.onMove x f).sgu = s.sgu := rfl
@[simp] theorem State.onMove_sct : (s.onMove x f).sct = s.sct := rfl
@[simp] theorem State.onMove_siteFlights : (s.onMove x f).siteFlights = s.siteFlights := rfl
@[simp] theorem State.onMove_sockets : (s.onMove x f).sockets = s.sockets := rfl
@[simp] theorem State.onMove_clusters : (s.onMove x f).clusters = s.clusters := rfl
@[simp] theorem State.onMove_mem : (s.onMove x f).mem = s.mem := rfl
@[simp] theorem State.onMove_mcc : (s.onMove x f).mcc = s.mcc := rfl
@[simp] theorem State.onMove_pcc : (s.onMove x f).pcc = s.pcc := rfl
@[simp] theorem State.onMove_dom : (s.onMove x f).dom = s.dom := rfl
@[simp] theorem State.onMove_lc : (s.onMove x f).lc = s.lc := rfl
@[simp] theorem State.onMove_slots : (s.onMove x f).slots = s.slots := rfl
@[simp] theorem State.onMove_sets : (s.onMove x f).sets = s.sets := rfl
@[simp] theorem State.onMove_invals : (s.onMove x f).invals = s.invals := rfl
@[simp] theorem State.onMove_retireWait : (s.onMove x f).retireWait = s.retireWait := rfl
@[simp] theorem State.onMove_cpe : (s.onMove x f).cpe = s.cpe := rfl
@[simp] theorem State.onMove_att : (s.onMove x f).att = s.att := rfl
@[simp] theorem State.onMove_str : (s.onMove x f).str = s.str := rfl
@[simp] theorem State.onMove_obs : (s.onMove x f).obs = s.obs := rfl
@[simp] theorem State.onMove_ftu : (s.onMove x f).ftu = s.ftu := rfl
@[simp] theorem State.onMove_fcc : (s.onMove x f).fcc = s.fcc := rfl
@[simp] theorem State.onMove_streams : (s.onMove x f).streams = s.streams := rfl
@[simp] theorem State.onMove_epochs : (s.onMove x f).epochs = s.epochs := rfl
@[simp] theorem State.onMove_hcc : (s.onMove x f).hcc = s.hcc := rfl
@[simp] theorem State.onMove_bel : (s.onMove x f).bel = s.bel := rfl
@[simp] theorem State.onMove_prt : (s.onMove x f).prt = s.prt := rfl
@[simp] theorem State.onMove_pending : (s.onMove x f).pending = s.pending := rfl
@[simp] theorem State.onMove_nwt : (s.onMove x f).nwt = { s.nwt with moves := s.nwt.moves.modify x f } := rfl

end

/-! `onPrt` changes `prt` and nothing else. -/

section
variable (s : State) (f : Parts → Parts)

@[simp] theorem State.onPrt_now : (s.onPrt f).now = s.now := rfl
@[simp] theorem State.onPrt_free : (s.onPrt f).free = s.free := rfl
@[simp] theorem State.onPrt_out : (s.onPrt f).out = s.out := rfl
@[simp] theorem State.onPrt_isl : (s.onPrt f).isl = s.isl := rfl
@[simp] theorem State.onPrt_pwr : (s.onPrt f).pwr = s.pwr := rfl
@[simp] theorem State.onPrt_pads : (s.onPrt f).pads = s.pads := rfl
@[simp] theorem State.onPrt_latches : (s.onPrt f).latches = s.latches := rfl
@[simp] theorem State.onPrt_spr : (s.onPrt f).spr = s.spr := rfl
@[simp] theorem State.onPrt_mbx : (s.onPrt f).mbx = s.mbx := rfl
@[simp] theorem State.onPrt_cmds : (s.onPrt f).cmds = s.cmds := rfl
@[simp] theorem State.onPrt_fw : (s.onPrt f).fw = s.fw := rfl
@[simp] theorem State.onPrt_ram : (s.onPrt f).ram = s.ram := rfl
@[simp] theorem State.onPrt_cap : (s.onPrt f).cap = s.cap := rfl
@[simp] theorem State.onPrt_own : (s.onPrt f).own = s.own := rfl
@[simp] theorem State.onPrt_sgu : (s.onPrt f).sgu = s.sgu := rfl
@[simp] theorem State.onPrt_sct : (s.onPrt f).sct = s.sct := rfl
@[simp] theorem State.onPrt_siteFlights : (s.onPrt f).siteFlights = s.siteFlights := rfl
@[simp] theorem State.onPrt_sockets : (s.onPrt f).sockets = s.sockets := rfl
@[simp] theorem State.onPrt_clusters : (s.onPrt f).clusters = s.clusters := rfl
@[simp] theorem State.onPrt_mem : (s.onPrt f).mem = s.mem := rfl
@[simp] theorem State.onPrt_mcc : (s.onPrt f).mcc = s.mcc := rfl
@[simp] theorem State.onPrt_pcc : (s.onPrt f).pcc = s.pcc := rfl
@[simp] theorem State.onPrt_nwt : (s.onPrt f).nwt = s.nwt := rfl
@[simp] theorem State.onPrt_dom : (s.onPrt f).dom = s.dom := rfl
@[simp] theorem State.onPrt_lc : (s.onPrt f).lc = s.lc := rfl
@[simp] theorem State.onPrt_slots : (s.onPrt f).slots = s.slots := rfl
@[simp] theorem State.onPrt_sets : (s.onPrt f).sets = s.sets := rfl
@[simp] theorem State.onPrt_invals : (s.onPrt f).invals = s.invals := rfl
@[simp] theorem State.onPrt_retireWait : (s.onPrt f).retireWait = s.retireWait := rfl
@[simp] theorem State.onPrt_cpe : (s.onPrt f).cpe = s.cpe := rfl
@[simp] theorem State.onPrt_att : (s.onPrt f).att = s.att := rfl
@[simp] theorem State.onPrt_str : (s.onPrt f).str = s.str := rfl
@[simp] theorem State.onPrt_obs : (s.onPrt f).obs = s.obs := rfl
@[simp] theorem State.onPrt_ftu : (s.onPrt f).ftu = s.ftu := rfl
@[simp] theorem State.onPrt_fcc : (s.onPrt f).fcc = s.fcc := rfl
@[simp] theorem State.onPrt_streams : (s.onPrt f).streams = s.streams := rfl
@[simp] theorem State.onPrt_epochs : (s.onPrt f).epochs = s.epochs := rfl
@[simp] theorem State.onPrt_hcc : (s.onPrt f).hcc = s.hcc := rfl
@[simp] theorem State.onPrt_bel : (s.onPrt f).bel = s.bel := rfl
@[simp] theorem State.onPrt_pending : (s.onPrt f).pending = s.pending := rfl
@[simp] theorem State.onPrt_prt : (s.onPrt f).prt = f s.prt := rfl

end

/-! `onPart` changes `prt` and nothing else. -/

section
variable (s : State) (p : Nat) (f : Part → Part)

@[simp] theorem State.onPart_now : (s.onPart p f).now = s.now := rfl
@[simp] theorem State.onPart_free : (s.onPart p f).free = s.free := rfl
@[simp] theorem State.onPart_out : (s.onPart p f).out = s.out := rfl
@[simp] theorem State.onPart_isl : (s.onPart p f).isl = s.isl := rfl
@[simp] theorem State.onPart_pwr : (s.onPart p f).pwr = s.pwr := rfl
@[simp] theorem State.onPart_pads : (s.onPart p f).pads = s.pads := rfl
@[simp] theorem State.onPart_latches : (s.onPart p f).latches = s.latches := rfl
@[simp] theorem State.onPart_spr : (s.onPart p f).spr = s.spr := rfl
@[simp] theorem State.onPart_mbx : (s.onPart p f).mbx = s.mbx := rfl
@[simp] theorem State.onPart_cmds : (s.onPart p f).cmds = s.cmds := rfl
@[simp] theorem State.onPart_fw : (s.onPart p f).fw = s.fw := rfl
@[simp] theorem State.onPart_ram : (s.onPart p f).ram = s.ram := rfl
@[simp] theorem State.onPart_cap : (s.onPart p f).cap = s.cap := rfl
@[simp] theorem State.onPart_own : (s.onPart p f).own = s.own := rfl
@[simp] theorem State.onPart_sgu : (s.onPart p f).sgu = s.sgu := rfl
@[simp] theorem State.onPart_sct : (s.onPart p f).sct = s.sct := rfl
@[simp] theorem State.onPart_siteFlights : (s.onPart p f).siteFlights = s.siteFlights := rfl
@[simp] theorem State.onPart_sockets : (s.onPart p f).sockets = s.sockets := rfl
@[simp] theorem State.onPart_clusters : (s.onPart p f).clusters = s.clusters := rfl
@[simp] theorem State.onPart_mem : (s.onPart p f).mem = s.mem := rfl
@[simp] theorem State.onPart_mcc : (s.onPart p f).mcc = s.mcc := rfl
@[simp] theorem State.onPart_pcc : (s.onPart p f).pcc = s.pcc := rfl
@[simp] theorem State.onPart_nwt : (s.onPart p f).nwt = s.nwt := rfl
@[simp] theorem State.onPart_dom : (s.onPart p f).dom = s.dom := rfl
@[simp] theorem State.onPart_lc : (s.onPart p f).lc = s.lc := rfl
@[simp] theorem State.onPart_slots : (s.onPart p f).slots = s.slots := rfl
@[simp] theorem State.onPart_sets : (s.onPart p f).sets = s.sets := rfl
@[simp] theorem State.onPart_invals : (s.onPart p f).invals = s.invals := rfl
@[simp] theorem State.onPart_retireWait : (s.onPart p f).retireWait = s.retireWait := rfl
@[simp] theorem State.onPart_cpe : (s.onPart p f).cpe = s.cpe := rfl
@[simp] theorem State.onPart_att : (s.onPart p f).att = s.att := rfl
@[simp] theorem State.onPart_str : (s.onPart p f).str = s.str := rfl
@[simp] theorem State.onPart_obs : (s.onPart p f).obs = s.obs := rfl
@[simp] theorem State.onPart_ftu : (s.onPart p f).ftu = s.ftu := rfl
@[simp] theorem State.onPart_fcc : (s.onPart p f).fcc = s.fcc := rfl
@[simp] theorem State.onPart_streams : (s.onPart p f).streams = s.streams := rfl
@[simp] theorem State.onPart_epochs : (s.onPart p f).epochs = s.epochs := rfl
@[simp] theorem State.onPart_hcc : (s.onPart p f).hcc = s.hcc := rfl
@[simp] theorem State.onPart_bel : (s.onPart p f).bel = s.bel := rfl
@[simp] theorem State.onPart_pending : (s.onPart p f).pending = s.pending := rfl
@[simp] theorem State.onPart_prt : (s.onPart p f).prt = { s.prt with parts := s.prt.parts.modify p f } := rfl

end

/-! `onRegion` changes `prt` and nothing else. -/

section
variable (s : State) (r : Nat) (f : Region → Region)

@[simp] theorem State.onRegion_now : (s.onRegion r f).now = s.now := rfl
@[simp] theorem State.onRegion_free : (s.onRegion r f).free = s.free := rfl
@[simp] theorem State.onRegion_out : (s.onRegion r f).out = s.out := rfl
@[simp] theorem State.onRegion_isl : (s.onRegion r f).isl = s.isl := rfl
@[simp] theorem State.onRegion_pwr : (s.onRegion r f).pwr = s.pwr := rfl
@[simp] theorem State.onRegion_pads : (s.onRegion r f).pads = s.pads := rfl
@[simp] theorem State.onRegion_latches : (s.onRegion r f).latches = s.latches := rfl
@[simp] theorem State.onRegion_spr : (s.onRegion r f).spr = s.spr := rfl
@[simp] theorem State.onRegion_mbx : (s.onRegion r f).mbx = s.mbx := rfl
@[simp] theorem State.onRegion_cmds : (s.onRegion r f).cmds = s.cmds := rfl
@[simp] theorem State.onRegion_fw : (s.onRegion r f).fw = s.fw := rfl
@[simp] theorem State.onRegion_ram : (s.onRegion r f).ram = s.ram := rfl
@[simp] theorem State.onRegion_cap : (s.onRegion r f).cap = s.cap := rfl
@[simp] theorem State.onRegion_own : (s.onRegion r f).own = s.own := rfl
@[simp] theorem State.onRegion_sgu : (s.onRegion r f).sgu = s.sgu := rfl
@[simp] theorem State.onRegion_sct : (s.onRegion r f).sct = s.sct := rfl
@[simp] theorem State.onRegion_siteFlights : (s.onRegion r f).siteFlights = s.siteFlights := rfl
@[simp] theorem State.onRegion_sockets : (s.onRegion r f).sockets = s.sockets := rfl
@[simp] theorem State.onRegion_clusters : (s.onRegion r f).clusters = s.clusters := rfl
@[simp] theorem State.onRegion_mem : (s.onRegion r f).mem = s.mem := rfl
@[simp] theorem State.onRegion_mcc : (s.onRegion r f).mcc = s.mcc := rfl
@[simp] theorem State.onRegion_pcc : (s.onRegion r f).pcc = s.pcc := rfl
@[simp] theorem State.onRegion_nwt : (s.onRegion r f).nwt = s.nwt := rfl
@[simp] theorem State.onRegion_dom : (s.onRegion r f).dom = s.dom := rfl
@[simp] theorem State.onRegion_lc : (s.onRegion r f).lc = s.lc := rfl
@[simp] theorem State.onRegion_slots : (s.onRegion r f).slots = s.slots := rfl
@[simp] theorem State.onRegion_sets : (s.onRegion r f).sets = s.sets := rfl
@[simp] theorem State.onRegion_invals : (s.onRegion r f).invals = s.invals := rfl
@[simp] theorem State.onRegion_retireWait : (s.onRegion r f).retireWait = s.retireWait := rfl
@[simp] theorem State.onRegion_cpe : (s.onRegion r f).cpe = s.cpe := rfl
@[simp] theorem State.onRegion_att : (s.onRegion r f).att = s.att := rfl
@[simp] theorem State.onRegion_str : (s.onRegion r f).str = s.str := rfl
@[simp] theorem State.onRegion_obs : (s.onRegion r f).obs = s.obs := rfl
@[simp] theorem State.onRegion_ftu : (s.onRegion r f).ftu = s.ftu := rfl
@[simp] theorem State.onRegion_fcc : (s.onRegion r f).fcc = s.fcc := rfl
@[simp] theorem State.onRegion_streams : (s.onRegion r f).streams = s.streams := rfl
@[simp] theorem State.onRegion_epochs : (s.onRegion r f).epochs = s.epochs := rfl
@[simp] theorem State.onRegion_hcc : (s.onRegion r f).hcc = s.hcc := rfl
@[simp] theorem State.onRegion_bel : (s.onRegion r f).bel = s.bel := rfl
@[simp] theorem State.onRegion_pending : (s.onRegion r f).pending = s.pending := rfl
@[simp] theorem State.onRegion_prt : (s.onRegion r f).prt = { s.prt with regions := s.prt.regions.modify r f } := rfl

end

/-! `onFence` changes `prt` and nothing else. -/

section
variable (s : State) (n : Nat) (f : Fence → Fence)

@[simp] theorem State.onFence_now : (s.onFence n f).now = s.now := rfl
@[simp] theorem State.onFence_free : (s.onFence n f).free = s.free := rfl
@[simp] theorem State.onFence_out : (s.onFence n f).out = s.out := rfl
@[simp] theorem State.onFence_isl : (s.onFence n f).isl = s.isl := rfl
@[simp] theorem State.onFence_pwr : (s.onFence n f).pwr = s.pwr := rfl
@[simp] theorem State.onFence_pads : (s.onFence n f).pads = s.pads := rfl
@[simp] theorem State.onFence_latches : (s.onFence n f).latches = s.latches := rfl
@[simp] theorem State.onFence_spr : (s.onFence n f).spr = s.spr := rfl
@[simp] theorem State.onFence_mbx : (s.onFence n f).mbx = s.mbx := rfl
@[simp] theorem State.onFence_cmds : (s.onFence n f).cmds = s.cmds := rfl
@[simp] theorem State.onFence_fw : (s.onFence n f).fw = s.fw := rfl
@[simp] theorem State.onFence_ram : (s.onFence n f).ram = s.ram := rfl
@[simp] theorem State.onFence_cap : (s.onFence n f).cap = s.cap := rfl
@[simp] theorem State.onFence_own : (s.onFence n f).own = s.own := rfl
@[simp] theorem State.onFence_sgu : (s.onFence n f).sgu = s.sgu := rfl
@[simp] theorem State.onFence_sct : (s.onFence n f).sct = s.sct := rfl
@[simp] theorem State.onFence_siteFlights : (s.onFence n f).siteFlights = s.siteFlights := rfl
@[simp] theorem State.onFence_sockets : (s.onFence n f).sockets = s.sockets := rfl
@[simp] theorem State.onFence_clusters : (s.onFence n f).clusters = s.clusters := rfl
@[simp] theorem State.onFence_mem : (s.onFence n f).mem = s.mem := rfl
@[simp] theorem State.onFence_mcc : (s.onFence n f).mcc = s.mcc := rfl
@[simp] theorem State.onFence_pcc : (s.onFence n f).pcc = s.pcc := rfl
@[simp] theorem State.onFence_nwt : (s.onFence n f).nwt = s.nwt := rfl
@[simp] theorem State.onFence_dom : (s.onFence n f).dom = s.dom := rfl
@[simp] theorem State.onFence_lc : (s.onFence n f).lc = s.lc := rfl
@[simp] theorem State.onFence_slots : (s.onFence n f).slots = s.slots := rfl
@[simp] theorem State.onFence_sets : (s.onFence n f).sets = s.sets := rfl
@[simp] theorem State.onFence_invals : (s.onFence n f).invals = s.invals := rfl
@[simp] theorem State.onFence_retireWait : (s.onFence n f).retireWait = s.retireWait := rfl
@[simp] theorem State.onFence_cpe : (s.onFence n f).cpe = s.cpe := rfl
@[simp] theorem State.onFence_att : (s.onFence n f).att = s.att := rfl
@[simp] theorem State.onFence_str : (s.onFence n f).str = s.str := rfl
@[simp] theorem State.onFence_obs : (s.onFence n f).obs = s.obs := rfl
@[simp] theorem State.onFence_ftu : (s.onFence n f).ftu = s.ftu := rfl
@[simp] theorem State.onFence_fcc : (s.onFence n f).fcc = s.fcc := rfl
@[simp] theorem State.onFence_streams : (s.onFence n f).streams = s.streams := rfl
@[simp] theorem State.onFence_epochs : (s.onFence n f).epochs = s.epochs := rfl
@[simp] theorem State.onFence_hcc : (s.onFence n f).hcc = s.hcc := rfl
@[simp] theorem State.onFence_bel : (s.onFence n f).bel = s.bel := rfl
@[simp] theorem State.onFence_pending : (s.onFence n f).pending = s.pending := rfl
@[simp] theorem State.onFence_prt : (s.onFence n f).prt = { s.prt with fences := s.prt.fences.modify n f } := rfl

end

/-! `onObs` changes `obs` and nothing else. -/

section
variable (s : State) (f : Obs → Obs)

@[simp] theorem State.onObs_now : (s.onObs f).now = s.now := rfl
@[simp] theorem State.onObs_free : (s.onObs f).free = s.free := rfl
@[simp] theorem State.onObs_out : (s.onObs f).out = s.out := rfl
@[simp] theorem State.onObs_isl : (s.onObs f).isl = s.isl := rfl
@[simp] theorem State.onObs_pwr : (s.onObs f).pwr = s.pwr := rfl
@[simp] theorem State.onObs_pads : (s.onObs f).pads = s.pads := rfl
@[simp] theorem State.onObs_latches : (s.onObs f).latches = s.latches := rfl
@[simp] theorem State.onObs_spr : (s.onObs f).spr = s.spr := rfl
@[simp] theorem State.onObs_mbx : (s.onObs f).mbx = s.mbx := rfl
@[simp] theorem State.onObs_cmds : (s.onObs f).cmds = s.cmds := rfl
@[simp] theorem State.onObs_fw : (s.onObs f).fw = s.fw := rfl
@[simp] theorem State.onObs_ram : (s.onObs f).ram = s.ram := rfl
@[simp] theorem State.onObs_cap : (s.onObs f).cap = s.cap := rfl
@[simp] theorem State.onObs_own : (s.onObs f).own = s.own := rfl
@[simp] theorem State.onObs_sgu : (s.onObs f).sgu = s.sgu := rfl
@[simp] theorem State.onObs_sct : (s.onObs f).sct = s.sct := rfl
@[simp] theorem State.onObs_siteFlights : (s.onObs f).siteFlights = s.siteFlights := rfl
@[simp] theorem State.onObs_sockets : (s.onObs f).sockets = s.sockets := rfl
@[simp] theorem State.onObs_clusters : (s.onObs f).clusters = s.clusters := rfl
@[simp] theorem State.onObs_mem : (s.onObs f).mem = s.mem := rfl
@[simp] theorem State.onObs_mcc : (s.onObs f).mcc = s.mcc := rfl
@[simp] theorem State.onObs_pcc : (s.onObs f).pcc = s.pcc := rfl
@[simp] theorem State.onObs_nwt : (s.onObs f).nwt = s.nwt := rfl
@[simp] theorem State.onObs_dom : (s.onObs f).dom = s.dom := rfl
@[simp] theorem State.onObs_lc : (s.onObs f).lc = s.lc := rfl
@[simp] theorem State.onObs_slots : (s.onObs f).slots = s.slots := rfl
@[simp] theorem State.onObs_sets : (s.onObs f).sets = s.sets := rfl
@[simp] theorem State.onObs_invals : (s.onObs f).invals = s.invals := rfl
@[simp] theorem State.onObs_retireWait : (s.onObs f).retireWait = s.retireWait := rfl
@[simp] theorem State.onObs_cpe : (s.onObs f).cpe = s.cpe := rfl
@[simp] theorem State.onObs_att : (s.onObs f).att = s.att := rfl
@[simp] theorem State.onObs_str : (s.onObs f).str = s.str := rfl
@[simp] theorem State.onObs_ftu : (s.onObs f).ftu = s.ftu := rfl
@[simp] theorem State.onObs_fcc : (s.onObs f).fcc = s.fcc := rfl
@[simp] theorem State.onObs_streams : (s.onObs f).streams = s.streams := rfl
@[simp] theorem State.onObs_epochs : (s.onObs f).epochs = s.epochs := rfl
@[simp] theorem State.onObs_hcc : (s.onObs f).hcc = s.hcc := rfl
@[simp] theorem State.onObs_bel : (s.onObs f).bel = s.bel := rfl
@[simp] theorem State.onObs_prt : (s.onObs f).prt = s.prt := rfl
@[simp] theorem State.onObs_pending : (s.onObs f).pending = s.pending := rfl
@[simp] theorem State.onObs_obs : (s.onObs f).obs = f s.obs := rfl

end

/-! `setMaster` changes `own` and nothing else. -/

section
variable (s : State) (e : Nat) (v : Entry)

@[simp] theorem State.setMaster_now : (s.setMaster e v).now = s.now := rfl
@[simp] theorem State.setMaster_free : (s.setMaster e v).free = s.free := rfl
@[simp] theorem State.setMaster_out : (s.setMaster e v).out = s.out := rfl
@[simp] theorem State.setMaster_isl : (s.setMaster e v).isl = s.isl := rfl
@[simp] theorem State.setMaster_pwr : (s.setMaster e v).pwr = s.pwr := rfl
@[simp] theorem State.setMaster_pads : (s.setMaster e v).pads = s.pads := rfl
@[simp] theorem State.setMaster_latches : (s.setMaster e v).latches = s.latches := rfl
@[simp] theorem State.setMaster_spr : (s.setMaster e v).spr = s.spr := rfl
@[simp] theorem State.setMaster_mbx : (s.setMaster e v).mbx = s.mbx := rfl
@[simp] theorem State.setMaster_cmds : (s.setMaster e v).cmds = s.cmds := rfl
@[simp] theorem State.setMaster_fw : (s.setMaster e v).fw = s.fw := rfl
@[simp] theorem State.setMaster_ram : (s.setMaster e v).ram = s.ram := rfl
@[simp] theorem State.setMaster_cap : (s.setMaster e v).cap = s.cap := rfl
@[simp] theorem State.setMaster_sgu : (s.setMaster e v).sgu = s.sgu := rfl
@[simp] theorem State.setMaster_sct : (s.setMaster e v).sct = s.sct := rfl
@[simp] theorem State.setMaster_siteFlights : (s.setMaster e v).siteFlights = s.siteFlights := rfl
@[simp] theorem State.setMaster_sockets : (s.setMaster e v).sockets = s.sockets := rfl
@[simp] theorem State.setMaster_clusters : (s.setMaster e v).clusters = s.clusters := rfl
@[simp] theorem State.setMaster_mem : (s.setMaster e v).mem = s.mem := rfl
@[simp] theorem State.setMaster_mcc : (s.setMaster e v).mcc = s.mcc := rfl
@[simp] theorem State.setMaster_pcc : (s.setMaster e v).pcc = s.pcc := rfl
@[simp] theorem State.setMaster_nwt : (s.setMaster e v).nwt = s.nwt := rfl
@[simp] theorem State.setMaster_dom : (s.setMaster e v).dom = s.dom := rfl
@[simp] theorem State.setMaster_lc : (s.setMaster e v).lc = s.lc := rfl
@[simp] theorem State.setMaster_slots : (s.setMaster e v).slots = s.slots := rfl
@[simp] theorem State.setMaster_sets : (s.setMaster e v).sets = s.sets := rfl
@[simp] theorem State.setMaster_invals : (s.setMaster e v).invals = s.invals := rfl
@[simp] theorem State.setMaster_retireWait : (s.setMaster e v).retireWait = s.retireWait := rfl
@[simp] theorem State.setMaster_cpe : (s.setMaster e v).cpe = s.cpe := rfl
@[simp] theorem State.setMaster_att : (s.setMaster e v).att = s.att := rfl
@[simp] theorem State.setMaster_str : (s.setMaster e v).str = s.str := rfl
@[simp] theorem State.setMaster_obs : (s.setMaster e v).obs = s.obs := rfl
@[simp] theorem State.setMaster_ftu : (s.setMaster e v).ftu = s.ftu := rfl
@[simp] theorem State.setMaster_fcc : (s.setMaster e v).fcc = s.fcc := rfl
@[simp] theorem State.setMaster_streams : (s.setMaster e v).streams = s.streams := rfl
@[simp] theorem State.setMaster_epochs : (s.setMaster e v).epochs = s.epochs := rfl
@[simp] theorem State.setMaster_hcc : (s.setMaster e v).hcc = s.hcc := rfl
@[simp] theorem State.setMaster_bel : (s.setMaster e v).bel = s.bel := rfl
@[simp] theorem State.setMaster_prt : (s.setMaster e v).prt = s.prt := rfl
@[simp] theorem State.setMaster_pending : (s.setMaster e v).pending = s.pending := rfl
@[simp] theorem State.setMaster_own : (s.setMaster e v).own = { s.own with master := s.own.master.set e v } := rfl

end

/-! `onSite` changes `sgu` and nothing else. -/

section
variable (s : State) (i : Nat) (f : Sgu → Sgu)

@[simp] theorem State.onSite_now : (s.onSite i f).now = s.now := rfl
@[simp] theorem State.onSite_free : (s.onSite i f).free = s.free := rfl
@[simp] theorem State.onSite_out : (s.onSite i f).out = s.out := rfl
@[simp] theorem State.onSite_isl : (s.onSite i f).isl = s.isl := rfl
@[simp] theorem State.onSite_pwr : (s.onSite i f).pwr = s.pwr := rfl
@[simp] theorem State.onSite_pads : (s.onSite i f).pads = s.pads := rfl
@[simp] theorem State.onSite_latches : (s.onSite i f).latches = s.latches := rfl
@[simp] theorem State.onSite_spr : (s.onSite i f).spr = s.spr := rfl
@[simp] theorem State.onSite_mbx : (s.onSite i f).mbx = s.mbx := rfl
@[simp] theorem State.onSite_cmds : (s.onSite i f).cmds = s.cmds := rfl
@[simp] theorem State.onSite_fw : (s.onSite i f).fw = s.fw := rfl
@[simp] theorem State.onSite_ram : (s.onSite i f).ram = s.ram := rfl
@[simp] theorem State.onSite_cap : (s.onSite i f).cap = s.cap := rfl
@[simp] theorem State.onSite_own : (s.onSite i f).own = s.own := rfl
@[simp] theorem State.onSite_sct : (s.onSite i f).sct = s.sct := rfl
@[simp] theorem State.onSite_siteFlights : (s.onSite i f).siteFlights = s.siteFlights := rfl
@[simp] theorem State.onSite_sockets : (s.onSite i f).sockets = s.sockets := rfl
@[simp] theorem State.onSite_clusters : (s.onSite i f).clusters = s.clusters := rfl
@[simp] theorem State.onSite_mem : (s.onSite i f).mem = s.mem := rfl
@[simp] theorem State.onSite_mcc : (s.onSite i f).mcc = s.mcc := rfl
@[simp] theorem State.onSite_pcc : (s.onSite i f).pcc = s.pcc := rfl
@[simp] theorem State.onSite_nwt : (s.onSite i f).nwt = s.nwt := rfl
@[simp] theorem State.onSite_dom : (s.onSite i f).dom = s.dom := rfl
@[simp] theorem State.onSite_lc : (s.onSite i f).lc = s.lc := rfl
@[simp] theorem State.onSite_slots : (s.onSite i f).slots = s.slots := rfl
@[simp] theorem State.onSite_sets : (s.onSite i f).sets = s.sets := rfl
@[simp] theorem State.onSite_invals : (s.onSite i f).invals = s.invals := rfl
@[simp] theorem State.onSite_retireWait : (s.onSite i f).retireWait = s.retireWait := rfl
@[simp] theorem State.onSite_cpe : (s.onSite i f).cpe = s.cpe := rfl
@[simp] theorem State.onSite_att : (s.onSite i f).att = s.att := rfl
@[simp] theorem State.onSite_str : (s.onSite i f).str = s.str := rfl
@[simp] theorem State.onSite_obs : (s.onSite i f).obs = s.obs := rfl
@[simp] theorem State.onSite_ftu : (s.onSite i f).ftu = s.ftu := rfl
@[simp] theorem State.onSite_fcc : (s.onSite i f).fcc = s.fcc := rfl
@[simp] theorem State.onSite_streams : (s.onSite i f).streams = s.streams := rfl
@[simp] theorem State.onSite_epochs : (s.onSite i f).epochs = s.epochs := rfl
@[simp] theorem State.onSite_hcc : (s.onSite i f).hcc = s.hcc := rfl
@[simp] theorem State.onSite_bel : (s.onSite i f).bel = s.bel := rfl
@[simp] theorem State.onSite_prt : (s.onSite i f).prt = s.prt := rfl
@[simp] theorem State.onSite_pending : (s.onSite i f).pending = s.pending := rfl
@[simp] theorem State.onSite_sgu : (s.onSite i f).sgu = s.sgu.modify i f := rfl

end

/-! `setSct` changes `sct` and nothing else. -/

section
variable (s : State) (i n : Nat) (v : BitVec 64)

@[simp] theorem State.setSct_now : (s.setSct i n v).now = s.now := rfl
@[simp] theorem State.setSct_free : (s.setSct i n v).free = s.free := rfl
@[simp] theorem State.setSct_out : (s.setSct i n v).out = s.out := rfl
@[simp] theorem State.setSct_isl : (s.setSct i n v).isl = s.isl := rfl
@[simp] theorem State.setSct_pwr : (s.setSct i n v).pwr = s.pwr := rfl
@[simp] theorem State.setSct_pads : (s.setSct i n v).pads = s.pads := rfl
@[simp] theorem State.setSct_latches : (s.setSct i n v).latches = s.latches := rfl
@[simp] theorem State.setSct_spr : (s.setSct i n v).spr = s.spr := rfl
@[simp] theorem State.setSct_mbx : (s.setSct i n v).mbx = s.mbx := rfl
@[simp] theorem State.setSct_cmds : (s.setSct i n v).cmds = s.cmds := rfl
@[simp] theorem State.setSct_fw : (s.setSct i n v).fw = s.fw := rfl
@[simp] theorem State.setSct_ram : (s.setSct i n v).ram = s.ram := rfl
@[simp] theorem State.setSct_cap : (s.setSct i n v).cap = s.cap := rfl
@[simp] theorem State.setSct_own : (s.setSct i n v).own = s.own := rfl
@[simp] theorem State.setSct_sgu : (s.setSct i n v).sgu = s.sgu := rfl
@[simp] theorem State.setSct_siteFlights : (s.setSct i n v).siteFlights = s.siteFlights := rfl
@[simp] theorem State.setSct_sockets : (s.setSct i n v).sockets = s.sockets := rfl
@[simp] theorem State.setSct_clusters : (s.setSct i n v).clusters = s.clusters := rfl
@[simp] theorem State.setSct_mem : (s.setSct i n v).mem = s.mem := rfl
@[simp] theorem State.setSct_mcc : (s.setSct i n v).mcc = s.mcc := rfl
@[simp] theorem State.setSct_pcc : (s.setSct i n v).pcc = s.pcc := rfl
@[simp] theorem State.setSct_nwt : (s.setSct i n v).nwt = s.nwt := rfl
@[simp] theorem State.setSct_dom : (s.setSct i n v).dom = s.dom := rfl
@[simp] theorem State.setSct_lc : (s.setSct i n v).lc = s.lc := rfl
@[simp] theorem State.setSct_slots : (s.setSct i n v).slots = s.slots := rfl
@[simp] theorem State.setSct_sets : (s.setSct i n v).sets = s.sets := rfl
@[simp] theorem State.setSct_invals : (s.setSct i n v).invals = s.invals := rfl
@[simp] theorem State.setSct_retireWait : (s.setSct i n v).retireWait = s.retireWait := rfl
@[simp] theorem State.setSct_cpe : (s.setSct i n v).cpe = s.cpe := rfl
@[simp] theorem State.setSct_att : (s.setSct i n v).att = s.att := rfl
@[simp] theorem State.setSct_str : (s.setSct i n v).str = s.str := rfl
@[simp] theorem State.setSct_obs : (s.setSct i n v).obs = s.obs := rfl
@[simp] theorem State.setSct_ftu : (s.setSct i n v).ftu = s.ftu := rfl
@[simp] theorem State.setSct_fcc : (s.setSct i n v).fcc = s.fcc := rfl
@[simp] theorem State.setSct_streams : (s.setSct i n v).streams = s.streams := rfl
@[simp] theorem State.setSct_epochs : (s.setSct i n v).epochs = s.epochs := rfl
@[simp] theorem State.setSct_hcc : (s.setSct i n v).hcc = s.hcc := rfl
@[simp] theorem State.setSct_bel : (s.setSct i n v).bel = s.bel := rfl
@[simp] theorem State.setSct_prt : (s.setSct i n v).prt = s.prt := rfl
@[simp] theorem State.setSct_pending : (s.setSct i n v).pending = s.pending := rfl
@[simp] theorem State.setSct_sct : (s.setSct i n v).sct = s.sct.set (256 * i + n) v := rfl

end

/-! `onSlot` changes `slots` and nothing else. -/

section
variable (s : State) (n : Nat) (f : Slot → Slot)

@[simp] theorem State.onSlot_now : (s.onSlot n f).now = s.now := rfl
@[simp] theorem State.onSlot_free : (s.onSlot n f).free = s.free := rfl
@[simp] theorem State.onSlot_out : (s.onSlot n f).out = s.out := rfl
@[simp] theorem State.onSlot_isl : (s.onSlot n f).isl = s.isl := rfl
@[simp] theorem State.onSlot_pwr : (s.onSlot n f).pwr = s.pwr := rfl
@[simp] theorem State.onSlot_pads : (s.onSlot n f).pads = s.pads := rfl
@[simp] theorem State.onSlot_latches : (s.onSlot n f).latches = s.latches := rfl
@[simp] theorem State.onSlot_spr : (s.onSlot n f).spr = s.spr := rfl
@[simp] theorem State.onSlot_mbx : (s.onSlot n f).mbx = s.mbx := rfl
@[simp] theorem State.onSlot_cmds : (s.onSlot n f).cmds = s.cmds := rfl
@[simp] theorem State.onSlot_fw : (s.onSlot n f).fw = s.fw := rfl
@[simp] theorem State.onSlot_ram : (s.onSlot n f).ram = s.ram := rfl
@[simp] theorem State.onSlot_cap : (s.onSlot n f).cap = s.cap := rfl
@[simp] theorem State.onSlot_own : (s.onSlot n f).own = s.own := rfl
@[simp] theorem State.onSlot_sgu : (s.onSlot n f).sgu = s.sgu := rfl
@[simp] theorem State.onSlot_sct : (s.onSlot n f).sct = s.sct := rfl
@[simp] theorem State.onSlot_siteFlights : (s.onSlot n f).siteFlights = s.siteFlights := rfl
@[simp] theorem State.onSlot_sockets : (s.onSlot n f).sockets = s.sockets := rfl
@[simp] theorem State.onSlot_clusters : (s.onSlot n f).clusters = s.clusters := rfl
@[simp] theorem State.onSlot_mem : (s.onSlot n f).mem = s.mem := rfl
@[simp] theorem State.onSlot_mcc : (s.onSlot n f).mcc = s.mcc := rfl
@[simp] theorem State.onSlot_pcc : (s.onSlot n f).pcc = s.pcc := rfl
@[simp] theorem State.onSlot_nwt : (s.onSlot n f).nwt = s.nwt := rfl
@[simp] theorem State.onSlot_dom : (s.onSlot n f).dom = s.dom := rfl
@[simp] theorem State.onSlot_lc : (s.onSlot n f).lc = s.lc := rfl
@[simp] theorem State.onSlot_sets : (s.onSlot n f).sets = s.sets := rfl
@[simp] theorem State.onSlot_invals : (s.onSlot n f).invals = s.invals := rfl
@[simp] theorem State.onSlot_retireWait : (s.onSlot n f).retireWait = s.retireWait := rfl
@[simp] theorem State.onSlot_cpe : (s.onSlot n f).cpe = s.cpe := rfl
@[simp] theorem State.onSlot_att : (s.onSlot n f).att = s.att := rfl
@[simp] theorem State.onSlot_str : (s.onSlot n f).str = s.str := rfl
@[simp] theorem State.onSlot_obs : (s.onSlot n f).obs = s.obs := rfl
@[simp] theorem State.onSlot_ftu : (s.onSlot n f).ftu = s.ftu := rfl
@[simp] theorem State.onSlot_fcc : (s.onSlot n f).fcc = s.fcc := rfl
@[simp] theorem State.onSlot_streams : (s.onSlot n f).streams = s.streams := rfl
@[simp] theorem State.onSlot_epochs : (s.onSlot n f).epochs = s.epochs := rfl
@[simp] theorem State.onSlot_hcc : (s.onSlot n f).hcc = s.hcc := rfl
@[simp] theorem State.onSlot_bel : (s.onSlot n f).bel = s.bel := rfl
@[simp] theorem State.onSlot_prt : (s.onSlot n f).prt = s.prt := rfl
@[simp] theorem State.onSlot_pending : (s.onSlot n f).pending = s.pending := rfl
@[simp] theorem State.onSlot_slots : (s.onSlot n f).slots = s.slots.modify n f := rfl

end

/-! `onAtt` changes `att` and nothing else. -/

section
variable (s : State) (f : Attest → Attest)

@[simp] theorem State.onAtt_now : (s.onAtt f).now = s.now := rfl
@[simp] theorem State.onAtt_free : (s.onAtt f).free = s.free := rfl
@[simp] theorem State.onAtt_out : (s.onAtt f).out = s.out := rfl
@[simp] theorem State.onAtt_isl : (s.onAtt f).isl = s.isl := rfl
@[simp] theorem State.onAtt_pwr : (s.onAtt f).pwr = s.pwr := rfl
@[simp] theorem State.onAtt_pads : (s.onAtt f).pads = s.pads := rfl
@[simp] theorem State.onAtt_latches : (s.onAtt f).latches = s.latches := rfl
@[simp] theorem State.onAtt_spr : (s.onAtt f).spr = s.spr := rfl
@[simp] theorem State.onAtt_mbx : (s.onAtt f).mbx = s.mbx := rfl
@[simp] theorem State.onAtt_cmds : (s.onAtt f).cmds = s.cmds := rfl
@[simp] theorem State.onAtt_fw : (s.onAtt f).fw = s.fw := rfl
@[simp] theorem State.onAtt_ram : (s.onAtt f).ram = s.ram := rfl
@[simp] theorem State.onAtt_cap : (s.onAtt f).cap = s.cap := rfl
@[simp] theorem State.onAtt_own : (s.onAtt f).own = s.own := rfl
@[simp] theorem State.onAtt_sgu : (s.onAtt f).sgu = s.sgu := rfl
@[simp] theorem State.onAtt_sct : (s.onAtt f).sct = s.sct := rfl
@[simp] theorem State.onAtt_siteFlights : (s.onAtt f).siteFlights = s.siteFlights := rfl
@[simp] theorem State.onAtt_sockets : (s.onAtt f).sockets = s.sockets := rfl
@[simp] theorem State.onAtt_clusters : (s.onAtt f).clusters = s.clusters := rfl
@[simp] theorem State.onAtt_mem : (s.onAtt f).mem = s.mem := rfl
@[simp] theorem State.onAtt_mcc : (s.onAtt f).mcc = s.mcc := rfl
@[simp] theorem State.onAtt_pcc : (s.onAtt f).pcc = s.pcc := rfl
@[simp] theorem State.onAtt_nwt : (s.onAtt f).nwt = s.nwt := rfl
@[simp] theorem State.onAtt_dom : (s.onAtt f).dom = s.dom := rfl
@[simp] theorem State.onAtt_lc : (s.onAtt f).lc = s.lc := rfl
@[simp] theorem State.onAtt_slots : (s.onAtt f).slots = s.slots := rfl
@[simp] theorem State.onAtt_sets : (s.onAtt f).sets = s.sets := rfl
@[simp] theorem State.onAtt_invals : (s.onAtt f).invals = s.invals := rfl
@[simp] theorem State.onAtt_retireWait : (s.onAtt f).retireWait = s.retireWait := rfl
@[simp] theorem State.onAtt_cpe : (s.onAtt f).cpe = s.cpe := rfl
@[simp] theorem State.onAtt_str : (s.onAtt f).str = s.str := rfl
@[simp] theorem State.onAtt_obs : (s.onAtt f).obs = s.obs := rfl
@[simp] theorem State.onAtt_ftu : (s.onAtt f).ftu = s.ftu := rfl
@[simp] theorem State.onAtt_fcc : (s.onAtt f).fcc = s.fcc := rfl
@[simp] theorem State.onAtt_streams : (s.onAtt f).streams = s.streams := rfl
@[simp] theorem State.onAtt_epochs : (s.onAtt f).epochs = s.epochs := rfl
@[simp] theorem State.onAtt_hcc : (s.onAtt f).hcc = s.hcc := rfl
@[simp] theorem State.onAtt_bel : (s.onAtt f).bel = s.bel := rfl
@[simp] theorem State.onAtt_prt : (s.onAtt f).prt = s.prt := rfl
@[simp] theorem State.onAtt_pending : (s.onAtt f).pending = s.pending := rfl
@[simp] theorem State.onAtt_att : (s.onAtt f).att = f s.att := rfl

end

/-! `onConn` changes `att` and nothing else. -/

section
variable (s : State) (n : Nat) (f : Conn → Conn)

@[simp] theorem State.onConn_now : (s.onConn n f).now = s.now := rfl
@[simp] theorem State.onConn_free : (s.onConn n f).free = s.free := rfl
@[simp] theorem State.onConn_out : (s.onConn n f).out = s.out := rfl
@[simp] theorem State.onConn_isl : (s.onConn n f).isl = s.isl := rfl
@[simp] theorem State.onConn_pwr : (s.onConn n f).pwr = s.pwr := rfl
@[simp] theorem State.onConn_pads : (s.onConn n f).pads = s.pads := rfl
@[simp] theorem State.onConn_latches : (s.onConn n f).latches = s.latches := rfl
@[simp] theorem State.onConn_spr : (s.onConn n f).spr = s.spr := rfl
@[simp] theorem State.onConn_mbx : (s.onConn n f).mbx = s.mbx := rfl
@[simp] theorem State.onConn_cmds : (s.onConn n f).cmds = s.cmds := rfl
@[simp] theorem State.onConn_fw : (s.onConn n f).fw = s.fw := rfl
@[simp] theorem State.onConn_ram : (s.onConn n f).ram = s.ram := rfl
@[simp] theorem State.onConn_cap : (s.onConn n f).cap = s.cap := rfl
@[simp] theorem State.onConn_own : (s.onConn n f).own = s.own := rfl
@[simp] theorem State.onConn_sgu : (s.onConn n f).sgu = s.sgu := rfl
@[simp] theorem State.onConn_sct : (s.onConn n f).sct = s.sct := rfl
@[simp] theorem State.onConn_siteFlights : (s.onConn n f).siteFlights = s.siteFlights := rfl
@[simp] theorem State.onConn_sockets : (s.onConn n f).sockets = s.sockets := rfl
@[simp] theorem State.onConn_clusters : (s.onConn n f).clusters = s.clusters := rfl
@[simp] theorem State.onConn_mem : (s.onConn n f).mem = s.mem := rfl
@[simp] theorem State.onConn_mcc : (s.onConn n f).mcc = s.mcc := rfl
@[simp] theorem State.onConn_pcc : (s.onConn n f).pcc = s.pcc := rfl
@[simp] theorem State.onConn_nwt : (s.onConn n f).nwt = s.nwt := rfl
@[simp] theorem State.onConn_dom : (s.onConn n f).dom = s.dom := rfl
@[simp] theorem State.onConn_lc : (s.onConn n f).lc = s.lc := rfl
@[simp] theorem State.onConn_slots : (s.onConn n f).slots = s.slots := rfl
@[simp] theorem State.onConn_sets : (s.onConn n f).sets = s.sets := rfl
@[simp] theorem State.onConn_invals : (s.onConn n f).invals = s.invals := rfl
@[simp] theorem State.onConn_retireWait : (s.onConn n f).retireWait = s.retireWait := rfl
@[simp] theorem State.onConn_cpe : (s.onConn n f).cpe = s.cpe := rfl
@[simp] theorem State.onConn_str : (s.onConn n f).str = s.str := rfl
@[simp] theorem State.onConn_obs : (s.onConn n f).obs = s.obs := rfl
@[simp] theorem State.onConn_ftu : (s.onConn n f).ftu = s.ftu := rfl
@[simp] theorem State.onConn_fcc : (s.onConn n f).fcc = s.fcc := rfl
@[simp] theorem State.onConn_streams : (s.onConn n f).streams = s.streams := rfl
@[simp] theorem State.onConn_epochs : (s.onConn n f).epochs = s.epochs := rfl
@[simp] theorem State.onConn_hcc : (s.onConn n f).hcc = s.hcc := rfl
@[simp] theorem State.onConn_bel : (s.onConn n f).bel = s.bel := rfl
@[simp] theorem State.onConn_prt : (s.onConn n f).prt = s.prt := rfl
@[simp] theorem State.onConn_pending : (s.onConn n f).pending = s.pending := rfl
@[simp] theorem State.onConn_att : (s.onConn n f).att = { s.att with conns := s.att.conns.modify n f } := rfl

end

/-! `onSess` changes `att` and nothing else. -/

section
variable (s : State) (k : Nat) (f : Sess → Sess)

@[simp] theorem State.onSess_now : (s.onSess k f).now = s.now := rfl
@[simp] theorem State.onSess_free : (s.onSess k f).free = s.free := rfl
@[simp] theorem State.onSess_out : (s.onSess k f).out = s.out := rfl
@[simp] theorem State.onSess_isl : (s.onSess k f).isl = s.isl := rfl
@[simp] theorem State.onSess_pwr : (s.onSess k f).pwr = s.pwr := rfl
@[simp] theorem State.onSess_pads : (s.onSess k f).pads = s.pads := rfl
@[simp] theorem State.onSess_latches : (s.onSess k f).latches = s.latches := rfl
@[simp] theorem State.onSess_spr : (s.onSess k f).spr = s.spr := rfl
@[simp] theorem State.onSess_mbx : (s.onSess k f).mbx = s.mbx := rfl
@[simp] theorem State.onSess_cmds : (s.onSess k f).cmds = s.cmds := rfl
@[simp] theorem State.onSess_fw : (s.onSess k f).fw = s.fw := rfl
@[simp] theorem State.onSess_ram : (s.onSess k f).ram = s.ram := rfl
@[simp] theorem State.onSess_cap : (s.onSess k f).cap = s.cap := rfl
@[simp] theorem State.onSess_own : (s.onSess k f).own = s.own := rfl
@[simp] theorem State.onSess_sgu : (s.onSess k f).sgu = s.sgu := rfl
@[simp] theorem State.onSess_sct : (s.onSess k f).sct = s.sct := rfl
@[simp] theorem State.onSess_siteFlights : (s.onSess k f).siteFlights = s.siteFlights := rfl
@[simp] theorem State.onSess_sockets : (s.onSess k f).sockets = s.sockets := rfl
@[simp] theorem State.onSess_clusters : (s.onSess k f).clusters = s.clusters := rfl
@[simp] theorem State.onSess_mem : (s.onSess k f).mem = s.mem := rfl
@[simp] theorem State.onSess_mcc : (s.onSess k f).mcc = s.mcc := rfl
@[simp] theorem State.onSess_pcc : (s.onSess k f).pcc = s.pcc := rfl
@[simp] theorem State.onSess_nwt : (s.onSess k f).nwt = s.nwt := rfl
@[simp] theorem State.onSess_dom : (s.onSess k f).dom = s.dom := rfl
@[simp] theorem State.onSess_lc : (s.onSess k f).lc = s.lc := rfl
@[simp] theorem State.onSess_slots : (s.onSess k f).slots = s.slots := rfl
@[simp] theorem State.onSess_sets : (s.onSess k f).sets = s.sets := rfl
@[simp] theorem State.onSess_invals : (s.onSess k f).invals = s.invals := rfl
@[simp] theorem State.onSess_retireWait : (s.onSess k f).retireWait = s.retireWait := rfl
@[simp] theorem State.onSess_cpe : (s.onSess k f).cpe = s.cpe := rfl
@[simp] theorem State.onSess_str : (s.onSess k f).str = s.str := rfl
@[simp] theorem State.onSess_obs : (s.onSess k f).obs = s.obs := rfl
@[simp] theorem State.onSess_ftu : (s.onSess k f).ftu = s.ftu := rfl
@[simp] theorem State.onSess_fcc : (s.onSess k f).fcc = s.fcc := rfl
@[simp] theorem State.onSess_streams : (s.onSess k f).streams = s.streams := rfl
@[simp] theorem State.onSess_epochs : (s.onSess k f).epochs = s.epochs := rfl
@[simp] theorem State.onSess_hcc : (s.onSess k f).hcc = s.hcc := rfl
@[simp] theorem State.onSess_bel : (s.onSess k f).bel = s.bel := rfl
@[simp] theorem State.onSess_prt : (s.onSess k f).prt = s.prt := rfl
@[simp] theorem State.onSess_pending : (s.onSess k f).pending = s.pending := rfl
@[simp] theorem State.onSess_att : (s.onSess k f).att = { s.att with sess := s.att.sess.modify k f } := rfl

end

/-! `onFsm` changes `spr` and nothing else. -/

section
variable (s : State) (m : Nat) (f : Fsm → Fsm)

@[simp] theorem State.onFsm_now : (s.onFsm m f).now = s.now := rfl
@[simp] theorem State.onFsm_free : (s.onFsm m f).free = s.free := rfl
@[simp] theorem State.onFsm_out : (s.onFsm m f).out = s.out := rfl
@[simp] theorem State.onFsm_isl : (s.onFsm m f).isl = s.isl := rfl
@[simp] theorem State.onFsm_pwr : (s.onFsm m f).pwr = s.pwr := rfl
@[simp] theorem State.onFsm_pads : (s.onFsm m f).pads = s.pads := rfl
@[simp] theorem State.onFsm_latches : (s.onFsm m f).latches = s.latches := rfl
@[simp] theorem State.onFsm_mbx : (s.onFsm m f).mbx = s.mbx := rfl
@[simp] theorem State.onFsm_cmds : (s.onFsm m f).cmds = s.cmds := rfl
@[simp] theorem State.onFsm_fw : (s.onFsm m f).fw = s.fw := rfl
@[simp] theorem State.onFsm_ram : (s.onFsm m f).ram = s.ram := rfl
@[simp] theorem State.onFsm_cap : (s.onFsm m f).cap = s.cap := rfl
@[simp] theorem State.onFsm_own : (s.onFsm m f).own = s.own := rfl
@[simp] theorem State.onFsm_sgu : (s.onFsm m f).sgu = s.sgu := rfl
@[simp] theorem State.onFsm_sct : (s.onFsm m f).sct = s.sct := rfl
@[simp] theorem State.onFsm_siteFlights : (s.onFsm m f).siteFlights = s.siteFlights := rfl
@[simp] theorem State.onFsm_sockets : (s.onFsm m f).sockets = s.sockets := rfl
@[simp] theorem State.onFsm_clusters : (s.onFsm m f).clusters = s.clusters := rfl
@[simp] theorem State.onFsm_mem : (s.onFsm m f).mem = s.mem := rfl
@[simp] theorem State.onFsm_mcc : (s.onFsm m f).mcc = s.mcc := rfl
@[simp] theorem State.onFsm_pcc : (s.onFsm m f).pcc = s.pcc := rfl
@[simp] theorem State.onFsm_nwt : (s.onFsm m f).nwt = s.nwt := rfl
@[simp] theorem State.onFsm_dom : (s.onFsm m f).dom = s.dom := rfl
@[simp] theorem State.onFsm_lc : (s.onFsm m f).lc = s.lc := rfl
@[simp] theorem State.onFsm_slots : (s.onFsm m f).slots = s.slots := rfl
@[simp] theorem State.onFsm_sets : (s.onFsm m f).sets = s.sets := rfl
@[simp] theorem State.onFsm_invals : (s.onFsm m f).invals = s.invals := rfl
@[simp] theorem State.onFsm_retireWait : (s.onFsm m f).retireWait = s.retireWait := rfl
@[simp] theorem State.onFsm_cpe : (s.onFsm m f).cpe = s.cpe := rfl
@[simp] theorem State.onFsm_att : (s.onFsm m f).att = s.att := rfl
@[simp] theorem State.onFsm_str : (s.onFsm m f).str = s.str := rfl
@[simp] theorem State.onFsm_obs : (s.onFsm m f).obs = s.obs := rfl
@[simp] theorem State.onFsm_ftu : (s.onFsm m f).ftu = s.ftu := rfl
@[simp] theorem State.onFsm_fcc : (s.onFsm m f).fcc = s.fcc := rfl
@[simp] theorem State.onFsm_streams : (s.onFsm m f).streams = s.streams := rfl
@[simp] theorem State.onFsm_epochs : (s.onFsm m f).epochs = s.epochs := rfl
@[simp] theorem State.onFsm_hcc : (s.onFsm m f).hcc = s.hcc := rfl
@[simp] theorem State.onFsm_bel : (s.onFsm m f).bel = s.bel := rfl
@[simp] theorem State.onFsm_prt : (s.onFsm m f).prt = s.prt := rfl
@[simp] theorem State.onFsm_pending : (s.onFsm m f).pending = s.pending := rfl
@[simp] theorem State.onFsm_spr : (s.onFsm m f).spr = { s.spr with fsm := s.spr.fsm.modify m f } := rfl

end

/-! `onTimer` changes `spr` and nothing else. -/

section
variable (s : State) (n : Nat) (f : SpTimer → SpTimer)

@[simp] theorem State.onTimer_now : (s.onTimer n f).now = s.now := rfl
@[simp] theorem State.onTimer_free : (s.onTimer n f).free = s.free := rfl
@[simp] theorem State.onTimer_out : (s.onTimer n f).out = s.out := rfl
@[simp] theorem State.onTimer_isl : (s.onTimer n f).isl = s.isl := rfl
@[simp] theorem State.onTimer_pwr : (s.onTimer n f).pwr = s.pwr := rfl
@[simp] theorem State.onTimer_pads : (s.onTimer n f).pads = s.pads := rfl
@[simp] theorem State.onTimer_latches : (s.onTimer n f).latches = s.latches := rfl
@[simp] theorem State.onTimer_mbx : (s.onTimer n f).mbx = s.mbx := rfl
@[simp] theorem State.onTimer_cmds : (s.onTimer n f).cmds = s.cmds := rfl
@[simp] theorem State.onTimer_fw : (s.onTimer n f).fw = s.fw := rfl
@[simp] theorem State.onTimer_ram : (s.onTimer n f).ram = s.ram := rfl
@[simp] theorem State.onTimer_cap : (s.onTimer n f).cap = s.cap := rfl
@[simp] theorem State.onTimer_own : (s.onTimer n f).own = s.own := rfl
@[simp] theorem State.onTimer_sgu : (s.onTimer n f).sgu = s.sgu := rfl
@[simp] theorem State.onTimer_sct : (s.onTimer n f).sct = s.sct := rfl
@[simp] theorem State.onTimer_siteFlights : (s.onTimer n f).siteFlights = s.siteFlights := rfl
@[simp] theorem State.onTimer_sockets : (s.onTimer n f).sockets = s.sockets := rfl
@[simp] theorem State.onTimer_clusters : (s.onTimer n f).clusters = s.clusters := rfl
@[simp] theorem State.onTimer_mem : (s.onTimer n f).mem = s.mem := rfl
@[simp] theorem State.onTimer_mcc : (s.onTimer n f).mcc = s.mcc := rfl
@[simp] theorem State.onTimer_pcc : (s.onTimer n f).pcc = s.pcc := rfl
@[simp] theorem State.onTimer_nwt : (s.onTimer n f).nwt = s.nwt := rfl
@[simp] theorem State.onTimer_dom : (s.onTimer n f).dom = s.dom := rfl
@[simp] theorem State.onTimer_lc : (s.onTimer n f).lc = s.lc := rfl
@[simp] theorem State.onTimer_slots : (s.onTimer n f).slots = s.slots := rfl
@[simp] theorem State.onTimer_sets : (s.onTimer n f).sets = s.sets := rfl
@[simp] theorem State.onTimer_invals : (s.onTimer n f).invals = s.invals := rfl
@[simp] theorem State.onTimer_retireWait : (s.onTimer n f).retireWait = s.retireWait := rfl
@[simp] theorem State.onTimer_cpe : (s.onTimer n f).cpe = s.cpe := rfl
@[simp] theorem State.onTimer_att : (s.onTimer n f).att = s.att := rfl
@[simp] theorem State.onTimer_str : (s.onTimer n f).str = s.str := rfl
@[simp] theorem State.onTimer_obs : (s.onTimer n f).obs = s.obs := rfl
@[simp] theorem State.onTimer_ftu : (s.onTimer n f).ftu = s.ftu := rfl
@[simp] theorem State.onTimer_fcc : (s.onTimer n f).fcc = s.fcc := rfl
@[simp] theorem State.onTimer_streams : (s.onTimer n f).streams = s.streams := rfl
@[simp] theorem State.onTimer_epochs : (s.onTimer n f).epochs = s.epochs := rfl
@[simp] theorem State.onTimer_hcc : (s.onTimer n f).hcc = s.hcc := rfl
@[simp] theorem State.onTimer_bel : (s.onTimer n f).bel = s.bel := rfl
@[simp] theorem State.onTimer_prt : (s.onTimer n f).prt = s.prt := rfl
@[simp] theorem State.onTimer_pending : (s.onTimer n f).pending = s.pending := rfl

end

/-! `onStr` changes `str` and nothing else. -/

section
variable (s : State) (f : Stream → Stream)

@[simp] theorem State.onStr_now : (s.onStr f).now = s.now := rfl
@[simp] theorem State.onStr_free : (s.onStr f).free = s.free := rfl
@[simp] theorem State.onStr_out : (s.onStr f).out = s.out := rfl
@[simp] theorem State.onStr_isl : (s.onStr f).isl = s.isl := rfl
@[simp] theorem State.onStr_pwr : (s.onStr f).pwr = s.pwr := rfl
@[simp] theorem State.onStr_pads : (s.onStr f).pads = s.pads := rfl
@[simp] theorem State.onStr_latches : (s.onStr f).latches = s.latches := rfl
@[simp] theorem State.onStr_spr : (s.onStr f).spr = s.spr := rfl
@[simp] theorem State.onStr_mbx : (s.onStr f).mbx = s.mbx := rfl
@[simp] theorem State.onStr_cmds : (s.onStr f).cmds = s.cmds := rfl
@[simp] theorem State.onStr_fw : (s.onStr f).fw = s.fw := rfl
@[simp] theorem State.onStr_ram : (s.onStr f).ram = s.ram := rfl
@[simp] theorem State.onStr_cap : (s.onStr f).cap = s.cap := rfl
@[simp] theorem State.onStr_own : (s.onStr f).own = s.own := rfl
@[simp] theorem State.onStr_sgu : (s.onStr f).sgu = s.sgu := rfl
@[simp] theorem State.onStr_sct : (s.onStr f).sct = s.sct := rfl
@[simp] theorem State.onStr_siteFlights : (s.onStr f).siteFlights = s.siteFlights := rfl
@[simp] theorem State.onStr_sockets : (s.onStr f).sockets = s.sockets := rfl
@[simp] theorem State.onStr_clusters : (s.onStr f).clusters = s.clusters := rfl
@[simp] theorem State.onStr_mem : (s.onStr f).mem = s.mem := rfl
@[simp] theorem State.onStr_mcc : (s.onStr f).mcc = s.mcc := rfl
@[simp] theorem State.onStr_pcc : (s.onStr f).pcc = s.pcc := rfl
@[simp] theorem State.onStr_nwt : (s.onStr f).nwt = s.nwt := rfl
@[simp] theorem State.onStr_dom : (s.onStr f).dom = s.dom := rfl
@[simp] theorem State.onStr_lc : (s.onStr f).lc = s.lc := rfl
@[simp] theorem State.onStr_slots : (s.onStr f).slots = s.slots := rfl
@[simp] theorem State.onStr_sets : (s.onStr f).sets = s.sets := rfl
@[simp] theorem State.onStr_invals : (s.onStr f).invals = s.invals := rfl
@[simp] theorem State.onStr_retireWait : (s.onStr f).retireWait = s.retireWait := rfl
@[simp] theorem State.onStr_cpe : (s.onStr f).cpe = s.cpe := rfl
@[simp] theorem State.onStr_att : (s.onStr f).att = s.att := rfl
@[simp] theorem State.onStr_obs : (s.onStr f).obs = s.obs := rfl
@[simp] theorem State.onStr_ftu : (s.onStr f).ftu = s.ftu := rfl
@[simp] theorem State.onStr_fcc : (s.onStr f).fcc = s.fcc := rfl
@[simp] theorem State.onStr_streams : (s.onStr f).streams = s.streams := rfl
@[simp] theorem State.onStr_epochs : (s.onStr f).epochs = s.epochs := rfl
@[simp] theorem State.onStr_hcc : (s.onStr f).hcc = s.hcc := rfl
@[simp] theorem State.onStr_bel : (s.onStr f).bel = s.bel := rfl
@[simp] theorem State.onStr_prt : (s.onStr f).prt = s.prt := rfl
@[simp] theorem State.onStr_pending : (s.onStr f).pending = s.pending := rfl
@[simp] theorem State.onStr_str : (s.onStr f).str = f s.str := rfl

end

/-! `emit` changes `out` and nothing else. -/

section
variable (s : State) (o : PortOut)

@[simp] theorem State.emit_now : (s.emit o).now = s.now := rfl
@[simp] theorem State.emit_free : (s.emit o).free = s.free := rfl
@[simp] theorem State.emit_isl : (s.emit o).isl = s.isl := rfl
@[simp] theorem State.emit_pwr : (s.emit o).pwr = s.pwr := rfl
@[simp] theorem State.emit_pads : (s.emit o).pads = s.pads := rfl
@[simp] theorem State.emit_latches : (s.emit o).latches = s.latches := rfl
@[simp] theorem State.emit_spr : (s.emit o).spr = s.spr := rfl
@[simp] theorem State.emit_mbx : (s.emit o).mbx = s.mbx := rfl
@[simp] theorem State.emit_cmds : (s.emit o).cmds = s.cmds := rfl
@[simp] theorem State.emit_fw : (s.emit o).fw = s.fw := rfl
@[simp] theorem State.emit_ram : (s.emit o).ram = s.ram := rfl
@[simp] theorem State.emit_cap : (s.emit o).cap = s.cap := rfl
@[simp] theorem State.emit_own : (s.emit o).own = s.own := rfl
@[simp] theorem State.emit_sgu : (s.emit o).sgu = s.sgu := rfl
@[simp] theorem State.emit_sct : (s.emit o).sct = s.sct := rfl
@[simp] theorem State.emit_siteFlights : (s.emit o).siteFlights = s.siteFlights := rfl
@[simp] theorem State.emit_sockets : (s.emit o).sockets = s.sockets := rfl
@[simp] theorem State.emit_clusters : (s.emit o).clusters = s.clusters := rfl
@[simp] theorem State.emit_mem : (s.emit o).mem = s.mem := rfl
@[simp] theorem State.emit_mcc : (s.emit o).mcc = s.mcc := rfl
@[simp] theorem State.emit_pcc : (s.emit o).pcc = s.pcc := rfl
@[simp] theorem State.emit_nwt : (s.emit o).nwt = s.nwt := rfl
@[simp] theorem State.emit_dom : (s.emit o).dom = s.dom := rfl
@[simp] theorem State.emit_lc : (s.emit o).lc = s.lc := rfl
@[simp] theorem State.emit_slots : (s.emit o).slots = s.slots := rfl
@[simp] theorem State.emit_sets : (s.emit o).sets = s.sets := rfl
@[simp] theorem State.emit_invals : (s.emit o).invals = s.invals := rfl
@[simp] theorem State.emit_retireWait : (s.emit o).retireWait = s.retireWait := rfl
@[simp] theorem State.emit_cpe : (s.emit o).cpe = s.cpe := rfl
@[simp] theorem State.emit_att : (s.emit o).att = s.att := rfl
@[simp] theorem State.emit_str : (s.emit o).str = s.str := rfl
@[simp] theorem State.emit_obs : (s.emit o).obs = s.obs := rfl
@[simp] theorem State.emit_ftu : (s.emit o).ftu = s.ftu := rfl
@[simp] theorem State.emit_fcc : (s.emit o).fcc = s.fcc := rfl
@[simp] theorem State.emit_streams : (s.emit o).streams = s.streams := rfl
@[simp] theorem State.emit_epochs : (s.emit o).epochs = s.epochs := rfl
@[simp] theorem State.emit_hcc : (s.emit o).hcc = s.hcc := rfl
@[simp] theorem State.emit_bel : (s.emit o).bel = s.bel := rfl
@[simp] theorem State.emit_prt : (s.emit o).prt = s.prt := rfl
@[simp] theorem State.emit_pending : (s.emit o).pending = s.pending := rfl
@[simp] theorem State.emit_out : (s.emit o).out = s.out ++ [o] := rfl

end

end Sys2Proof.Machine
end

