-- ==== Sys2Proof/Laws/Tbl.lean ====
section
/-!
SUPPORT. Sparse tables: reading after writing, and the canonical form.
-/

namespace Sys2Proof.Laws

open Sys2Proof.Machine

variable {α : Type}

theorem find_insert_same (l : List (Nat × α)) (k : Nat) (v : α) : Tbl.find (Tbl.insertCells l k v) k = some v := by
  induction l with
  | nil => simp [Tbl.insertCells, Tbl.find]
  | cons c rest ih =>
    obtain ⟨j, w⟩ := c
    simp only [Tbl.insertCells]
    split
    · simp [Tbl.find]
    · split
      · simp [Tbl.find]
      · rename_i h
        simp only [Tbl.find, h, if_false, ih]

theorem find_insert_other (l : List (Nat × α)) (k x : Nat) (v : α) (h : x ≠ k) :
    Tbl.find (Tbl.insertCells l k v) x = Tbl.find l x := by
  induction l with
  | nil => simp [Tbl.insertCells, Tbl.find, Ne.symm h]
  | cons c rest ih =>
    obtain ⟨j, w⟩ := c
    simp only [Tbl.insertCells]
    split
    · simp [Tbl.find, Ne.symm h]
    · split
      · rename_i hj
        subst hj
        simp [Tbl.find, Ne.symm h]
      · simp only [Tbl.find, ih]

theorem find_erase_other (l : List (Nat × α)) (k x : Nat) (h : x ≠ k) :
    Tbl.find (Tbl.eraseCells l k) x = Tbl.find l x := by
  induction l with
  | nil => rfl
  | cons c rest ih =>
    obtain ⟨j, w⟩ := c
    simp only [Tbl.eraseCells]
    split
    · rename_i hj
      subst hj
      simp [Tbl.find, Ne.symm h]
    · simp only [Tbl.find, ih]

variable [Inhabited α] [DecidableEq α]

/-- Writing one entry leaves every other entry alone, whatever the table. -/
theorem tbl_get_set_other (t : Tbl α) (k x : Nat) (v : α) (h : x ≠ k) : (t.set k v).get x = t.get x := by
  unfold Tbl.set Tbl.get
  split
  · simp only [find_erase_other _ _ _ h]
  · simp only [find_insert_other _ _ _ _ h]

/-- Changing one entry leaves every other entry alone. -/
theorem tbl_get_modify_other (t : Tbl α) (k x : Nat) (f : α → α) (h : x ≠ k) : (t.modify k f).get x = t.get x :=
  tbl_get_set_other t k x _ h

/-- A value that is not the reset entry reads back. -/
theorem tbl_get_set_of_ne_default (t : Tbl α) (k : Nat) (v : α) (h : v ≠ default) : (t.set k v).get k = v := by
  unfold Tbl.set Tbl.get
  simp only [h, if_false, find_insert_same, Option.getD_some]

/-- A change to something other than the reset entry reads back. -/
theorem tbl_get_modify_of_ne_default (t : Tbl α) (k : Nat) (f : α → α) (h : f (t.get k) ≠ default) :
    (t.modify k f).get k = f (t.get k) :=
  tbl_get_set_of_ne_default t k _ h

end Sys2Proof.Laws
end

