-- ==== Sys2Proof/Tests/Slice0.lean ====
section
/-!
SUPPORT. The model's own tests: ill-formed commands that WellFormed refuses, and for the statements of
Certificates/Slice0 a small concrete state and operands that meet the hypotheses of each clause.
-/

namespace Sys2Proof.Tests

open Sys2Proof.Machine

set_option maxRecDepth 8000
set_option Elab.async false

/-- A READ of four bytes. -/
def okReq : MemReq := { tid := 1, addr := 0x1000, len := 4, tdid := 3 }

/-- WellFormed takes a well-formed command of each checked kind, and refuses an ill-formed one of each check: LEN 0, LEN
beyond 4,096, NODE outside FORM fabric, ATOP on a READ, a posted READ, a WRITE with too little data or too few enables, an
ATOMIC of the wrong size or posted, a MSG that is not posted, a fourth sub-stream, a short line, nine lines of a group or
one twice, an empty Newt commit, a short SEAL_ID, key or nonce, and a packet beyond 4,136 bytes. -/
theorem test_wellFormed :
    wellFormed (.mccReadRequest 0 okReq) = true ∧
    wellFormed (.mccWriteRequest 0 { okReq with data := [1, 2, 3, 4], be := [true, true, false, true] }) = true ∧
    wellFormed (.pccAtomicRequest 0 { okReq with atop := 1 }) = true ∧
    wellFormed (.siteRequest 0 { op := .msg, ctx := 0, q := { okReq with addr := 0, posted := true } }) = true ∧
    wellFormed (.mccReadRequest 0 { okReq with len := 0 }) = false ∧
    wellFormed (.pccReadRequest 0 { okReq with len := 4097 }) = false ∧
    wellFormed (.hostOutboundRequest { okReq with node := 1 }) = false ∧
    wellFormed (.mccReadRequest 0 { okReq with atop := 1 }) = false ∧
    wellFormed (.mccReadRequest 0 { okReq with posted := true }) = false ∧
    wellFormed (.mccWriteRequest 0 { okReq with data := [1, 2, 3], be := [true, true, true, true] }) = false ∧
    wellFormed (.fabricSend 0 { okReq with len := 5, data := [1, 2, 3, 4, 5], be := [true] }) = false ∧
    wellFormed (.mccAtomicRequest 0 { okReq with atop := 1, wide := true }) = false ∧
    wellFormed (.pccAtomicRequest 0 { okReq with atop := 1, posted := true }) = false ∧
    wellFormed (.siteRequest 0 { op := .msg, ctx := 0, q := { okReq with addr := 0 } }) = false := by decide

theorem test_wellFormed_arrivals :
    wellFormed (.hostInboundTlp none { sub := 3, q := okReq }) = false ∧
    wellFormed (.mpDataArrival 0 0 (List.replicate 63 0) .none) = false ∧
    wellFormed (.mpDataArrival 0 0 (List.replicate 64 0) .none) = true ∧
    wellFormed (.newtCopy 0 0 [(3, List.replicate 64 0, [], .none), (3, List.replicate 64 0, [], .none)]) = false ∧
    wellFormed (.newtCopy 0 0 ((List.range 9).map (fun i => (i, List.replicate 64 0, [], .none)))) = false ∧
    wellFormed (.newtCommit 0 0 0) = false ∧
    wellFormed (.domeSeal 40 [1]) = false ∧
    wellFormed (.ideKmKeyProg { stream := 1, key := [1] }) = false ∧
    wellFormed (.startInterfaceRequest 0 [1]) = false := by decide +kernel

theorem test_wellFormed_packet :
    wellFormed (.packetReceive 0 (List.replicate 4136 0) 0) = true ∧
    wellFormed (.packetReceive 0 (List.replicate 4137 0) 0) = false := by
  unfold wellFormed
  simp only [List.length_replicate]
  decide

/-- Every island out of reset and loaded, and Tower firmware running. -/
def upState : State :=
  { State.reset with
    isl := Tbl.ofList ((List.range 46).map (fun i => (i, { inReset := false, loaded := true, clampOff := true })))
    fw := { running := true } }

/-- Tower out of reset, with one word of sequence value 1 in RX of mailbox 1. -/
def rxState : State := { upState with mbx := Tbl.ofList [(1, { rx := [{ word := 5, seq := 1 }], rxSeq := 1 })] }
theorem test_mbxTake : rxState.live 1 = true ∧ (rxState.mbx.get 1).rx = [{ word := 5, seq := 1 }] ∧
    (1 : BitVec 8).toNat = fld (0x101#32) 7 0 ∧ 1 ≤ fld (0x101#32) 11 8 ∧ fld (0x101#32) 11 8 ≤ 1 := by decide +kernel
theorem test_mbxTake_wrong : (1 : BitVec 8).toNat ≠ fld (0x102#32) 7 0 ∧ 1 < fld (0x201#32) 11 8 ∧ upState.live 1 = true ∧
    (upState.mbx.get 2).rx = [] := by decide +kernel

/-- WORD-mode mailbox 0 full in both directions, Tower out of reset. -/
def fullState : State :=
  { upState with mbx := Tbl.ofList [(0, { queueMode := false, tx := [{ word := 1, seq := 1 }], rx := [{ word := 2, seq := 1 }] })] }
theorem test_mbxTxWrite : fullState.live 1 = true ∧ (fullState.mbx.get 0).room ≤ (fullState.mbx.get 0).tx.length ∧
    (fullState.mbx.get 0).room ≤ (fullState.mbx.get 0).rx.length ∧
    (fullState.mbx.get 1).tx.length < (fullState.mbx.get 1).room := by decide +kernel

theorem test_commandCollision :
    let s : State := { upState with mbx := Tbl.ofList [(1, { collTx := true, tx := [{ word := 1, seq := 1 }] })] }
    s.fwUp = true ∧ (s.mbx.get 1).collTx = true := by decide +kernel

theorem test_mbxRxWrite :
    let s : State := { upState with mbx := Tbl.ofList [(1, { resp := [[7, 8]] })] }
    s.fwUp = true ∧ (s.mbx.get 1).resp = [[7, 8]] ∧ (s.mbx.get 1).rx.length + 1 < (s.mbx.get 1).room := by decide +kernel
/-- LC_STATUS (0x05), CMD_ID 9, waiting on the manager's mailbox. -/
def messageState : State :=
  { upState with mbx := Tbl.ofList [(1, { tx := [{ word := 0x05000009, seq := 1 }, { word := 0, seq := 2 }] })] }
theorem test_mbxTowerTake : messageState.fwUp = true ∧ messageState.fw.sleep = false ∧ (messageState.isl.get 1).swap = .run ∧
    (messageState.mbx.get 1).collTx = false ∧ (messageState.mbx.get 1).head = some (2, none) ∧
    (messageState.txTake 1 2).refusal 1 5 0 = none := by decide +kernel
theorem test_unknownCommand :
    let s : State := { upState with mbx := Tbl.ofList [(1, { tx := [{ word := 0xFF000009, seq := 1 }, { word := 0, seq := 2 }] })] }
    s.fwUp = true ∧ (s.mbx.get 1).collTx = false ∧ (s.mbx.get 1).head = some (2, some 2) := by decide +kernel
theorem test_noticeWrite :
    let s : State := { upState with cap := { words := [(1, 2)] } }
    s.cap.words = [(1, 2)] ∧ s.fwUp = true := by decide +kernel
theorem test_towerSleep : upState.fwUp = true ∧ ∀ c ∈ upState.mbx.cells, c.2.tx = [] := by decide +kernel
theorem test_towerWake : ∃ c ∈ messageState.mbx.cells, c.2.tx ≠ [] := by decide +kernel
theorem test_fenceWriteError :
    let s : State := { upState with prt := { objs := Tbl.ofList [(objKey 6 0, { used := true })] } }
    (s.obj (objKey 6 0)).used = true := by decide +kernel

/-- A manager's message with TAG 0 and CMD_ID 1. -/
def mgr : Hdr := { mbx := 1, cmdId := 1, tag := 0 }
theorem test_streamLoad : ((upState.advance 0).arrival mgr 1 (addrWords 0 ++ [64])).isSome = true ∧
    upState.str.busy = false ∧ upState.lc.running = none ∧ (upState.advance 0).noArchive = false := by decide +kernel
theorem test_bootStreamLoad : (upState.advance 0).fwUp = true ∧ (upState.advance 0).str.busy = false ∧
    (upState.advance 0).pwr.committed = false := by decide +kernel
/-- A shadow set that a swap has aborted. -/
def abortedState : State := { upState with str := { state := 6, shadow := some {} } }
theorem test_streamRetry : (abortedState.arrival mgr 2 []).isSome = true ∧ abortedState.str.state = 6 ∧
    abortedState.str.shadow = some {} := by decide +kernel

/-- A VALIDATED set that names no commit time. -/
def validatedState : State := { upState with str := { state := 2, shadow := some {} } }
theorem test_commitTimeReached : ((validatedState.advance 0).atStep stepCompare).str.state = 2 ∧ validatedState.live 2 = true ∧ validatedState.spr.coord = .idle ∧
    ((((validatedState.advance 0).atStep stepCompare).writeShadows {}).onStr (fun y => { y with state := 3 })).spireRefuses {} = false := by
  decide +kernel
/-- MCC0 is the only participant, in RUN; SPR awaits its answer. -/
def collectingState : State :=
  { upState with str := { state := 3, shadow := some {} }, spr := { coord := .collecting, participants := [3] } }
theorem test_islandPrepare : 3 ∈ collectingState.spr.participants ∧ (collectingState.isl.get 3).swap = .run ∧
    (∀ r ∈ collectingState.spr.refused, r.1 ≠ 3) ∧ 3 ∉ collectingState.spr.abortTo := by decide +kernel
theorem test_boundaryReached :
    let s := collectingState.onIsl 3 (fun r => { r with swap := .draining })
    (s.isl.get 3).swap = .draining ∧ s.atBoundary 3 = true := by decide +kernel
theorem test_refusedReceived :
    let s := collectingState.onSpr (fun p => { p with refused := [(3, 0x100A)] })
    (s.atStep stepArrive).spr.coord = .collecting ∧ (s.atStep stepArrive).spr.refused.find? (fun r => r.1 == 3) = some (3, 0x100A) := by decide +kernel
theorem test_prepareWindowExpiry : (collectingState.atStep stepCompare).spr.coord = .collecting := by decide +kernel
theorem test_islandAbort :
    let s := (collectingState.onIsl 3 (fun r => { r with swap := .draining })).onSpr (fun p => { p with coord := .idle, abortTo := [3] })
    3 ∈ s.spr.abortTo ∧ (s.isl.get 3).swap ≠ .run := by decide +kernel

theorem test_preparedReceived :
    let s := collectingState.onIsl 3 (fun r => { r with swap := .prepared })
    s.spr.step = 0 ∧ s.spr.coord = .collecting ∧ 3 ∈ s.spr.participants ∧ 3 ∉ s.spr.prepared ∧ (s.isl.get 3).swap = .prepared := by decide +kernel
/-- COMMIT is on its way to MCC0, which is PREPARED. -/
def committingState : State :=
  { upState with
    str := { state := 3, active := some {} }
    spr := { coord := .committing, participants := [3], commitTo := [3] }
    isl := upState.isl.modify 3 (fun r => { r with swap := .prepared }) }
theorem test_islandCommit : committingState.str.active = some {} ∧ 3 ∈ committingState.spr.commitTo ∧
    (committingState.isl.get 3).swap = .prepared := by decide +kernel
theorem test_committedReceived :
    let s := committingState.onSpr (fun p => { p with commitTo := [] })
    (s.atStep stepArrive).awaitsCommitted 3 = true ∧ 3 ∉ (s.atStep stepArrive).spr.commitTo ∧
      (committingState.atStep stepCompare).awaitsCommitted 3 = true := by decide +kernel
theorem test_archiveCopy :
    let x : StreamSet := { sections := [{ id := 2 }], bytes := [1] }
    let s : State := { upState with str := { active := some x, base := 0x400000 }
                                    prt := { regions := Tbl.ofList [(archiveRegion, { entries := [0], slot := some 0 })] } }
    s.fwUp = true ∧ (s.region archiveRegion).entries = [0] ∧ (s.region archiveRegion).phase = .live ∧
      s.str.copied = false := by decide +kernel
theorem test_islandSectionLoad :
    let s : State := { upState with str := { active := some {} }, pwr := { committed := true }, isl := upState.isl.modify 3 (fun r => { r with loaded := false }) }
    s.live 3 = true ∧ s.loading 3 = true ∧ s.live 1 = true ∧ s.str.copied = false ∧ s.archiveGood [] none = true := by decide +kernel

/-- Sockets 0, 1, 14 and 15 of MCC0 powered and tested, 14 and 15 as spares; an issue cap. -/
def laneState : State :=
  let k : Socket := { activity := 0, powered := true, tested := true }
  { upState with
    sockets := ⟨[(0, k), (1, { k with lane := 1 }), (14, { k with lane := 14, role := 1 }), (15, { k with lane := 15, role := 1 })]⟩
    clusters := ⟨[(3, { cap := 8 })]⟩ }
/-- As `laneState`, with no healthy spare. -/
def noSpareState : State := { laneState with sockets := ⟨[(0, { activity := 0, powered := true, tested := true })]⟩ }
theorem test_laneKnownAnswerTest : 0 < socketCount 3 ∧ (laneState.socket 3 0).powered = true ∧ (laneState.socket 3 0).role = 0 ∧
    (laneState.report 1 3 0).freshSpares 3 = [14, 15] ∧ (laneState.socket 3 14).role ≠ 0 ∧
    (noSpareState.report 1 3 0).freshSpares 3 = [] := by decide +kernel
theorem test_laneGroupPowerOn : { upState with pwr := { committed := true } }.pwr.committed = true ∧
    { upState with pwr := { committed := true } }.pwr.exempt ≤ 1 ∧ 1 < { upState with pwr := { exempt := 2 } }.pwr.exempt := by decide +kernel
theorem test_ageingReading :
    let u := laneState.onSocket 3 0 (fun x => { x with ageing := 0xC0 })
    0 ∈ u.activeSockets 3 ∧ u.healthySpares 3 ≠ [] ∧ u.spr.swapQueue = [] ∧ (u.clusters.get 3).swap = none := by decide +kernel
theorem test_wearPeriod : (upState.advance 3600000000000).spr.wearAt + 3600000000000 ≤ (upState.advance 3600000000000).now := by
  decide +kernel

/-- A read of MCC0 whose output waits for a comparison of sockets 0 and 14. -/
def cmpState : State := { laneState with clusters := Tbl.ofList [(3, { cap := 8, items := [{ id := 1, active := 0, spare := 14 }] })] }
theorem test_laneOutput : cmpState.item 3 1 = some { id := 1, active := 0, spare := 14 } ∧
    (((cmpState.mismatch 3 0).mismatch 3 14).countT 3 0x0F 128).thirdLane 3 { id := 1, active := 0, spare := 14 } =
      some 1 := by decide +kernel
theorem test_laneFaulty : laneState.laneSocket 3 0 = some 0 ∧ (laneState.socket 3 0).role = 0 ∧ laneState.laneSocket 3 14 = some 14 ∧
    (laneState.socket 3 14).role = 1 ∧
    (((noSpareState.mismatch 3 0).mismatch 3 14).countT 3 0x0F 128).thirdLane 3 { active := 0, spare := 14 } = none := by decide +kernel
theorem test_laneVote :
    let x : Item := { id := 1, active := 0, spare := 14, voting := true, third := some 1 }
    { laneState with clusters := Tbl.ofList [(3, { items := [x] })] }.item 3 1 = some x := by decide +kernel
theorem test_laneSwapOrder : laneState.spr.swapQueue = [] ∧ laneState.pwr.stepTaken = false ∧ laneState.spr.coord = .idle ∧
    (laneState.clusters.get 3).swap = none ∧ 0 ∈ laneState.activeSockets 3 ∧ laneState.availableSpares 3 = [14, 15] := by decide +kernel
theorem test_socketSwitch :
    (({ laneState with clusters := Tbl.ofList [(3, { swap := some { socket := 0, spare := 14, lockstepDone := true } })] } : State).clusters.get
      3).swap = some { socket := 0, spare := 14, lockstepDone := true } := by decide +kernel

/-- Slot 40 LIVE for MCC in TEST, and MCC0 awaiting its schedule. -/
def fillState : State :=
  { laneState with
    slots := Tbl.ofList [(40, { attr := ({ purpose := 0, masters := 0x11, world := 2, lcMask := 15, source := 0, part := 1, tdid := 1 } : SlotSpec).attr })]
    clusters := Tbl.ofList [(3, { cap := 8, awaiting := [40, 41] })] }
theorem test_scheduleFill : fillState.live 3 = true ∧ 40 ∈ (fillState.clusters.get 3).awaiting ∧ fillState.invals = [] ∧
    fillState.fillOk 3 40 = true ∧ 41 ∈ (fillState.clusters.get 3).awaiting ∧ fillState.fillOk 3 41 = false := by decide +kernel
theorem test_scheduleInvalidate : (3, 40) ∈ { fillState with invals := [(3, 40)] }.invals := by decide +kernel

/-- Dome ready in TEST with nothing queued, and slot 40 LIVE and exportable. -/
def domeState : State :=
  { upState with
    dom := { rootState := 2, shareA := [1], shareB := [1] }
    slots := Tbl.ofList [(40, { attr := ({ purpose := 3, masters := 0x20, world := 3, lcMask := 15, source := 0, part := 1, tdid := 1, leave := true } : SlotSpec).attr })] }
theorem test_domeDerive : domeState.domeReady = true ∧ (domeState.slot 0).state = 0 ∧ (domeState.slot 1).state = 0 ∧
    (domeState.slot 41).state = 0 ∧ domeState.dom.queue = [] := by decide +kernel
theorem test_cpe : upState.cpe.busy = false ∧ ({ upState with cpe := { busy := true } } : State).cpe.busy = true ∧ ({ upState with cpe := { out := some {} } } : State).cpe.out = some {} := by decide +kernel
theorem test_domeDeriveDone : ({ domeState with dom := { queue := [.archive] } } : State).dom.queue = [.archive] := by decide +kernel
theorem test_domeSeal : domeState.domeReady = true ∧ (domeState.slot 40).state = 1 ∧ (domeState.slot 40).mayLeave = true ∧
    (domeState.slot 40).setBound = false ∧ bit (domeState.slot 40).lcMask domeState.lcBit = true ∧
    domeState.notExpired (domeState.slot 40) = true := by decide +kernel

/-- The rail absent. -/
def railOffState : State := { State.reset with dom := { railPresent := false } }
/-- Tower out of reset, and the ROM loader may run. -/
def romState : State :=
  { State.reset with isl := ⟨[(1, { inReset := false, loaded := true })]⟩, pwr := { hresetLow := false, rootStepsDone := true } }
theorem test_power : railOffState.dom.railPresent = false ∧ State.reset.dom.railPresent = true ∧ State.reset.pwr.hresetLow = true ∧
    romState.romReady = true ∧ romState.fw.running = false ∧ romState.fw.recovery = false := by decide +kernel
theorem test_recoveryWord :
    let s : State := { romState with fw := { recovery := true, words := [1, 2] } }
    s.fw.recovery = true ∧ s.live 1 = true ∧ (s.mbx.get 0).tx = [] ∧ (s.mbxTxWrite 0 7).fw.words = [1, 2] ∧
    ((s.mbxTxWrite 0 7).mbx.get 0).tx = [{ word := 7, seq := 1 }] ∧ (romState.fw.words ++ [7]).length < 3 := by decide +kernel
theorem test_islandPllLock : romState.pwr.hresetLow = false ∧ romState.dom.railPresent = true ∧
    (romState.isl.get 2).inReset = true ∧ (romState.isl.get 2).clockHeld = false ∧ romState.clamped 2 = false := by decide +kernel

/-- As the lane tests' state, MCC0 with no cap. -/
def uncappedState : State := { laneState with clusters := {} }
theorem test_rampWindow :
    let u := (uncappedState.setDemands [(3, 8)])
    uncappedState.live 2 = true ∧ u.windowSwap = none ∧ u.pwr.belfryWait = 0 ∧ u.pwr.testWait = 0 ∧
    (grantOrder u.pwr.lastGrant).find? u.waitsGrant = some 3 ∧
    (uncappedState.onSpr (fun p => { p with swapQueue := [(3, 0, false)] })).windowSwap.isSome = true ∧
    (0 < ({ uncappedState with pwr := { belfryWait := 1, testWait := 1 } } : State).pwr.belfryWait) := by decide +kernel

theorem test_tamper :
    let s : State := { upState with dom := { enable := 1, vbatLow := true, latched := true } }
    s.dom.enable.getLsbD 0 = true ∧ s.dom.vbatLow = true ∧ s.dom.railPresent = true ∧ s.dom.lowDone = false ∧
    s.dom.latched = true ∧ s.dom.rootState ≠ 2 ∧ ({ s with dom := { s.dom with rootState := 2 } } : State).dom.rootState = 2 ∧
    (0x80000000#32).getLsbD 31 = true ∧ s.dom.vbatLow ≠ false := by decide +kernel

theorem test_lcChallenge : (upState.arrival mgr 3 []).isSome = true ∧ (upState.arrival mgr 5 []).isSome = true := by decide +kernel
/-- A formed TRANSITION token for PROVISIONED (target 4) with the zero challenge. -/
def tokenBytes : Bytes := [0x4F, 0x4E, 0x4C, 0x54, 1, 0, 1, 4] ++ List.replicate 5600 0
theorem test_lcTransition :
    let s : State := { upState with lc := { challenge := some (List.replicate 32 0) } }
    (s.arrival mgr 4 (addrWords 0)).isSome = true ∧ tokenFormed tokenBytes = true ∧ s.lcBusy = none ∧
    s.lc.challenge = some (Bytes.slice tokenBytes 8 32) := by decide +kernel
theorem test_fuseProgramDone :
    let s : State := { upState with lc := { phase := 2, running := some { target := 8, fuses := [.row 16] } } }
    s.dom.railPresent = true ∧ s.lc.running = some { target := 8, fuses := [.row 16] } := by decide +kernel

/-- Partition 1 ACTIVE with TDID 1 and slots 32 to 35; slot 40 of `fillState` is not in it. -/
def partState : State :=
  { upState with prt := { parts := ⟨[(1, { state := .active, tdids := 2, allot := [1, 4, 4, 4, 4, 4, 4, 4, 4, 4, 4, 4, 4, 4], slot0 := 32, rot0 := 16, mbx0 := 32 })]⟩ } }
/-- Slot 32 a LIVE wrap key of partition 1 with EXPIRY 5, in a block whose secure time is 6 s. -/
def wrapState : State :=
  { partState with
    slots := ⟨[(32, { attr := ({ purpose := 3, masters := 0x20, world := 2, lcMask := 15, source := 1, part := 1, tdid := 1, expiry := 7 } : SlotSpec).attr, key := List.replicate 64 1 })]⟩
    spr := { time := { counter := 6000000000, locked := true } }
    prt := { partState.prt with objs := ⟨[(objKey 4 32, { used := true, part := 1 })]⟩ } }
theorem test_slotExpiry :
    let s : State := { wrapState with spr := { time := { counter := 8000000000, locked := true } } }
    (s.slot 32).state = 1 ∧ (s.slot 32).expiry ≠ 0 ∧ s.spr.time.locked = true ∧ (s.slot 32).expiry ≤ s.seconds := by decide +kernel
theorem test_slotRetire : (wrapState.arrival mgr 0x26 [0x40000020]).map (fun (t, c) => decide (
    (t.named c 4 0x40000020).toOption = some 32 ∧ t.gate (t.actsFor c (objKey 4 32)) 0x26 = true)) = some true := by
  decide +kernel
theorem test_slotInvalidationAcked :
    let s := wrapState.onSlot 32 (fun x => { x with attr := setFld x.attr 1 0 2 })
    (s.slot 32).state = 2 ∧ s.invals = [] := by decide +kernel
/-- A blob of a LINK key for TDID 1, any state, no set. -/
def blobBytes : Bytes := [0x4F, 0x4E, 0x4B, 0x42, 1, 0, 2, 0, 1, 15, 32, 0] ++ List.replicate 124 0
theorem test_blobUnwrap : (wrapState.arrival mgr 0x25 ([0x40000020] ++ addrWords 0)).map (fun (t, c) => decide (
    (t.named c 4 0x40000020).toOption = some 32 ∧ t.actsFor c (objKey 4 32) = 1 ∧ t.gate 1 0x25 = true ∧ t.lc.rootless = false ∧
    t.slotForFill 1 = some 33 ∧ t.prt.refs.length < 32768 ∧ t.blobHeaderOk 1 (Bytes.fit blobBytes 136) = true ∧
    t.wrapOk 32 = true ∧ (t.slot 32).part = 1 ∧ t.blobSetOk 32 (Bytes.fit blobBytes 136) = true)) = some true := by
  decide +kernel

/-- An entry: START, LENGTH, OWNER, CLASS, KEY_SLOT of a LIVE range. -/
def liveEntry (start len owner cls slot : Nat) : BitVec 128 :=
  BitVec.ofNat 128 (start + 2 ^ 40 * len + 2 ^ 72 * owner + 2 ^ 80 * slot + 2 ^ 92 * cls + 2 ^ 94)
/-- Granules 0 to 15 OPEN for TDID 1 at MCC0; granules 16 to 31 class R for TDID 1 under slot 1 at PCC0. -/
def ownedState : State :=
  { laneState with own := { rep := ⟨[(5, liveEntry 0 16 1 0 0), (8192 * 8 + 6, liveEntry 16 16 1 0 0)]⟩ } }
/-- Eight bytes at address 64 for TDID 1. -/
def req8 : MemReq := { tid := 1, addr := 64, len := 8, tdid := 1, data := List.replicate 8 7, be := List.replicate 8 true }
theorem test_mccRequest : (ownedState.isl.get 3).swap = .run ∧ ownedState.present 3 = true ∧ ownedState.newtHolds 0 (reqNorm req8 .wr) = false ∧
    ownedState.ownCheck 3 64 8 1 false false = .pass 5 (liveEntry 0 16 1 0 0) ∧ ownedState.ownCheck 3 64 8 2 false true = .fail 2 5 ∧
    atopOk 1 = true ∧ atomicAligned 64 true = true ∧ atopOk 7 = false ∧ ({ req8 with form := 3 } : MemReq).form ≠ 0 := by decide +kernel
theorem test_mccHeld :
    ({ ownedState with nwt := { motion := [{ group := 0, commit := [0] }] } } : State).newtHolds 0 (reqNorm req8 .wr) = true := by
  decide +kernel

/-- One line operation of MCC0 in a given phase. -/
def opState (o : LineOp) : State := { ownedState with mem := ⟨[(3, { ops := [o], reqs := [{ id := 1, left := 1 }], next := 3 })]⟩ }
/-- A read of line 1 of the OPEN entry. -/
def openRead : LineOp := { id := 2, req := 1, line := 1, off := 0, len := 8, entry := 5, ent := liveEntry 0 16 1 0 0 }
theorem test_mpDataArrival : (opState { openRead with phase := .fetch }).op 3 2 = some { openRead with phase := .fetch } ∧
    Entry.cls openRead.ent = 0 ∧ openRead.kind = .rd ∧ openRead.raw = none ∧ Entry.cls (liveEntry 0 16 1 1 40) ≠ 0 ∧
    (opState { openRead with phase := .verdict, ok := false }).op 3 2 = some { openRead with phase := .verdict, ok := false } ∧
    (opState { openRead with phase := .sent, kind := .wr }).op 3 2 = some { openRead with phase := .sent, kind := .wr } ∧
    openRead.ok = true := by decide +kernel
theorem test_tagLineArrival :
    let s : State := { ownedState with mcc := ⟨[(0, { fetching := [9] })]⟩ }
    9 ∈ (s.mcc.get 0).fetching ∧ s.regUp 3 = true ∧ (s.mcc.get 0).flushLeft = 0 ∧
    ({ ownedState with mcc := ⟨[(0, { flushLeft := 1 })]⟩ } : State).regUp 3 = true := by decide +kernel

theorem test_pccRequest : (ownedState.isl.get 11).swap = .run ∧ ownedState.present 11 = true ∧
    ownedState.ownCheck 11 (16 * 4096) 8 1 false false = .pass 6 (liveEntry 16 16 1 0 0) ∧
    ownedState.ownCheck 11 0 8 1 false true = .fail 1 0 := by decide +kernel
/-- A read of PCC0 awaiting its data, its counts included. -/
def poolOp (o : LineOp) : State := { ownedState with mem := ⟨[(11, { ops := [o], reqs := [{ id := 1, left := 1 }], next := 3 })]⟩ }
theorem test_ppDataArrival :
    let o : LineOp := { id := 2, req := 1, line := 1024, phase := .fetch, ent := liveEntry 16 16 1 0 0 }
    (poolOp o).op 11 2 = some o ∧ Entry.cls o.ent = 0 ∧ o.kind = .rd ∧
    (poolOp { o with phase := .sent }).op 11 2 = some { o with phase := .sent } := by decide +kernel
theorem test_metadataArrival :
    let s : State := { ownedState with pcc := ⟨[(0, { fetches := [{ off := 4, node := true }, { off := 5 }] })]⟩ }
    (s.pcc.get 0).fetches.find? (fun f => f.off == 4 && f.got.isNone) = some { off := 4, node := true } ∧
    (s.pcc.get 0).fetches.find? (fun f => f.off == 5 && f.got.isNone) = some { off := 5 } := by decide +kernel

/-- Region 0 of TDID 1 on granules 0 to 15 under slot 32, moving to slot 33 in context 0. -/
def moveState (g : List Motion) : State :=
  let k (n : Nat) : Nat × Slot := (n, { attr := ({ purpose := 0, masters := 0x11, world := 2, lcMask := 15, source := 0, part := 1, tdid := 1 } : SlotSpec).attr, key := List.replicate 64 1 })
  { laneState with
    slots := ⟨[k 32, k 33]⟩
    prt := { partState.prt with regions := ⟨[(0, { tdid := 1, cls := 1, entries := [16], slot := some 32 })]⟩ }
    own := { master := ⟨[(16, liveEntry 0 16 1 1 32)]⟩, rep := ⟨[(16, liveEntry 0 16 1 1 32)]⟩ }
    nwt := { moves := ⟨[(0, { state := 1, newSlot := 33, oldSlot := 32, region := 0 })]⟩, motion := g } }
theorem test_newtCopy : ((moveState []).nwt.moves.get 0).state ≠ 0 ∧ ((moveState []).nwt.moves.get 0).send = none ∧
    (moveState []).live 42 = true ∧ (moveState []).groupMccs 0 = [0] ∧ (moveState []).groupMay ((moveState []).nwt.moves.get 0) 0 = true ∧
    ({ moveState [] with sockets := {} } : State).groupMay ((moveState []).nwt.moves.get 0) 0 = false := by decide +kernel
/-- Group 0 with seven lines done and line 7 copied. -/
def lastLine : Motion := { ctx := 0, group := 0, newkey := 0x7F, installed := 0x7F, copies := [(7, zeros 64)] }
theorem test_newtCommit : (moveState [lastLine]).motionOf 0 0 = some lastLine ∧ 
    (moveState [lastLine]).groupMay ((moveState [lastLine]).nwt.moves.get 0) 0 = true ∧
    (moveState [lastLine]).clearLines lastLine 0 = [7] ∧ (moveState [lastLine]).newtWorks 0 true = true := by decide +kernel
theorem test_newtHoldTimeout : (moveState [{ lastLine with commit := [0] }]).motionOf 0 0 = some { lastLine with commit := [0] } ∧
    (moveState [{ lastLine with newkey := 0xFF, installed := 0xFF }]).motionOf 0 0 =
      some { lastLine with newkey := 0xFF, installed := 0xFF } := by decide +kernel
theorem test_newtMoveComplete :
    let s : State := { moveState [] with nwt := { moves := ⟨[(0, { state := 1, newSlot := 33, oldSlot := 32, bound := 65536, front := 65536 })]⟩ } }
    let m := s.nwt.moves.get 0
    m.state ≠ 0 ∧ m.send = none ∧ (s.region m.region).dead = false ∧ (s.region m.region).slot = some m.oldSlot.toNat ∧
    s.regionSpans m.region = [(0, 65536)] ∧ inSpans [(0, 65536)] m.bound = false ∧ s.nwt.motion = [] := by decide +kernel

/-- Region 0 under initialisation on granules 0 to 15, class C under slot 32, SCRUBBING at MCC0. -/
def scrubState : State :=
  { moveState [] with
    prt := { regions := ⟨[(0, { tdid := 1, cls := 1, entries := [16], slot := some 32, phase := .scrubbing })]⟩ }
    own := { master := ⟨[(16, setFld (liveEntry 0 16 1 1 32) 96 94 3)]⟩, rep := ⟨[(16, setFld (liveEntry 0 16 1 1 32) 96 94 3)]⟩ } }
theorem test_lineInit : scrubState.regionOf 16 = some 0 ∧ (scrubState.region 0).phase = .scrubbing ∧ scrubState.present 3 = true ∧
    (scrubState.repEntry 3 16).state = 3 ∧ 3 ∈ scrubState.rangeParts 0 16 ∧ (scrubState.slot 32).state = 1 ∧
    scrubState.laneReady 3 = true ∧ scrubState.invals = [] ∧ scrubState.fillOk 3 32 = true := by decide +kernel
/-- The next line of MCC0's part, the same at the part's end, and the class C state with its schedule cached. -/
theorem test_lineInitPart : let s := { scrubState with clusters := ⟨[(3, { cap := 8, sched := [{ slot := 32, key := List.replicate 64 1 }] })]⟩ }
    let e := { scrubState with mcc := ⟨[(0, { initAt := ⟨[(16, 2048)]⟩ })]⟩ }
    scrubState.initHeld 3 16 = false ∧ (scrubState.slot 32).writeClosed = false ∧
    (scrubState.mcc.get 0).nextLine (max ((scrubState.mcc.get 0).initAt.get 16) (scrubState.mccPart 0 0 16).1) < (scrubState.mccPart 0 0 16).2 ∧
    (e.mccPart 0 0 16).2 ≤ (e.mcc.get 0).nextLine (max ((e.mcc.get 0).initAt.get 16) (e.mccPart 0 0 16).1) ∧
    ((s.readySched 3 32).2.map (·.writes)) = some true := by decide +kernel
theorem test_gecko : ({ upState with mcc := ⟨[(0, { geckoCtrl := 4 })]⟩ } : State).mcc.get 0 ≠ default ∧ upState.live 3 = true ∧
    fld (0x80010003#32) 20 16 ≤ 28 ∧ 28 < fld (0x801D0003#32) 20 16 := by decide +kernel

theorem test_rotUpdate :
    let s : State := { ownedState with own := { ownedState.own with inFlight := [(3, 5, .draining)], owes := [(3, 5)], drainDone := [(3, 5)] } }
    s.nextUpdate 3 = some (5, .draining) ∧ (3, 5) ∈ s.own.owes ∧ s.inflight 3 5 = 0 ∧ (3, 5) ∈ s.own.drainDone ∧
    (s.repEntry 3 5).state = 1 ∧ setFld (s.repEntry 3 5) 96 94 2 ≠ default := by decide +kernel
/-- Partition 1 with region 0 on entry 16. -/
def regionState : State :=
  { moveState [] with prt := { partState.prt with
    objs := ⟨[(objKey 3 0, { used := true, part := 1 })]⟩, regions := ⟨[(0, { tdid := 1, cls := 1, entries := [16], slot := some 32 })]⟩ } }
theorem test_iommuDone : (regionState.arrival mgr 0x10 [1, 0x30000000]).map (fun (t, c) => decide (
    (t.namedRegion c 0x30000000).toOption = some 0 ∧ t.regionPart 0 = 1 ∧ t.gate 1 0x10 = true)) = some true := by decide +kernel

/-- Site 0 ADMITTED in sequence 1; entry 3 valid for TDID 1, reads and writes, INBOUND. -/
def siteState1 : State :=
  { upState with
    sgu := ⟨[(0, { state := 2, admitSeq := 1 })]⟩
    sct := ⟨[(3, BitVec.ofNat 64 (1 + 2 ^ 8 + 2 ^ 16 + 2 ^ 17 + 2 ^ 21 + 2 ^ 24 + 2 ^ 32))]⟩
    siteFlights := [{ site := 0, tid := 7, read := true, len := 8 }] }
theorem test_siteRequest : (siteState1.isl.get 30).swap = .run ∧ siteState1.present 30 = true ∧ siteState1.siteState 0 = 2 ∧
    siteState1.sctValid 0 (siteState1.sctEntry 0 3) = true ∧ siteState1.sctValid 0 (siteState1.sctEntry 0 4) = false ∧
    sctAllows (siteState1.sctEntry 0 3) .read = true ∧ sctAllows (siteState1.sctEntry 0 3) .atomic = false ∧
    upState.siteState 0 ≠ 2 ∧ (siteState1.sctEntry 0 3).getLsbD 21 = true ∧ fld (siteState1.sctEntry 0 3) 14 8 = 1 ∧
    siteState1.siteFlights.find? (fun f => f.site == 0 && f.tid == 7) = some { site := 0, tid := 7, read := true, len := 8 } := by
  decide +kernel

theorem test_sitePolicy : ((upState.arrival mgr 0x0C (0 :: addrWords 0)).isSome = true ∧ (0 : Word32).toNat < 12 ∧
    (upState.arrival mgr 0x0D [0]).isSome = true ∧ (upState.arrival mgr 0x0E [0]).isSome = true) := by decide +kernel
theorem test_admissionResponse :
    let s : State := { upState with sgu := ⟨[(0, { phase := 1, step := 1 })]⟩ }
    s.fwUp = true ∧ (s.site 0).phase ≠ 0 ∧ (s.site 0).phase = 1 ∧ Bytes.at [0x12, 0x04] 1 ≠ 0x06 := by decide +kernel
theorem test_remeasureTimer :
    let s : State := { upState with sgu := ⟨[(0, { state := 2, ctrl := 0x00011388 })]⟩ }
    s.fwUp = true ∧ s.siteState 0 = 2 ∧ (s.site 0).phase = 0 ∧ fld (s.site 0).ctrl 31 16 ≠ 0 ∧ s.present 30 = true := by decide +kernel
theorem test_siteContext :
    let s : State := { siteState1 with prt := partState.prt }
    (s.arrival mgr 0x0F [1, 5, 0x00030101]).map (fun (t, c) => decide (t.ownsTdid 1 1 = true ∧ t.contextOther 0 5 1 = false ∧
      t.gate 1 0x0F = true ∧ t.admittedInto 0 1 = true ∧ t.contextsOf 1 < t.allot 1 6 ∧ c.started = true ∧
      fld (0x00030101#32) 7 1 = 0 ∧ (0x00030101#32).getLsbD 15 = false ∧ fld (0x00030101#32) 23 22 = 0)) = some true := by decide +kernel

/-- FCC 0 is node 5 with entry 3 as given, under the fabric root of slot 40 (a 32-byte key of TDID 1). -/
def fabricState (x : FccEntry) : State :=
  { upState with
    fcc := ⟨[(0, { node := 0x80000005 })]⟩
    slots := ⟨[(40, { attr := ({ purpose := 4, masters := 0x21, world := 1, lcMask := 15, source := 1, part := 1, tdid := 1 } : SlotSpec).attr, key := List.replicate 32 1 })]⟩
    streams := ⟨[(3, x)]⟩ }
/-- An open send entry to node 9 for TDID 1, without its key. -/
def sendEntry1 : FccEntry := { state := 1, tdid := 1, peer := 9, root := 40, asked := true }
theorem test_fabricSend : let s := fabricState sendEntry1
    (s.isl.get (fccIx 0)).swap = .run ∧ s.live (fccIx 0) = true ∧ s.sendEntry 0 9 1 = some 3 ∧ s.sendEntry 0 8 1 = none ∧
    (s.entry 0 3).closing = false ∧ (s.fccNode 0).isSome = true := by decide +kernel
theorem test_pairKeyArrival : let s := fabricState sendEntry1
    (s.entry 0 3).asked = true ∧ (s.entry 0 3).keyValid = false ∧ s.cpe.busy = false ∧ (s.entry 0 3).state ≠ 0 ∧ (s.entry 0 3).state ≠ 3 ∧ s.rootUsable 40 = true ∧
    ({ s with slots := {} } : State).rootUsable 40 = false := by decide +kernel
theorem test_sendEpochChange : let s := fabricState { sendEntry1 with state := 2 }
    (s.entry 0 3).recv = false ∧ (s.entry 0 3).state = 2 ∧ (s.entry 0 3).unacked = 0 ∧ (s.entry 0 3).kept = [] ∧
    s.rootUsable (s.entry 0 3).root = true ∧ s.cpe.busy = false := by decide +kernel
theorem test_retrySpanExpiry : let s := fabricState { sendEntry1 with kept := [{ seq := 0, sent := true }], nextSeq := 1 }
    (s.entry 0 3).kept ≠ [] ∧ (s.entry 0 3).state ≠ 3 := by decide +kernel

/-- A receive entry at FCC 0 for node 9 and TDID 1, expecting sequence number 2, holding 3. -/
def recvEntry : FccEntry :=
  { state := 1, recv := true, tdid := 1, peer := 9, root := 40, keyValid := true, key := List.replicate 32 2, expected := 2
    held := [{ seq := 3, pkt := packHeader 1 0 9 5 1 0 3 0 64 4 ++ zeros 20 }], doneSince := 1, lastAck := 1, unackedDone := [1] }
/-- A 4-byte store packet from node 9 to node 5 with a sequence number. -/
def storePkt (q epoch : Nat) : Bytes := packHeader 1 0 9 5 1 epoch q 0 64 4 ++ zeros 20
theorem test_packetReceive : let s := fabricState recvEntry
    (s.isl.get (fccIx 0)).swap = .run ∧ s.live (fccIx 0) = true ∧ s.fccNode 0 = some 5 ∧ pktWellFormed (zeros 40) = false ∧
    pktWellFormed (storePkt 2 0) = true ∧ pktDst (storePkt 2 0) = 5 ∧ s.packetEntry 0 (storePkt 2 0) = some 3 ∧
    pktType (storePkt 2 0) < 3 ∧ pktEpoch (storePkt 2 0) = (s.entry 0 3).epoch.toNat ∧ pktSeq (storePkt 258 0) = 258 ∧
    (s.entry 0 3).held.any (fun h => h.seq == 3 && pktEpoch h.pkt == 0) = true ∧ s.descriptors 0 = 1 := by decide +kernel
theorem test_packetControl : let s := fabricState sendEntry1
    let p := packHeader 3 0 9 5 1 0 7 0 0 0 ++ zeros 16
    pktWellFormed p = true ∧ pktDst p = 5 ∧ s.packetEntry 0 p = some 3 ∧ pktType p = 3 ∧
    pktWellFormed (packHeader 1 0 9 6 1 0 3 0 64 4 ++ zeros 20) = true ∧ pktDst (packHeader 1 0 9 6 1 0 3 0 64 4 ++ zeros 20) ≠ 5 ∧
    s.packetEntry 0 (storePkt 2 0) = none := by decide +kernel
theorem test_packetRelease : let s := { fabricState { recvEntry with expected := 3 } with
      clusters := ⟨[(fccIx 0, { cap := 1 })]⟩, sockets := ⟨[(16 * (fccIx 0 - 3), { powered := true, tested := true })]⟩ }
    let x := s.entry 0 3
    (x.held.find? (fun h => h.seq == x.expected.toNat && pktEpoch h.pkt == x.epoch.toNat)).isSome = true ∧ x.recv = true ∧
    (s.fabricReady 0 3).2 = some 1 ∧ pktType (storePkt 3 0) ≠ 2 ∧ pktType (storePkt 0 1) < 3 ∧ pktEpoch (storePkt 0 1) = x.epoch.toNat + 1 ∧
    pktSeq (storePkt 0 1) = 0 ∧ x.rel = [] ∧ x.held.any (fun h => pktEpoch h.pkt == x.epoch.toNat + 1) = false ∧ s.descriptors 0 < 240 ∧
    pktEpoch (storePkt 0 2) ≠ x.epoch.toNat ∧ pktEpoch (storePkt 0 2) ≠ x.epoch.toNat + 1 := by decide +kernel
theorem test_packetDone : let s := fabricState { recvEntry with rel := [{ seq := 1, entered := true }, { seq := 0, entered := true, atomic := true }] }
    let t := { s with fcc := ⟨[(0, { node := 0x80000005, reply := ⟨[(0, { valid := true, node := 9, tdid := 1, pending := true })]⟩ })]⟩ }
    (s.entry 0 3).rel.any (fun r => r.seq == 1 && r.entered && !r.atomic) = true ∧
    (s.entry 0 3).rel.any (fun r => r.seq == 0 && r.entered && r.atomic) = true ∧ t.replyMatch 0 9 1 0 = some 0 := by decide +kernel
theorem test_receiveEpochChange : let s := { fabricState { recvEntry with held := [{ seq := 0, pkt := storePkt 0 1 }] } with
      fcc := ⟨[(0, { node := 0x80000005, candidate := some 3 })]⟩ }
    ((s.entry 0 3).held.find? (fun h => pktEpoch h.pkt == (s.entry 0 3).epoch.toNat + 1)).isSome = true ∧
    (s.fcc.get 0).candidate = some 3 ∧ s.rootUsable 40 = true ∧ s.cpe.busy = false := by decide +kernel
theorem test_ack : let s := fabricState { recvEntry with held := [] }
    s.ackDue 0 3 = true ∧ (s.entry 0 3).recv = true ∧ (s.entry 0 3).state ≠ 0 ∧ (s.entry 0 3).unackedDone ≠ [] := by decide +kernel
theorem test_replyHoldExpiry :
    let s : State := { upState with fcc := ⟨[(0, { reply := ⟨[(4, { valid := true, age := 127 })]⟩ })]⟩ }
    ((s.fcc.get 0).reply.get 4).valid = true ∧ ((s.fcc.get 0).reply.get 4).pending = false ∧
    fld (s.fcc.get 0).span 31 24 ≤ ((s.fcc.get 0).reply.get 4).age.toNat := by decide +kernel

/-- Partition 1 with its fabric root in slot 32, one open send stream at entry 3 of FCC 0 and one fence. -/
def streamState (x : FccEntry) : State :=
  { fabricState x with
    slots := ⟨[(32, { attr := ({ purpose := 4, masters := 0x21, world := 1, lcMask := 15, source := 1, part := 1, tdid := 1 } : SlotSpec).attr, key := List.replicate 32 1 })]⟩
    prt := { partState.prt with objs := ⟨[(objKey 4 32, { used := true, part := 1 }), (objKey 5 3, { used := true, part := 1 }), (objKey 6 0, { used := true, part := 1 })]⟩ } }
theorem test_streamOpen : ((streamState sendEntry1).arrival mgr 0x27 [0x100, 9, 0x40000020]).map (fun (t, c) => decide (
    t.tdidPart 1 = 1 ∧ (t.named c 4 0x40000020).toOption = some 32 ∧ t.gate 1 0x27 = true ∧ (t.slot 32).fabricRoot = true ∧
    (t.slot 32).tdid = 1 ∧ (t.fccNode 0).isSome = true ∧ t.live (fccIx 0) = true ∧ t.epochUsed 5 9 1 0 = false ∧ c.part = 0 ∧
    t.objCount 5 1 < t.allot 1 7 ∧
    firstFrom 0 2048 (fun e => (t.entry 0 e).state == 0 && !(t.obj (objKey 5 (streamKey 0 e))).used) = some 0)) = some true := by
  decide +kernel
theorem test_streamClose : ((streamState sendEntry1).arrival mgr 0x28 [0x50000003, 0x60000000, 1]).map (fun (t, c) => decide (
    (t.streamAndFence c 0x50000003 0x60000000 0x28).toOption = some (0, 3, 0))) = some true := by decide +kernel
theorem test_streamFence : ((streamState sendEntry1).arrival mgr 0x29 [0x50000003, 0x60000000, 1]).map (fun (t, c) => decide (
    (t.streamAndFence c 0x50000003 0x60000000 0x29).toOption = some (0, 3, 0) ∧ (t.entry 0 3).recv = false)) = some true := by
  decide +kernel
theorem test_streamRekey : ((streamState sendEntry1).arrival mgr 0x2A [0x50000003]).map (fun (t, c) => decide (
    (t.namedStream c 0x50000003).toOption = some (0, 3) ∧ t.gate (t.actsFor c (objKey 5 3)) 0x2A = true ∧ (t.entry 0 3).recv = false ∧
    (t.entry 0 3).state = 1 ∧ (t.entry 0 3).epoch ≠ 255)) = some true := by decide +kernel

/-- Partition 1 bound on stream 7 in RUN, its context 0 Secure with outbound and inbound keys of sub-stream 1 in slot 32. -/
def hostState (count : Nat) : State :=
  { partState with
    sockets := ⟨[(16 * (hccIx - 3), { powered := true, tested := true })]⟩
    clusters := ⟨[(hccIx, { cap := 1, sched := [{ slot := 32, key := List.replicate 32 1 }] })]⟩
    hcc := {
      ctxs := ⟨[(0, { valid := true, state := 2, stream := 7, part := 1, keys := ⟨[(4, 32), (6, 32)]⟩, going := [4, 6], count := ⟨[(4, count), (6, count)]⟩ })]⟩
      tdis := ⟨[(1, { state := 2, stream := some 7 })]⟩ } }
theorem test_hostOutboundRequest : let u := hostState 1
    (u.isl.get hccIx).swap = .run ∧ u.hccRetry = u ∧ u.present hccIx = true ∧ (u.tdi (u.tdidPart 1)).state = 2 ∧
    (u.tdi (u.tdidPart 1)).stream = some 7 ∧ u.ideCtx 7 = some 0 ∧ u.ideCtx 8 = none ∧ (u.hcc.ctxs.get 0).state = 2 ∧
    (u.hcc.ctxs.get 0).counter 1 false = 1 ∧ (u.hcc.ctxs.get 0).counter 1 true = 1 ∧
    (u.ideKey 0 1 false).2 = .ready { slot := 32, key := List.replicate 32 1 } ∧ (u.ideKey 0 1 true).2 = .ready { slot := 32, key := List.replicate 32 1 } ∧
    (u.ideKey 0 0 false).2 = .missing ∧ u.boundPart 7 = some 1 ∧ u.boundTdid 1 = 1 := by decide +kernel
theorem test_hostWaits : let u := { hostState 1 with clusters := ⟨[(hccIx, { cap := 1 })]⟩ }
    (u.ideKey 0 1 false).2 = .wait ∧ (u.ideKey 0 1 true).2 = .wait ∧ 2 ^ 64 - 1 ≤ ((hostState (2 ^ 64 - 1)).hcc.ctxs.get 0).counter 1 false ∧
    partState.hccRetry = partState ∧ (partState.tdi 1).state ≠ 2 := by decide +kernel

theorem test_ideKm : let s := hostState 1
    let m : KmMsg := { stream := 7, sub := 1, rx := false, key := zeros 32, part := 1 }
    s.kmUp = true ∧ s.ctxFor 7 = some 0 ∧ s.slotForFill 1 = some 32 ∧ (s.part 1).state ≠ .none ∧ (s.hcc.ctxs.get 0).part = 1 ∧
    keyIx m.sub m.rx m.kset = 4 ∧ (s.hcc.ctxs.get 0).going.contains 5 = false ∧ s.ideCtx 7 = some 0 ∧
    (s.hcc.ctxs.get 0).keys.get 4 ≠ 0 ∧ (s.hcc.ctxs.get 0).going.contains 4 = true := by decide +kernel
theorem test_tdisp : let s := { hostState 1 with hcc := { (hostState 1).hcc with tdis := {} } }
    s.fwUp = true ∧ (s.part 1).state ≠ .none ∧ s.boundTdid 1 ≠ 0 ∧ (s.tdi 1).state = 0 ∧ s.ideCtx 7 = some 0 ∧
    (s.hcc.ctxs.get 0).state = 2 ∧ (s.hcc.ctxs.get 0).part = 1 ∧ s.boundPart 7 = none ∧
    ({ s with hcc := { s.hcc with tdis := ⟨[(1, { state := 1, nonce := zeros 32 })]⟩ } } : State).tdi 1 = { state := 1, nonce := zeros 32 } := by
  decide +kernel

/-- Partition 1 with signature 0 (index 0) as given and check 0 of it. -/
def sigState (g : SigState) : State :=
  { partState with
    mcc := Tbl.ofList ((List.range 8).map (fun k => (k, { ilv := 12 })))
    own := { master := ⟨[(16, liveEntry 0 16 1 1 32)]⟩, rep := {} }
    prt := { partState.prt with objs := ⟨[(objKey 6 0, { used := true, part := 1 })]⟩ }
    bel := { sigs := ⟨[(0, { state := g, part := 1, kind := 1, tdid := 1, rows := 1, cols := 1, pitch := 64, format := 2 })]⟩ } }
/-- A descriptor of one binary32 element at address 0 for TDID 1. -/
def descBytes : Bytes := [1, 0, 0, 2, 0, 1, 0, 0] ++ zeros 8 ++ [64, 0, 0, 0, 1, 0, 0, 0, 1, 0, 0, 0] ++ zeros 4
theorem test_sigOpen : let s := { sigState .free with bel := {} }
    (s.arrival mgr 0x2B (addrWords 0)).map (fun (t, c) =>
      let u := t.dmaRead (t.bufferTdid c) 0 32
      let g := sigOfDesc (Bytes.fit descBytes 32)
      decide (c.part = 0 ∧ u.tdidPart g.tdid = 1 ∧ sigDescFormed (Bytes.fit descBytes 32) = true ∧ u.ownsTdid 1 g.tdid = true ∧ u.gate 1 0x2B = true ∧
        (u.sigFormat g).isSome = true ∧ u.sigLimit 1 g = false ∧ u.sigPlace = some (0, 0))) = some true := by decide +kernel
theorem test_sigClose : ((sigState .opened).arrival mgr 0x2C [0]).map (fun (t, c) => decide (
    (t.namedSig c 0).toOption = some 0 ∧ t.gate (t.bel.sigs.get 0).part 0x2C = true ∧ (t.bel.sigs.get 0).state = .opened)) = some true ∧
    ((sigState .opened).arrival mgr 0x2D [0]).map (fun (t, c) => decide (
    (t.namedSig c 0).toOption = some 0 ∧ t.gate (t.bel.sigs.get 0).part 0x2D = true)) = some true := by decide +kernel
theorem test_partialReady : (sigState .closing).markedSig 3 0 = some 0 ∧
    ({ (sigState .merging).bel with running := some (.merge 0) } : Belfry).running = some (.merge 0) ∧
    (let s := (sigState .closed).onSig 0 (fun g => { g with freeWanted := true })
     (s.bel.sigs.get 0).freeWanted = true ∧ s.sigRefs 0 = 0 ∧ (s.bel.sigs.get 0).state = .closed) := by decide +kernel

theorem test_checkSubmit : ((sigState .closed).arrival mgr 0x2E (addrWords 0)).map (fun (t, c) =>
      let u := t.dmaRead (t.bufferTdid c) 0 64
      let x := Bytes.fit ([1, 0, 0, 0] ++ zeros 8 ++ [0, 0, 0, 0x60] ++ zeros 48) 64
      decide (checkFormed x = true ∧ (u.namedSig c (BitVec.ofNat 32 (Bytes.le x 4 2))).toOption = some 0 ∧
        (u.namedFence c (BitVec.ofNat 32 (Bytes.le x 12 4))).toOption = some 0 ∧ u.checkPart c 0 = 1 ∧ (u.obj (objKey 6 0)).part = 1 ∧
        u.gate 1 0x2E = true ∧ (u.bel.sigs.get 0).kind ≠ 0 ∧ (u.tolerance 0 1).isSome = true ∧ u.objCount 7 1 < u.allot 1 11 ∧
        u.freeIndex 7 = some 0)) = some true := by decide +kernel
theorem test_checkStart : let s := { sigState .closed with bel := { (sigState .closed).bel with checks := ⟨[(0, { used := true, part := 1 })]⟩ } }
    s.combine.bel.running = none ∧ s.combine.bel.ready = [.check 0] ∧ (s.combine.isl.get 43).swap = .run ∧ s.combine.present 43 = true := by decide +kernel
theorem test_verdicts : (6#4).getLsbD 0 = false ∧ (6#4).getLsbD 2 = true ∧ (2#4).getLsbD 2 = false ∧ (2#4).getLsbD 1 = true := by decide +kernel

/-- A running Spire, one valid ownership record of kind 1 for TDID 5 and granule 9, opened at clock 0. -/
def ownfState : State := upState.onEsc (fun e => { e with
  ownf := ⟨[(0, ownfOpen { kind := 1, tdid := 5, gran := 9, island := 3 } 0)]⟩
  windows := [{ cls := 1, island := 3, unit := 0, since := 0 }] })
theorem test_faultReport : ((ownfState.advance 10).atStep (stepReport 3 0)).live 2 = true ∧
    ((ownfState.advance 10).atStep (stepReport 3 0)).behind 3 (.fault { cls := 2, island := 3, unit := 0 }) = false ∧
    ((ownfState.advance 10).atStep (stepReport 4 0)).behind 4 (.own { kind := 1, tdid := 5, gran := 9, island := 4 }) = false ∧
    (ownfState.atStep stepArrive).live 2 = true ∧ ((ownfState.atStep stepArrive).spr.esc.ownf.get 0).valid = true ∧ ownfState.coalesces { cls := 2, island := 3, unit := 0 } = false ∧
    (ownfState.spr.esc.ownf.get 0).takes { kind := 1, tdid := 5, gran := 9, island := 4 } 64 = true ∧
    (ownfState.spr.esc.ownf.get 0).takes { kind := 1, tdid := 5, gran := 9, island := 4 } 65 = false ∧
    firstFrom 0 16 (fun n => !(ownfState.spr.esc.ownf.get n).valid) = some 1 ∧ (ownfState.spr.esc.ownf.get 0).valid = true ∧
    firstFrom 0 16 (fun n => !((Tbl.ofList ((List.range 16).map (fun n => (n, ownfOpen { kind := 1, tdid := 5, gran := n, island := 3 } 0)))).get n).valid)
      = none := by decide +kernel
theorem test_clockMonitorWindow : let s := upState.onIsl 5 (fun r => { r with clockHeld := true })
    let t := upState.onIsl 5 (fun r => { r with clockHeld := true, goodWindows := 1 })
    (s.isl.get 5).clockHeld = true ∧ (s.isl.get 5).goodWindows = 0 ∧ (t.isl.get 5).goodWindows ≠ 0 ∧ (upState.isl.get 5).clockHeld = false ∧
    upState.live 5 = true := by decide +kernel
theorem test_parity : (List.range 46).find? (fun i => portOf i == some 0) = some 3 ∧ upState.live 3 = true ∧
    (siteState1.waitFail 30 (.op 7)).isSome = true ∧ siteState1.live 30 = true := by decide +kernel

/-- A waiting command, a fault whose record and reset wait, a notice, a derivation, an owed invalidation and an update. -/
def waitState : State :=
  { upState with
    cmds := [{ mbx := 1, code := 2, cmdId := 9 }]
    invals := [(3, 32)]
    own := { inFlight := [(3, 5, .draining)] }
    cpe := { busy := true }
    cap := { queue := [{ cls := 11 }], base := 0x1000, slotPages := 2, notices := [{ kind := 1 }] }
    spr := { esc := { waiting := [{ cls := 12, waitUs := 5 }] } } }
theorem test_waitState : waitState.owesSpire 3 = true ∧ isCluster 3 = true ∧ waitState.fillHang 3 32 = none ∧ (3, 32) ∈ waitState.invals ∧
    waitState.cpe.busy = true ∧ waitState.fwUp = true ∧ waitState.captureOn = true ∧
    (waitState.atStep stepArrive).spr.esc.waiting.find? (fun a => !(waitState.atStep stepArrive).cap.queue.contains a) = some { cls := 12, waitUs := 5 } ∧
    (3, 3, 0) ∉ waitState.spr.esc.hung ∧ (upState.onEsc (fun e => { e with hung := [(0, 3, 0)] })).spr.esc.hung = [(0, 3, upState.now / hangTick 0)] ∧
    ((waitState.advance 5000).atStep stepCompare).spr.esc.waiting.find? (fun a => decide (a.clock + 1000 * a.waitUs ≤ ((waitState.advance 5000).atStep stepCompare).now)) =
      some { cls := 12, waitUs := 5 } ∧ (waitState.advance 3).cap.queue = [{ cls := 11 }] ∧ (waitState.advance 3).fwUp = true ∧
    (waitState.advance 3).captureOn = true ∧ (siteState1.waitFail 30 (.op 7)).isSome = true ∧
    ((fabricState sendEntry1).fillHang (fccIx 0) 3).isSome = true ∧ isCluster (fccIx 0) = true := by decide +kernel

/-- Spire with an event queued, timer 5 due at 10, a seed of 3 s pending, slot 0 owned by FREEZE_AT and armed for the counter 5. -/
def spireState : State :=
  { upState.onIsl 2 (fun r => { r with active := [{ id := 14, body := zeros 4 ++ [1, 0, 0, 0, 8, 0, 0, 0] ++ zeros 4 ++ [4, 0, 0, 0, 8, 0, 0, 0] }] }) with
    spr := { queue := [{ code := 0x68 }], timers := ⟨[(5, { running := true, due := 10 })]⟩
             time := { seed := 3, seedPending := true, sched := ⟨[(0, { armed := true, lo := 5 })]⟩ } } }
theorem test_spire : let u := (spireState.advance 10).atStep stepCompare
    u.spr.queue = [{ code := 0x68 }] ∧ u.staleTimer { code := 0x68 } = false ∧ (u.spr.timers.get 5).running = true ∧
    u.timerOwner 5 ≠ 6 ∧ (u.spr.timers.get 5).due ≤ u.now ∧ u.spr.time.seedPending = true ∧ u.spr.time.counter.toNat ≤ u.spr.time.seed.toNat * 1000000000 ∧
    u.schedOwner 0 = 8 ∧ u.live 2 = true ∧ (u.spr.time.sched.get 0).armed = true ∧ (u.spr.time.sched.get 0).target ≤ u.spr.time.counter.toNat := by decide +kernel
theorem test_pps : let t (c : Nat) (l : Bool) : State := { upState with now := 1000000000, spr := { time := { counter := BitVec.ofNat 64 c, locked := l, ctrl := 0x3000A } } }
    999000000 ≤ (t 1000000003 true).now - (t 1000000003 true).spr.time.lastAccepted ∧ phaseError (t 1000000003 true).spr.time.counter = 3 ∧
    (t 1000000003 true).spr.time.slewMax = 10 ∧ (t 11 true).spr.time.slewMax < (phaseError (t 11 true).spr.time.counter).natAbs ∧
    ({ upState with now := 3, spr := { time := { missAt := 2 } } } : State).spr.time.missAt ≠ 0 ∧ (t 0 true).spr.time.seedPending = false := by decide +kernel

/-- Connection 0 negotiated to stage 3 on 1.3, a long response and a ready one at hand, session 2 finished. -/
def spdmState : State :=
  { partState with att := {
      conns := ⟨[(0, { version := 0x13, stage := 3, chunkOut := [1], ready := some [2] })]⟩
      sess := ⟨[(2, { open_ := true, finished := true })]⟩ } }
/-- A request on connection 0. -/
def req0 : SpdmMsg := { conn := 0 }
theorem test_spdmArrival : (spdmState.spdmArrival req0 0x84 0).isSome = true ∧ (spdmState.spdmArrival req0 0xE1 1).isSome = true ∧
    (spdmState.spdmArrival req0 0x82 3).isSome = true ∧ Bytes.le req0.body 0 2 = 0 ∧
    (spdmState.spdmArrival { req0 with body := zeros 32 } 0x83 3).isSome = true ∧ req0.p2.toNat ≤ 7 ∧
    (spdmState.spdmArrival req0 0x86 0).map (fun t => (t.conn 0).chunkOut) = some [1] ∧
    (spdmState.spdmArrival req0 0xFF 0).map (fun t => (t.conn 0).ready) = some (some [2]) := by decide +kernel
theorem test_algsUsable :
    let m : SpdmMsg := { conn := 0, p1 := 4, body := [0, 0, 1, 0] ++ toLe 4 0x80 ++ toLe 4 2 ++ zeros 16 ++ [2, 0x20, 0x10, 0, 3, 0x20, 2, 0, 4, 0x20, 0x80, 0, 5, 0x20, 1, 0] }
    algsUsable m = true ∧ (spdmState.spdmArrival m 0xE3 2).isSome = true := by decide +kernel

theorem test_keyExchange : let m : SpdmMsg := { conn := 0, body := zeros 132 }
    (spdmState.spdmArrival m 0xE4 3).map (fun t => decide (t.spdm13 m = true ∧ t.att.queue.length < 512 ∧ t.freeSess = some 0)) = some true := by
  decide +kernel
theorem test_sessions : let m : SpdmMsg := { conn := 0, sess := some 2, p1 := 1 }
    (spdmState.spdmArrival m 0xE9 3).map (fun t => (t.sess 2).finished) = some true ∧ (spdmState.sess 2).finished = true ∧
    ((spdmState.onSess 2 (fun x => { x with finished := false })).spdmArrival m 0xE5 3).map (fun t => (t.sess 2).finished) = some false := by
  decide +kernel
theorem test_signComplete : let s (r : SignReq) : State := spdmState.onAtt (fun a => { a with queue := [r] })
    (s { standing := 2 }).att.queue = [{ standing := 2 }] ∧ (s {}).fwUp = true ∧ (s { record := true }).att.queue = [{ record := true }] := by
  decide +kernel

theorem test_getEvidence : let m : SpdmMsg := { conn := 0, body := [1, 1] ++ zeros 32 }
    (spdmState.spdmArrival m 0xFE 3).map (fun t => decide (t.spdm13 m = true ∧ t.lc.state ≠ 1 ∧ t.lc.state ≠ 8 ∧ (t.part 1).state ≠ .none ∧
      m.body.length = 34 ∧ t.att.shown.get 1 ≠ t.shownNow 1)) = some true := by decide +kernel
theorem test_kemAugment : let m : SpdmMsg := { conn := 0, sess := some 2, body := zeros 6829 }
    (spdmState.spdmArrival m 0xFE 3).map (fun t => decide (t.spdm13 m = true ∧ (t.sess 2).finished = true ∧ (t.sess 2).augmented = false ∧
      t.att.queue = [])) = some true := by decide +kernel
theorem test_deliverKey : let s := { spdmState.onPart 1 (fun x => { x with keyService := List.replicate 48 1 }) with
      att := { spdmState.att with sess := ⟨[(2, { open_ := true, finished := true, augmented := true, keyDigest := List.replicate 48 1 })]⟩ } }
    let b (k : Nat) : Bytes := [BitVec.ofNat 8 k, 1, 1, 15] ++ zeros 108
    let m : SpdmMsg := { conn := 0, sess := some 2, body := b 2 }
    (s.spdmArrival m 0xFE 3).map (fun t => decide (t.deliverCheck 2 (b 2) = none ∧ t.deliverCheck 2 (b 1) = none ∧ t.deliverCheck 2 (b 3) = none ∧ t.deliverCheck 2 (b 4) = some 6 ∧
      t.slotForFill 1 = some 32 ∧ firstFrom 0 64 (fun i => !(t.sets.get i).inUse) = some 0)) = some true := by decide +kernel
theorem test_relayBind : (upState.arrival mgr 0x11 ([2, 5] ++ addrWords 0x1000)).map (fun (t, _) => t.relayOf 5) = some none ∧
    (let s := { upState with att := { conns := ⟨[(2, { mbx := some 5, buf := 0x1000 })]⟩ } }
     (s.arrival { mgr with mbx := 5 } 0x18 [64]).map (fun (t, c) => decide (t.relayOf c.mbx = some 2 ∧ c.part = 0)) = some true) := by
  decide +kernel

/-- Tower's PARTITION_POOL section: 100 of each resource. -/
def poolState : State :=
  upState.onIsl 1 (fun r => { r with active := [{ id := 4, body := zeros 4 ++ [14, 0, 0, 0, 16, 0, 0, 0] ++ zeros 4 ++
    ((List.range 14).map (fun i => [BitVec.ofNat 8 (i + 1), 0, 0, 0, 100, 0, 0, 0, 100, 0, 0, 0] ++ zeros 4)).flatten }] })
/-- A descriptor of one TDID (1) with four of each resource and RESERVE_SLOTS 1. -/
def partDesc : Bytes := [1, 0, 0, 0, 1, 0, 0, 0, 2] ++ zeros 15 ++ ((List.range 13).map (fun _ => [4, 0, 0, 0])).flatten ++ zeros 820
theorem test_partCreate : let s := { poolState with lc := { phase := 8 } }
    (s.arrival mgr 0x06 (addrWords 0)).map (fun (t, c) => ((t.dmaRead (t.bufferTdid c) 0 896).partChecks (Bytes.fit partDesc 896)).toOption)
      = some (some (1, 32, 16, 32, 0)) := by decide +kernel
/-- Partition 1 in a state, with its fence 0 and a host reference of TAG 0 on it. -/
def stopState (x : PartState) : State :=
  (partState.onPart 1 (fun y => { y with state := x })).onPrt (fun q => { q with
    objs := ⟨[(objKey 6 0, { used := true, part := 1 })]⟩, refs := [⟨objKey 6 0, 1, 0, 1⟩] })
theorem test_quiesce : ((stopState .active).arrival mgr 0x07 [1, 0x60000000, 5]).map (fun (t, c) => decide (
    (t.namedFence c 0x60000000).toOption = some 0 ∧ (t.obj (objKey 6 0)).part = 1 ∧ (t.part 1).state = .active)) = some true ∧
    ((stopState .quiescing).part 1).state = .quiescing ∧ (stopState .quiescing).quiescent 1 = true := by decide +kernel
theorem test_freeze : ((stopState .quiesced).arrival mgr 0x09 [1]).map (fun (t, _) => decide ((t.part 1).state = .quiesced ∧ t.freezeOk 1 = true)) = some true ∧
    ((stopState .frozen).arrival mgr 0x08 [1]).map (fun (t, _) => decide ((t.part 1).state = .frozen)) = some true ∧
    ((stopState .frozen).arrival mgr 0x0A [1]).map (fun (t, _) => decide ((t.part 1).state = .frozen)) = some true := by decide +kernel
theorem test_references : ((stopState .active).arrival mgr 0x31 [0x60000000]).map (fun (t, c) => decide (
    (t.named c 6 0x60000000).toOption = some 0 ∧ t.gate (t.actsFor c (objKey 6 0)) 0x31 = true ∧ c.tag.toNat = 0 ∧ t.href (objKey 6 0) = 1 ∧
    fld (0x60000000#32) 31 28 = 6 ∧ t.prt.refs.length = 1)) = some true ∧
    ((stopState .active).arrival mgr 0x30 [0x60000000]).isSome = true ∧
    ((stopState .active).arrival mgr 0x0B [1, 0]).map (fun (t, _) => t.gate 1 0x0B) = some true := by decide +kernel

/-- A descriptor of an OPEN region of TDID 1 on granules 0 to 15 with fence 0. -/
def regionDesc : Bytes := [1, 0, 0, 0, 1, 1] ++ zeros 42
theorem test_regionCommands : let s := { regionState with prt := { regionState.prt with
      objs := ⟨[(objKey 3 0, { used := true, part := 1 }), (objKey 6 0, { used := true, part := 1 })]⟩ } }
    (s.arrival mgr 0x22 [0x30000000, 0x60000000, 1]).map (fun (t, c) => decide ((t.namedRegion c 0x30000000).toOption = some 0 ∧
      (t.namedFence c 0x60000000).toOption = some 0 ∧ t.gate (t.actsFor c (objKey 3 0)) 0x22 = true)) = some true ∧
    (s.arrival mgr 0x21 [0x30000000]).map (fun (t, c) => decide ((t.namedRegion c 0x30000000).toOption = some 0 ∧
      t.gate (t.actsFor c (objKey 3 0)) 0x21 = true)) = some true ∧
    (s.arrival mgr 0x23 [0x30000000, 2]).map (fun (t, c) => decide ((t.namedRegion c 0x30000000).toOption = some 0 ∧
      t.gate (t.actsFor c (objKey 3 0)) 0x23 = true ∧ (t.region 0).cls = 1)) = some true := by decide +kernel
theorem test_fenceCreate : (partState.arrival mgr 0x24 ([0x101] ++ addrWords 64 ++ [0] ++ addrWords 0)).map (fun (t, c) => decide (
    c.part = 0 ∧ t.tdidPart 1 = 1 ∧ t.ownsTdid 1 1 = true ∧ t.gate 1 0x24 = true ∧ t.objCount 6 1 < t.allot 1 8 ∧ t.prt.refs = [] ∧
    fld (0x101#32) 1 0 = 1 ∧ fld (0x101#32) 7 2 = 0 ∧ fld (0x101#32) 31 15 = 0 ∧ t.freeIndex 6 = some 0)) = some true := by decide +kernel

theorem test_elideRefused : let s : State := { regionState with prt := { regionState.prt with
      objs := ⟨[(objKey 3 0, { used := true, part := 1 })]⟩, regions := ⟨[(0, { tdid := 1, entries := [16] })]⟩ } }
    (s.arrival mgr 0x23 [0x30000000, 1]).map (fun (t, c) => decide ((t.namedRegion c 0x30000000).toOption = some 0 ∧
      t.gate (t.actsFor c (objKey 3 0)) 0x23 = true ∧ (t.region 0).cls = 0 ∧ fld (1#32) 31 2 = 0)) = some true := by decide +kernel
theorem test_clearWaits : let s : State := { moveState [] with own := { (moveState []).own with drains := [{ entry := 16, kind := .destroy }] } }
    s.drainWaits 16 = true ∧ (s.drain 16 .clear).own.drains.length = 1 ∧ (s.drain 16 .clear).own.waiting.length = 1 ∧
    (moveState []).moveCovers 0 = true := by decide +kernel

/-- Partition 1 FROZEN for import; slot 32 its HOST wrap key. -/
def exportState : State := wrapState.onPart 1 (fun y => { y with state := .frozen, importing := true })
theorem test_export : (exportState.arrival mgr 0x32 ([0x40000020] ++ addrWords 0 ++ [0x1000])).map (fun (t, c) => decide (
    (t.named c 4 0x40000020).toOption = some 32 ∧ t.actsFor c (objKey 4 32) = 1 ∧ (t.part 1).state = .frozen ∧ (t.part 1).importing = true ∧
    t.noExport 1 = false ∧ t.wrapOk 32 = true)) = some true ∧
    (exportState.arrival mgr 0x33 ([0x40000020] ++ addrWords 0 ++ addrWords 0)).isSome = true ∧
    (State.importRecord {} 1 [] (exportState, [], 0) [0, 1]).toOption.isSome = true := by decide +kernel
/-- Region 0 of class T of TDID 1, live; stream 5 of FCC0 a live send entry of TDID 1; fence 0. -/
def migrateState : State :=
  { regionState with
    prt := { regionState.prt with
      objs := ⟨[(objKey 3 0, { used := true, part := 1 }), (objKey 5 5, { used := true, part := 1 }), (objKey 6 0, { used := true, part := 1 })]⟩
      regions := ⟨[(0, { tdid := 1, cls := 1, entries := [16], phase := .live })]⟩ } }.onEntry 0 5 (fun _ => { state := 1, tdid := 1 })
theorem test_migrateSend : (migrateState.arrival mgr 0x34 ([0x30000000, 0x50000005] ++ addrWords 4096 ++ [0x60000000, 7])).map (fun (t, c) => decide (
    (t.namedRegion c 0x30000000).toOption = some 0 ∧ (t.namedStream c 0x50000005).toOption = some (0, 5) ∧
    (t.namedFence c 0x60000000).toOption = some 0 ∧ t.gate (t.actsFor c (objKey 3 0)) 0x34 = true ∧ (t.region 0).cls = 1 ∧
    (t.region 0).phase = .live ∧ (t.entry 0 5).recv = false ∧ (t.entry 0 5).state = 1 ∧ (t.entry 0 5).tdid.toNat = (t.region 0).tdid ∧
    (t.region 0).slot = none)) = some true := by decide +kernel

/-- A field test of site 3 with BEAT_SIZE 192 and one beat. -/
def testState (done : BitVec 32) : State :=
  { upState with ftu := { target := some (3, 0, 3), beatsDone := done, header := zeros 8 ++ [192, 0, 0, 0, 1, 0, 0, 0] ++ zeros 2224 } }
/-- An unsigned site set of one beat. -/
def siteSet : Bytes :=
  [0x4F, 0x4E, 0x46, 0x54, 1, 0, 3, 0xFF, 192, 0, 0, 0, 1, 0, 0, 0, 192] ++ zeros 7 ++ zeros 5624
theorem test_fieldTestStart : let v : Word32 := 0x80000303
    let s := { upState with sgu := ⟨[(3, { state := 1 })]⟩ }
    s.regUp 45 = true ∧ v.getLsbD 31 = true ∧ fld v 1 0 = 3 ∧ fld v 7 2 = 0 ∧ fld v 15 8 = 3 ∧
    (upState.regPut 45 0x5000 v).testRefused 3 0 3 false none = some 9 ∧
    (s.regPut 45 0x5000 v).testRefused 3 0 3 false (some siteSet) = none := by decide +kernel
theorem test_fieldTestBeat : (testState 0).testReady = true ∧ (testState 0).present 45 = true ∧ (testState 0).spr.gov.stages.getLsbD 1 = false ∧
    (zeros 192).length = Bytes.le (testState 0).ftu.header 8 4 ∧ (testState 0).ftu.beatsDone.toNat < Bytes.le (testState 0).ftu.header 12 4 ∧
    beatMatches (zeros 128 ++ List.replicate 64 1) (zeros 64) = true ∧ beatMatches (zeros 128 ++ List.replicate 64 1) (1 :: zeros 63) = false ∧
    (testState 1).ftu.beatsDone.toNat = Bytes.le (testState 1).ftu.header 12 4 ∧ (testState 1).regUp 45 = true := by decide +kernel

/-- A governor at its limit with Newt throttled and its release timer 7 due. -/
def govState : State :=
  (upState.onSpr (fun p => { p with timers := ⟨[(7, { running := true, due := 3 })]⟩
                                    gov := { p.gov with creditFj := 0, stages := 1, releasing := true } })).onIsl 2 (fun r =>
    { r with active := [{ id := 9, body := zeros 16 ++ toLe 4 48000 ++ toLe 4 1500000 ++ toLe 4 250000 ++ toLe 4 1500000 ++ toLe 2 1 ++ [7] ++ zeros 5 }] })
theorem test_governor : let u := (govState.advance 3).atStep stepCompare
    u.live 2 = true ∧ u.govSettings.timer = 7 ∧ u.spr.gov.releasing = true ∧ (u.spr.timers.get 7).running = true ∧
    (u.spr.timers.get 7).due ≤ u.now := by decide +kernel

/-- OBS with a register freeze waiting for island 5's marker, snapshots on with THAW after them. -/
def obsState : State := { upState with obs := { markers := [5], snapBusy := true, snapCtrl := 0xC0000001, frozen := true } }
/-- OBS_TRACE's TRIG_IO owned by OBS as the freeze input. -/
def trigState (owner isl : Nat) : State :=
  upState.onIsl isl (fun r => { r with active := [{ id := 14, body := zeros 4 ++ [1, 0, 0, 0, 8, 0, 0, 0] ++ zeros 4 ++ [1, 0, 0, 0, BitVec.ofNat 8 owner, 0, 0, 0] }] })
theorem test_freezes : obsState.live 44 = true ∧ obsState.regUp 44 = true ∧ upState.regUp 44 = true ∧ obsState.obs.markers.contains 5 = true ∧ obsState.obs.snapBusy = true ∧
    upState.live 44 = true ∧ upState.obs.frozen = false ∧ upState.obs.markers = [] ∧ ((trigState 1 44).atStep stepArrive).owner 44 1 0 0 = 1 ∧
    ((trigState 3 2).atStep stepArrive).owner 2 1 0 0 = 3 ∧ ((trigState 3 2).atStep stepArrive).owner 44 1 0 0 ≠ 1 := by decide +kernel
theorem test_periodicFreeze : let u := ({ upState with obs := { snapCtrl := 1 }, spr := { time := { counter := 2000000, locked := true } } } : State).advance 1
    u.live 44 = true ∧ fld u.obs.snapCtrl 19 0 * 1000000 = 1000000 ∧ u.spr.time.locked = true ∧
    u.obs.lastPeriod / 1000000 < u.spr.time.counter.toNat / 1000000 := by decide +kernel
theorem test_pulses : ({ upState with pads := { trigOut := true, wake := true } } : State).pads.trigOut = true := by decide +kernel

/-- A trace in a state, holding one record, with a TRACE_SETUP that enables every source. -/
def traceState (x : TraceState) : State :=
  let b := zeros 16 ++ [1, 2, 4, 0, 0xFE, 0xFF, 0, 0, 15, 0, 0, 0, 3, 0, 0, 0] ++ List.replicate 24 255
  let s := upState.onIsl 44 (fun r => { r with active := [{ id := 13, body := b }] })
  { s.onIsl 5 (fun r => { r with trace := [traceBody 5 3 none 0 1 2 3] }) with obs := { trace := x } }
theorem test_traceCommands : ((traceState .recording).isl.get 5).trace = [traceBody 5 3 none 0 1 2 3] ∧ (traceState .recording).live 44 = true ∧ (traceState .recording).regUp 44 = true ∧ (traceState .frozen).regUp 44 = true ∧
    ((traceState .recording).isl.get 44).swap ≠ .prepared ∧ (traceState .recording).traceSetup.takes (traceBody 5 3 none 0 1 2 3) = true ∧
    (traceState .recording).traceSetup.fires (traceBody 5 3 none 0 1 2 3) = [3] ∧ bit (traceState .frozen).traceSetup.mask 3 = true ∧
    (traceState .frozen).obs.draining = false ∧ ({ traceState .frozen with obs := { draining := true } } : State).obs.draining = true := by decide +kernel

theorem test_registerReads : State.regUp upState 2 = true ∧ State.reset.regUp 5 = false ∧ hiOf 2 0x5400 = some 0x5404 ∧ hiOf 2 0x5404 = none ∧
    entryOf 1 0x40000 = some (0x40000, 8) ∧ entryOf 1 0x40004 = some (0x40000, 8) ∧ hiOf 1 0x40004 = none ∧ hiOf 1 0x40000 ≠ some 0x40004 ∧
    entryOf 2 0x5008 = none ∧ hiOf 2 0x5008 = none ∧ hiOf 2 0x5004 ≠ some 0x5008 ∧ State.reset.regUp 50 = false ∧ hiOf 1 0x40000 = none ∧ hiOf 1 (0x40000 - 4) ≠ some 0x40000 ∧ upState.regUp 1 = true := by decide +kernel
theorem test_registerWrites : towerOnly 2 0x5408 = true ∧ (rwFields 2 0x5A00 ≠ [] : Bool) = true ∧ (rwFields 2 0x5008).isEmpty ∧ w1cMask 2 0x5008 = 0xFFFF ∧
    (rwFields 0 0x10).length = 2 ∧ upState.dom.tamperLock = false ∧ upState.regUp 0 = true := by decide +kernel

/-- A state with a command waiting, and an idle one. -/
theorem test_step_front : step { State.reset with pending := [.noiseFail] } = exec (.noiseFail) State.reset ∧
    State.reset.pending = [] := ⟨rfl, rfl⟩

/-- A safe state that steps. -/
theorem test_safe_steps : Safe { State.reset with pending := [.noiseFail], ram := [(3, 7), (9, 1)] } ∧
    ∃ t, step { State.reset with pending := [.noiseFail], ram := [(3, 7), (9, 1)] } = .next t := by
  refine ⟨?_, _, rfl⟩
  unfold Safe
  decide +kernel

/-- A step that answers. -/
theorem test_any_step : ∃ t, step State.reset = .next t := ⟨_, rfl⟩

/-- A memory in canonical form, a byte beside it, and the canonical form refusing an unordered list and a zero cell. -/
theorem test_ram : Memory.wf [(3, 7), (9, 1)] = true ∧ Memory.wf [(9, 1), (3, 7)] = false ∧ Memory.wf [(3, 0)] = false ∧
    Ram.write [(3, 7), (9, 1)] 3 0 = [(9, 1)] ∧ (4 : Nat) ≠ 3 := by decide

/-- An enabled input with the rail present and no transition under way; and one in the middle of a transition's last phase. -/
theorem test_zeroise :
    (let s := State.reset.onDom (fun d => { d with enable := 5, shareA := [1], shareB := [2] })
     s.dom.enable.getLsbD 2 = true ∧ s.lc.running = none ∧ s.dom.railPresent = true) ∧
    (let s := State.reset.onDom (fun d => { d with enable := 8 }) |>.onLc (fun l => { l with running := some {}, phase := 2 })
     s.dom.enable.getLsbD 3 = true ∧ s.lc.phase ≠ 1) := by decide

/-- A line of 64 bytes. -/
theorem test_line : (List.replicate 64 (7 : Byte)).length = 64 := by decide

/-- A line with a zero sector. -/
theorem test_sectors : (List.replicate 48 (7 : Byte) ++ zeros 16).length = 64 ∧ zeroMap (List.replicate 48 (7 : Byte) ++ zeros 16) = 8 ∧
    sector (List.replicate 48 (7 : Byte) ++ zeros 16) 3 = zeros 16 ∧ (zeros 16).length = 16 := by decide +kernel

/-- COMMIT1 of the fuse row of a TEST device. -/
theorem test_group : (1 : Nat) < 8 ∧ groupBlown 0x0F0000FF 1 = true ∧ groupBlown 0x0F0000FF 3 = false := by decide

/-- A full queue and an empty one. -/
theorem test_fullQueue : 256 ≤ (List.replicate 256 ({} : SpEvent)).length ∧ State.reset.spr.queue.length < 256 := by
  rw [List.length_replicate]; decide

end Sys2Proof.Tests
end

section
/-!
SUPPORT and PROOF. The CSR window: what a port access at an aligned and at an unaligned offset does, what each kind of register
read answers and latches (R753, R754), what a write that reaches a register does (R20, R751, R755), and from these O46.
-/

namespace Sys2Proof.Registers

open Sys2Proof Sys2Proof.Machine

variable {s : State} {tower : Bool} {i off : Nat} {v : Word32} {fs : List RegField}

/-! ### Register accesses at the ports -/

theorem exec_loRegisterRead (island : Fin 64) (o : BitVec 20) :
    exec (.loRegisterRead tower island o) s = .next (s.readPort tower island.val o.toNat) := rfl

theorem exec_entryLowWordRead (island : Fin 64) (o : BitVec 20) :
    exec (.entryLowWordRead tower island o) s = .next (s.readPort tower island.val o.toNat) := rfl

theorem exec_registerWrite (island : Fin 64) (o : BitVec 20) :
    exec (.registerWrite tower island o v) s = .next (s.writePort tower island.val o.toNat v) := rfl

/-- Both read commands are the same read at the port. -/
theorem exec_registerRead {island : Fin 64} {o : BitVec 20} {c : Instr}
    (hc : c = .loRegisterRead tower island o ∨ c = .entryLowWordRead tower island o) :
    exec c s = .next (s.readPort tower island.val o.toNat) := by
  obtain rfl | rfl := hc
  · exact exec_loRegisterRead island o
  · exact exec_entryLowWordRead island o

theorem readPort_of_unaligned (h : off % 4 ≠ 0) :
    s.readPort tower i off = if tower then s else s.emit (.cpError (2 ^ 20 * i + off)) := by
  unfold State.readPort
  rw [if_pos h]

/-- An aligned read answers what the register read gives and keeps the latches it leaves. -/
theorem readPort_of_readReg {t : State} (h : off % 4 = 0) (hr : s.readReg tower i off = (v, t)) :
    s.readPort tower i off = t.emit (.regRead (2 ^ 20 * i + off) v) := by
  unfold State.readPort
  rw [if_neg (by simp [h]), hr]

theorem writePort_of_unaligned (h : off % 4 ≠ 0) :
    s.writePort tower i off v = if tower then s else s.emit (.cpError (2 ^ 20 * i + off)) := by
  unfold State.writePort
  rw [if_pos h]

/-- A write that the island does not answer, or that R747 keeps from CP, changes nothing. -/
theorem writePort_of_unanswered (h : off % 4 = 0) (hn : s.regUp i = false ∨ towerOnly i off = true ∧ tower = false) :
    s.writePort tower i off v = s := by
  unfold State.writePort
  rw [if_neg (by simp [h]), if_pos (by simpa using hn)]

theorem writePort_of_answered (h : off % 4 = 0) (hup : s.regUp i = true) (ht : towerOnly i off = true → tower = true) :
    s.writePort tower i off v = s.writeReg i off v := by
  unfold State.writePort
  rw [if_neg (by simp [h]), if_neg (by simpa [hup] using ht)]

/-- The register map ends at island 45 (R18). -/
theorem regUp_of_undefined (h : 46 ≤ i) : s.regUp i = false := by
  unfold State.regUp
  rw [if_neg (by omega), decide_eq_false (by omega)]
  rfl

/-! ### Reads of a register (R748, R753, R754) -/

theorem readReg_of_down (h : s.regUp i = false) : s.readReg tower i off = (0, s) := by
  simp [State.readReg, h]

theorem readReg_lo {h : Nat} (hup : s.regUp i = true) (hlo : hiOf i off = some h) :
    s.readReg tower i off = (s.regValue tower i off, { s with latches :=
      (s.latches.filter (fun x => !(x.tower == tower && x.island == i && x.off == h))) ++
        [{ tower := tower, island := i, off := h, value := s.regValue tower i h }] }) := by
  simp [State.readReg, hup, hlo]

theorem readReg_hi (hup : s.regUp i = true) (hlo : hiOf i off = none) (hhi : 4 ≤ off ∧ hiOf i (off - 4) = some off) :
    s.readReg tower i off = ((s.latched tower i off).getD 0, s) := by
  simp [State.readReg, hup, hlo, hhi]

section Entries

variable (hup : s.regUp i = true) (hlo : hiOf i off = none) (hhi : ¬ (4 ≤ off ∧ hiOf i (off - 4) = some off))
include hup hlo hhi

theorem readReg_entry_low {n : Nat} (he : entryOf i off = some (off, n)) :
    s.readReg tower i off = (s.regValue tower i off, { s with latches :=
      (s.latches.filter (fun x => !(x.tower == tower && (entryOf x.island x.off).isSome))) ++
        ((List.range (n - 1)).map (fun k => Latch.mk tower i (off + 4 * (k + 1)) (s.regValue tower i (off + 4 * (k + 1))))) }) := by
  simp [State.readReg, hup, hlo, hhi, he]

theorem readReg_entry_other {b n : Nat} (he : entryOf i off = some (b, n)) (hb : off ≠ b) :
    s.readReg tower i off = ((s.latched tower i off).getD (s.regValue tower i off), s) := by
  simp [State.readReg, hup, hlo, hhi, he, hb]

theorem readReg_plain (he : entryOf i off = none) : s.readReg tower i off = (s.regValue tower i off, s) := by
  simp [State.readReg, hup, hlo, hhi, he]

end Entries

/-- A latch that replaces its predecessors is the one found. -/
theorem latched_of_replaced {l : List Latch}
    (h : s.latches = l.filter (fun x => !(x.tower == tower && x.island == i && x.off == off)) ++
      [{ tower := tower, island := i, off := off, value := v }]) :
    s.latched tower i off = some v := by
  have hgone : (l.filter (fun x => !(x.tower == tower && x.island == i && x.off == off))).find?
      (fun x => x.tower == tower && x.island == i && x.off == off) = none := by
    rw [List.find?_eq_none]
    intro x hx
    simpa only [Bool.not_eq_true', Bool.not_eq_true] using (List.mem_filter.1 hx).2
  unfold State.latched
  rw [h, List.find?_append, hgone]
  simp

/-! ### Writes that reach a register (R20, R751, R755) -/

section Writes

variable (hfs : fs = (if (s.isl.get i).locked then [] else rwlFields i off) ++ rwFields i off)
include hfs

theorem writeReg_of_no_fields (h : fs = []) :
    s.writeReg i off v = if w1cMask i off = 0 then s else s.regClear i off v := by
  unfold State.writeReg
  simp [← hfs, h]

theorem writeReg_of_tamperLock (h : fs ≠ []) (h0 : i = 0) (hl : s.dom.tamperLock = true) : s.writeReg i off v = s := by
  unfold State.writeReg
  simp only [← hfs, List.isEmpty_iff, if_neg h, if_pos (And.intro h0 hl)]

theorem writeReg_of_fields (h : fs ≠ []) (hl : i = 0 → s.dom.tamperLock = false) :
    s.writeReg i off v = if comboOk i off (writeFields fs (s.regValue true i off) v) then
      s.regPut i off (writeFields fs (s.regValue true i off) v) else s := by
  have hopen : ¬ (i = 0 ∧ s.dom.tamperLock = true) := fun ⟨h0, ht⟩ => by simp [hl h0] at ht
  unfold State.writeReg
  simp only [← hfs, List.isEmpty_iff, if_neg h, if_neg hopen]

end Writes

/-! ### A pair read low half first -/

/-- After a read of a _LO register, a read of its _HI half answers the half as it stood then (R753). -/
theorem readPort_hi_after_lo {lo hi : Nat} {u : State} (halign : lo % 4 = 0) (hup : s.regUp i = true) (hnext : hi = lo + 4)
    (hlo : hiOf i lo = some hi) (hhi : hiOf i hi = none) (hlat : u.latches = (s.readPort tower i lo).latches)
    (hupu : u.regUp i = true) :
    u.readPort tower i hi = u.emit (.regRead (2 ^ 20 * i + hi) (s.regValue tower i hi)) := by
  rw [readPort_of_readReg halign (readReg_lo hup hlo)] at hlat
  have hpair : 4 ≤ hi ∧ hiOf i (hi - 4) = some hi := by
    subst hnext
    exact ⟨by omega, hlo⟩
  have hread := readReg_hi (tower := tower) hupu hhi hpair
  rw [latched_of_replaced hlat] at hread
  exact readPort_of_readReg (by omega) hread

end Sys2Proof.Registers

open Sys2Proof Sys2Proof.Machine Sys2Proof.Registers

/-- Settles O46: one clause of the statement for each case of a register read, the pair of reads, the unaligned accesses, and one
for each case of a register write. -/
theorem registersReadAndTakeWrites : Obligations.RegistersReadAndTakeWrites := by
  unfold Obligations.RegistersReadAndTakeWrites
  refine ⟨?reads, fun _ _ => regUp_of_undefined, ?pair, ?unaligned, ?writes⟩
  case reads =>
    intro tower i off s c k halign hc hk
    have hread {v : Word32} {t : State} (hr : s.readReg tower i.val off.toNat = (v, t)) :
        exec c s = .next (t.emit (.regRead (2 ^ 20 * i.val + off.toNat) v)) := by
      rw [exec_registerRead hc, readPort_of_readReg halign hr]
    have hlatched : s.latched tower i.val off.toNat = k := hk.symm
    subst hlatched
    refine ⟨fun hdown => hread (readReg_of_down hdown), fun h hup hlo => hread (readReg_lo hup hlo),
      fun hup hlo h4 hhi => hread (readReg_hi hup hlo ⟨h4, hhi⟩), fun hup hlo hnot => ?_⟩
    have hnohi : ¬ (4 ≤ off.toNat ∧ hiOf i.val (off.toNat - 4) = some off.toNat) := fun ⟨h4, hhi⟩ =>
      hnot.elim (fun h => absurd h4 (by omega)) (fun h => h hhi)
    exact ⟨fun n he => hread (readReg_entry_low hup hlo hnohi he),
      fun b n he hb => hread (readReg_entry_other hup hlo hnohi he hb),
      fun he => hread (readReg_plain hup hlo hnohi he)⟩
  case pair =>
    intro tower i lo hi s t halign hup hnext hlo hhi hexec u hlat hupu
    rw [exec_loRegisterRead, Host.Outcome.next.injEq] at hexec
    subst hexec
    rw [exec_loRegisterRead, readPort_hi_after_lo halign hup hnext hlo hhi hlat hupu]
  case unaligned =>
    intro tower i off v s hoff t ht
    rw [exec_loRegisterRead, exec_entryLowWordRead, exec_registerWrite, readPort_of_unaligned hoff, writePort_of_unaligned hoff, ← ht]
    exact ⟨rfl, rfl, rfl⟩
  case writes =>
    intro tower i off v s halign
    rw [exec_registerWrite]
    refine ⟨fun hdown => ?_, fun hcp honly => ?_, fun hup hport fs hfs => ?_⟩
    · rw [writePort_of_unanswered halign (.inl hdown)]
    · rw [writePort_of_unanswered halign (.inr ⟨honly, hcp⟩)]
    · rw [writePort_of_answered halign hup hport]
      refine ⟨fun hnone => ?_, fun hsome hopen w hw => ?_, fun hsome h0 hlock => ?_⟩
      · rw [writeReg_of_no_fields hfs hnone]
      · rw [writeReg_of_fields hfs hsome hopen, hw]
      · rw [writeReg_of_tamperLock hfs hsome h0 hlock]
end

section
/-!
SUPPORT and PROOF. Known-answer tests, lane power-on, audit windows, ageing readings and wear periods: what each does in each of
its cases (R31, R137 to R140, R621, R622, R738, R742), and from these O8.
-/

namespace Sys2Proof.LaneUpkeep

open Sys2Proof Sys2Proof.Machine

/-! ### The commands -/

section
variable {s : State} (c : Cl) (n : Fin 16) (v : BitVec 8) (dt : Nat) (pass : Bool)

theorem exec_laneKnownAnswerTest :
    exec (.laneKnownAnswerTest c n pass) s = .next ((s.knownAnswer (c.val + 3) n.val pass).lanesAfter (c.val + 3)) := rfl

theorem exec_laneGroupPowerOn : exec .laneGroupPowerOn s = .next s.groupPowerOn := rfl

theorem exec_ageingReading : exec (.ageingReading c n v) s = .next (s.ageing (c.val + 3) n.val v) := rfl

theorem exec_wearPeriod : exec (.wearPeriod dt) s = .next (s.advance dt).wearPeriod := rfl

end

/-! ### Known-answer tests (R31, R137) -/

section KnownAnswer

variable {s : State} {c n : Nat} (hn : n < socketCount c) (hp : (s.socket c n).powered = true)
include hn hp

theorem knownAnswer_of_pass :
    s.knownAnswer c n true =
      s.onSocket c n (fun x => { x with tested := true, activity := if x.tested then x.activity else 0 }) := by
  simp [State.knownAnswer, Nat.not_le.2 hn, hp]

/-- A failure is reported as class 1; what follows turns on the socket's role and on a spare being left. -/
theorem knownAnswer_of_fail {u : State} (hu : u = s.report 1 c n) :
    s.knownAnswer c n false =
      if (s.socket c n).role ≠ 0 then u.faultLane c n
      else match u.freshSpares c with
        | k :: _ => ((u.exchangeLanes c n k).faultLane c k).onSocket c n (fun x => { x with activity := if x.tested then 0 else 3 })
        | [] => (u.faultLane c n).report 2 c n := by
  subst hu
  by_cases hrole : (s.socket c n).role = 0#2
  · cases hspare : (s.report 1 c n).freshSpares c with
    | nil => simp [State.knownAnswer, State.laneLost, Nat.not_le.2 hn, hp, hrole, hspare]
    | cons k rest => simp [State.knownAnswer, Nat.not_le.2 hn, hp, hrole, hspare]
  · simp [State.knownAnswer, Nat.not_le.2 hn, hp, hrole]

end KnownAnswer

/-! ### Power-on groups (R738, R742) -/

theorem groupPowerOn_of_room {s : State} (hc : s.pwr.committed = true) (hroom : s.pwr.exempt ≤ 1) :
    s.groupPowerOn = (s.unpowered.take 8).foldl (fun s p => s.onSocket p.1 p.2 (fun x => { x with powered := true }))
      { s with pwr := { s.pwr with exempt := s.pwr.exempt + 4 } } := by
  unfold State.groupPowerOn
  rw [if_pos ⟨hc, hroom⟩]

theorem groupPowerOn_of_no_room {s : State} (h : s.pwr.committed = false ∨ 1 < s.pwr.exempt) : s.groupPowerOn = s := by
  unfold State.groupPowerOn
  rw [if_neg]
  rintro ⟨hc, hroom⟩
  obtain h | h := h
  · simp [hc] at h
  · omega

/-! ### Ageing readings (R621) -/

section Ageing

variable {s u : State} {c n : Nat} {v : BitVec 8} (hn : n < socketCount c) (hu : u = s.onSocket c n (fun x => { x with ageing := v }))
include hn hu

theorem ageing_of_low (hv : v.toNat < 0xC0) : s.ageing c n v = u := by
  subst hu
  unfold State.ageing
  rw [if_neg (by omega)]
  exact if_neg (fun h => absurd h.1 (by omega))

theorem ageing_of_high (hv : 0xC0 ≤ v.toNat) (hactive : n ∈ u.activeSockets c) (hspare : u.healthySpares c ≠ [])
    (hqueue : ∀ o ∈ u.spr.swapQueue, ¬ (o.1 = c ∧ o.2.1 = n)) (hswap : ∀ x, (u.clusters.get c).swap = some x → x.socket ≠ n) :
    s.ageing c n v = u.orderSwap c n := by
  have horder : v.toNat ≥ 0xC0 ∧ (u.activeSockets c).contains n ∧ !(u.healthySpares c).isEmpty ∧
      !u.spr.swapQueue.any (fun o => o.1 == c && o.2.1 == n) ∧ (u.clusters.get c).swap.all (fun w => w.socket != n) := by
    refine ⟨hv, by simpa using hactive, by simpa using hspare, by simpa using hqueue, ?_⟩
    rw [Option.all_eq_true]
    exact fun x hx => by simpa using hswap x hx
  subst hu
  unfold State.ageing
  rw [if_neg (by omega)]
  exact if_pos horder

end Ageing

/-! ### Wear periods (R622) -/

theorem wearPeriod_of_due {s : State} (h : s.spr.wearAt + 3600000000000 ≤ s.now) :
    s.wearPeriod = ((List.range 27).map (· + 3)).foldl State.wearCluster (s.onSpr (fun p => { p with wearAt := s.now })) := by
  unfold State.wearPeriod
  rw [if_pos h]

theorem wearPeriod_of_early {s : State} (h : s.now < s.spr.wearAt + 3600000000000) : s.wearPeriod = s := by
  unfold State.wearPeriod
  rw [if_neg (by omega)]

end Sys2Proof.LaneUpkeep

open Sys2Proof Sys2Proof.Machine Sys2Proof.LaneUpkeep

/-- Settles O8: a clause for each command, split by the outcome of the test, the room of the window, the reading and the time. -/
theorem laneTestsAndWearComplete : Obligations.LaneTestsAndWearComplete := by
  unfold Obligations.LaneTestsAndWearComplete
  refine ⟨?tests, fun s hc hroom => ?room, fun s hno => ?noRoom, ?audit, ?ageing, ?wear⟩
  case tests =>
    intro c n s u hn hp hu
    rw [exec_laneKnownAnswerTest, exec_laneKnownAnswerTest, knownAnswer_of_pass hn hp, knownAnswer_of_fail hn hp hu]
    refine ⟨rfl, fun hrole => ?_, fun hrole k rest hspare => ?_, fun hrole hnone => ?_⟩
    · rw [if_pos hrole]
    · rw [if_neg (not_not_intro hrole), hspare]
    · rw [if_neg (not_not_intro hrole), hnone]
  case room => rw [exec_laneGroupPowerOn, groupPowerOn_of_room hc hroom]
  case noRoom => rw [exec_laneGroupPowerOn, groupPowerOn_of_no_room hno]
  case audit =>
    rintro c s spares w rfl rfl
    rfl
  case ageing =>
    intro c n v s u hn hu
    rw [exec_ageingReading]
    exact ⟨fun hv => by rw [ageing_of_low hn hu hv],
      fun hv hactive hspare hqueue hswap => by rw [ageing_of_high hn hu hv hactive hspare hqueue hswap]⟩
  case wear =>
    rintro dt s t rfl
    rw [exec_wearPeriod]
    exact ⟨fun hdue => by rw [wearPeriod_of_due hdue], fun hearly => by rw [wearPeriod_of_early hearly]⟩
end

section
/-!
SUPPORT and PROOF. A request at an MCC: the cases of its check (R196, R277, R311, R672), what a passed request is (R193, R197),
and a write held for Newt (R254); from these O17.
-/

namespace Sys2Proof.MccRequests

open Sys2Proof Sys2Proof.Machine

/-! ### The check of a request, for every memory cluster -/

section Check

variable {s : State} {c : Nat} {q : MemReq} {kind : OpKind}

theorem checkReq_of_form (hform : q.form ≠ 0) :
    s.checkReq c q kind = ((s.report 20 c 0 (some q.tdid)).refuseReq c (reqFrom q c) q kind, none) := by
  unfold State.checkReq
  rw [if_pos hform]

theorem checkReq_of_fail {n e : Nat} (hform : q.form = 0)
    (hown : s.ownCheck c q.addr.toNat (reqSpan q kind) q.tdid.toNat q.tower (kind != .rd) = .fail n e) :
    s.checkReq c q kind = ((s.checkFailed c n e q.addr.toNat q.tdid.toNat).refuseReq c (reqFrom q c) q kind, none) := by
  unfold State.checkReq
  rw [if_neg (not_not_intro hform), hown]

variable {e : Nat} {ent : BitVec 128} (hform : q.form = 0)
    (hown : s.ownCheck c q.addr.toNat (reqSpan q kind) q.tdid.toNat q.tower (kind != .rd) = .pass e ent)
include hform hown

theorem checkReq_of_bad_atomic (hat : kind = .at_) (hbad : atopOk q.atop = false ∨ atomicAligned q.addr.toNat q.wide = false) :
    s.checkReq c q kind = (s.refuseReq c (reqFrom q c) q kind, none) := by
  unfold State.checkReq
  rw [if_neg (not_not_intro hform), hown]
  exact if_pos ⟨hat, by simpa [imp_iff_not_or] using hbad⟩

theorem checkReq_of_pass (hat : kind = .at_ → atopOk q.atop = true ∧ atomicAligned q.addr.toNat q.wide = true) :
    s.checkReq c q kind = (s, some (e, ent)) := by
  unfold State.checkReq
  rw [if_neg (not_not_intro hform), hown]
  exact if_neg (fun ⟨hk, hbad⟩ => by simp [hat hk] at hbad)

end Check

/-! ### A request at an MCC -/

section Accept

variable {s t : State} {k : Nat} {q : MemReq} {kind : OpKind}

theorem mccAccept_of_refused (h : s.checkReq (mccIx k) (reqNorm q kind) kind = (t, none)) : s.mccAccept k q kind = t := by
  simp only [State.mccAccept, h]

/-- A request that has passed is counted by Gecko, marks an atomic's signature, and joins the cluster. -/
theorem mccAccept_of_passed {Q : MemReq} {e : Nat} {ent : BitVec 128} {u v : State} {sig : Option Nat}
    (hv : v = (match kind, sig with
      | .at_, some h => u.belfryAtomic h Q.addr.toNat
      | _, _ => u))
    (hQ : Q = reqNorm q kind) (h : s.checkReq (mccIx k) Q kind = (s, some (e, ent)))
    (hu : u = (if Entry.gecko ent then (linesOf Q.addr.toNat Q.len).foldl (fun s _ =>
      s.onMcc k (fun m => m.geckoCount e ent (Q.addr.toNat / 4096))) s else s))
    (hsig : sig = (if Entry.sign ent = true ∧ kind ≠ .rd then u.sigFor k e (Entry.signature ent) else none)) :
    s.mccAccept k q kind = (v.admitReq (mccIx k) (reqFrom Q (mccIx k)) Q kind e ent sig).mccPump k := by
  subst hQ hv hsig hu
  simp only [State.mccAccept, h] <;> rfl

theorem mccRequest_of_held (hp : s.present (mccIx k) = true) (hkind : kind ≠ .rd) (hheld : s.newtHolds k (reqNorm q kind) = true) :
    s.mccRequest k q kind = State.countT { s with nwt := { s.nwt with held := s.nwt.held ++
      [(k, .net (b2n (kind == .at_)), q)] } } 42 0x61 128 := by
  simp [State.mccRequest, hp, hkind, hheld]

theorem mccRequest_of_not_held (hp : s.present (mccIx k) = true) (h : kind = .rd ∨ s.newtHolds k (reqNorm q kind) = false) :
    s.mccRequest k q kind = s.mccAccept k q kind := by
  have hgo : ¬ (kind ≠ .rd ∧ s.newtHolds k (reqNorm q kind) = true) := by
    rintro ⟨hkind, hheld⟩
    simp [hkind, hheld] at h
  simp [State.mccRequest, hp, hgo]

/-- The three commands take their request as one, when the island runs. -/
theorem exec_mccRequest {k : Fin 8} {i : Instr}
    (hi : (kind = .rd ∧ i = .mccReadRequest k q) ∨ (kind = .wr ∧ i = .mccWriteRequest k q) ∨ (kind = .at_ ∧ i = .mccAtomicRequest k q))
    (hrun : (s.isl.get (mccIx k.val)).swap = .run) :
    exec i s = .next ((s.mccRequest k.val q kind).mccAfter k.val) := by
  have hgo (j : Instr) (go : State → State) : s.atIngress (mccIx k.val) j go = go s := if_pos hrun
  obtain ⟨rfl, rfl⟩ | ⟨rfl, rfl⟩ | ⟨rfl, rfl⟩ := hi
  · exact congrArg _ (hgo _ _)
  · exact congrArg _ (hgo _ _)
  · exact congrArg _ (hgo _ _)

end Accept

end Sys2Proof.MccRequests

open Sys2Proof Sys2Proof.Machine Sys2Proof.MccRequests

/-- Settles O17: a request that Newt does not hold ends as its check does, in four cases; one that Newt holds waits. -/
theorem mccRequestsAreCheckedAndAdmitted : Obligations.MccRequestsAreCheckedAndAdmitted := by
  unfold Obligations.MccRequestsAreCheckedAndAdmitted
  intro k q Q kind i c s hc hQ hi hrun hp
  subst hc
  rw [exec_mccRequest hi hrun]
  refine ⟨fun hfree => ?_, fun hkind hheld => ?_⟩
  · rw [hQ] at hfree
    rw [mccRequest_of_not_held hp hfree]
    have hrefused {t : State} (h : s.checkReq (mccIx k.val) Q kind = (t, none)) : s.mccAccept k.val q kind = t :=
      mccAccept_of_refused (hQ ▸ h)
    refine ⟨fun e ent u v sig hform hown hat hu hsig hv => ?_, fun n e hform hown => ?_,
      fun e ent hform hown hat hbad => ?_, fun hform => ?_⟩
    · rw [mccAccept_of_passed hv hQ (checkReq_of_pass hform hown hat) hu hsig]
    · rw [hrefused (checkReq_of_fail hform hown)]
    · rw [hrefused (checkReq_of_bad_atomic hform hown hat hbad)]
    · rw [hrefused (checkReq_of_form hform)]
  · rw [mccRequest_of_held hp hkind (hQ ▸ hheld)]
end

section
/-!
SUPPORT and PROOF. What data, tag lines, verdicts, write acceptances and flushes do to a line operation of an MCC, by its phase,
class and kind (R181 to R184, R192, R195, R196, R202, R677), and from these O18.
-/

namespace Sys2Proof.MccLines

open Sys2Proof Sys2Proof.Machine

/-! ### The commands -/

section
variable {s : State} (k : Fin 8) (id t : Nat) (data : Bytes) (err : MemErr)

theorem exec_mpDataArrival : exec (.mpDataArrival k id data err) s = .next ((s.mpData k.val id data err).mccAfter k.val) := rfl

theorem exec_tagLineArrival : exec (.tagLineArrival k t data err) s = .next ((s.tagArrival k.val t data err).mccAfter k.val) := rfl

theorem exec_readVerdict : exec (.readVerdict k id) s = .next ((s.mccVerdict k.val id).mccAfter k.val) := rfl

theorem exec_mpWriteAccept : exec (.mpWriteAccept k id) s = .next ((s.mpAccept k.val id).mccAfter k.val) := rfl

theorem exec_tagFlush (hup : s.regUp (mccIx k.val) = true) : exec (.tagFlush k) s = .next (s.tagFlush k.val) :=
  congrArg _ (if_pos hup)

end

variable {s : State} {k id t : Nat} {data : Bytes} {o : LineOp}

/-! ### Data of a line that awaits it (R183, R195, R202, R677) -/

section Data

variable (ho : s.op (mccIx k) id = some o) (hphase : o.phase = .fetch) (hraw : o.raw = none)
include ho hphase hraw

theorem mpData_of_uncorrectable :
    s.mpData k id data .uncorrectable = ((s.countT (mccIx k) 0x0C 128).failOp (mccIx k) o 4).mccPump k := by
  simp [State.mpData, ho, hphase, hraw]

theorem mpData_of_protected (hcls : Entry.cls o.ent ≠ 0) :
    s.mpData k id data .none = (s.onOp (mccIx k) id (fun o => { o with raw := some (Bytes.fit data 64) })).mccPump k := by
  simp [State.mpData, ho, hphase, hraw, hcls]

theorem mpData_of_open_read (hcls : Entry.cls o.ent = 0) (hkind : o.kind = .rd) :
    s.mpData k id data .none = ((s.countT (mccIx k) 0x03 (Entry.owner o.ent)).finishOp (mccIx k) o true
      (o.result (Bytes.fit data 64))).mccPump k := by
  simp [State.mpData, ho, hphase, hraw, hcls, hkind]

/-- An OPEN line that is no read's is an atomic's: its new value is written. -/
theorem mpData_of_open_update (hcls : Entry.cls o.ent = 0) (hkind : o.kind ≠ .rd) :
    s.mpData k id data .none = (State.onOp ((s.countT (mccIx k) 0x03 (Entry.owner o.ent) 2).emit (.memWrite (mccIx k) id 0 (64 * o.line)
        (o.newLine (Bytes.fit data 64)) ((List.range 64).map (fun i => decide (o.off ≤ i ∧ i < o.off + o.atomicBytes)))))
      (mccIx k) id (fun o => { o with plain := Bytes.fit data 64, phase := .sent, mpDone := true })).mccPump k := by
  simp [State.mpData, ho, hphase, hraw, hcls]

end Data

/-! ### A tag line that was fetched (R179, R181, R202) -/

section TagLine

variable {u : State} (hfetch : t ∈ (s.mcc.get k).fetching) (hu : u = s.onMcc k (fun m => { m with fetching := m.fetching.erase t }))
include hfetch hu

theorem tagArrival_of_uncorrectable :
    s.tagArrival k t data .uncorrectable =
      ((s.tagWaiters k t).foldl (fun u o => u.failOp (mccIx k) o 4) (u.countT (mccIx k) 0x0C 128)).mccPump k := by
  simp [State.tagArrival, hfetch, hu]

/-- The words of the line merge under those already valid, and every operation that waits takes its word. -/
theorem tagArrival_of_data {x : TagLine} {words : List Nat}
    (hx : x = (match (s.mcc.get k).tagKey t with
      | some key => (s.mcc.get k).tags.get key
      | none => { line := t, words := List.replicate 8 0 }))
    (hwords : words = (List.range 8).map (fun i => if x.valid.getLsbD i then (x.words[i]?).getD 0
      else (((Bytes.chunks (Bytes.fit data 64) 8).map Bytes.leNat)[i]?).getD 0)) :
    s.tagArrival k t data .none = (((s.tagWaiters k t).foldl (fun u o =>
      u.onOp (mccIx k) o.id (fun o => { o with tagIn := words[(s.mcc.get k).localLine o.line % 8]? })) u).tagPut k
        { x with valid := 0xFF, words := words }).mccPump k := by
  subst hwords hx hu
  simp [State.tagArrival, hfetch] <;> rfl

end TagLine

/-! ### Verdicts (R107, R192, R196, R202) -/

section Verdict

variable (ho : s.op (mccIx k) id = some o) (hphase : o.phase = .verdict)
include ho hphase

theorem mccVerdict_of_bad (hok : o.ok = false) :
    s.mccVerdict k id = ((s.countT (mccIx k) 0x05 (Entry.owner o.ent)).failOp (mccIx k) o 3).mccPump k := by
  simp [State.mccVerdict, ho, hphase, hok]

variable {u : State} (hu : u = (s.countT (mccIx k) 0x04 (Entry.owner o.ent)).countT (mccIx k) 0x02 (Entry.owner o.ent)) (hok : o.ok = true)
include hu hok

theorem mccVerdict_of_read (hkind : o.kind = .rd) :
    s.mccVerdict k id = (u.finishOp (mccIx k) o true (o.result o.plain)).mccPump k := by
  simp [State.mccVerdict, ho, hphase, hok, hkind, hu]

/-- The verdict of the read that a write of less than a line or an atomic makes: the new line goes to the lanes. -/
theorem mccVerdict_of_update (hkind : o.kind ≠ .rd) :
    s.mccVerdict k id = (u.onOp (mccIx k) id (fun o =>
      { o with phase := .toWrite, raw := some o.plain, plain := o.newLine o.plain, opnd := o.oldValue o.plain })).mccPump k := by
  simp [State.mccVerdict, ho, hphase, hok, hu]

end Verdict

/-! ### Write acceptances and flushes (R36, R184, R675) -/

theorem mpAccept_of_sent (hid : id ≠ 0) (ho : s.op (mccIx k) id = some o) (hphase : o.phase = .sent) :
    s.mpAccept k id = (s.finishOp (mccIx k) o true (if o.kind = .at_ then
      (if Entry.cls o.ent = 0 then o.result o.plain else toLe 8 o.opnd) else [])).mccPump k := by
  simp [State.mpAccept, hid, ho, hphase]

theorem mpAccept_of_flush : s.mpAccept k 0 = s.onMcc k (fun m => { m with flushLeft := m.flushLeft - 1 }) := by
  simp [State.mpAccept]

theorem tagFlush_of_idle {l : List (Nat × TagLine)} (hidle : (s.mcc.get k).flushLeft = 0)
    (hl : l = (s.mcc.get k).tags.cells.filter (fun x => x.2.dirty != 0)) :
    s.tagFlush k = (l.foldl (fun s x => s.tagWriteBack k 0 x.2) s).onMcc k (fun m =>
      { m with flushLeft := l.length, tags := m.tags.mapKeys (fun _ x => { x with dirty := 0 }) }) := by
  subst hl
  exact if_neg (not_not_intro hidle)

theorem tagFlush_of_running (h : (s.mcc.get k).flushLeft ≠ 0) : s.tagFlush k = s := if_pos h

end Sys2Proof.MccLines

open Sys2Proof Sys2Proof.Machine Sys2Proof.MccLines

/-- Settles O18: a clause for each command, split by the line's class and kind, the error of its data, and the verdict. -/
theorem mccDataAndWritesComplete : Obligations.MccDataAndWritesComplete := by
  unfold Obligations.MccDataAndWritesComplete
  intro k c s hc
  subst hc
  refine ⟨fun id data o ho hphase hraw => ?data, fun t data x u words hfetch hx hu hwords => ?tagLine,
    fun id o u ho hphase hu => ?verdict, fun id o hid ho hphase => ?accept, ?flushed, fun hup => ?flush⟩
  case data =>
    simp only [exec_mpDataArrival]
    refine ⟨fun hcls hkind => ?_, fun hcls hkind => ?_, fun hcls => ?_, ?_⟩
    · rw [mpData_of_open_read ho hphase hraw hcls hkind]
    · rw [mpData_of_open_update ho hphase hraw hcls hkind]
    · rw [mpData_of_protected ho hphase hraw hcls]
    · rw [mpData_of_uncorrectable ho hphase hraw]
  case tagLine =>
    rw [exec_tagLineArrival, exec_tagLineArrival, tagArrival_of_data hfetch hu hx hwords, tagArrival_of_uncorrectable hfetch hu]
    exact ⟨rfl, rfl⟩
  case verdict =>
    rw [exec_readVerdict]
    refine ⟨fun hok hkind => ?_, fun hok hkind => ?_, fun hbad => ?_⟩
    · rw [mccVerdict_of_read ho hphase hu hok hkind]
    · rw [mccVerdict_of_update ho hphase hu hok hkind]
    · rw [mccVerdict_of_bad ho hphase hbad]
  case accept => rw [exec_mpWriteAccept, mpAccept_of_sent hid ho hphase]
  case flushed => rw [exec_mpWriteAccept, mpAccept_of_flush]
  case flush =>
    rw [exec_tagFlush k hup]
    exact ⟨fun l hidle hl => by rw [tagFlush_of_idle hidle hl], fun hrunning => by rw [tagFlush_of_running hrunning]⟩
end

section
/-!
SUPPORT and PROOF. Host traffic at HCC: the cases of an outbound request (R346), of an inbound TLP in the clear and on an IDE stream
(R38, R39, R343, R345), and of a TLP whose output leaves its lane, each by what the stream's context and key answer (R111, R127);
from these O28.
-/

namespace Sys2Proof.HostTraffic

open Sys2Proof Sys2Proof.Machine

/-! ### The commands: what waits goes first -/

section
variable {s : State} (hrun : (s.isl.get hccIx).swap = .run)
include hrun

theorem exec_hostOutboundRequest (q : MemReq) : exec (.hostOutboundRequest q) s = .next (s.hccRetry.hostOutbound q) :=
  congrArg _ (if_pos hrun)

theorem exec_hostInboundTlp (sid : Option (BitVec 8)) (x : Tlp) :
    exec (.hostInboundTlp sid x) s = .next (s.hccRetry.hostInbound sid x) :=
  congrArg _ (if_pos hrun)

end

variable {u w : State} {v : BitVec 8} {n : Nat} {z : Sched}

/-! ### Outbound requests (R346) -/

section Outbound

variable {q : MemReq} (hp : u.present hccIx = true)
include hp

theorem hostOutbound_of_clear (hq : q.tdid = 0) :
    u.hostOutbound q = (u.hostFlight q none).tlpOut none 0 (hostHeader q ++ hostBody q) := by
  simp [State.hostOutbound, hp, hq]

variable {t : Tdi} (hq : q.tdid ≠ 0) (ht : t = u.tdi (u.tdidPart q.tdid.toNat))
include hq ht

/-- A TDI that is not in RUN, or on no stream, sends nothing. -/
theorem hostOutbound_of_not_run (h : t.state ≠ 2 ∨ t.stream = none) : u.hostOutbound q = u.refuseHost q := by
  have hnone : (if t.state = 2 then t.stream else none) = none := by
    split
    · exact h.resolve_left (not_not_intro ‹_›)
    · rfl
  subst ht
  simp only [State.hostOutbound, hp, hq, hnone, Bool.not_true, Bool.false_eq_true, if_false]

variable (hstate : t.state = 2) (hstream : t.stream = some v)
include hstate hstream

theorem hostOutbound_of_no_context (hctx : u.ideCtx v = none) : u.hostOutbound q = u.refuseHost q := by
  subst ht
  simp only [State.hostOutbound, hp, hq, hstate, hstream, hctx, Bool.not_true, Bool.false_eq_true, if_true, if_false]

/-- On a stream with a context: what the request meets, in the order of its tests. -/
theorem hostOutbound_of_context (hctx : u.ideCtx v = some n) {sub : BitVec 2} (hsub : sub = if q.posted then (0 : BitVec 2) else 1) :
    u.hostOutbound q =
      if (u.hcc.ctxs.get n).state ≠ 2 ∨ laneTakes (Config.ideAad (hostHeader q)) (hostBody q) = false then u.refuseHost q
      else if 2 ^ 64 - 1 ≤ (u.hcc.ctxs.get n).counter sub false then (u.ideFailed n).refuseHost q
      else match u.ideKey n sub false with
        | (w, .wait) => w.onHcc (fun h => { h with waitOut := h.waitOut ++ [q] })
        | (w, .missing) => w.refuseHost q
        | (w, .ready z) => (w.hostFlight q (some v)).tlpSend n sub z q.tdid.toNat (hostHeader q) (hostBody q) := by
  subst ht hsub
  simp only [State.hostOutbound, hp, hq, hstate, hstream, hctx, Bool.not_eq_true', if_true, if_false, Bool.true_eq_false] <;> rfl

end Outbound

/-! ### Inbound TLPs (R38, R39, R343, R345) -/

section Inbound

variable {x : Tlp}

theorem hostInbound_of_clear (hp : u.present hccIx = true) :
    u.hostInbound none x = if x.completion then u.hostCompletion none x x.body else u.hostEnter none x x.body 0 := by
  simp [State.hostInbound, hp]

theorem hostInbound_of_stream (hp : u.present hccIx = true) : u.hostInbound (some v) x = u.hostInStream v x := by
  simp [State.hostInbound, hp]

theorem hostInStream_of_no_context (hctx : u.ideCtx v = none) : u.hostInStream v x = u := by
  simp [State.hostInStream, hctx]

/-- On a stream with a context: what the TLP meets, in the order of its tests. -/
theorem hostInStream_of_context (hctx : u.ideCtx v = some n) :
    u.hostInStream v x =
      if (u.hcc.ctxs.get n).state ≠ 2 then u
      else if 2 ^ 64 - 1 ≤ (u.hcc.ctxs.get n).counter x.sub true ∨ laneTakes (Config.ideAad x.aad) x.body = false then u.ideFailed n
      else match u.ideKey n x.sub true with
        | (w, .wait) => w.onHcc (fun h => { h with waitIn := h.waitIn ++ [(v, x)] })
        | (w, .missing) => w.ideFailed n
        | (w, .ready z) => w.issueThen hccIx
            (.tlp v x (ideOpen (z.key.take 32) v ((u.hcc.ctxs.get n).counter x.sub true) x)) z.id
            (fun s => s.tlpOpened v x (ideOpen (z.key.take 32) v ((u.hcc.ctxs.get n).counter x.sub true) x)) := by
  simp only [State.hostInStream, hctx, Bool.not_eq_true'] <;> rfl

end Inbound

/-! ### A TLP whose output leaves its lane (R343) -/

section Opened

variable {s : State} {x : Tlp} {d : Nat} (hctx : s.ideCtx v = some n) (hstate : (s.hcc.ctxs.get n).state = 2)
    (hd : d = (s.boundPart v).elim 0 (fun p => s.boundTdid p))
include hctx hstate hd

theorem tlpOpened_of_bad_tag : s.tlpOpened v x none = (s.countT hccIx 0x05 d).ideFailed n := by
  simp [State.tlpOpened, hctx, hstate, hd]

theorem tlpOpened_of_good_tag {b : Bytes} {y : State}
    (hy : y = (((s.countS hccIx 0x40 2).countT hccIx 0x04 d).countT hccIx 0x02 d (dataUnits b.length)).ideCounted n x.sub true) :
    s.tlpOpened v x (some b) = if x.completion then y.hostCompletion (some v) x b else y.hostStamp v x b := by
  simp [State.tlpOpened, hctx, hstate, hy, hd]

end Opened

end Sys2Proof.HostTraffic

open Sys2Proof Sys2Proof.Machine Sys2Proof.HostTraffic

/-- Settles O28: outbound requests, TLPs in the clear, TLPs on a stream, and TLPs that a lane has opened, each by what HCC finds. -/
theorem hostTrafficComplete : Obligations.HostTrafficComplete := by
  unfold Obligations.HostTrafficComplete
  refine ⟨?outbound, ?clear, ?stream, fun v x s n d hctx hstate hd => ?opened⟩
  case outbound =>
    rintro q s u hrun rfl hp
    rw [exec_hostOutboundRequest hrun]
    refine ⟨fun hq => ?_, fun hq t ht => ⟨fun hno => ?_, fun v hstate hstream hctx => ?_, fun v n sub hstate hstream hctx hsub => ?_⟩⟩
    · rw [hostOutbound_of_clear hp hq]
    · rw [hostOutbound_of_not_run hp hq ht hno]
    · rw [hostOutbound_of_no_context hp hq ht hstate hstream hctx]
    rw [hostOutbound_of_context hp hq ht hstate hstream hctx hsub]
    refine ⟨fun hbad => ?_, fun hsecure htakes => ?_⟩
    · rw [if_pos hbad]
    rw [if_neg (by simp [hsecure, htakes])]
    refine ⟨fun hwrap => ?_, fun hroom w => ?_⟩
    · rw [if_pos hwrap]
    rw [if_neg (Nat.not_le.2 hroom)]
    exact ⟨fun hkey => by rw [hkey], fun hkey => by rw [hkey], fun z hkey => by rw [hkey]⟩
  case clear =>
    rintro x s u hrun rfl hp
    rw [exec_hostInboundTlp hrun, hostInbound_of_clear hp]
  case stream =>
    rintro v x s u hrun rfl hp
    rw [exec_hostInboundTlp hrun, hostInbound_of_stream hp]
    refine ⟨fun hctx => ?_, fun n hctx => ?_⟩
    · rw [hostInStream_of_no_context hctx]
    rw [hostInStream_of_context hctx]
    refine ⟨fun hopen => ?_, fun hsecure => ⟨fun hbad => ?_, fun hroom htakes w => ?_⟩⟩
    · rw [if_pos hopen]
    · rw [if_neg (not_not_intro hsecure), if_pos hbad]
    rw [if_neg (not_not_intro hsecure), if_neg (not_or_intro (Nat.not_le.2 hroom) (by simp [htakes]))]
    exact ⟨fun hkey => by rw [hkey], fun hkey => by rw [hkey], fun z body hkey hbody => by rw [hkey, hbody]⟩
  case opened => exact ⟨tlpOpened_of_bad_tag hctx hstate hd, fun b y hy => tlpOpened_of_good_tag hctx hstate hd hy⟩
end

section
/-!
SUPPORT and PROOF. Loading a structure stream: what a read of a stream leaves by its validation (R70 to R72), when STREAM_LOAD,
BOOT_STREAM_LOAD and STREAM_RETRY begin one and when they answer at once (R69, R88, R735, R762), and from these O5.
-/

namespace Sys2Proof.StreamLoading

open Sys2Proof Sys2Proof.Machine

/-! ### The commands -/

section
variable {s t : State} {h : Hdr} {c : Cmd}

theorem exec_streamLoad {addr : BitVec 64} {len : Word32} {buf : Buf} {dt : Nat}
    (ha : (s.advance dt).arrival h 1 (addrWords addr ++ [len]) = some (t, c)) :
    exec (.streamLoad h addr len buf dt) s = .next ((s.advance dt).thenReap (t.streamLoad c addr len.toNat buf)) :=
  congrArg Host.Outcome.next (Laws.command_arrival _ t h 1 _ c (fun s c => s.streamLoad c addr len.toNat buf) ha)

theorem exec_bootStreamLoad (buf : Buf) (dt : Nat) : exec (.bootStreamLoad buf dt) s = .next ((s.advance dt).bootLoad buf) := rfl

theorem exec_streamRetry (ha : s.arrival h 2 [] = some (t, c)) :
    exec (.streamRetry h) s = .next (s.thenReap (t.streamRetry c)) :=
  congrArg Host.Outcome.next (Laws.command_arrival s t h 2 [] c State.streamRetry ha)

end

/-! ### The read of a stream (R70 to R72) -/

section Read

variable {s u : State} {b : Bytes} {len : Nat} {x : StreamSet} {r : Reject} (hu : u = s.dropShadows)
include hu

theorem streamRead_of_valid (hv : u.validate b len = .ok x) :
    s.streamRead b len = (u.writeShadows x).onStr (fun y =>
      { y with state := 2, reason := 0, section_ := 0, island := 0x3F, detail := 0, shadow := some x }) := by
  subst hu
  simp only [State.streamRead, hv]

theorem streamRead_of_invalid (hv : u.validate b len = .error r) : s.streamRead b len = u.streamReject r := by
  subst hu
  simp only [State.streamRead, hv]

end Read

@[simp] theorem hold_str (s : State) (c : Cmd) : (s.hold c).str = s.str := rfl

@[simp] theorem streamReject_state (s : State) (r : Reject) : (s.streamReject r).str.state = 5 := rfl

/-! ### STREAM_LOAD (R69, R70, R762) -/

section Load

variable {s : State} {c : Cmd} {addr : BitVec 64} {len : Nat} {buf : Buf}

theorem streamLoad_of_busy (hbusy : s.str.busy = true ∨ s.lc.running ≠ none) :
    s.streamLoad c addr len buf = s.answer c 5 := by
  unfold State.streamLoad
  rw [if_pos (by rwa [Option.isSome_iff_ne_none])]

section
variable (hbusy : s.str.busy = false) (hlc : s.lc.running = none)
include hbusy hlc

theorem streamLoad_of_no_archive (harchive : s.noArchive = true) : s.streamLoad c addr len buf = s.answer c 8 [1] := by
  simp [State.streamLoad, hbusy, hlc, harchive]

/-- A load that begins reads its buffer and waits; a rejection answers the commands that wait. -/
theorem streamLoad_of_read {b : Bytes} {t : State} (harchive : s.noArchive = false)
    (ht : t = (s.dmaRead (s.bufferTdid c) addr.toNat len).streamRead (Bytes.fit b len) len) :
    s.streamLoad c addr len (some b) = if t.str.state = 5 then (t.hold c).streamAnswer else t.hold c := by
  subst ht
  unfold State.streamLoad
  rw [if_neg (by simp [hbusy, hlc]), if_neg (by simp [harchive])]
  rfl

end

end Load

/-! ### BOOT_STREAM_LOAD (R735) -/

theorem bootLoad_of_first {s u : State} {b : Bytes} (hup : s.fwUp = true) (hbusy : s.str.busy = false)
    (hfirst : s.pwr.committed = false) (hu : u = if s.dom.queue.isEmpty && (s.slot 0).state == 0 then s.reservedKeys else s) :
    s.bootLoad (some b) = u.streamRead b b.length := by
  subst hu
  simp [State.bootLoad, hup, hbusy, hfirst]

/-! ### STREAM_RETRY (R88) -/

section Retry

variable {s : State} {c : Cmd} {x : StreamSet}

theorem streamRetry_of_not_aborted (hstate : s.str.state ≠ 6) : s.streamRetry c = s.answer c 7 := by
  unfold State.streamRetry
  cases s.str.shadow with
  | none => rfl
  | some x => exact if_pos hstate

variable (hstate : s.str.state = 6) (hset : s.str.shadow = some x)
include hstate hset

theorem streamRetry_of_valid (hv : s.laterSteps x = .ok ()) :
    s.streamRetry c =
      ((s.onStr (fun y => { y with reason := 0, section_ := 0, island := 0x3F, detail := 0 })).hold c).prepareStart := by
  simp only [State.streamRetry, hset, hstate, hv, ne_eq, not_true_eq_false, if_false]

theorem streamRetry_of_invalid {r : Reject} (hv : s.laterSteps x = .error r) :
    s.streamRetry c = ((s.hold c).streamReject r).streamAnswer := by
  simp only [State.streamRetry, hset, hstate, hv, ne_eq, not_true_eq_false, if_false]

end Retry

end Sys2Proof.StreamLoading

open Sys2Proof Sys2Proof.Machine Sys2Proof.StreamLoading

/-- Settles O5: a clause for each command that begins a read or repeats the later steps, split by the validation, and one for
the states in which it answers at once. -/
theorem streamLoadingCommandsComplete : Obligations.StreamLoadingCommandsComplete := by
  unfold Obligations.StreamLoadingCommandsComplete
  refine ⟨?load, fun h addr len b dt s t c ha => ?loadRefused, ?boot, ?retry, fun h s t c ha hstate => ?retryRefused⟩
  case load =>
    intro h addr len b dt s t c ha hbusy hlc harchive u hu
    rw [exec_streamLoad ha, streamLoad_of_read hbusy hlc harchive rfl]
    cases hv : u.validate (Bytes.fit b len.toNat) len.toNat with
    | ok x => rw [streamRead_of_valid hu hv]; rfl
    | error r => rw [streamRead_of_invalid hu hv, if_pos (streamReject_state u r)]
  case loadRefused =>
    rw [exec_streamLoad ha]
    exact ⟨fun hbusy => by rw [streamLoad_of_busy hbusy],
      fun hbusy hlc harchive => by rw [streamLoad_of_no_archive hbusy hlc harchive]⟩
  case boot =>
    rintro b dt s t rfl hup hbusy hfirst u hu
    rw [exec_bootStreamLoad, bootLoad_of_first hup hbusy hfirst rfl]
    cases hv : u.validate b b.length with
    | ok x => rw [streamRead_of_valid hu hv]
    | error r => rw [streamRead_of_invalid hu hv]
  case retry =>
    intro h s t c x ha hstate hset
    rw [exec_streamRetry ha]
    cases hv : t.laterSteps x with
    | ok y => rw [streamRetry_of_valid hstate hset hv]
    | error r => rw [streamRetry_of_invalid hstate hset hv]
  case retryRefused => rw [exec_streamRetry ha, streamRetry_of_not_aborted hstate]
end

section
/-!
SUPPORT and PROOF. The swap up to its commit: when the coordinator broadcasts PREPARE, what it makes an island do, and how a
refusal, the end of the window and an abort end it (R71, R74, R76, R78, R80 to R82, R95), and from these O6.
-/

namespace Sys2Proof.SwapPrepare

open Sys2Proof Sys2Proof.Machine

/-! ### The commands -/

section
variable (s : State) (dt : Nat) (i : Fin 46)

theorem exec_commitTimeReached : exec (.commitTimeReached dt) s = .next ((s.advance dt).atStep stepCompare).commitTime := rfl

theorem exec_boundaryReached : exec (.boundaryReached i) s = .next (s.boundary i.val) := rfl

theorem exec_refusedReceived : exec (.refusedReceived i) s = .next ((s.atStep stepArrive).refusedTaken i.val) := rfl

theorem exec_prepareWindowExpiry : exec .prepareWindowExpiry s = .next (s.atStep stepCompare).windowExpiry := rfl

theorem exec_islandAbort : exec (.islandAbort i) s = .next (s.islandAbort i.val) := rfl

end

variable {s u : State} {i : Nat} {x : StreamSet}

/-! ### PREPARE (R71, R80, R81) -/

/-- A set whose time has come, or that names none, is prepared once Spire's coordinator is free. -/
theorem commitTime_of_due (hset : s.str.shadow = some x) (hstate : s.str.state = 2) (hidle : s.spr.coord = .idle)
    (hlive : s.live 2 = true) (hdue : x.commitTime = 0 ∨ x.commitTime.toNat ≤ s.spr.time.counter.toNat) :
    s.commitTime = s.prepareStart := by
  unfold State.commitTime
  rw [hset]
  exact if_pos ⟨hstate, hidle, hlive, hdue⟩

/-- `u` is the state in which Spire asks itself first, before it broadcasts. -/
theorem prepareStart_of_agreed (hset : s.str.shadow = some x)
    (hu : u = (s.writeShadows x).onStr (fun y => { y with state := 3 })) (hagree : u.spireRefuses x = false) :
    s.prepareStart = u.onSpr (fun p =>
      { p with coord := .collecting, participants := u.swapParticipants, prepared := [], committed := [], refused := [] }) := by
  subst hu
  unfold State.prepareStart
  rw [hset]
  exact if_neg (by rw [hagree]; decide)

section Prepare

variable (hset : s.str.shadow = some x) (hcoord : s.spr.coord = .collecting) (hpart : i ∈ s.spr.participants)
  (hrun : (s.isl.get i).swap = .run) (hasked : ∀ r ∈ s.spr.refused, r.1 ≠ i) (habort : i ∉ s.spr.abortTo)
include hset hcoord hpart hrun hasked habort

/-- PREPARE that reaches a participant in RUN for the first time has it look for a reason to refuse. -/
theorem islandPrepare_of_run :
    s.islandPrepare i = match s.refusesSwap i x with
      | some (reason, sec) => s.onSpr (fun p => { p with refused := p.refused ++ [(i, 256 * reason + sec)] })
      | none => s.onIsl i (fun r => { r with swap := .draining }) := by
  unfold State.islandPrepare
  rw [hset]
  exact if_pos ⟨hcoord, by simpa using hpart, hrun, by simpa using hasked, by simpa using habort⟩

end Prepare

/-! ### The boundary (R78, R80, R95) -/

theorem boundary_of_reached (hdrain : (s.isl.get i).swap = .draining) (hat : s.atBoundary i = true)
    (hu : u = s.onIsl i (fun r => { r with swap := .prepared })) :
    s.boundary i = if i = 44 ∧ ownerIn (u.isl.get i).active 1 0 ≠ ownerIn (u.isl.get i).shadow 1 0 then u.trigDrive false else u := by
  subst hu
  unfold State.boundary
  exact if_pos ⟨hdrain, hat⟩

/-! ### Refusals, the window's end and the abort (R80 to R82) -/

theorem refusedTaken_of_collecting {j v : Nat} (hcoord : s.spr.coord = .collecting)
    (href : s.spr.refused.find? (fun r => r.1 == i) = some (j, v)) :
    s.refusedTaken i = s.swapAbort (v / 256) (v % 256) i := by
  unfold State.refusedTaken
  rw [hcoord, href]

theorem windowExpiry_of_collecting (hcoord : s.spr.coord = .collecting) :
    s.windowExpiry = s.swapAbort 0x11 0 ((s.spr.participants.find? (fun i => !s.spr.prepared.contains i)).getD 0x3F) := by
  unfold State.windowExpiry
  exact if_pos hcoord

theorem islandAbort_of_swapping (habort : i ∈ s.spr.abortTo) (hswap : (s.isl.get i).swap ≠ .run) :
    s.islandAbort i = (s.onSpr (fun p => { p with abortTo := p.abortTo.erase i })).admitWork i := by
  unfold State.islandAbort
  rw [if_pos (by simpa using habort)]
  exact if_neg hswap

end Sys2Proof.SwapPrepare

open Sys2Proof Sys2Proof.Machine Sys2Proof.SwapPrepare

/-- Settles O6: a clause for each command of the swap up to its commit, and the operation by which every abort ends it. -/
theorem swapPreparesAndAborts : Obligations.SwapPreparesAndAborts := by
  unfold Obligations.SwapPreparesAndAborts
  refine ⟨?commitTime, ?prepare, ?boundary, ?refused, ?expiry, ?abort, fun s reason sec island => rfl⟩
  case commitTime =>
    rintro dt s t u x rfl hset hstate hidle hlive hdue hu hagree
    rw [exec_commitTimeReached, commitTime_of_due hset hstate hidle hlive hdue, prepareStart_of_agreed hset hu hagree]
  case prepare =>
    intro i s x hset hcoord hpart hrun hasked habort
    exact congrArg Host.Outcome.next (islandPrepare_of_run hset hcoord hpart hrun hasked habort)
  case boundary =>
    intro i s u hdrain hat hu
    rw [exec_boundaryReached, boundary_of_reached hdrain hat hu]
  case refused =>
    rintro i u s j v rfl hcoord href
    rw [exec_refusedReceived, refusedTaken_of_collecting hcoord href]
  case expiry =>
    rintro u s rfl hcoord
    rw [exec_prepareWindowExpiry, windowExpiry_of_collecting hcoord]
  case abort =>
    intro i s habort hswap
    rw [exec_islandAbort, islandAbort_of_swapping habort hswap]
end

section
/-!
SUPPORT and PROOF. The swap from its last PREPARED on: the COMMIT broadcast, what an island holds once it has taken its sections,
the count of COMMITTED, the archive's copy and the reload from it (R80, R81, R83, R86, R87, R275, R755, R756, R760), and from
these O7.
-/

namespace Sys2Proof.SwapCommit

open Sys2Proof Sys2Proof.Machine

/-! ### The commands -/

section
variable (s : State) (i : Fin 46)

theorem exec_preparedReceived : exec (.preparedReceived i) s = .next ((s.atStep stepArrive).preparedTaken i.val) := rfl

theorem exec_islandCommit : exec (.islandCommit i) s = .next (s.islandCommit i.val) := rfl

theorem exec_archiveCopy : exec .archiveCopy s = .next s.archiveCopy := rfl

theorem exec_islandSectionLoad (a : Buf) : exec (.islandSectionLoad i a) s = .next (s.sectionLoad i.val a) := rfl

theorem exec_committedReceived {v : State} (hs : s = v.atStep stepArrive) (hwait : s.awaitsCommitted i.val = true)
    (hdone : i.val ∉ s.spr.commitTo) : exec (.committedReceived i) v = .next (s.countCommitted i.val) := by
  subst hs
  exact congrArg Host.Outcome.next (if_pos ⟨hwait, by simpa using hdone⟩)

theorem exec_committedTimeout {v : State} (hs : s = v.atStep stepCompare) (hwait : s.awaitsCommitted i.val = true) :
    exec (.committedTimeout i) v = .next ((s.report 11 i.val 0).countCommitted i.val) := by
  subst hs
  exact congrArg Host.Outcome.next (if_pos hwait)

end

variable {s u : State} {i : Nat} {x : StreamSet}

/-! ### PREPARED and COMMIT (R80, R81) -/

theorem preparedTaken_of_prepared (hcoord : s.spr.coord = .collecting) (hpart : i ∈ s.spr.participants) (hnew : i ∉ s.spr.prepared)
    (hprep : (s.isl.get i).swap = .prepared) (hu : u = s.onSpr (fun p => { p with prepared := p.prepared ++ [i] })) :
    s.preparedTaken i = if ∀ j ∈ u.spr.participants, j ∈ u.spr.prepared then u.commitBroadcast else u := by
  subst hu
  unfold State.preparedTaken
  rw [if_pos ⟨hcoord, by simpa using hpart, by simpa using hnew, hprep⟩]
  exact if_congr (by simp) rfl rfl

theorem islandCommit_of_prepared (hset : s.str.active = some x) (hto : i ∈ s.spr.commitTo) (hprep : (s.isl.get i).swap = .prepared) :
    s.islandCommit i = ((s.onSpr (fun p => { p with commitTo := p.commitTo.erase i })).takeSections i x).admitWork i := by
  unfold State.islandCommit
  rw [hset]
  exact if_pos ⟨by simpa using hto, hprep⟩

theorem countCommitted_eq (hu : u = s.onSpr (fun p => { p with committed := p.committed ++ [i] })) :
    s.countCommitted i = if ∀ j ∈ u.spr.participants, j ∈ u.spr.committed then
        ((u.onSpr (fun p => { p with coord := .idle, participants := [], prepared := [], committed := [] })).onStr (fun x =>
          { x with state := 4, reason := 0, section_ := 0, island := 0x3F })).streamAnswer
      else u := by
  subst hu
  unfold State.countCommitted
  exact if_congr (by simp) rfl rfl

/-! ### The sections an island has taken (R80, R86) -/

/-- A record of an island that has loaded is not the reset record, so its table keeps it. -/
theorem isl_ne_default_of_loaded {r : Isl} (h : r.loaded = true) : r ≠ default := by
  rintro rfl
  exact absurd h (by decide)

theorem onIsl_get_of_loaded {f : Isl → Isl} (h : (f (s.isl.get i)).loaded = true) : (s.onIsl i f).isl.get i = f (s.isl.get i) :=
  Laws.tbl_get_modify_of_ne_default s.isl i f (isl_ne_default_of_loaded h)

/-- Releasing the dynamic clamp of a loaded island changes the clamp's field of its record and no other (R697). -/
theorem unclamp_get_of_loaded (h : (s.isl.get i).loaded = true) :
    ∃ b, (s.unclamp i).isl.get i = { s.isl.get i with clampOff := b } := by
  unfold State.unclamp
  split
  · exact ⟨true, onIsl_get_of_loaded h⟩
  · exact ⟨(s.isl.get i).clampOff, rfl⟩

/-- Whatever taking the sections has changed before, it ends by writing them into the island's record and by the clamp. -/
theorem takeSections_eq (s : State) (i : Nat) (x : StreamSet) :
    ∃ t : State, s.takeSections i x = (t.onIsl i (fun r =>
      { r with active := x.forIsland i, shadow := [], generation := x.generation, loaded := true })).unclamp i :=
  ⟨_, rfl⟩

theorem takeSections_get (s : State) (i : Nat) (x : StreamSet) :
    ∃ r : Isl, (s.takeSections i x).isl.get i =
      { r with active := x.forIsland i, shadow := [], generation := x.generation, loaded := true } := by
  obtain ⟨t, ht⟩ := takeSections_eq s i x
  have hget := onIsl_get_of_loaded (s := t) (i := i) (f := fun r =>
    { r with active := x.forIsland i, shadow := [], generation := x.generation, loaded := true }) rfl
  obtain ⟨b, hb⟩ := unclamp_get_of_loaded (by rw [hget])
  rw [ht, hb, hget]
  exact ⟨{ t.isl.get i with clampOff := b }, rfl⟩

/-! ### The archive (R86, R87, R756, R760) -/

theorem archiveCopy_of_live (hset : s.str.active = some x) (hup : s.fwUp = true) (hentry : (s.region archiveRegion).entries = [0])
    (hlive : (s.region archiveRegion).phase = .live) (hnew : s.str.copied = false) :
    s.archiveCopy = (((Bytes.chunks x.bytes 4096).zipIdx).foldl (fun s p =>
      s.archiveWrite (s.str.base.toNat + 4096 * p.2) p.1) s).onStr (fun y => { y with archive := x.digests, copied := true }) := by
  unfold State.archiveCopy
  rw [hset]
  exact if_pos ⟨hup, hentry, hlive, by rw [hnew]; rfl⟩

/-- An unloaded island whose archive answer is good takes its RWL values back, if any are recorded, before its sections. Until the
committed stream has been copied, `archiveGood` takes any answer: no digest is checked then (log entry 14). -/
theorem sectionLoad_of_good {a : Buf} (hset : s.str.active = some x) (hi : i ≠ 0) (hlive : s.live i = true)
    (hload : s.loading i = true) (htower : s.live 1 = true) (hgood : s.archiveGood (x.forIsland i) a = true) :
    s.sectionLoad i a =
      ((if s.str.rwl.any (fun r => r.1 == i) then s.rwlRestore i else s).takeSections i x).admitWork i := by
  simp [State.sectionLoad, hset, hi, hlive, hload, htower, hgood]

end Sys2Proof.SwapCommit

open Sys2Proof Sys2Proof.Machine Sys2Proof.SwapCommit

/-- Settles O7: a clause for each command from the last PREPARED on, the record of an island that has taken its sections, and
the count that ends the swap. -/
theorem swapCommitsAndReloads : Obligations.SwapCommitsAndReloads := by
  unfold Obligations.SwapCommitsAndReloads
  refine ⟨?prepared, ?commit, fun s i x => ?taken, fun i v s hs hwait hdone => exec_committedReceived s i hs hwait hdone,
    fun i v s hs hwait => exec_committedTimeout s i hs hwait, fun s u i hu => countCommitted_eq hu, ?copy, ?load⟩
  case prepared =>
    rintro i v s u rfl hcoord hpart hnew hprep hu
    rw [exec_preparedReceived, preparedTaken_of_prepared hcoord hpart hnew hprep hu]
  case commit =>
    intro i s x hset hto hprep
    rw [exec_islandCommit, islandCommit_of_prepared hset hto hprep]
  case taken =>
    obtain ⟨r, hr⟩ := takeSections_get s i x
    rw [hr]
    exact ⟨rfl, rfl, rfl, rfl⟩
  case copy =>
    intro s x hset hup hentry hlive hnew
    rw [exec_archiveCopy, archiveCopy_of_live hset hup hentry hlive hnew]
  case load =>
    intro i a s x hset hi hlive hload htower hgood
    rw [exec_islandSectionLoad, sectionLoad_of_good hset hi hlive hload htower hgood]
end

section
/-!
SUPPORT and PROOF. The trace at OBS: what an arriving record and a trigger do in each state of the trace (R660, R664, R665), and
how a capture is released and drained (R655, R656, R666); from these O45.
-/

namespace Sys2Proof.TraceCapture

open Sys2Proof Sys2Proof.Machine

/-! ### The commands -/

section
variable (s : State)

theorem exec_traceRecord (i : Fin 46) : exec (.traceRecord i) s = .next (s.traceRecord i.val) := rfl

theorem exec_traceDrain : exec .traceDrain s = .next s.traceDrain := rfl

theorem exec_traceTrigger_of_enabled (hup : s.regUp 44 = true) (hmask : bit s.traceSetup.mask 3 = true) :
    exec .traceTrigger s = .next (s.traceFire 4) :=
  congrArg Host.Outcome.next (if_pos ⟨hup, hmask⟩)

theorem exec_traceRelease : exec .traceRelease s = .next s.traceRelease := rfl

end

variable {s u : State} {b : BitVec 192}

/-! ### Records (R78, R660, R665) -/

theorem traceRecord_of_taken {i : Nat} {rest : List (BitVec 192)} (hheld : (s.isl.get i).trace = b :: rest) (hlive : s.live 44 = true)
    (hswap : (s.isl.get 44).swap ≠ .prepared) :
    s.traceRecord i = (s.onIsl i (fun r => { r with trace := rest })).traceTake b := by
  unfold State.traceRecord
  rw [hheld]
  exact if_pos ⟨hlive, hswap⟩

section Arrive

variable (hu : u = s.traceWrite b)
include hu

theorem traceArrive_of_recording (htrace : s.obs.trace = .recording) :
    s.traceArrive b = if s.traceSetup.stop = true ∧ 32768 - s.traceSetup.post ≤ u.obs.records.length then
      { u with obs := { u.obs with trace := .stopped } } else u := by
  subst hu
  unfold State.traceArrive
  rw [htrace]
  rfl

theorem traceArrive_of_post (htrace : s.obs.trace = .post) :
    s.traceArrive b = { u with obs := { u.obs with
      postLeft := u.obs.postLeft - 1, trace := if u.obs.postLeft ≤ 1 then .frozen else .post } } := by
  subst hu
  unfold State.traceArrive
  rw [htrace]
  rfl

end Arrive

theorem traceArrive_of_held (htrace : s.obs.trace = .stopped ∨ s.obs.trace = .frozen ∨ s.obs.trace = .lent) :
    s.traceArrive b = s.traceDrop := by
  unfold State.traceArrive
  obtain htrace | htrace | htrace := htrace <;> rw [htrace]

/-! ### Triggers (R664, R665, R667) -/

theorem traceFire_of_waiting {k : Nat} (htrace : s.obs.trace = .recording ∨ s.obs.trace = .stopped)
    (hu : u = s.traceWrite (traceBody 44 0x0E none 0 k 0 0)) :
    s.traceFire k = State.trigPulse { u with obs := { u.obs with
      trace := .post, postLeft := u.traceSetup.post - 1, triggerTime := u.spr.time.counter } } := by
  subst hu
  exact if_pos htrace

theorem traceFire_of_ignored {k : Nat} (hrec : s.obs.trace ≠ .recording) (hstop : s.obs.trace ≠ .stopped) :
    s.traceFire k = s.countFixed 44 7 :=
  if_neg (not_or_intro hrec hstop)

/-! ### Release and drain (R655, R656, R665, R666) -/

section Registers

variable (hup : s.regUp 44 = true)
include hup

theorem traceRelease_of_free
    (htrace : s.obs.trace = .stopped ∨ s.obs.trace = .post ∨ s.obs.trace = .frozen ∧ s.obs.draining = false) :
    s.traceRelease = s.traceEmpty .recording := by
  obtain htrace | htrace | ⟨htrace, hdrain⟩ := htrace
  · simp [State.traceRelease, obsIx, hup, htrace]
  · simp [State.traceRelease, obsIx, hup, htrace]
  · simp [State.traceRelease, obsIx, hup, htrace, hdrain]

theorem traceRelease_of_draining (htrace : s.obs.trace = .frozen) (hdrain : s.obs.draining = true) :
    s.traceRelease = s.onObs (fun o => { o with releaseWait := true }) := by
  simp [State.traceRelease, obsIx, hup, htrace, hdrain]

section Drain

variable (htrace : s.obs.trace = .frozen) (hdrain : s.obs.draining = false)
include htrace hdrain

theorem traceDrain_of_channel {n : Nat} (hchannel : s.dmaChannel 4 = some n) :
    s.traceDrain = (s.obsWrite s.obs.traceBase.toNat s.drainImage).onObs (fun o =>
      { o with draining := true, traceNoChannel := false }) := by
  simp [State.traceDrain, obsIx, hup, htrace, hdrain, hchannel]

theorem traceDrain_of_no_channel (hchannel : s.dmaChannel 4 = none) :
    s.traceDrain = s.onObs (fun o => { o with traceNoChannel := true }) := by
  simp [State.traceDrain, obsIx, hup, htrace, hdrain, hchannel]

end Drain

end Registers

theorem countFixed_obs (s : State) (i n k : Nat) : (s.countFixed i n k).obs = s.obs := by
  obtain ⟨t, ht⟩ := Laws.count_eq s i { code := 256 + n, n := k }
  rw [State.countFixed, ht]

/-- The end of a drain, `v`, is counted when it is an error, and makes the release that waited for it. -/
theorem traceDrainDone_of_draining {v : State} {ok : Bool} (hdrain : s.obs.draining = true)
    (hv : v = s.onObs (fun o => { o with draining := false, drained := o.drained || ok }))
    (hu : u = if ok then v else v.countFixed 44 11) :
    s.traceDrainDone ok = if s.obs.releaseWait = true then u.traceEmpty .recording else u := by
  have hwait : u.obs.releaseWait = s.obs.releaseWait := by
    subst hu hv
    cases ok with
    | true => rfl
    | false => simp [countFixed_obs]
  rw [← hwait]
  subst hu hv
  exact if_neg (by simp [hdrain])

end Sys2Proof.TraceCapture

open Sys2Proof Sys2Proof.Machine Sys2Proof.TraceCapture

/-- Settles O45: a clause for each command of the trace, split by its state, and what a record does on its arrival. -/
theorem traceCommandsComplete : Obligations.TraceCommandsComplete := by
  unfold Obligations.TraceCommandsComplete
  refine ⟨?record, fun s u b hu => ?arrive, ?trigger, fun s hup => ?release, fun s hup htrace hdrain => ?drain, ?done⟩
  case record =>
    rintro i s u v b rest hheld hlive hswap rfl rfl
    rw [exec_traceRecord, traceRecord_of_taken hheld hlive hswap]
    rfl
  case arrive =>
    exact ⟨traceArrive_of_recording hu, traceArrive_of_post hu, traceArrive_of_held⟩
  case trigger =>
    rintro s u v hup hmask hu rfl
    rw [exec_traceTrigger_of_enabled s hup hmask]
    exact ⟨fun htrace => by rw [traceFire_of_waiting htrace hu], fun hrec hstop => by rw [traceFire_of_ignored hrec hstop]⟩
  case release =>
    rw [exec_traceRelease]
    exact ⟨fun htrace => congrArg _ (traceRelease_of_free hup htrace),
      fun htrace hdrain => congrArg _ (traceRelease_of_draining hup htrace hdrain)⟩
  case drain =>
    rw [exec_traceDrain]
    cases hchannel : s.dmaChannel 4 with
    | some n => exact congrArg _ (traceDrain_of_channel hup htrace hdrain hchannel)
    | none => exact congrArg _ (traceDrain_of_no_channel hup htrace hdrain hchannel)
  case done =>
    intro ok s u hdrain hu
    exact congrArg _ (traceDrainDone_of_draining hdrain rfl hu)
end

section
/-!
SUPPORT and PROOF. The inverse of AES-256 step by step (FIPS 197), the XTS sectors of a class C line under it (R117, R122, R123)
and the map of a line's zero sectors (R187); from these O54. The keystreams of class R lines and of GCM (R125 to R128, R216) are
at least as long as what they mask; from this O53.
-/

namespace Sys2Proof.CipherRoundTrips

open Sys2Proof Sys2Proof.Machine Sys2Proof.Laws

/-! ### The steps of a round and their inverses -/

theorem invSub_sub : ∀ x : Byte, Aes.invSub (Aes.sub x) = x := by decide +kernel

theorem map_invSub_map_sub (b : Block) : (b.map Aes.sub).map Aes.invSub = b := by
  simp [Function.comp_def, invSub_sub]

theorem invShiftRows_shiftRows {b : Block} (h : b.length = 16) : Aes.invShiftRows (Aes.shiftRows b) = b := by
  match b, h with
  | [_, _, _, _, _, _, _, _, _, _, _, _, _, _, _, _], _ => rfl

theorem xtime_xor (x y : Byte) : Aes.xtime (x ^^^ y) = Aes.xtime x ^^^ Aes.xtime y := by
  unfold Aes.xtime
  rw [BitVec.shiftLeft_xor_distrib, BitVec.msb_xor]
  have hfold (p q : Bool) : (if p ^^ q then 0x1B#8 else 0#8) = (if p then 0x1B#8 else 0#8) ^^^ (if q then 0x1B#8 else 0#8) := by
    cases p <;> cases q <;> rfl
  rw [hfold]
  ac_rfl

/-- A constant multiplies byte by byte of an exclusive or. -/
theorem mulSmall_xor (k : Nat) (x y : Byte) : Aes.mulSmall k (x ^^^ y) = Aes.mulSmall k x ^^^ Aes.mulSmall k y := by
  have hif (p : Bool) (u v : Byte) :
      (if p then u ^^^ v else 0#8) = (if p then u else 0#8) ^^^ (if p then v else 0#8) := by cases p <;> simp
  simp only [Aes.mulSmall, xtime_xor, BitVec.ofNat_eq_ofNat, hif]
  ac_rfl

/-- The products of the two matrices of MixColumns, for one byte of a column: 1 on the diagonal and 0 beside it. -/
theorem mulSmall_matrices : ∀ x : Byte,
    Aes.mulSmall 14 (Aes.mulSmall 2 x) ^^^ Aes.mulSmall 11 (Aes.mulSmall 1 x) ^^^
      Aes.mulSmall 13 (Aes.mulSmall 1 x) ^^^ Aes.mulSmall 9 (Aes.mulSmall 3 x) = x ∧
    Aes.mulSmall 14 (Aes.mulSmall 3 x) ^^^ Aes.mulSmall 11 (Aes.mulSmall 2 x) ^^^
      Aes.mulSmall 13 (Aes.mulSmall 1 x) ^^^ Aes.mulSmall 9 (Aes.mulSmall 1 x) = 0 ∧
    Aes.mulSmall 14 (Aes.mulSmall 1 x) ^^^ Aes.mulSmall 11 (Aes.mulSmall 3 x) ^^^
      Aes.mulSmall 13 (Aes.mulSmall 2 x) ^^^ Aes.mulSmall 9 (Aes.mulSmall 1 x) = 0 ∧
    Aes.mulSmall 14 (Aes.mulSmall 1 x) ^^^ Aes.mulSmall 11 (Aes.mulSmall 1 x) ^^^
      Aes.mulSmall 13 (Aes.mulSmall 3 x) ^^^ Aes.mulSmall 9 (Aes.mulSmall 2 x) = 0 := by decide +kernel

/-- The byte of a column that one row of the inverse matrix gives back, the column's bytes taken in turn from it on. -/
theorem mulSmall_row (a b d e : Byte) :
    Aes.mulSmall 14 (Aes.mulSmall 2 a ^^^ Aes.mulSmall 3 b ^^^ Aes.mulSmall 1 d ^^^ Aes.mulSmall 1 e) ^^^
      Aes.mulSmall 11 (Aes.mulSmall 2 b ^^^ Aes.mulSmall 3 d ^^^ Aes.mulSmall 1 e ^^^ Aes.mulSmall 1 a) ^^^
      Aes.mulSmall 13 (Aes.mulSmall 2 d ^^^ Aes.mulSmall 3 e ^^^ Aes.mulSmall 1 a ^^^ Aes.mulSmall 1 b) ^^^
      Aes.mulSmall 9 (Aes.mulSmall 2 e ^^^ Aes.mulSmall 3 a ^^^ Aes.mulSmall 1 b ^^^ Aes.mulSmall 1 d) = a := by
  obtain ⟨ha, -, -, -⟩ := mulSmall_matrices a
  obtain ⟨-, hb, -, -⟩ := mulSmall_matrices b
  obtain ⟨-, -, hd, -⟩ := mulSmall_matrices d
  obtain ⟨-, -, -, he⟩ := mulSmall_matrices e
  simp only [mulSmall_xor]
  refine Eq.trans ?_ ((congrArg₂ (· ^^^ ·) (congrArg₂ (· ^^^ ·) ha hb) (congrArg₂ (· ^^^ ·) hd he)).trans (by simp))
  ac_rfl

theorem mixColumn_inverse (a b d e : Byte) : Aes.mixColumn 14 11 13 9 (Aes.mixColumn 2 3 1 1 [a, b, d, e]) = [a, b, d, e] := by
  have ha := mulSmall_row a b d e
  have hb := mulSmall_row b d e a
  have hd := mulSmall_row d e a b
  have he := mulSmall_row e a b d
  simp only [Aes.mixColumn, List.cons.injEq, and_true]
  refine ⟨Eq.trans ?_ ha, Eq.trans ?_ hb, Eq.trans ?_ hd, Eq.trans ?_ he⟩ <;> ac_rfl

theorem mixColumns_inverse {b : Block} (h : b.length = 16) : Aes.mixColumns 14 11 13 9 (Aes.mixColumns 2 3 1 1 b) = b := by
  match b, h with
  | [_, _, _, _, _, _, _, _, _, _, _, _, _, _, _, _], _ =>
    exact congrArg₂ (· ++ ·) (congrArg₂ (· ++ ·) (congrArg₂ (· ++ ·) (mixColumn_inverse ..) (mixColumn_inverse ..))
      (mixColumn_inverse ..)) (mixColumn_inverse ..)

/-! ### The cipher and its inverse -/

/-- Before a round's key is added, its SubBytes and ShiftRows are undone. -/
theorem inverse_subBytes_shiftRows {b : Block} (h : b.length = 16) :
    (Aes.invShiftRows (Aes.shiftRows (b.map Aes.sub))).map Aes.invSub = b := by
  rw [invShiftRows_shiftRows (by simpa using h), map_invSub_map_sub]

theorem encRounds_cons {k : Block} {ks : List Block} (h : ks ≠ []) (b : Block) :
    Aes.encRounds (k :: ks) b = Aes.encRounds ks (xorB (Aes.mixColumns 2 3 1 1 (Aes.shiftRows (b.map Aes.sub))) k) :=
  Aes.encRounds.eq_3 b k ks h

theorem decRounds_cons {k : Block} {ks : List Block} (h : ks ≠ []) (b : Block) :
    Aes.decRounds (k :: ks) b = Aes.decRounds ks (Aes.mixColumns 14 11 13 9 (xorB ((Aes.invShiftRows b).map Aes.invSub) k)) :=
  Aes.decRounds.eq_3 b k ks h

/-- The inverse rounds, begun with the last key, come back through the keys `init` to the first round's SubBytes and ShiftRows. -/
theorem decRounds_encRounds (init : List Block) (last : Block) (b : Block) (rest : List Block)
    (hinit : ∀ k ∈ init, k.length = 16) (hlast : last.length = 16) (hb : b.length = 16) (hrest : rest ≠ []) :
    Aes.decRounds (init.reverse ++ rest) (xorB (Aes.encRounds (init ++ [last]) b) last) =
      Aes.decRounds rest (Aes.shiftRows (b.map Aes.sub)) := by
  induction init generalizing b rest with
  | nil => exact congrArg _ (xorB_cancel _ _ (by rw [shiftRows_length, hlast]))
  | cons k init ih =>
    have hk : k.length = 16 := hinit k (by simp)
    have hmix : (Aes.mixColumns 2 3 1 1 (Aes.shiftRows (b.map Aes.sub))).length = 16 := mixColumns_length (shiftRows_length _)
    have hround : (xorB (Aes.mixColumns 2 3 1 1 (Aes.shiftRows (b.map Aes.sub))) k).length = 16 := by
      rw [xorB_length, hmix, hk, Nat.min_self]
    rw [List.cons_append, encRounds_cons (by simp), List.reverse_cons, List.append_assoc,
      ih _ _ (fun k' h => hinit k' (by simp [h])) hround (by simp), List.singleton_append, decRounds_cons hrest,
      inverse_subBytes_shiftRows hround, xorB_cancel _ _ (by rw [hmix, hk]), mixColumns_inverse (shiftRows_length _)]

/-- A first key, the keys of the middle rounds and a last key. -/
theorem schedule_ends (key : Bytes) : ∃ first init last, Aes.schedule key = first :: (init ++ [last]) := by
  obtain ⟨hlen, -⟩ := schedule_lengths key
  match hs : Aes.schedule key with
  | [] | [_] => simp [hs] at hlen
  | first :: second :: ks => exact ⟨first, (second :: ks).dropLast, _, congrArg _ (List.dropLast_concat_getLast (by simp)).symm⟩

theorem dec_enc (key : Bytes) {b : Block} (hb : b.length = 16) : Aes.dec key (Aes.enc key b) = b := by
  obtain ⟨first, init, last, hs⟩ := schedule_ends key
  have hkeys := (schedule_lengths key).2
  rw [hs] at hkeys
  have hfirst : first.length = 16 := hkeys first (by simp)
  have hround : (xorB b first).length = 16 := by rw [xorB_length, hb, hfirst, Nat.min_self]
  have henc : Aes.enc key b = Aes.encRounds (init ++ [last]) (xorB b first) := by
    simp only [Aes.enc, hs, fit_of_length hb]
  have hrev : (Aes.schedule key).reverse = last :: (init.reverse ++ [first]) := by simp [hs]
  calc Aes.dec key (Aes.enc key b)
      = Aes.decRounds (init.reverse ++ [first]) (xorB (Aes.enc key b) last) := by
        simp only [Aes.dec, hrev, fit_of_length (enc_length key b)]
    _ = Aes.decRounds [first] (Aes.shiftRows ((xorB b first).map Aes.sub)) := by
        rw [henc, decRounds_encRounds init last _ [first] (fun k h => hkeys k (by simp [h])) (hkeys last (by simp)) hround (by simp)]
    _ = xorB (xorB b first) first := congrArg (xorB · first) (inverse_subBytes_shiftRows hround)
    _ = b := xorB_cancel b first (by rw [hb, hfirst])

/-! ### Class C lines (R117, R119, R122, R123) -/

theorem sector_length {line : Bytes} {j : Nat} (h : 16 * (j + 1) ≤ line.length) : (sector line j).length = 16 := by
  simp only [sector, Bytes.slice, List.length_take, List.length_drop]
  omega

theorem sector_append {before s after : Bytes} {j : Nat} (hbefore : before.length = 16 * j) (hs : s.length = 16) :
    sector (before ++ (s ++ after)) j = s := by
  rw [sector, Bytes.slice, ← hbefore, List.drop_left, ← hs, List.take_left]

/-- Whatever the sectors, a line's piece of `n + 1` of them is the first and the piece of the rest. -/
theorem sector_append_slice (line : Bytes) (j n : Nat) :
    sector line j ++ Bytes.slice line (16 * (j + 1)) (16 * n) = Bytes.slice line (16 * j) (16 * (n + 1)) := by
  rw [sector, Bytes.slice, Bytes.slice, Bytes.slice, Nat.mul_succ 16 n, Nat.add_comm (16 * n), List.take_add, List.drop_drop,
    Nat.mul_succ 16 j]

theorem xtsAlpha_length (t : Block) : (xtsAlpha t).length = 16 := toLe_length 16 _

/-- A sector comes back through the mask of its tweak and a cipher that has an inverse. -/
theorem xtsSector_comes_back {c d : Block → Block} (hc : ∀ b, (c b).length = 16) (hd : ∀ b, b.length = 16 → d (c b) = b)
    {x t : Block} (hx : x.length = 16) (ht : t.length = 16) :
    xorB (d (xorB (xorB (c (xorB x t)) t) t)) t = x := by
  rw [xorB_cancel _ _ (by rw [hc, ht]), hd _ (by rw [xorB_length, hx, ht, Nat.min_self]), xorB_cancel _ _ (by rw [hx, ht])]

/-- The sectors from `j` on that `c` encrypted come back under its inverse `d`, whatever stands before them in the line. -/
theorem xtsSectors_come_back {c d : Block → Block} (hc : ∀ b, (c b).length = 16) (hd : ∀ b, b.length = 16 → d (c b) = b)
    {map : Nat} {line : Bytes} (n j : Nat) (t before : Bytes) (ht : t.length = 16) (hline : 16 * (j + n) ≤ line.length)
    (hzero : ∀ i, i < j + n → bit map i = true → sector line i = zeros 16) (hbefore : before.length = 16 * j) :
    xtsSectors d map (before ++ xtsSectors c map line n j t) n j t = Bytes.slice line (16 * j) (16 * n) := by
  induction n generalizing j t before with
  | zero => simp [xtsSectors, Bytes.slice]
  | succ n ih =>
    have hx : (sector line j).length = 16 := sector_length (by omega)
    have hrest (s : Bytes) (hs : s.length = 16) :
        xtsSectors d map (before ++ (s ++ xtsSectors c map line n (j + 1) (xtsAlpha t))) n (j + 1) (xtsAlpha t) =
          Bytes.slice line (16 * (j + 1)) (16 * n) := by
      rw [← List.append_assoc]
      exact ih (j + 1) _ _ (xtsAlpha_length t) (by omega) (fun i hi => hzero i (by omega)) (by
        rw [List.length_append, hbefore, hs]; omega)
    rw [← sector_append_slice]
    by_cases hj : bit map j = true
    · have hz : (zeros 16).length = 16 := rfl
      simp only [xtsSectors, if_pos hj, hrest _ hz, hzero j (by omega) hj]
    · have hs : (xorB (c (xorB (sector line j) t)) t).length = 16 := by rw [xorB_length, hc, ht, Nat.min_self]
      simp only [xtsSectors, if_neg hj, hrest _ hs, sector_append hbefore hs, xtsSector_comes_back hc hd hx ht]

/-- The tag word holds the sector map in bits 63:60 (R119). -/
theorem tagHash_map {s cls map : Nat} {stored : Bytes} (h : map < 16) : tagHash s stored map cls / 2 ^ 60 % 16 = map := by
  simp only [tagHash, Nat.mod_eq_of_lt h]
  generalize (_ : Nat) % 2 ^ 60 = low, Nat.mod_lt _ (Nat.two_pow_pos 60) = hlow
  omega

theorem xtsDecrypt_xtsEncrypt {key line : Bytes} {epoch tdid la map : Nat} (hline : line.length = 64) (hmap : map < 16)
    (hzero : ∀ j, j < 4 → bit map j = true → sector line j = zeros 16) :
    xtsDecrypt key epoch tdid la (xtsEncrypt key epoch tdid la map line).2 (xtsEncrypt key epoch tdid la map line).1 =
      (line, true) := by
  have hsectors := xtsSectors_come_back (line := line) (enc_length (key.take 32)) (fun b => dec_enc (key.take 32)) 4 0
    (xtsT0 (Bytes.slice key 32 32) epoch tdid la) [] (enc_length _ _) (by omega) hzero rfl
  have hall : Bytes.slice line (16 * 0) (16 * 4) = line := List.take_of_length_le (by simp [hline])
  rw [hall, List.nil_append] at hsectors
  simp only [xtsDecrypt, xtsEncrypt, tagHash_map hmap, hsectors, beq_self_eq_true]

/-! ### The map of the zero sectors (R187) -/

theorem bit_of_flags : ∀ (p q r s : Bool) (j : Fin 4),
    bit (b2n p + 2 * b2n q + 4 * b2n r + 8 * b2n s) j = [p, q, r, s][j] := by decide

theorem bit_zeroMap {line : Bytes} {j : Nat} (hj : j < 4) : bit (zeroMap line) j = Bytes.allZero (sector line j) := by
  match j, hj with
  | 0, _ => exact bit_of_flags _ _ _ _ 0
  | 1, _ => exact bit_of_flags _ _ _ _ 1
  | 2, _ => exact bit_of_flags _ _ _ _ 2
  | 3, _ => exact bit_of_flags _ _ _ _ 3

theorem b2n_le_one (p : Bool) : b2n p ≤ 1 := by cases p <;> decide

theorem zeroMap_lt (line : Bytes) : zeroMap line < 16 := by
  have h (j : Nat) := b2n_le_one (Bytes.allZero (sector line j))
  have h0 := h 0
  have h1 := h 1
  have h2 := h 2
  have h3 := h 3
  unfold zeroMap
  omega

theorem eq_zeros_of_allZero {b : Bytes} {n : Nat} (hb : b.length = n) (h : Bytes.allZero b = true) : b = zeros n :=
  List.eq_replicate_iff.2 ⟨hb, by simpa [Bytes.allZero] using h⟩

/-! ### Keystreams of class R lines and of GCM (R125 to R128) -/

theorem flatten_range_length (f : Nat → Bytes) (n k : Nat) (h : ∀ i, (f i).length = k) :
    ((List.range n).map f).flatten.length = n * k := by
  simp [List.length_flatten, Function.comp_def, h]

theorem ctrStream_length (kenc : Bytes) (major minor tdid la : Nat) : (ctrStream kenc major minor tdid la).length = 64 :=
  flatten_range_length _ 4 16 (fun _ => enc_length _ _)

theorem gcmStream_length (key iv : Bytes) (n : Nat) : (gcmStream key iv n).length = n * 16 :=
  flatten_range_length _ n 16 (fun _ => enc_length _ _)

theorem ctrDecrypt_ctrEncrypt {key line : Bytes} {major minor tdid la : Nat} (hline : line.length = 64) :
    ctrDecrypt key major minor tdid la (ctrEncrypt key major minor tdid la line).2 (ctrEncrypt key major minor tdid la line).1 =
      (line, true) := by
  have hstream := ctrStream_length (key.take 32) major minor tdid la
  have hct : (xorB line (ctrStream (key.take 32) major minor tdid la)).length = 64 := by
    rw [xorB_length, hline, hstream, Nat.min_self]
  simp only [ctrDecrypt, ctrEncrypt, fit_of_length hline, fit_of_length hct, xorB_cancel line _ (Nat.le_of_eq (hline.trans hstream.symm)),
    beq_self_eq_true]

/-- Any leading part of the tag opens the packet (R131 takes twelve bytes). -/
theorem gcmDecrypt_gcmEncrypt (key iv aad pt : Bytes) {tag : Bytes} (htag : tag <+: (gcmEncrypt key iv aad pt).2) :
    gcmDecrypt key iv aad (gcmEncrypt key iv aad pt).1 tag = some pt := by
  have hle : pt.length ≤ (gcmStream key iv ((pt.length + 15) / 16)).length := by
    rw [gcmStream_length]
    omega
  have hlen : (gcmEncrypt key iv aad pt).1.length = pt.length := by
    rw [gcmEncrypt, xorB_length, Nat.min_eq_left hle]
  have hgood : (gcmTag key iv aad (gcmEncrypt key iv aad pt).1).take tag.length = tag :=
    (List.prefix_iff_eq_take.1 htag).symm
  rw [gcmDecrypt, hgood, if_pos (beq_self_eq_true tag), hlen]
  exact congrArg some (xorB_cancel pt _ hle)

end Sys2Proof.CipherRoundTrips

open Sys2Proof Sys2Proof.Machine Sys2Proof.CipherRoundTrips

/-- Settles O54: each round of the cipher is undone by an inverse round, each sector of a line by the inverse cipher under its
tweak, and a sector that the map elides is the zeros that come back for it. -/
theorem classCLinesComeBackUnderTheirKey : Obligations.ClassCLinesComeBackUnderTheirKey := by
  unfold Obligations.ClassCLinesComeBackUnderTheirKey
  refine ⟨fun key b hb => dec_enc key hb, fun key line epoch tdid la map => xtsDecrypt_xtsEncrypt,
    fun line hline => ⟨zeroMap_lt line, fun j hj hbit => ?_⟩⟩
  rw [bit_zeroMap hj] at hbit
  exact eq_zeros_of_allZero (sector_length (by omega)) hbit

/-- Settles O53: the keystream masks twice, and the tag is computed again over the same stored bytes. -/
theorem linesAndPacketsComeBackUnderTheirKey : Obligations.LinesAndPacketsComeBackUnderTheirKey := by
  unfold Obligations.LinesAndPacketsComeBackUnderTheirKey
  exact ⟨fun key line major minor tdid la => ctrDecrypt_ctrEncrypt, fun key iv aad pt =>
    ⟨gcmDecrypt_gcmEncrypt key iv aad pt (List.prefix_refl _), gcmDecrypt_gcmEncrypt key iv aad pt (List.take_prefix 12 _)⟩⟩
end

section
/-!
SUPPORT and PROOF. Withheld lane outputs: what a comparison and a vote decide about an item and what ends it (R139, R141, R142), and
what is done to a faulty lane by its socket's role; a swap that begins and one that switches (R143, R144, R148, R636); from these O9.
-/

namespace Sys2Proof.LaneSwaps

open Sys2Proof Sys2Proof.Machine

/-! ### The commands -/

section
variable {s : State} (c : Cl) (id : Nat) (equal : Bool) (third : Third) (n : Fin 16)

theorem exec_laneOutput : exec (.laneOutput c id equal) s = .next (s.laneOutput (c.val + 3) id equal) := rfl

theorem exec_laneVote : exec (.laneVote c id third) s = .next (s.laneVote (c.val + 3) id third) := rfl

theorem exec_laneSwapOrder : exec (.laneSwapOrder c n) s = .next (s.swapOrder (c.val + 3) n.val) := rfl

theorem exec_socketSwitch : exec (.socketSwitch c) s = .next ((s.socketSwitch (c.val + 3)).lanesAfter (c.val + 3)) := rfl

end

/-! ### Comparison (R139, R141) -/

section Compare

theorem itemEnds_wait (s : State) (c id : Nat) : s.itemEnds c id .wait = s := by
  unfold State.itemEnds
  cases s.item c id with
  | none => rfl
  | some _ => rfl

variable {s u : State} {c id : Nat} {x : Item} (hitem : s.item c id = some x)
include hitem

theorem itemEnds_release : s.itemEnds c id .release =
    ((((s.dropItem c id).releaseItem c x.kind).lanesGone c).clusterPump c).settle.removals := by
  unfold State.itemEnds
  rw [hitem]

variable (hvoting : x.voting = false)
include hvoting

theorem laneOutput_of_equal : s.laneOutput c id true = s.itemEnds c id .release := by
  simp [State.laneOutput, State.compare, hitem, hvoting]

variable (hu : u = ((s.mismatch c x.active).mismatch c x.spare).countT c 0x0F 128)
include hu

theorem laneOutput_of_third {n : Nat} (hthird : u.thirdLane c x = some n) :
    s.laneOutput c id false = u.onCluster c (fun y =>
      { y with items := mapWhere (fun z => z.id == id) (fun z => { z with voting := true, third := some n }) y.items }) := by
  subst hu
  simp [State.laneOutput, State.compare, hitem, hvoting, hthird, itemEnds_wait]

theorem laneOutput_of_no_third (hthird : u.thirdLane c x = none) :
    s.laneOutput c id false = (u.undecided c x).itemEnds c id .discard := by
  subst hu
  simp [State.laneOutput, State.compare, hitem, hvoting, hthird]

end Compare

/-! ### Vote (R141, R142) -/

/-- The verdict of a vote: the lane it finds faulty, or both when the third result agrees with neither. -/
theorem laneVote_of_voting {s u : State} {c id : Nat} {x : Item} (hitem : s.item c id = some x) (hvoting : x.voting = true)
    (hu : u = s.note c 0x0A none 0 2 ((s.laneSocket c x.active).getD 0) x.active) (third : Third) :
    s.laneVote c id third = match third with
      | .active => ((u.laneReport c x.spare).laneFaulty c x.spare x.lockstep).itemEnds c id .release
      | .spare => ((u.laneReport c x.active).laneFaulty c x.active x.lockstep).itemEnds c id .release
      | .neither => (u.undecided c x).itemEnds c id .discard := by
  subst hu
  cases third <;> simp [State.laneVote, State.vote, hitem, hvoting]

section Faulty

variable {s : State} {c lane n : Nat} {lockstep : Bool} (hsocket : s.laneSocket c lane = some n)
include hsocket

theorem laneReport_of_socket : s.laneReport c lane = s.report 0 c n := by
  rw [State.laneReport, hsocket, Option.getD_some]

theorem laneFaulty_of_active (hrole : (s.socket c n).role = 0) : s.laneFaulty c lane lockstep = s.replaceActive c n lockstep := by
  simp only [State.laneFaulty, hsocket, if_pos hrole]

theorem laneFaulty_of_spare (hrole : (s.socket c n).role = 1) : s.laneFaulty c lane lockstep = s.spareFaulty c n := by
  simp [State.laneFaulty, hsocket, hrole]

end Faulty

/-! ### Swaps (R143, R144, R148, R744) -/

theorem swapBegin_of_free {s : State} {c n k : Nat} {rest : List Nat} (faulty : Bool) (hstep : s.pwr.stepTaken = false)
    (hcoord : s.spr.coord = .idle) (hswap : (s.clusters.get c).swap = none) (hactive : n ∈ s.activeSockets c)
    (hspares : s.availableSpares c = k :: rest) :
    s.swapBegin c n faulty = some
      { (s.onCluster c (fun x => { x with swap := some { socket := n, spare := k, faulty := faulty } })).onSocket c k
          (fun x => { x with activity := 2 }) with pwr := { s.pwr with stepTaken := true } } := by
  simp [State.swapBegin, hstep, hcoord, hswap, hactive, hspares]

/-- With no order of the cluster waiting, an order that can begin does so, for a lane that is not faulty. -/
theorem swapOrder_of_begin {s t : State} {c n : Nat} (hqueue : ∀ o ∈ s.spr.swapQueue, o.1 ≠ c)
    (hbegin : s.swapBegin c n false = some t) :
    s.swapOrder c n = t.onSpr (fun p => { p with swapQueue := dropFirst (fun o => o.1 == c && o.2.1 == n) p.swapQueue }) := by
  have hfirst : s.spr.swapQueue.find? (fun o => o.1 == c) = none :=
    List.find?_eq_none.2 (fun o ho => by simpa using hqueue o ho)
  have hwaiting : s.spr.swapQueue.find? (fun o => o.1 == c && o.2.1 == n) = none :=
    List.find?_eq_none.2 (fun o ho => by simp [hqueue o ho])
  simp [State.swapOrder, hfirst, hwaiting, hbegin]

/-- A switch that may happen: `v` has exchanged the lanes and ended the swap, `y` has handed a lane that the field test asked for to
it. -/
theorem socketSwitch_of_ready {s u v y : State} {c : Nat} {w : Swap} (hswap : (s.clusters.get c).swap = some w)
    (hready : w.lockstepDone = true ∨ w.atOnce = true) (hu : u = s.exchangeLanes c w.socket w.spare)
    (hv : v = ((u.note c 0x0A none 0 1 w.socket (u.socket c w.socket).lane.toNat).onCluster c
      (fun x => { x with swap := none })).onSocket c w.socket (fun x => { x with activity := 0 }))
    (hy : y = v.onSocket c w.spare (fun x => { x with
      underTest := x.underTest || v.ftu.target == some (1, c, (v.socket c w.spare).lane.toNat) })) :
    s.socketSwitch c = (State.raiseEvent
      (if w.faulty then y.faultLane c w.spare else y.onSocket c w.spare (fun x => { x with activity := 0 }))
      0x88 (256 * c + w.socket) 2).ordersLost c := by
  subst hu hv hy
  unfold State.socketSwitch
  rw [hswap]
  exact if_pos hready

end Sys2Proof.LaneSwaps

open Sys2Proof Sys2Proof.Machine Sys2Proof.LaneSwaps

/-- Settles O9: a clause for each outcome of a comparison and of a vote, for the role of a faulty lane's socket, and for each command
of a swap. -/
theorem laneComparisonAndSwapComplete : Obligations.LaneComparisonAndSwapComplete := by
  unfold Obligations.LaneComparisonAndSwapComplete
  refine ⟨?output, ?vote, ?faulty, ?order, fun _ _ => rfl, ?switch⟩
  case output =>
    intro c id s x hitem hvoting
    rw [exec_laneOutput, exec_laneOutput, laneOutput_of_equal hitem hvoting, itemEnds_release hitem]
    exact ⟨rfl, fun u hu => ⟨fun n hthird => by rw [laneOutput_of_third hitem hvoting hu hthird],
      fun hthird => by rw [laneOutput_of_no_third hitem hvoting hu hthird]⟩⟩
  case vote =>
    intro c id s u x hitem hvoting hu
    rw [exec_laneVote, exec_laneVote, exec_laneVote]
    exact ⟨congrArg _ (laneVote_of_voting hitem hvoting hu .active), congrArg _ (laneVote_of_voting hitem hvoting hu .spare),
      congrArg _ (laneVote_of_voting hitem hvoting hu .neither)⟩
  case faulty =>
    exact fun s c lane n lockstep hsocket =>
      ⟨laneReport_of_socket hsocket, laneFaulty_of_active hsocket, laneFaulty_of_spare hsocket⟩
  case order =>
    intro c n s k rest hqueue hstep hcoord hswap hactive hspares
    rw [exec_laneSwapOrder, swapOrder_of_begin hqueue (swapBegin_of_free false hstep hcoord hswap hactive hspares)]
  case switch =>
    intro c s u v y w hswap hready hu hv hy
    rw [exec_socketSwitch, socketSwitch_of_ready hswap hready hu hv hy]
end

section
/-!
SUPPORT and PROOF. Key schedules: when a fill is served and when it is refused (R111, R450, R464), what an invalidation under way
does (R112, R113), and what installing a schedule leaves in its cluster and in the others (R110); from these O10.
-/

namespace Sys2Proof.KeySchedules

open Sys2Proof Sys2Proof.Machine

variable {s : State}

/-! ### The commands -/

section
variable (c : Cl) (slot : Nat)

theorem exec_scheduleFill : exec (.scheduleFill c slot) s = .next (s.scheduleFill (c.val + 3) slot) := rfl

theorem exec_scheduleFillRefused_of_awaited (hawait : slot ∈ (s.clusters.get (c.val + 3)).awaiting)
    (hok : s.fillOk (c.val + 3) slot = false) :
    exec (.scheduleFillRefused c slot) s = .next (s.fillRefused (c.val + 3) slot) :=
  congrArg Host.Outcome.next (if_pos (by simp [hawait, hok]))

theorem exec_scheduleInvalidate :
    exec (.scheduleInvalidate c slot) s = .next (s.scheduleInvalidate (c.val + 3) slot).settle.removals := rfl

end

/-! ### Fills and invalidations (R111 to R113) -/

theorem scheduleFill_of_awaited {c slot : Nat} (hlive : s.live c = true) (hawait : slot ∈ (s.clusters.get c).awaiting)
    (hno : (c, slot) ∉ s.invals) :
    s.scheduleFill c slot =
      if s.fillOk c slot then (s.installSchedule c slot).clusterPump c else s.fillRefused c slot :=
  if_neg (by simp [hlive, hawait, hno])

theorem scheduleInvalidate_of_underWay {c slot : Nat} (h : (c, slot) ∈ s.invals) :
    s.scheduleInvalidate c slot = (s.invalidateSchedule c slot).clusterPump c :=
  if_pos (by simpa using h)

/-! ### An installed schedule (R110, R111) -/

/-- The installed schedule is the cluster's first; the entry of the cluster is then not a reset one. -/
theorem installSchedule_sched (s : State) (c slot : Nat) :
    ((s.installSchedule c slot).clusters.get c).sched =
      { slot := slot, key := (s.slot slot).key, epoch := (s.slot slot).epoch, writes := !(s.slot slot).writeClosed,
        id := (s.clusters.get c).nextSched } :: (s.clusters.get c).sched := by
  have hne {y : Cluster} {x : Sched} : y.addSched x ≠ default := fun h => List.cons_ne_nil _ _ (congrArg Cluster.sched h)
  exact congrArg Cluster.sched (Laws.tbl_get_modify_of_ne_default s.clusters c _ hne)

theorem installSchedule_clusters_other {c d : Nat} (slot : Nat) (h : d ≠ c) :
    (s.installSchedule c slot).clusters.get d = s.clusters.get d :=
  Laws.tbl_get_modify_other s.clusters c d _ h

end Sys2Proof.KeySchedules

open Sys2Proof Sys2Proof.Machine Sys2Proof.KeySchedules

/-- Settles O10: a clause for each command, a fill split by whether Tower may serve it, and what an installed schedule is. -/
theorem keyScheduleCommandsComplete : Obligations.KeyScheduleCommandsComplete := by
  unfold Obligations.KeyScheduleCommandsComplete
  refine ⟨?fill, fun c slot s => exec_scheduleFillRefused_of_awaited c slot, ?invalidate, ?installed,
    fun s c d slot => installSchedule_clusters_other slot⟩
  case fill =>
    intro c slot s hlive hawait hno
    rw [exec_scheduleFill, scheduleFill_of_awaited hlive hawait hno]
    exact ⟨fun hok => by rw [if_pos hok], fun hno => by rw [hno]; rfl⟩
  case invalidate =>
    intro c slot s hinval
    rw [exec_scheduleInvalidate, scheduleInvalidate_of_underWay hinval]
  case installed => exact fun s c slot => ⟨_, _, installSchedule_sched s c slot, rfl, rfl, rfl, rfl, rfl⟩
end

section
/-!
SUPPORT and PROOF. The control-plane engine's start and end (R150, R157 to R159), and Dome's derivations, seals and unseals under the
conditions that let each go on (R446, R451, R454); from these O11.
-/

namespace Sys2Proof.EngineAndDerivations

open Sys2Proof Sys2Proof.Machine

variable {s : State}

/-! ### The commands -/

section
variable (addr : Word32) (desc aad inp aux : Buf) (kind : BitVec 2) (slot : Fin 4096) (b : Bytes)

theorem exec_cpeStart : exec (.cpeStart addr desc aad inp aux) s = .next (s.cpeStart addr.toNat desc aad inp aux) := rfl

theorem exec_cpeDone : exec .cpeDone s = .next s.cpeDone.settle.removals := rfl

theorem exec_domeDerive : exec (.domeDerive kind slot) s = .next (s.domeDerive kind.toNat slot.val) := rfl

theorem exec_domeDeriveDone : exec .domeDeriveDone s = .next s.deriveDone.removals := rfl

theorem exec_domeSeal : exec (.domeSeal slot b) s = .next (s.domeSeal slot.val b) := rfl

theorem exec_domeUnseal : exec (.domeUnseal slot b) s = .next (s.domeUnseal slot.val b) := rfl

end

/-! ### The control-plane engine (R150, R157 to R159) -/

theorem cpeStart_of_busy {addr : Nat} {desc aad inp aux : Buf} (h : s.cpe.busy = true) : s.cpeStart addr desc aad inp aux = s :=
  if_pos h

theorem cpeStart_of_idle {u : State} {addr : Nat} {desc aad inp aux : Buf} (h : s.cpe.busy = false)
    (hu : u = s.cpePlaced addr desc aad inp aux) :
    s.cpeStart addr desc aad inp aux = { u with cpe := { u.cpe with
      busy := true, error := 0, out := some (u.cpeOutcome addr).1, slots := (u.cpeOutcome addr).2 } } := by
  subst hu
  exact if_neg (by simp [h])

theorem cpeDone_of_running {o : CpeOut} (h : s.cpe.out = some o) :
    s.cpeDone = ((State.cpeDeliver { s with cpe := { s.cpe with
      busy := false, done := true, error := BitVec.ofNat 8 o.error, out := none, slots := [] } } o).retireWaiting.retireRoots) := by
  simp only [State.cpeDone, h]

/-! ### Derivations (R446, R451) -/

section Slot

variable {n : Nat} (hready : s.domeReady = true) (hempty : (s.slot n).state = 0) (hqueue : ∀ k ∈ s.dom.queue, k.slot ≠ n)
include hready hempty hqueue

/-- Nothing keeps Dome from filling the slot. -/
theorem not_domeRefuses : ¬ ((!s.domeReady) = true ∨ (s.slot n).state ≠ 0 ∨ (s.dom.queue.any fun k => k.slot == n) = true) := by
  have hany : (s.dom.queue.any fun k => k.slot == n) = false := by simpa using hqueue
  simp [hready, hempty, hany]

theorem domeDerive_archive (hn : n = 0) : s.domeDerive 0 n = s.deriveQueue .archive :=
  (if_neg (not_domeRefuses hready hempty hqueue)).trans (if_pos hn)

theorem domeDerive_tree (hn : n = 1 ∨ n = 2) : s.domeDerive 1 n = s.deriveQueue (.tree (n - 1)) :=
  (if_neg (not_domeRefuses hready hempty hqueue)).trans (if_pos hn)

theorem domeDerive_region (hn : 32 ≤ n) : s.domeDerive 2 n = s.deriveQueue (.region n (s.slot n).purpose (s.slot n).tdid) :=
  (if_neg (not_domeRefuses hready hempty hqueue)).trans (if_pos hn)

theorem domeUnseal_of_free (b : Bytes) : s.domeUnseal n b =
    match s.domeOpen (s.slot n).purpose b with
    | some k => ((s.fillSlot n (s.slot n).attr k).slotObject n 0 true).emit (.twr "DOME_UNSEAL" [1])
    | none => s.emit (.twr "DOME_UNSEAL" [0]) :=
  if_neg (not_domeRefuses hready hempty hqueue)

end Slot

theorem deriveDone_of_queue {k : DeriveKind} {rest : List DeriveKind} (h : s.dom.queue = k :: rest) :
    s.deriveDone = s.deriveEnd.slotReady k.slot := by
  simp only [State.deriveDone, h]

/-! ### Seals (R454) -/

theorem domeSeal_of_usable {n : Nat} (id : Bytes) (hready : s.domeReady = true) (hlive : (s.slot n).state = 1)
    (hleave : (s.slot n).mayLeave = true) (hbound : (s.slot n).setBound = false) (hlc : bit (s.slot n).lcMask s.lcBit = true)
    (hexpiry : s.notExpired (s.slot n) = true) :
    s.domeSeal n id = s.emit (.twr "DOME_SEAL" (s.domeBlob n id)) :=
  if_pos (by simp [hready, hlive, hleave, hbound, hlc, hexpiry])

end Sys2Proof.EngineAndDerivations

open Sys2Proof Sys2Proof.Machine Sys2Proof.EngineAndDerivations

/-- Settles O11: a clause for each command; DOME_DERIVE has one for each kind of key. -/
theorem engineAndDerivationCommandsComplete : Obligations.EngineAndDerivationCommandsComplete := by
  unfold Obligations.EngineAndDerivationCommandsComplete
  refine ⟨?start, ?done, ?derive, ?derived, ?sealed, ?unsealed⟩
  case start =>
    intro addr desc aad inp aux s u hu
    rw [exec_cpeStart]
    exact ⟨fun hidle => by rw [cpeStart_of_idle hidle hu], fun hbusy => by rw [cpeStart_of_busy hbusy]⟩
  case done =>
    intro s o hout
    rw [exec_cpeDone, cpeDone_of_running hout]
  case derive =>
    intro slot s hready hempty hqueue
    simp only [exec_domeDerive]
    exact ⟨fun hn => congrArg _ (domeDerive_archive hready hempty hqueue hn),
      fun hn => congrArg _ (domeDerive_tree hready hempty hqueue hn),
      fun hn => congrArg _ (domeDerive_region hready hempty hqueue hn)⟩
  case derived =>
    intro s k rest hqueue
    rw [exec_domeDeriveDone, deriveDone_of_queue hqueue]
  case sealed =>
    intro slot id s hready hlive hleave hbound hlc hexpiry
    rw [exec_domeSeal, domeSeal_of_usable id hready hlive hleave hbound hlc hexpiry]
  case unsealed =>
    intro slot b s hready hempty hqueue
    exact (exec_domeUnseal slot b).trans (congrArg _ (domeUnseal_of_free hready hempty hqueue b))
end

section
/-!
SUPPORT and PROOF. Requests, data, metadata and write acceptances at a PCC (R202, R203, R228, R232 to R238, R277, R311, R672, R769):
the check of a request is that of every memory cluster; what data and tag words do turns on the class of the line, the kind of the
fetch and the error. From these O19.
-/

namespace Sys2Proof.PccRequests

open Sys2Proof Sys2Proof.Machine Sys2Proof.MccRequests

variable {s t : State} {p : Nat}

/-! ### Requests (R215, R277, R311, R347) -/

section Accept

variable {q Q : MemReq} {kind : OpKind} (hp : s.present (pccIx p) = true)
include hp

theorem pccRequest_of_refused (h : s.checkReq (pccIx p) (reqNorm q kind) kind = (t, none)) : s.pccRequest p q kind = t := by
  simp [State.pccRequest, hp, h]

theorem pccRequest_of_passed {e : Nat} {ent : BitVec 128} (hQ : Q = reqNorm q kind)
    (h : s.checkReq (pccIx p) Q kind = (s, some (e, ent))) :
    s.pccRequest p q kind = (s.admitReq (pccIx p) (reqFrom Q (pccIx p)) Q kind e ent none).pccPump p := by
  subst hQ
  simp [State.pccRequest, hp, h]

end Accept

/-- The three commands take their request as one, when the island runs. -/
theorem exec_pccRequest {p : Fin 2} {q : MemReq} {kind : OpKind} {i : Instr}
    (hi : (kind = .rd ∧ i = .pccReadRequest p q) ∨ (kind = .wr ∧ i = .pccWriteRequest p q) ∨ (kind = .at_ ∧ i = .pccAtomicRequest p q))
    (hrun : (s.isl.get (pccIx p.val)).swap = .run) :
    exec i s = .next ((s.pccRequest p.val q kind).pccAfter p.val) := by
  have hgo (j : Instr) (go : State → State) : s.atIngress (pccIx p.val) j go = go s := if_pos hrun
  obtain ⟨rfl, rfl⟩ | ⟨rfl, rfl⟩ | ⟨rfl, rfl⟩ := hi
  · exact congrArg _ (hgo _ _)
  · exact congrArg _ (hgo _ _)
  · exact congrArg _ (hgo _ _)

/-! ### What arrives on PP -/

section
variable (p : Fin 2) (id off : Nat) (data : Bytes) (err : MemErr)

theorem exec_ppDataArrival : exec (.ppDataArrival p id data err) s = .next ((s.ppData p.val id data err).pccAfter p.val) := rfl

theorem exec_metadataArrival :
    exec (.metadataArrival p off data err) s = .next ((s.metaArrival p.val (off / 64) data err).pccAfter p.val) := rfl

theorem exec_ppWriteAccept : exec (.ppWriteAccept p id) s = .next ((s.ppAccept p.val id).pccAfter p.val) := rfl

end

variable {id : Nat} {data : Bytes} {o : LineOp}

@[simp] theorem op_countT (s : State) (c id i code tdid n : Nat) : (s.countT i code tdid n).op c id = s.op c id := by
  obtain ⟨u, hu⟩ := Laws.count_eq s i { code := code, tdid := tdid, n := n }
  rw [State.countT, hu]
  rfl

section Data

variable (ho : s.op (pccIx p) id = some o) (hphase : o.phase = .fetch) (hraw : o.raw = none)
include ho hphase hraw

theorem ppData_of_open (hcls : Entry.cls o.ent = 0) :
    s.ppData p id data .none = (s.ppOpen p o (Bytes.fit data 64)).pccPump p := by
  simp [State.ppData, ho, hphase, hraw, hcls]

theorem ppData_of_open_lost (hcls : Entry.cls o.ent = 0) :
    s.ppData p id data .uncorrectable = ((s.countT (pccIx p) 0x0C 128).failOp (pccIx p) o 4).pccPump p := by
  simp [State.ppData, ho, hphase, hraw, hcls]

theorem ppData_of_protected (hcls : Entry.cls o.ent ≠ 0) :
    s.ppData p id data .none = (s.onOp (pccIx p) id (fun o => { o with raw := some (Bytes.fit data 64) })).pccPump p := by
  simp [State.ppData, ho, hphase, hraw, hcls]

/-- The error counts once the line's counter shows that it was written (R202): until then the line is marked. -/
theorem ppData_of_protected_lost (hcls : Entry.cls o.ent ≠ 0) :
    s.ppData p id data .uncorrectable = ((s.countT (pccIx p) 0x0C 128).onOp (pccIx p) id (fun o =>
      { o with raw := some (Bytes.fit data 64), lost := true })).pccPump p := by
  simp [State.ppData, ho, hphase, hraw, hcls]

end Data

theorem ppOpen_of_read (hkind : o.kind = .rd) :
    s.ppOpen p o data = (s.countT (pccIx p) 0x03 (Entry.owner o.ent)).finishOp (pccIx p) o true (o.result data) := by
  simp only [State.ppOpen, hkind]

/-- An OPEN line that is no read's is an atomic's: its new value is written. -/
theorem ppOpen_of_update (hkind : o.kind ≠ .rd) :
    s.ppOpen p o data = State.onOp ((s.countT (pccIx p) 0x03 (Entry.owner o.ent) 2).emit (.memWrite (pccIx p) o.id 0 (64 * o.line)
        (o.newLine data) ((List.range 64).map (fun i => decide (o.off ≤ i ∧ i < o.off + o.atomicBytes)))))
      (pccIx p) o.id (fun o => { o with opnd := o.oldValue data, phase := .sent, mpDone := true }) := by
  unfold State.ppOpen
  split
  case h_1 hrd => exact absurd hrd hkind
  case h_2 => rfl

/-! ### Metadata (R228, R232, R240) -/

section Meta

variable {x : Nat} {f : MetaFetch} (hfetch : (s.pcc.get p).fetches.find? (fun f => f.off == x && f.got.isNone) = some f)
include hfetch

theorem metaArrival_of_node (hnode : f.node = true) :
    s.metaArrival p x data .none = (s.onFetch p x (fun g => { g with got := some (Bytes.fit data 64) })).pccPump p := by
  simp [State.metaArrival, hfetch, hnode]

/-- The words of a tag line merge under those already valid (R181, R228). -/
theorem metaArrival_of_tags {l : MetaLine} {word : Nat → Nat} (hnode : f.node = false)
    (hl : l = ((s.pcc.get p).metaLine x).getD { off := x, data := zeros 64 })
    (hword : ∀ i, word i = ((s.pcc.get p).tagWord x i).getD (Bytes.le (Bytes.fit data 64) (8 * i) 8)) :
    s.metaArrival p x data .none = ((((s.metaFetchEnd p x).tagWordsTaken p x word).metaPut p
      { l with valid := 0xFF, data := ((List.range 8).map (fun i => toLe 8 (word i))).flatten }).1).pccPump p := by
  obtain rfl := funext hword
  subst hl
  simp [State.metaArrival, hfetch, hnode]

theorem metaArrival_of_uncorrectable :
    s.metaArrival p x data .uncorrectable = ((s.countT (pccIx p) 0x0C 128).metaLost p f).pccPump p := by
  simp [State.metaArrival, hfetch]

end Meta

/-! ### Write acceptances (R236) -/

/-- An identifier below 2^49 is a line operation's, not a metadata line's. -/
theorem ppAccept_of_sent (hid : id < 2 ^ 49) (ho : s.op (pccIx p) id = some o) (hphase : o.phase = .sent) :
    s.ppAccept p id = (s.finishOp (pccIx p) o true (if o.kind = .at_ then toLe 8 o.opnd else [])).pccPump p := by
  have hline : ¬ 2 ^ 50 ≤ id ∧ ¬ 2 ^ 49 ≤ id := by omega
  unfold State.ppAccept
  simp only [ge_iff_le, if_neg hline.1, if_neg hline.2, ho, hphase, ne_eq, not_true_eq_false, if_false]

end Sys2Proof.PccRequests

open Sys2Proof Sys2Proof.Machine Sys2Proof.MccRequests Sys2Proof.PccRequests

/-- Settles O19: a request ends as its check does, in four cases; then a clause for each answer of PP, split by the line's class and
kind, the kind of the fetch and the error. -/
theorem pccRequestsAndDataComplete : Obligations.PccRequestsAndDataComplete := by
  unfold Obligations.PccRequestsAndDataComplete
  intro p c s hc
  subst hc
  refine ⟨fun q Q kind i hQ hi hrun hp => ?requests, fun id data o ho hphase hraw => ?data, fun o data => ppOpen_of_read,
    fun o data => ppOpen_of_update, fun off data f hfetch => ?metadata, fun id o hid ho hphase => ?accept⟩
  case requests =>
    rw [exec_pccRequest hi hrun]
    have hrefused {t : State} (h : s.checkReq (pccIx p.val) Q kind = (t, none)) : s.pccRequest p.val q kind = t :=
      pccRequest_of_refused hp (hQ ▸ h)
    refine ⟨fun e ent hform hown => ⟨fun hat => ?_, fun hat hbad => ?_⟩, fun n e hform hown => ?_, fun hform => ?_⟩
    · rw [pccRequest_of_passed hp hQ (checkReq_of_pass hform hown hat)]
    · rw [hrefused (checkReq_of_bad_atomic hform hown hat hbad)]
    · rw [hrefused (checkReq_of_fail hform hown)]
    · rw [hrefused (checkReq_of_form hform)]
  case data =>
    simp only [exec_ppDataArrival]
    refine ⟨fun hcls => ?_, fun hcls => ?_⟩
    · rw [ppData_of_open ho hphase hraw hcls, ppData_of_open_lost ho hphase hraw hcls]
      exact ⟨rfl, rfl⟩
    · rw [ppData_of_protected ho hphase hraw hcls, ppData_of_protected_lost ho hphase hraw hcls]
      exact ⟨rfl, rfl⟩
  case metadata =>
    simp only [exec_metadataArrival]
    refine ⟨fun hnode => ?_, fun hnode l word hl hword => ?_, ?_⟩
    · rw [metaArrival_of_node hfetch hnode]
    · rw [metaArrival_of_tags hfetch hnode hl hword]
    · rw [metaArrival_of_uncorrectable hfetch]
  case accept => rw [exec_ppWriteAccept, ppAccept_of_sent hid ho hphase]
end

section
/-!
SUPPORT and PROOF. Newt's commands: the copy of a group for a re-key or for MIGRATE_SEND (R253, R573), the commit phase and its time
limit (R254 to R256), and the retirement of groups and of the move (R258, R261); from these O20.
-/

namespace Sys2Proof.NewtCommands

open Sys2Proof Sys2Proof.Machine

/-! ### The commands -/

section
variable {s : State} (x : Fin 4) (g : Nat) (n : Fin 9) (ls : List (Nat × Bytes × Bytes × MemErr))

theorem exec_newtCopy : exec (.newtCopy x g ls) s = .next (s.newtCopy x.val g ls).settle := rfl

theorem exec_newtCommit_of {t : State} (h : s.newtCommit x.val g n.val = t) : exec (.newtCommit x g n) s = .next t.tryRekey :=
  congrArg (fun u : State => Host.Outcome.next u.tryRekey) h

theorem exec_newtHoldTimeout : exec (.newtHoldTimeout x g) s = .next (s.holdTimeout x.val g) := rfl

theorem exec_newtGroupRetire : exec (.newtGroupRetire x) s = .next (s.groupRetire 256 x.val) := rfl

theorem exec_newtMoveComplete : exec (.newtMoveComplete x) s = .next (s.moveComplete x.val).settle.tryRekey := rfl

end

variable {s : State} {x g : Nat} {m : Move}

/-! ### The copy of a group (R253, R259, R573) -/

section Copy

variable {ls : List (Nat × Bytes × Bytes × MemErr)} (hm : m = s.nwt.moves.get x) (hstate : m.state ≠ 0)
include hm hstate

theorem newtCopy_of_send {d : Send} (hsend : m.send = some d)
    (hstream : (s.streams.get d.stream).state = 1 ∨ (s.streams.get d.stream).state = 2)
    (hopen : (s.streams.get d.stream).closing = false) (hthrottle : s.spr.gov.stages.getLsbD 0 = false) :
    s.newtCopy x g ls = (ls.filter (fun y => y.1 / 8 == g)).foldl (fun s y => s.sendLine x y) s := by
  have hgo : ¬ (((s.streams.get d.stream).state ≠ 1 ∧ (s.streams.get d.stream).state ≠ 2) ∨ (s.streams.get d.stream).closing = true) := by
    rintro (⟨hne1, hne2⟩ | hclosing)
    · exact hstream.elim hne1 hne2
    · simp [hopen] at hclosing
  subst hm
  simp only [State.newtCopy, if_neg hstate, hsend, State.sendGroup, if_neg hgo, hthrottle, Bool.false_eq_true, if_false]

theorem newtCopy_of_rekey (hsend : m.send = none) (hlive : s.live 42 = true) :
    s.newtCopy x g ls = if s.groupMay m g then
      ls.foldl (fun s l => s.copyLine x g l) ((s.onMove x (fun m => { m with state := 1 })).groupBegin x g)
      else s.moveHalt x := by
  subst hm
  simp only [State.newtCopy, if_neg hstate, hsend, State.newtCopyGroup, hlive, Bool.not_true, Bool.false_eq_true, if_false]

end Copy

/-! ### The commit phase (R254, R256, R259) -/

section Commit

variable {n : Nat} {r : Motion} (hm : m = s.nwt.moves.get x) (hstate : m.state ≠ 0) (hsend : m.send = none)
  (hr : s.motionOf x (8 * g) = some r)
include hm hstate hsend hr

theorem newtCommit_of_may {u : State} {ready : Nat → Bool} (hmay : s.groupMay m g = true)
    (hu : u = s.onMove x (fun m => { m with state := 1 }))
    (hready : ∀ k, ready k = ((s.clearLines r k).all (fun l => r.copies.any (fun y => y.1 == l)) && s.newtWorks k true)) :
    s.newtCommit x g n = ((((r.copies.filterMap (fun y => match u.hbmPort (64 * y.1) with
      | some k => if ready k && !u.lineBusy k y.1 then some (y.1, k, y.2) else none
      | none => none)).mergeSort (fun a b => decide (a.1 ≤ b.1))).take n).foldl (fun s y => s.commitLine x y.2.1 y.1 y.2.2)
        u).commitEnds x g := by
  obtain rfl := funext hready
  subst hm hu
  unfold State.newtCommit
  rw [hr]
  exact (if_neg (by simpa [hsend] using hstate)).trans (if_neg (by simp [hmay]))

theorem newtCommit_of_not_may (hnot : s.groupMay m g = false) : s.newtCommit x g n = s.moveHalt x := by
  subst hm
  unfold State.newtCommit
  rw [hr]
  exact (if_neg (by simpa [hsend] using hstate)).trans (if_pos (by simp [hnot]))

end Commit

theorem holdTimeout_of_commit {r : Motion} (hr : s.motionOf x (8 * g) = some r) (hcommit : r.commit ≠ []) :
    s.holdTimeout x g = (s.onMotion x g Motion.giveUp).releaseHeld := by
  simp [State.holdTimeout, hr, hcommit]

/-! ### Retirement and the end of a move (R258, R261) -/

/-- A whole group at B leaves, and those behind it follow. -/
theorem groupRetire_of_whole {n b : Nat} {r : Motion} (hr : s.motionOf x ((s.nwt.moves.get x).bound / 64) = some r)
    (hkeys : r.newkey = 0xFF) (htags : r.installed = 0xFF)
    (hb : b = nextGroup (s.regionSpans (s.nwt.moves.get x).region) (s.nwt.moves.get x).bound) :
    s.groupRetire (n + 1) x = State.groupRetire n x
      (let t := s.onMove x (fun m => { m with bound := b, front := max m.front b })
       { t with nwt := { t.nwt with motion := t.nwt.motion.filter (fun y => !(y.ctx == x && y.group == r.group)) } }) := by
  subst hb
  simp only [State.groupRetire, hr]
  exact if_pos ⟨hkeys, htags⟩

theorem moveComplete_of_passed {u : State} (hm : m = s.nwt.moves.get x) (hstate : m.state ≠ 0) (hsend : m.send = none)
    (hdead : (s.region m.region).dead = false) (hslot : (s.region m.region).slot = some m.oldSlot.toNat)
    (hpast : inSpans (s.regionSpans m.region) m.bound = false) (hmotion : ∀ g ∈ s.nwt.motion, g.ctx ≠ x)
    (hu : u = ((((s.region m.region).entries.foldl (fun s e => s.entrySlot m.newSlot.toNat e) s).onRegion m.region (fun y =>
      { y with slot := some m.newSlot.toNat })).onMove x (fun _ => default))) :
    s.moveComplete x = (State.retireSlot { u with nwt := { u.nwt with
      waiting := u.nwt.waiting.erase m.oldSlot.toNat } } m.oldSlot.toNat).reap := by
  subst hm hu
  exact if_neg (by simpa [hsend, hdead, hslot, hpast] using ⟨hstate, hmotion⟩)

end Sys2Proof.NewtCommands

open Sys2Proof Sys2Proof.Machine Sys2Proof.NewtCommands

/-- Settles O20: a clause for each command; a copy is split by what its context reads for, a copy and a commit by whether Newt may
work at the MCCs of the group. -/
theorem newtCommandsComplete : Obligations.NewtCommandsComplete := by
  unfold Obligations.NewtCommandsComplete
  refine ⟨?copy, ?commit, ?timeout, ?retire, ?complete⟩
  case copy =>
    intro x g ls s m hm hstate
    rw [exec_newtCopy]
    refine ⟨fun d hsend hstream hopen hthrottle => ?_, fun hsend hlive => ?_⟩
    · rw [newtCopy_of_send hm hstate hsend hstream hopen hthrottle]
    · rw [newtCopy_of_rekey hm hstate hsend hlive]
      exact ⟨fun hmay => by rw [if_pos hmay], fun hnot => by rw [hnot]; rfl⟩
  case commit =>
    intro x g n s u m r ready hm hstate hsend hr hu hready
    exact ⟨fun hmay => exec_newtCommit_of x g n (newtCommit_of_may hm hstate hsend hr hmay hu hready),
      fun hnot => exec_newtCommit_of x g n (newtCommit_of_not_may hm hstate hsend hr hnot)⟩
  case timeout =>
    intro x g s r hr hcommit
    rw [exec_newtHoldTimeout, holdTimeout_of_commit hr hcommit]
    rfl
  case retire =>
    intro x s r b hr hkeys htags hb
    rw [exec_newtGroupRetire, groupRetire_of_whole hr hkeys htags hb]
  case complete =>
    intro x s u m hm hstate hsend hdead hslot hpast hmotion hu
    rw [exec_newtMoveComplete, moveComplete_of_passed hm hstate hsend hdead hslot hpast hmotion hu]
end

section
/-!
SUPPORT and PROOF. LINE_INIT: when it reaches the part of its cluster, and what the part's next line takes (R198, R199, R201, R247);
the Gecko commands (R293, R294, R751). From these O21.
-/

namespace Sys2Proof.Initialisation

open Sys2Proof Sys2Proof.Machine

variable {s : State}

/-! ### The commands -/

theorem exec_lineInit_of {k : Fin 10} {e : Fin 8192} {t : State} (h : s.lineInit k.val e.val = t) :
    exec (.lineInit k e) s = .next t.tryRekey.removals :=
  congrArg (fun u : State => Host.Outcome.next u.tryRekey.removals) h

/-- The write of an entry turns on what stands there. -/
theorem onMcc_congr {k : Nat} {f g : Mcc → Mcc} (h : f (s.mcc.get k) = g (s.mcc.get k)) : s.onMcc k f = s.onMcc k g :=
  congrArg (fun m => { s with mcc := s.mcc.set k m }) h

theorem exec_geckoDecay_of_on {k : Fin 8} (hon : (s.mcc.get k.val).geckoCtrl ≠ 31) :
    exec (.geckoDecay k) s = .next (s.onMcc k.val (fun m => { m with geckoCnt := m.geckoCnt.mapKeys (fun _ c => c / 2) })) :=
  congrArg Host.Outcome.next (onMcc_congr (if_neg hon))

theorem exec_geckoDecay_of_off {k : Fin 8} (hoff : (s.mcc.get k.val).geckoCtrl = 31) :
    exec (.geckoDecay k) s = .next (s.onMcc k.val (fun m => m)) :=
  congrArg Host.Outcome.next (onMcc_congr (if_pos hoff))

theorem exec_geckoWindowWrite {k : Fin 8} {n : Fin 64} {v : Word32} (hup : s.regUp (mccIx k.val) = true) :
    exec (.geckoWindowWrite k n v) s = .next (s.onMcc k.val (fun m => m.geckoWrite n.val v)) :=
  congrArg Host.Outcome.next (if_pos hup)

/-! ### When LINE_INIT writes (R199) -/

section Reached

variable {k e r n c : Nat} (hc : c = k + 3) (hr : s.regionOf e = some r) (hphase : (s.region r).phase = .scrubbing)
  (hp : s.present c = true) (hrep : (s.repEntry c e).state = 3)
  (hpart : c ∈ s.rangeParts (s.master e).start (s.master e).length) (hn : n = (s.region r).slot.getD 0)
  (hkey : (s.region r).cls ≠ 0 → (s.slot n).state = 1 ∧ (s.slot n).writeClosed = false ∧ s.laneReady c = true ∧ (c, n) ∉ s.invals ∧
    s.fillOk c (if (s.region r).cls = 1 then n else k - 7) = true)
include hc hr hphase hp hrep hpart hn hkey

/-- Nothing holds the initialisation back: the part of cluster `c` takes its next line. -/
theorem lineInit_of_reached : s.lineInit k e = if k < 8 then s.initLine k r e else s.initPool (k - 8) r e := by
  subst hc hn
  have hopen : ¬ ((s.region r).cls ≠ 0 ∧ ((s.slot ((s.region r).slot.getD 0)).state ≠ 1 ∨
      (s.slot ((s.region r).slot.getD 0)).writeClosed = true)) := by
    rintro ⟨hcls, hclosed⟩
    obtain ⟨hlive, hwrites, -⟩ := hkey hcls
    simp [hlive, hwrites] at hclosed
  have hready : ¬ ((s.region r).cls ≠ 0 ∧ ((!s.laneReady (k + 3)) = true ∨
      s.invals.contains (k + 3, (s.region r).slot.getD 0) = true ∨
      (!s.fillOk (k + 3) (if (s.region r).cls = 1 then (s.region r).slot.getD 0 else k - 7)) = true)) := by
    rintro ⟨hcls, hwait⟩
    obtain ⟨-, -, hlane, hinval, hfill⟩ := hkey hcls
    simp [hlane, hinval, hfill] at hwait
  have hscrub : ¬ ((s.region r).phase ≠ .scrubbing ∨ (!s.present (k + 3)) = true ∨ (s.repEntry (k + 3) e).state ≠ 3 ∨
      (!(s.rangeParts (s.master e).start (s.master e).length).contains (k + 3)) = true) := by
    simp [hphase, hp, hrep, hpart]
  simp only [State.lineInit, hr, if_neg hscrub, if_neg hopen, if_neg hready]

end Reached

/-- At an MCC a region is OPEN or of class C. -/
theorem lineInit_of_mcc {k : Fin 8} {e r n : Nat} (hr : s.regionOf e = some r) (hphase : (s.region r).phase = .scrubbing)
    (hp : s.present (mccIx k.val) = true) (hrep : (s.repEntry (mccIx k.val) e).state = 3)
    (hpart : mccIx k.val ∈ s.rangeParts (s.master e).start (s.master e).length) (hn : n = (s.region r).slot.getD 0)
    (hkey : (s.region r).cls = 0 ∨ (s.region r).cls = 1 ∧ (s.slot n).state = 1 ∧ (s.slot n).writeClosed = false ∧
      s.laneReady (mccIx k.val) = true ∧ (mccIx k.val, n) ∉ s.invals ∧ s.fillOk (mccIx k.val) n = true) :
    s.lineInit k.val e = s.initLine k.val r e :=
  (lineInit_of_reached (Nat.add_comm 3 k.val) hr hphase hp hrep hpart hn (fun hcls => by
    obtain ⟨hclsC, hready⟩ := hkey.resolve_left hcls
    rwa [if_pos hclsC])).trans (if_pos k.isLt)

/-! ### The part of an MCC (R198, R201) -/

section Line

variable {k e r lo top l : Nat} (hheld : s.initHeld (mccIx k) e = false)
  (hpart : (lo, top) = s.mccPart k (s.master e).start (s.master e).length)
  (hl : l = (s.mcc.get k).nextLine (max ((s.mcc.get k).initAt.get e) lo))
include hheld hpart hl

theorem initLine_of_over (hover : top ≤ l) : s.initLine k r e = s.partDone r (mccIx k) e := by
  simp only [State.initLine, ← hpart, ← hl, hheld, Bool.false_eq_true, if_false, if_pos hover]

theorem initLine_of_open (hline : l < top) (hcls : (s.region r).cls = 0) :
    s.initLine k r e = ((s.writeId (mccIx k)).2.emit
      (.memWrite (mccIx k) (s.writeId (mccIx k)).1 0 (64 * l) (zeros 64) (List.replicate 64 true))).lineDone k r e l := by
  simp only [State.initLine, ← hpart, ← hl, hheld, Bool.false_eq_true, if_false, if_neg (Nat.not_le.2 hline), if_pos hcls]

/-- A protected line goes through a lane, as zeros of every sector elided. -/
theorem initLine_of_protected {n tag : Nat} {t : State} {y : Sched} {ct : Bytes} (hline : l < top) (hcls : (s.region r).cls ≠ 0)
    (hslot : (s.region r).slot = some n) (hsched : s.readySched (mccIx k) n = (t, some y)) (hwrites : y.writes = true)
    (hct : xtsEncrypt y.key y.epoch (s.region r).tdid l 0xF (zeros 64) = (ct, tag)) :
    s.initLine k r e = (t.lineWritten (mccIx k) y.id).issueThen (mccIx k) (.init e l n ct tag) y.id
      (fun s => s.initStored k e l ct tag) := by
  simp only [State.initLine, ← hpart, ← hl, hheld, Bool.false_eq_true, if_false, if_neg (Nat.not_le.2 hline), if_neg hcls, hslot,
    Option.getD_some, hsched, hwrites, Bool.not_true, hct]

end Line

/-! ### The part of a PCC (R201, R247) -/

section Pool

variable {p e r lo hi l : Nat} (hpart : (lo, hi) = s.partOf (s.pcc.get p).poolBase.toNat (s.master e).start (s.master e).length)
  (hl : l = max ((s.pcc.get p).initAt.get e) (lo / 64))
include hpart hl

theorem initPool_of_over (hover : hi / 64 ≤ l) : s.initPool p r e = s.partDone r (pccIx p) e := by
  simp only [State.initPool, ← hpart, ← hl, if_pos hover]

/-- A line of an OPEN region is always written; a counter line only once its ancestors are in the cache. -/
theorem initPool_of_line {t : State} {ok : Bool} {next : Nat} (hline : l < hi / 64)
    (ht : (t, ok) = (if (s.region r).cls = 0 then ((s.writeId (pccIx p)).2.emit (.memWrite (pccIx p) (s.writeId (pccIx p)).1 0 (64 * l)
      (zeros 64) (List.replicate 64 true)), true) else s.counterLineInit p ((s.pcc.get p).groupOf l)))
    (hnext : next = if (s.region r).cls = 0 then l + 1 else l + 64) :
    s.initPool p r e = if ok then
      (if hi / 64 ≤ next then State.partDone ((t.countT (pccIx p) 0x0E (s.region r).tdid).onPcc p (fun m =>
          { m with initAt := m.initAt.set e next })) r (pccIx p) e
        else (t.countT (pccIx p) 0x0E (s.region r).tdid).onPcc p (fun m => { m with initAt := m.initAt.set e next }))
      else t := by
  subst hnext
  simp only [State.initPool, ← hpart, ← hl, if_neg (Nat.not_le.2 hline)]
  by_cases hcls : (s.region r).cls = 0
  · simp only [if_pos hcls, Prod.mk.injEq] at ht ⊢
    obtain ⟨rfl, rfl⟩ := ht
    rfl
  · simp only [if_neg hcls] at ht ⊢
    rw [← ht]
    cases ok <;> rfl

end Pool

/-! ### Gecko windows (R294, R751) -/

section Window

variable {m : Mcc} {n : Nat} {v : Word32}

theorem geckoWrite_of_shift (hshift : fld v 20 16 ≤ 28) :
    m.geckoWrite n v = { m with
      geckoWin := m.geckoWin.set n (v &&& 0x801F1FFF)
      geckoCnt := (List.range 16).foldl (fun t b => t.set (16 * n + b) 0) m.geckoCnt } := by
  have hmask : (v &&& 0x80001FFF) ||| (v &&& 0x001F0000) = v &&& 0x801F1FFF := by
    rw [← BitVec.and_or_distrib_left]
    rfl
  simp only [Mcc.geckoWrite, gt_iff_lt, if_neg (Nat.not_lt.2 hshift), hmask]

/-- A SHIFT that the register does not take leaves the old one. -/
theorem geckoWrite_of_large_shift (hshift : 28 < fld v 20 16) :
    m.geckoWrite n v = { m with
      geckoWin := m.geckoWin.set n ((v &&& 0x80001FFF) ||| (m.geckoWin.get n &&& 0x001F0000))
      geckoCnt := (List.range 16).foldl (fun t b => t.set (16 * n + b) 0) m.geckoCnt } := by
  simp only [Mcc.geckoWrite, gt_iff_lt, if_pos hshift]

end Window

end Sys2Proof.Initialisation

open Sys2Proof Sys2Proof.Machine Sys2Proof.Initialisation

/-- Settles O21: LINE_INIT at an MCC and at a PCC, split by whether a line of the part is left and by the region's class; then a
clause for each Gecko command. -/
theorem initialisationAndGeckoComplete : Obligations.InitialisationAndGeckoComplete := by
  unfold Obligations.InitialisationAndGeckoComplete
  refine ⟨?mcc, ?pcc, ?decay, ?window⟩
  case mcc =>
    intro k e s r lo top l x hr hx hphase hp hrep hpart hheld hlo hl
    subst hx
    refine ⟨fun hcls hline => exec_lineInit_of ?_, fun n t y hcls hslot hlive hopen hlane hinval hfill hsched hwrites hline =>
      exec_lineInit_of ?_, fun hkey hover => exec_lineInit_of ?_⟩
    · exact (lineInit_of_mcc hr hphase hp hrep hpart rfl (.inl hcls)).trans (initLine_of_open hheld hlo hl hline hcls)
    · exact (lineInit_of_mcc hr hphase hp hrep hpart (by rw [hslot]; rfl) (.inr ⟨hcls, hlive, hopen, hlane, hinval, hfill⟩)).trans
        (initLine_of_protected hheld hlo hl hline (by omega) hslot hsched hwrites rfl)
    · exact (lineInit_of_mcc hr hphase hp hrep hpart rfl hkey).trans (initLine_of_over hheld hlo hl hover)
  case pcc =>
    intro p e s r lo hi l x hr hx hphase hp hrep hpart hkey hlo hl
    subst hx
    have hinit : s.lineInit (p.val + 8) e.val = s.initPool p.val r e.val :=
      (lineInit_of_reached (c := pccIx p.val) (Nat.add_comm 11 p.val) hr hphase hp hrep hpart rfl hkey).trans (if_neg (by omega))
    exact ⟨fun hover => exec_lineInit_of (hinit.trans (initPool_of_over hlo hl hover)),
      fun t next ok hline ht hnext => exec_lineInit_of (hinit.trans (initPool_of_line hlo hl hline ht hnext))⟩
  case decay => exact fun k s => ⟨exec_geckoDecay_of_on, exec_geckoDecay_of_off⟩
  case window =>
    intro k n v s hup
    rw [exec_geckoWindowWrite hup]
    exact ⟨fun hshift => congrArg _ (onMcc_congr (geckoWrite_of_shift hshift)),
      fun hshift => congrArg _ (onMcc_congr (geckoWrite_of_large_shift hshift))⟩
end

section
/-!
SUPPORT and PROOF. The checks of a command, one rule each; the region and fence commands once their checks have passed (R200, R274,
R284, R557, R562 to R566, R768), and the ELIDE check that fails (R190); from these O39 and O40.
-/

namespace Sys2Proof.RegionCommands

open Sys2Proof Sys2Proof.Machine

variable {s t u : State} {h : Hdr} {c : Cmd}

/-! ### The checks of a command, in their order (R597, R768) -/

section Checks

variable {α : Type} {k : α → Except (Nat × List Word32) State} {next : Unit → Except (Nat × List Word32) State}

theorem outcome_must {ok : Bool} {status : Nat} (hok : ok = true) :
    s.outcome c (must ok status >>= next) = s.outcome c (next ()) := by subst hok; rfl

theorem outcome_mustReason {ok : Bool} {reason : Nat} (hok : ok = true) :
    s.outcome c (mustReason ok reason >>= next) = s.outcome c (next ()) := by subst hok; rfl

theorem outcome_mustReason_of_not {ok : Bool} {reason : Nat} (hok : ok = false) :
    s.outcome c (mustReason ok reason >>= next) = s.answer c 8 [BitVec.ofNat 32 reason] := by subst hok; rfl

theorem outcome_refuse {x : Except Nat α} {a : α} (hx : x = .ok a) :
    s.outcome c (refuse x >>= k) = s.outcome c (k a) := by subst hx; rfl

theorem outcome_bind {x : Except (Nat × List Word32) α} {a : α} (hx : x = .ok a) :
    s.outcome c (x >>= k) = s.outcome c (k a) := by subst hx; rfl

theorem gated_of_gate {p code : Nat} (hgate : s.gate p code = true) : s.gated p code = .ok () := if_pos hgate

end Checks

/-! ### REGION_CREATE (R562 to R564, R768) -/

theorem exec_regionCreate {addr : BitVec 64} {b : Bytes} {n : Nat} (ha : s.arrival h 0x20 (addrWords addr) = some (t, c))
    (hn : n = 32 + 16 * min (Bytes.at b 5) 16) :
    exec (.regionCreate h addr (some b)) s =
      .next (s.thenReap ((t.dmaRead (t.bufferTdid c) addr.toNat n).regionCreate c (Bytes.fit b n))) := by
  subst hn
  exact congrArg Host.Outcome.next (Laws.command_arrival s t h 0x20 _ c _ ha)

/-- A descriptor that passes every check makes its region, is answered, and goes on. -/
theorem regionCreate_of_checked {x : Bytes} {p r fe : Nat} {es : List Nat} {slot : Option Nat} {fresh : Bool} {v : State}
    (hp : p = if c.part = 0 then u.tdidPart (regionSpec x).tdid else c.part) (hformed : regionFormed x = true) (hp0 : p ≠ 0)
    (howns : u.ownsTdid p (regionSpec x).tdid = true) (hgate : u.gate p 0x20 = true)
    (hfence : u.namedFence c (regionSpec x).fence = .ok fe) (hchecks : u.regionChecks c p (regionSpec x) = .ok (r, es, slot, fresh))
    (hv : v = u.regionMake p c.tag.toNat (regionSpec x) r es slot fresh) :
    u.regionCreate c x = (State.regionGo (v.acceptA
      { c with what := r, fence := some (fe, (regionSpec x).value), names := [objKey 3 r, objKey 6 fe] } [v.handle (objKey 3 r)])
        p r).settle := by
  unfold State.regionCreate
  simp only [← hp]
  rw [outcome_must hformed, outcome_must (by simp [hp0, howns]), outcome_refuse (gated_of_gate hgate), outcome_refuse hfence,
    outcome_bind hchecks, hv]
  rfl

/-! ### REGION_DESTROY, REGION_CLEAR, REGION_ATTR (R190, R200, R260, R274, R284, R566) -/

section Named

variable {w : Word32} {r : Nat} (hr : t.namedRegion c w = .ok r)
include hr

theorem exec_regionDestroy (ha : s.arrival h 0x21 [w] = some (t, c)) (hgate : t.gate (t.actsFor c (objKey 3 r)) 0x21 = true) :
    exec (.regionDestroy h w) s = .next (s.thenReap (t.regionDestroy c r)) := by
  refine congrArg Host.Outcome.next ((Laws.command_arrival s t h 0x21 [w] c _ ha).trans (congrArg s.thenReap ?_))
  rw [outcome_refuse hr, outcome_refuse (gated_of_gate hgate)]
  rfl

theorem exec_regionClear {f v : Word32} {fe : Nat} (ha : s.arrival h 0x22 [w, f, v] = some (t, c)) (hf : t.namedFence c f = .ok fe)
    (hgate : t.gate (t.actsFor c (objKey 3 r)) 0x22 = true) :
    exec (.regionClear h w f v) s =
      .next (s.thenReap (if t.moveCovers r then t.freeReason c else t.regionClear c r fe v.toNat)) := by
  refine congrArg Host.Outcome.next ((Laws.command_arrival s t h 0x22 [w, f, v] c _ ha).trans (congrArg s.thenReap ?_))
  rw [outcome_refuse hr, outcome_refuse hf, outcome_refuse (gated_of_gate hgate)]
  split <;> rfl

section Attr

variable {a : Word32} (ha : s.arrival h 0x23 [w, a] = some (t, c)) (hreserved : fld a 31 2 = 0)
  (hgate : t.gate (t.actsFor c (objKey 3 r)) 0x23 = true)
include ha hreserved hgate

theorem exec_regionAttr (hclass : a.getLsbD 0 = true → (t.region r).cls = 1) :
    exec (.regionAttr h w a) s = .next (s.thenReap ((((t.region r).entries.foldl (fun s e => s.rotFields e (fun v =>
      setFld (setFld v 97 97 (b2n (a.getLsbD 0))) 105 105 (b2n (a.getLsbD 1)))) t).onRegion r (fun x =>
        { x with attr := x.attr / 2 % 2 * 2 + b2n (a.getLsbD 0) + 4 * b2n (a.getLsbD 1) })).answer c 0)) := by
  have hallowed : b2n (a.getLsbD 0) = 0 ∨ (t.region r).cls = 1 := by
    cases hel : a.getLsbD 0 with
    | false => exact .inl rfl
    | true => exact .inr (hclass hel)
  refine congrArg Host.Outcome.next ((Laws.command_arrival s t h 0x23 [w, a] c _ ha).trans (congrArg s.thenReap ?_))
  rw [outcome_must (by simp [hreserved]), outcome_refuse hr, outcome_refuse (gated_of_gate hgate),
    outcome_mustReason (decide_eq_true hallowed)]
  rfl

/-- ELIDE is for class C alone (R190). -/
theorem exec_regionAttr_of_elide (hel : a.getLsbD 0 = true) (hclass : (t.region r).cls ≠ 1) :
    exec (.regionAttr h w a) s = .next (s.thenReap (t.answer c 8 [1])) := by
  refine congrArg Host.Outcome.next ((Laws.command_arrival s t h 0x23 [w, a] c _ ha).trans (congrArg s.thenReap ?_))
  rw [outcome_must (by simp [hreserved]), outcome_refuse hr, outcome_refuse (gated_of_gate hgate),
    outcome_mustReason_of_not (by simp [hel, hclass, b2n])]
  rfl

end Attr

end Named

/-- A clear ends at once when the region's slot is no longer LIVE and nothing makes it wait; else its drains begin. -/
theorem regionClear_eq {r fe v : Nat} (hu : u = t.acceptA { c with
      what := r, stage := b2n ((t.region r).entries.any (fun e => t.drainWaits e)), fence := some (fe, v),
      names := [objKey 3 r, objKey 6 fe] } []) :
    t.regionClear c r fe v =
      if (t.region r).slot.any (fun n => (u.slot n).state != 1) ∧ !(t.region r).entries.any (fun e => t.drainWaits e) then
        u.regionDone r (some 0x11)
      else ((t.region r).entries.foldl (fun s e => s.drain e .clear) u).settle := by
  subst hu
  rfl

/-! ### FENCE_CREATE (R557, R768) -/

theorem exec_fenceCreate {kt stream : Word32} {loc i : BitVec 64}
    (ha : s.arrival h 0x24 ([kt] ++ addrWords loc ++ [stream] ++ addrWords i) = some (t, c)) :
    exec (.fenceCreate h kt loc stream i) s = .next (s.thenReap (t.fenceCreate c kt loc stream i)) :=
  congrArg Host.Outcome.next (Laws.command_arrival s t h 0x24 _ c _ ha)

/-- A HOST fence has no holder and asks nothing of its location. -/
theorem fenceCreate_of_host {kt : Word32} {loc i : BitVec 64} {d p f : Nat} {x : Fence} (hkind : fld kt 1 0 = 1)
    (hlow : fld kt 7 2 = 0) (hhigh : fld kt 31 15 = 0) (hd : d = fld kt 14 8)
    (hp : p = if c.part = 0 then t.tdidPart d else c.part) (hp0 : p ≠ 0) (howns : t.ownsTdid p d = true)
    (hgate : t.gate p 0x24 = true) (hobjs : t.objCount 6 p < t.allot p 8) (hrefs : t.prt.refs.length < 32768)
    (hfree : t.freeIndex 6 = some f)
    (hx : x = { kind := 1, tdid := d, loc := loc.toNat, node := 0, holder := none, initial := i.toNat, last := i.toNat })
    (hu : u = (t.newObj (objKey 6 f) p c.tag.toNat true).onFence f (fun _ => x)) :
    t.fenceCreate c kt loc 0 i = (u.fenceWrite x i.toNat).answer c 0 [u.handle (objKey 6 f)] := by
  subst hd hx hu
  unfold State.fenceCreate
  simp only [← hp, hkind, OfNat.one_ne_ofNat, if_false]
  rw [outcome_must (by simp [hlow, hhigh]), outcome_must (by simp [hp0, howns]), pure_bind,
    outcome_refuse (gated_of_gate hgate), pure_bind, outcome_must (by simp [hobjs, hrefs]), hfree]
  rfl

end Sys2Proof.RegionCommands

open Sys2Proof Sys2Proof.Machine Sys2Proof.RegionCommands

/-- Settles O40: the check on ELIDE is the one that refuses, and an answer touches the mailboxes and the islands alone. -/
theorem elideIsRefusedOutsideClassC : Obligations.ElideIsRefusedOutsideClassC := by
  unfold Obligations.ElideIsRefusedOutsideClassC
  intro h w a s t c r ha hreserved hr hgate hel hclass
  exact ⟨exec_regionAttr_of_elide hr ha hreserved hgate hel hclass, Laws.answer_eq t c 8 [1]⟩

/-- Settles O39: a clause for each command; a clear is split by whether a Newt move covers its region. -/
theorem regionCommandsComplete : Obligations.RegionCommandsComplete := by
  unfold Obligations.RegionCommandsComplete
  refine ⟨?create, ?destroy, ?clear, ?attr, ?fence⟩
  case create =>
    intro h addr b x s t u c p r fe n es slot fresh ha hn hx hu hp hformed hp0 howns hgate hfence hchecks v hv
    rw [exec_regionCreate ha hn, ← hx, ← hu, regionCreate_of_checked hp hformed hp0 howns hgate hfence hchecks hv]
  case destroy => exact fun h w s t c r ha hr hgate => exec_regionDestroy hr ha hgate
  case clear =>
    intro h w f v s t u c r fe ha hr hf hgate
    rw [exec_regionClear hr ha hf hgate]
    exact ⟨fun hmoves => by rw [if_pos hmoves],
      fun hfree hu => by rw [if_neg (by simp [hfree]), regionClear_eq hu]⟩
  case attr => exact fun h w a s t c r ha hreserved hr hgate hclass => exec_regionAttr hr ha hreserved hgate hclass
  case fence =>
    intro h kt loc i s t c d p f x ha hkind hlow hhigh hd hp hp0 howns hgate hobjs hrefs hfree hx
    rw [exec_fenceCreate ha, fenceCreate_of_host hkind hlow hhigh hd hp hp0 howns hgate hobjs hrefs hfree hx rfl]
end

section
/-!
SUPPORT and PROOF. The updates of the Range Ownership Table: what a replica's oldest update does, the DRAIN_DONE of a replica on its
two sides, the clearing of STALE_VALID, and a LIVE entry that turns DRAINING (R273, R281 to R283, R287); from these O22.
-/

namespace Sys2Proof.OwnershipUpdates

open Sys2Proof Sys2Proof.Machine

variable {s : State}

/-! ### Updates on their way to a replica (R273, R282) -/

/-- The replicas of islands 3 to 10 have a Belfry unit beside them; a LIVE's acknowledgement is no longer awaited. -/
theorem rotUpdate_of_next {k e : Nat} {m : RotMsg} {u v w : State}
    (hw : w = match m with
      | .live _ => { u with own := { u.own with drains := u.own.drains.map (fun d =>
          if d.entry == e then { d with liveAwait := d.liveAwait.erase (k + 3) } else d) } }
      | _ => u)
    (hnext : s.nextUpdate (k + 3) = some (e, m))
    (hv : v = State.repApply { s with own := { s.own with inFlight := dropFirst (fun u => u.1 == k + 3) s.own.inFlight } } (k + 3) e m)
    (hu : u = if k < 8 then v.sigCleared k else v) : s.rotUpdate (k + 3) = w := by
  have hbelfry : (if k + 3 ≤ 10 then v.sigCleared (k + 3 - 3) else v) = u := by
    rw [hu, Nat.add_sub_cancel]
    exact if_congr (by omega) rfl rfl
  rw [hw, ← hbelfry, hv]
  cases m <;> simp only [State.rotUpdate, hnext]

theorem exec_rotUpdate (r : Fin 10) : exec (.rotUpdate r) s = .next (s.rotUpdate (r.val + 3)).afterOwnership.removals := rfl

/-! ### DRAIN_DONE, at the replica and at Tower (R281 to R283) -/

theorem drainIfIdle_of_idle {i e : Nat} (howes : (i, e) ∈ s.own.owes) (hidle : s.inflight i e = 0) :
    s.drainIfIdle i e = { s with own := { s.own with
      owes := s.own.owes.erase (i, e), drainDone := s.own.drainDone ++ [(i, e)] } } :=
  if_pos ⟨List.contains_iff_mem.2 howes, hidle⟩

/-- Only the lists of the drain protocol change: no replica does. -/
theorem drainIfIdle_rep (i e : Nat) : (s.drainIfIdle i e).own.rep = s.own.rep := by
  unfold State.drainIfIdle
  split <;> rfl

theorem drainDoneTaken_of_sent {i e : Nat} (hsent : (i, e) ∈ s.own.drainDone) :
    s.drainDoneTaken i e = State.settle { s with own := { s.own with
      drainDone := s.own.drainDone.erase (i, e)
      drains := mapWhere (fun d => d.entry == e) (fun d => { d with awaiting := d.awaiting.erase i }) s.own.drains } } :=
  if_pos (List.contains_iff_mem.2 hsent)

theorem exec_inflightZero (r : Fin 10) (e : Fin 8192) : exec (.inflightZero r e) s = .next (s.drainIfIdle (r.val + 3) e.val) := rfl

theorem exec_drainDoneReceived (r : Fin 10) (e : Fin 8192) :
    exec (.drainDoneReceived r e) s = .next (s.drainDoneTaken (r.val + 3) e.val).removals := rfl

theorem repApply_draining_repEntry {i e : Nat} (hlive : (s.repEntry i e).state = 1)
    (hchanged : setFld (s.repEntry i e) 96 94 2 ≠ default) :
    (s.repApply i e .draining).repEntry i e = setFld (s.repEntry i e) 96 94 2 := by
  have happly : (s.repApply i e .draining).own.rep = s.own.rep.set (8192 * (i - 3) + e) (setFld (s.repEntry i e) 96 94 2) := by
    unfold State.repApply
    simp only [if_pos hlive, drainIfIdle_rep]
    rfl
  exact (congrArg (fun rep => rep.get (8192 * (i - 3) + e)) happly).trans (Laws.tbl_get_set_of_ne_default _ _ _ hchanged)

/-! ### IOMMU_DONE (R287) -/

theorem exec_iommuDone {h : Hdr} {part region : Word32} {t : State} {c : Cmd} {r : Nat}
    (ha : s.arrival h 0x10 [part, region] = some (t, c)) (hr : t.namedRegion c region = .ok r)
    (hpart : t.regionPart r = part.toNat) (hgate : t.gate part.toNat 0x10 = true) :
    exec (.iommuDone h part region) s = .next (s.thenReap (((t.region r).entries.foldl (fun s e =>
      s.rotFields e (fun v => setFld v 108 108 0)) t).answer c 0)) := by
  refine congrArg Host.Outcome.next ((Laws.command_arrival s t h 0x10 _ c _ ha).trans (congrArg s.thenReap ?_))
  rw [← hpart] at hgate
  rw [RegionCommands.outcome_refuse hr, RegionCommands.outcome_must (decide_eq_true hpart),
    RegionCommands.outcome_refuse (RegionCommands.gated_of_gate hgate)]
  rfl

end Sys2Proof.OwnershipUpdates

open Sys2Proof Sys2Proof.Machine Sys2Proof.OwnershipUpdates

/-- Settles O22: a clause for each command, and the replica's own step from LIVE to DRAINING. -/
theorem ownershipTableCommandsComplete : Obligations.OwnershipTableCommandsComplete := by
  unfold Obligations.OwnershipTableCommandsComplete
  refine ⟨?update, ?zero, ?received, ?iommu, fun s i e => repApply_draining_repEntry⟩
  case update =>
    intro r s u e m hnext hu
    exact congrArg (fun u : State => Host.Outcome.next u.afterOwnership.removals) (rotUpdate_of_next rfl hnext rfl hu)
  case zero =>
    intro r e s howes hidle
    rw [exec_inflightZero, drainIfIdle_of_idle howes hidle]
  case received =>
    intro r e s hsent
    rw [exec_drainDoneReceived, drainDoneTaken_of_sent hsent]
  case iommu => exact fun h part region s t c r ha hr hpart hgate => exec_iommuDone ha hr hpart hgate
end

section
/-!
SUPPORT and PROOF. Site guards: the cases of a site's request, of a request that comes in for a site, and of a completion, each by
the guard's admission state and its context entries (R262 to R264, R267 to R270, R678, R682); from these O23.
-/

namespace Sys2Proof.SiteGuards

open Sys2Proof Sys2Proof.Machine

variable {s : State}

/-! ### The commands -/

theorem exec_siteRequest {i : Fin 12} {r : SiteReq} (hrun : (s.isl.get (sguIx i.val)).swap = .run) :
    exec (.siteRequest i r) s = .next (s.siteRequest i.val r) :=
  congrArg Host.Outcome.next (if_pos hrun)

theorem exec_inboundSiteRequest {i : Fin 12} {link : Nat} {q : MemReq} (hrun : (s.isl.get (sguIx i.val)).swap = .run) :
    exec (.inboundSiteRequest i link q) s = .next (s.inboundSite i.val link q) :=
  congrArg Host.Outcome.next (if_pos hrun)

theorem exec_siteCompletion (i : Fin 12) (tid : BitVec 16) (ok : Bool) (data : Bytes) :
    exec (.siteCompletion i tid ok data) s = .next (s.siteCompletion i.val tid.toNat ok data) := rfl

/-! ### A site's request (R262, R267, R268, R682) -/

section Request

variable {i : Nat} {r : SiteReq}

section Present

variable (hp : s.present (sguIx i) = true)
include hp

theorem siteRequest_of_msg (hop : r.op = .msg) : s.siteRequest i r = s.emit (.twr "SITE_MSG" (BitVec.ofNat 8 i :: r.q.data)) := by
  simp [State.siteRequest, hp, hop]

theorem siteRequest_of_unadmitted (hop : r.op ≠ .msg) (hstate : s.siteState i ≠ 2) : s.siteRequest i r = s.siteRefuse i 8 0 r := by
  simp [State.siteRequest, hp, hop, hstate]

theorem siteRequest_of_admitted (hop : r.op ≠ .msg) (hstate : s.siteState i = 2) : s.siteRequest i r = s.siteStamp i r := by
  simp [State.siteRequest, hp, hop, hstate]

end Present

section Stamp

variable {v : BitVec 64} (hv : v = s.sctEntry i r.ctx.toNat)
include hv

theorem siteStamp_of_invalid (hvalid : s.sctValid i v = false) : s.siteStamp i r = s.siteRefuse i 6 (fld v 14 8) r := by
  subst hv
  exact if_pos (by simp [hvalid])

theorem siteStamp_of_not_allowed (hvalid : s.sctValid i v = true)
    (hno : sctAllows v r.op = false ∨ (r.q.form = 3 ∧ v.getLsbD 19 = false) ∨ (r.host = true ∧ v.getLsbD 20 = false)) :
    s.siteStamp i r = s.siteRefuse i 7 (fld v 14 8) r := by
  subst hv
  exact (if_neg (by simp [hvalid])).trans (if_pos (by simpa using hno))

/-- A stamped request is remembered until its completion, unless it is posted. -/
theorem siteStamp_of_allowed {q : MemReq} {u : State} (hvalid : s.sctValid i v = true) (hallows : sctAllows v r.op = true)
    (hfabric : r.q.form = 3 → v.getLsbD 19 = true) (hhost : r.host = true → v.getLsbD 20 = true)
    (hq : q = { r.q with tdid := BitVec.ofNat 7 (fld v 14 8), tower := false, link := asIsland (sguIx i) })
    (hu : u = (s.countT (sguIx i) 0x48 (fld v 14 8)).emit (.hubReq (sguIx i) r.op r.host q)) :
    s.siteStamp i r = if q.posted then u else { u with siteFlights := u.siteFlights ++
      [{ site := i, tid := q.tid.toNat, read := decide (r.op = .read), len := q.len }] } := by
  have hpass : ¬ ((!sctAllows v r.op) = true ∨ (r.q.form = 3 ∧ (!v.getLsbD 19) = true) ∨ (r.host = true ∧ (!v.getLsbD 20) = true)) := by
    rintro (hno | ⟨hform, hno⟩ | ⟨hh, hno⟩)
    · simp [hallows] at hno
    · simp only [hfabric hform, Bool.not_true, Bool.false_eq_true] at hno
    · simp only [hhost hh, Bool.not_true, Bool.false_eq_true] at hno
  subst hq hu hv
  exact (if_neg (by simp [hvalid])).trans (if_neg hpass)

end Stamp

/-- A refusal completes the request unless it is posted, is counted and noted, and reports its kind. -/
theorem siteRefuse_eq (i : Fin 12) (kind tdid : Nat) (r : SiteReq) {u : State}
    (hu : u = if r.q.posted then s else s.emit (.done (.site i.val) r.q.tid.toNat false (siteError r.op r.q.len))) :
    s.siteRefuse i.val kind tdid r =
      ((u.countS (sguIx i.val) 0x49 kind tdid).note (sguIx i.val) 2 (some tdid) 0 kind r.ctx.toNat 0).reportOwn
        { kind := BitVec.ofNat 4 kind, tdid := BitVec.ofNat 7 tdid, gran := BitVec.ofNat 40 r.ctx.toNat,
          site := some i, island := asIsland (sguIx i.val) } := by
  subst hu
  simp only [State.siteRefuse, Fin.ofNat_val_eq_self]

end Request

/-! ### A request that comes in for a site (R269) -/

section Inbound

variable {i link : Nat} {q : MemReq}

/-- The search of the context table finds a valid INBOUND entry of the TDID. -/
theorem any_inboundEntry_iff : (List.range 256).any (fun n => s.sctValid i (s.sctEntry i n) && (s.sctEntry i n).getLsbD 21 &&
      fld (s.sctEntry i n) 14 8 == q.tdid.toNat) = true ↔
    ∃ n < 256, s.sctValid i (s.sctEntry i n) = true ∧ (s.sctEntry i n).getLsbD 21 = true ∧
      fld (s.sctEntry i n) 14 8 = q.tdid.toNat := by
  simp [and_assoc]

variable (hp : s.present (sguIx i) = true)
include hp

theorem inboundSite_of_entry (h : s.siteState i = 2 ∧ ∃ n < 256, s.sctValid i (s.sctEntry i n) = true ∧
      (s.sctEntry i n).getLsbD 21 = true ∧ fld (s.sctEntry i n) 14 8 = q.tdid.toNat) :
    s.inboundSite i link q = s.emit (.siteReq i (memOp q) q) := by
  rw [← any_inboundEntry_iff] at h
  exact (if_neg (by simp [hp])).trans (if_pos h)

theorem inboundSite_of_no_entry {u : State} (h : ¬ (s.siteState i = 2 ∧ ∃ n < 256, s.sctValid i (s.sctEntry i n) = true ∧
      (s.sctEntry i n).getLsbD 21 = true ∧ fld (s.sctEntry i n) 14 8 = q.tdid.toNat))
    (hu : u = if q.posted then s else s.done (reqFrom q link) q.tid.toNat false (siteError (memOp q) q.len)) :
    s.inboundSite i link q = (u.note (sguIx i) 2 (some q.tdid.toNat) 0 9 0 0).reportOwn
      { kind := 9, tdid := q.tdid, site := some (Fin.ofNat 12 i), island := asIsland (sguIx i) } := by
  subst hu
  rw [← any_inboundEntry_iff] at h
  exact (if_neg (by simp [hp])).trans (if_neg h)

end Inbound

/-! ### Completions (R270, R678) -/

theorem siteCompletion_of_flight {i tid : Nat} {f : SiteFlight} (ok : Bool) (data : Bytes)
    (hf : s.siteFlights.find? (fun f => f.site == i && f.tid == tid) = some f) :
    s.siteCompletion i tid ok data = State.emit
      { s with siteFlights := dropFirst (fun f => f.site == i && f.tid == tid) s.siteFlights }
      (.done (.site i) tid ok (if ok = false ∧ f.read = true then List.replicate f.len 0xFF else data)) := by
  simp only [State.siteCompletion, hf, Bool.not_eq_true']

end Sys2Proof.SiteGuards

open Sys2Proof Sys2Proof.Machine Sys2Proof.SiteGuards

/-- Settles O23: the refusal, then a request by its operation, the guard's state and its entry, a request that comes in by the
entry it finds, and a completion. -/
theorem siteGuardRequestsComplete : Obligations.SiteGuardRequestsComplete := by
  unfold Obligations.SiteGuardRequestsComplete
  refine ⟨fun i kind tdid r s u => siteRefuse_eq i kind tdid r, ?request, ?inbound, ?completion⟩
  case request =>
    intro i r s hrun hp
    rw [exec_siteRequest hrun]
    refine ⟨fun hop => ?_, fun hop hstate => ?_, fun v hop hstate hv => ?_⟩
    · rw [siteRequest_of_msg hp hop]
    · rw [siteRequest_of_unadmitted hp hop hstate]
    · rw [siteRequest_of_admitted hp hop hstate]
      refine ⟨fun hvalid => ?_, fun hvalid hno => ?_, fun hvalid hallows hfabric hhost q u hq hu => ?_⟩
      · rw [siteStamp_of_invalid hv hvalid]
      · rw [siteStamp_of_not_allowed hv hvalid hno]
      · rw [siteStamp_of_allowed hv hvalid hallows hfabric hhost hq hu]
  case inbound =>
    intro i link q s hrun hp
    rw [exec_inboundSiteRequest hrun]
    exact ⟨fun hentry => by rw [inboundSite_of_entry hp hentry], fun hnone u hu => by rw [inboundSite_of_no_entry hp hnone hu]⟩
  case completion =>
    intro i tid ok data s f hf
    rw [exec_siteCompletion, siteCompletion_of_flight ok data hf]
end

section
/-!
SUPPORT and PROOF. Admission: what a response, a timeout, the re-measurement timer and a link do to a site, and the site commands
once their checks have passed (R263, R265, R528 to R534, R536, R768); from these O24.
-/

namespace Sys2Proof.SiteAdmission

open Sys2Proof Sys2Proof.Machine

variable {s t : State} {h : Hdr} {c : Cmd} {site : Word32}

/-! ### The admission of an occupant (R529, R530, R532, R533) -/

section Events

variable (i : Fin 12)

theorem exec_admissionResponse (m : Bytes) : exec (.admissionResponse i m) s = .next (s.admission i.val m) := rfl

theorem exec_remeasureTimer : exec (.remeasureTimer i) s = .next (s.remeasure i.val) := rfl

theorem exec_siteLinkDown : exec (.siteLinkDown i) s =
    .next (State.evict (s.onSite i.val (fun x => { x with linkUp := false })) i.val 8 false) := rfl

variable {i}

theorem exec_admissionTimeout_of_first (hup : s.fwUp = true) (hfirst : (s.site i.val).phase = 1) :
    exec (.admissionTimeout i) s = .next ((s.admitFailed i.val 1).admitAnswer i.val) :=
  congrArg Host.Outcome.next (if_pos ⟨hup, hfirst⟩)

theorem exec_siteLinkUp_of_present {u : State} (hu : u = s.onSite i.val (fun x => { x with linkUp := true })) (hup : u.fwUp = true)
    (hp : u.present (sguIx i.val) = true) : exec (.siteLinkUp i) s = .next (u.admitStart i.val) := by
  subst hu
  exact congrArg Host.Outcome.next (if_pos ⟨hup, hp⟩)

end Events

/-- A whole response takes its step; what answers with a chunk or with ResponseNotReady does not. -/
theorem admission_of_whole {i : Nat} {m : Bytes} (hup : s.fwUp = true) (hphase : (s.site i).phase ≠ 0) (hlen : m.length ≤ 4096)
    (hchunk : Bytes.at m 1 ≠ 0x06) (hready : ¬ (Bytes.at m 1 = 0x7F ∧ Bytes.at m 2 = 0x0F)) : s.admission i m = s.admitStep i m := by
  have htaken : ¬ ((!s.fwUp) = true ∨ (s.site i).phase = 0 ∨ m.length > 4096) := by
    rintro (hdown | hidle | hlong)
    · simp [hup] at hdown
    · exact hphase hidle
    · exact Nat.not_lt.2 hlen hlong
  exact (if_neg htaken).trans ((if_neg hready).trans (if_neg hchunk))

theorem remeasure_of_due {i : Nat} (hup : s.fwUp = true) (hstate : s.siteState i = 2) (hphase : (s.site i).phase = 0)
    (hperiod : fld (s.site i).ctrl 31 16 ≠ 0) :
    s.remeasure i = (s.onSite i (fun x => { x with phase := 2 })).admitNonce i 7 0xE0 :=
  if_pos ⟨hup, hstate, hphase, hperiod⟩

/-! ### The commands that name a site (R528, R533) -/

section Named

variable (hsite : site.toNat < 12)
include hsite

theorem siteArg_of_lt : siteArg site = .ok site.toNat := if_pos hsite

theorem exec_siteAdmit (ha : s.arrival h 0x0D [site] = some (t, c)) :
    exec (.siteAdmit h site) s = .next (s.thenReap ((t.hold { c with what := site.toNat }).admitStart site.toNat)) := by
  refine congrArg Host.Outcome.next ((Laws.command_arrival s t h 0x0D [site] c _ ha).trans (congrArg s.thenReap ?_))
  rw [siteArg_of_lt hsite]

theorem exec_siteEvict (ha : s.arrival h 0x0E [site] = some (t, c)) :
    exec (.siteEvict h site) s = .next (s.thenReap ((t.evict site.toNat 0x0A true).answer c 0)) := by
  refine congrArg Host.Outcome.next ((Laws.command_arrival s t h 0x0E [site] c _ ha).trans (congrArg s.thenReap ?_))
  rw [siteArg_of_lt hsite]

/-- The policy is read from the host's buffer; one that does not decode, or holds too many digests, is MALFORMED. -/
theorem exec_sitePolicy {addr : BitVec 64} {b : Bytes} {u : State} (ha : s.arrival h 0x0C (site :: addrWords addr) = some (t, c))
    (hu : u = t.dmaRead (t.bufferTdid c) addr.toNat b.length) :
    exec (.sitePolicy h site addr (some b)) s = .next (s.thenReap (match Config.admissionPolicy (Bytes.fit b b.length) with
      | some (roots, meas) => if roots.length ≤ 4 ∧ meas.length ≤ 16 then
          (u.onSite site.toNat (fun x => { x with policy := some (roots, meas) })).answer c 0 else u.answer c 1
      | none => u.answer c 1)) := by
  subst hu
  refine congrArg Host.Outcome.next ((Laws.command_arrival s t h 0x0C _ c _ ha).trans (congrArg s.thenReap ?_))
  rw [siteArg_of_lt hsite]
  rfl

end Named

/-! ### SITE_CONTEXT (R265, R531, R536, R768) -/

section Checks

variable {α : Type} {next : Unit → Except (Nat × List Word32) α}

theorem must_bind_of_true {ok : Bool} {status : Nat} (hok : ok = true) : (must ok status >>= next) = next () := by subst hok; rfl

theorem mustReason_bind_of_true {ok : Bool} {reason : Nat} (hok : ok = true) : (mustReason ok reason >>= next) = next () := by
  subst hok; rfl

theorem refuse_gated_bind_of_gate {p code : Nat} (hgate : s.gate p code = true) : (refuse (s.gated p code) >>= next) = next () := by
  rw [RegionCommands.gated_of_gate hgate]
  rfl

end Checks

/-- A context that every check lets pass is written under the site's present sequence. -/
theorem siteContext_of_checked {sel entry : Word32} {i n p : Nat} {old : BitVec 64} (hi : i = fld sel 11 8) (hn : n = fld sel 7 0)
    (hsel : sel.toNat < 4096) (hi12 : i < 12) (hp1 : 1 ≤ p) (hp128 : p < 128) (hlow : fld entry 7 1 = 0)
    (hmid : entry.getLsbD 15 = false) (hhigh : fld entry 23 22 = 0) (howns : s.ownsTdid p (fld entry 14 8) = true)
    (hother : s.contextOther i n p = false) (hgate : s.gate p 0x0F = true) (hadmitted : s.admittedInto i p = true)
    (hold : old = s.sctEntry i n)
    (hroom : (s.sctValid i old && fld old 38 32 == p) = true ∨ entry.getLsbD 0 = false ∨ s.contextsOf p < s.allot p 6) :
    s.siteContext p sel entry = .ok (s.setSct i n
      (setFld (setFld (entry.setWidth 64) 31 24 (s.site i).admitSeq.toNat) 38 32 p)) := by
  subst hi hn hold
  have hmay : (s.sctValid (fld sel 11 8) (s.sctEntry (fld sel 11 8) (fld sel 7 0)) &&
      fld (s.sctEntry (fld sel 11 8) (fld sel 7 0)) 38 32 == p || !entry.getLsbD 0 ||
      decide (s.contextsOf p < s.allot p 6)) = true := by
    obtain hmine | hclear | hfree := hroom
    · rw [hmine]; rfl
    · rw [hclear, Bool.not_false, Bool.or_true, Bool.true_or]
    · rw [decide_eq_true hfree, Bool.or_true]
  unfold State.siteContext
  rw [must_bind_of_true (decide_eq_true ⟨hsel, hi12, hp1, hp128⟩), must_bind_of_true (by simp only [hlow, hmid, hhigh]; rfl),
    must_bind_of_true (by simp only [howns, hother]; rfl), refuse_gated_bind_of_gate hgate, mustReason_bind_of_true hadmitted,
    must_bind_of_true hmay]
  rfl

theorem exec_siteContext_of_ok {part sel entry : Word32} {u : State} (ha : s.arrival h 0x0F [part, sel, entry] = some (t, c))
    (hok : t.siteContext part.toNat sel entry = .ok u) :
    exec (.siteContext h part sel entry) s = .next (s.thenReap (u.answer c 0)) := by
  refine congrArg Host.Outcome.next ((Laws.command_arrival s t h 0x0F _ c _ ha).trans (congrArg s.thenReap ?_))
  rw [hok]

end Sys2Proof.SiteAdmission

open Sys2Proof Sys2Proof.Machine Sys2Proof.SiteAdmission

/-- Settles O24: a clause for each command and for each event of an admission. -/
theorem siteAdmissionCommandsComplete : Obligations.SiteAdmissionCommandsComplete := by
  unfold Obligations.SiteAdmissionCommandsComplete
  refine ⟨fun h site addr b s t u c ha hsite => exec_sitePolicy hsite ha, fun h site s t c ha hsite => exec_siteAdmit hsite ha,
    ?response, fun i s => exec_admissionTimeout_of_first, ?remeasure, fun i s => exec_siteLinkDown i,
    fun i s u => exec_siteLinkUp_of_present, fun h site s t c ha hsite => exec_siteEvict hsite ha, ?context⟩
  case response =>
    intro i m s hup hphase hlen hchunk hready
    rw [exec_admissionResponse, admission_of_whole hup hphase hlen hchunk hready]
  case remeasure =>
    intro i s hup hstate hphase hperiod
    rw [exec_remeasureTimer, remeasure_of_due hup hstate hphase hperiod]
  case context =>
    intro h part sel entry s t c i n p old ha hi hn hp hsel hi12 hp1 hp128 hlow hmid hhigh howns hother hgate hadmitted hold hroom
    subst hp
    exact exec_siteContext_of_ok ha
      (siteContext_of_checked hi hn hsel hi12 hp1 hp128 hlow hmid hhigh howns hother hgate hadmitted hold hroom)
end

section
/-!
SUPPORT and PROOF. Reports that reach Spire, the records and classes they leave and their acknowledgement, and the errors of clocks and
parity, each by the state it meets (R288 to R290, R418, R419, R620, R679, R716, R725); from these O32.
-/

namespace Sys2Proof.FaultReports

open Sys2Proof Sys2Proof.Machine

variable {s u v : State}

/-! ### The commands -/

section
variable (n : Fin 16) (c : Fin 24) (i : Fin 46) (r : FaultRep) (x : OwnRep) (dt : Nat) (good : Bool) (p : Fin 39) (w : Option Waiting)

theorem exec_faultReport :
    exec (.faultReport r dt) s = .next (((s.advance dt).atStep (stepReport r.island.val r.unit.toNat)).takeReport r) := rfl

theorem exec_ownershipReport :
    exec (.ownershipReport x dt) s = .next (((s.advance dt).atStep (stepReport x.island.val 0)).takeOwnReport x) := rfl

theorem exec_ownfRecordFree : exec (.ownfRecordFree n) s = .next ((s.atStep stepArrive).ownfFree n.val) := rfl

theorem exec_faultAck : exec (.faultAck c) s = .next ((s.atStep stepArrive).faultAck c.val) := rfl

theorem exec_clockMonitorWindow : exec (.clockMonitorWindow i good) s = .next (s.clockWindow i.val good) := rfl

theorem exec_badParityBeat : exec (.badParityBeat p) s = .next (s.badParity p.val) := rfl

theorem exec_fifoParityError : exec (.fifoParityError i w) s = .next (s.fifoParity i.val w) := rfl

theorem exec_lateResponse_of_live (hlive : s.live i.val = true) : exec (.lateResponse i) s = .next (s.countFixed i.val 9) :=
  congrArg Host.Outcome.next (if_pos hlive)

end

/-! ### Fault reports (R418) -/

/-- A report that nothing holds back is counted; outside its unit's window it opens a new one and raises its fault. -/
theorem takeReport_of_first {r : FaultRep} {w : State} (hlive : u.live 2 = true) (hcls : r.cls ≠ 6)
    (hfirst : u.behind r.island.val (.fault r) = false) (hv : v = u.crossed r.island.val (.fault r))
    (hw : w = (v.countReport r.cls.val).onEsc (fun e => { e with windows := e.windows.filter (fun x =>
      !(x.cls == r.cls && x.island == r.island && x.unit == r.unit)) ++
        [{ cls := r.cls, island := r.island, unit := r.unit, since := v.now }] })) :
    u.takeReport r = if v.coalesces r then v.countReport r.cls.val
      else w.raiseFault r.cls r.island r.unit r.tdid none (w.classPending r.cls.val) := by
  have htaken : ¬ ((!u.live 2) = true ∨ r.cls = 6 ∨ u.behind r.island.val (.fault r) = true) := by
    simp [hlive, hcls, hfirst]
  subst hv hw
  exact if_neg htaken

/-! ### Ownership reports (R288, R289) -/

section Ownership

variable {r : OwnRep} (hlive : u.live 2 = true) (hfirst : u.behind r.island.val (.own r) = false)
  (hv : v = (u.crossed r.island.val (.own r)).countReport 6)
include hlive hfirst hv

/-- What a report that nothing holds back does turns on the lowest record that takes it, and else on the lowest free one. -/
theorem takeOwnReport_of_first : u.takeOwnReport r =
    match firstFrom 0 16 (fun n => (v.spr.esc.ownf.get n).takes r v.now) with
    | some n => v.onEsc (fun e => { e with ownf := e.ownf.modify n (fun x =>
        { x with count := satInc x.count, clusters := x.clusters ||| (ownfOpen r v.now).clusters }) })
    | none => State.raiseFault (match firstFrom 0 16 (fun n => !(v.spr.esc.ownf.get n).valid) with
        | some n => v.onEsc (fun e => { e with ownf := e.ownf.set n (ownfOpen r v.now) })
        | none => v.onEsc (fun e => { e with ownfLost := satInc e.ownfLost, own2 := true }))
      6 r.island 0 (if r.kind = 8 then none else some r.tdid) (if siteKind r.kind.toNat then r.site else none) (v.classPending 6) := by
  have htaken : ¬ ((!u.live 2) = true ∨ u.behind r.island.val (.own r) = true) := by simp [hlive, hfirst]
  subst hv
  exact if_neg htaken

theorem takeOwnReport_of_taken {n : Nat} (hn : firstFrom 0 16 (fun n => (v.spr.esc.ownf.get n).takes r v.now) = some n) :
    u.takeOwnReport r = v.onEsc (fun e => { e with ownf := e.ownf.modify n (fun x =>
      { x with count := satInc x.count, clusters := x.clusters ||| (ownfOpen r v.now).clusters }) }) := by
  rw [takeOwnReport_of_first hlive hfirst hv, hn]

variable (hnone : firstFrom 0 16 (fun n => (v.spr.esc.ownf.get n).takes r v.now) = none)
include hnone

theorem takeOwnReport_of_free {n : Nat} (hn : firstFrom 0 16 (fun n => !(v.spr.esc.ownf.get n).valid) = some n) :
    u.takeOwnReport r = State.raiseFault (v.onEsc (fun e => { e with ownf := e.ownf.set n (ownfOpen r v.now) }))
      6 r.island 0 (if r.kind = 8 then none else some r.tdid) (if siteKind r.kind.toNat then r.site else none) (v.classPending 6) := by
  rw [takeOwnReport_of_first hlive hfirst hv, hnone, hn]

theorem takeOwnReport_of_full (hfull : firstFrom 0 16 (fun n => !(v.spr.esc.ownf.get n).valid) = none) :
    u.takeOwnReport r = State.raiseFault (v.onEsc (fun e => { e with ownfLost := satInc e.ownfLost, own2 := true }))
      6 r.island 0 (if r.kind = 8 then none else some r.tdid) (if siteKind r.kind.toNat then r.site else none) (v.classPending 6) := by
  rw [takeOwnReport_of_first hlive hfirst hv, hnone, hfull]

end Ownership

/-! ### Acknowledgements (R290, R419) -/

theorem ownfFree_of_valid {n : Nat} (hlive : u.live 2 = true) (hvalid : (u.spr.esc.ownf.get n).valid = true) :
    u.ownfFree n = (u.onEsc (fun e => { e with ownf := e.ownf.modify n (fun x => { x with valid := false }) })).acked 6 true :=
  if_pos ⟨hlive, hvalid⟩

theorem faultAck_of_live {c : Nat} (hlive : u.live 2 = true) :
    u.faultAck c = (u.onEsc (fun e => if c = 6 then { e with own2 := false }
      else { e with classes := e.classes.modify c (fun x => { x with pending := false }) })).acked c (u.classPending c) :=
  if_neg (by simp [hlive])

/-! ### Clock monitors (R716) -/

theorem clockWindow_of_dome {good : Bool} :
    s.clockWindow 0 good = if good ∨ s.dom.railPresent = false then s else s.deriveStop.report 21 0 0 := by
  simp [State.clockWindow]

section Clock

variable {i : Nat} (hi : i ≠ 0)
include hi

theorem clockWindow_of_good (hfree : (s.isl.get i).clockHeld = false) : s.clockWindow i true = s := by
  simp [State.clockWindow, hi, hfree]

theorem clockWindow_of_bad (hfree : (s.isl.get i).clockHeld = false) (hlive : s.live i = true) :
    s.clockWindow i false = s.report 21 i 0 := by
  simp [State.clockWindow, hi, hfree, hlive]

variable (hheld : (s.isl.get i).clockHeld = true)
include hheld

theorem clockWindow_of_held_bad : s.clockWindow i false = s.onIsl i (fun r => { r with goodWindows := 0 }) := by
  simp [State.clockWindow, hi, hheld]

/-- The second good window in a row ends the hold. -/
theorem clockWindow_of_held_good : s.clockWindow i true = if (s.isl.get i).goodWindows = 0
    then s.onIsl i (fun r => { r with goodWindows := 1 })
    else State.pllLock (s.onIsl i (fun r => { r with clockHeld := false, goodWindows := 0 })) i := by
  simp [State.clockWindow, hi, hheld]

end Clock

/-! ### Parity (R679, R725) -/

theorem badParity_of_live {p i : Nat} (hi : (List.range 46).find? (fun i => portOf i == some p) = some i) (hlive : s.live i = true) :
    s.badParity p = (s.onIsl i (fun r => { r with parity := satInc r.parity })).report 20 i p := by
  simp only [State.badParity, hi, if_pos hlive, State.parityCount]

theorem fifoParity_of_no_wait {i : Nat} (hlive : s.live i = true) (hu : u = s.onIsl i (fun r => { r with parity := satInc r.parity })) :
    s.fifoParity i none = u.report 20 i 0 := by
  subst hu
  exact if_neg (by simp [hlive])

theorem fifoParity_of_wait {i : Nat} {w : Waiting} {t : State} (hlive : s.live i = true)
    (hu : u = s.onIsl i (fun r => { r with parity := satInc r.parity })) (hfail : u.waitFail i w = some t) :
    s.fifoParity i (some w) = (t.waitOver i).report 20 i 0 := by
  subst hu
  have hwait : (s.parityCount i).waitFail i w = some t := hfail
  simp [State.fifoParity, hlive, hwait]

end Sys2Proof.FaultReports

open Sys2Proof Sys2Proof.Machine Sys2Proof.FaultReports

/-- Settles O32: a clause for each command; an ownership report is split by the record it finds, a clock window by the hold. -/
theorem faultReportsAndAcknowledgements : Obligations.FaultReportsAndAcknowledgements := by
  unfold Obligations.FaultReportsAndAcknowledgements
  refine ⟨?report, ?ownership, ?free, ?ack, ?dome, ?clock, ?beat, ?fifo, fun i s => exec_lateResponse_of_live i⟩
  case report =>
    intro r dt s u v w hu hlive hcls hfirst hv hw
    rw [exec_faultReport, ← hu, takeReport_of_first hlive hcls hfirst hv hw]
  case ownership =>
    intro r dt s u v hu hlive hfirst hv
    rw [exec_ownershipReport, ← hu]
    exact ⟨fun n hn => by rw [takeOwnReport_of_taken hlive hfirst hv hn],
      fun n hnone hn => by rw [takeOwnReport_of_free hlive hfirst hv hnone hn],
      fun hnone hfull => by rw [takeOwnReport_of_full hlive hfirst hv hnone hfull]⟩
  case free =>
    intro n s u hu hlive hvalid
    rw [exec_ownfRecordFree, ← hu, ownfFree_of_valid hlive hvalid]
  case ack =>
    intro c s u hu hlive
    rw [exec_faultAck, ← hu, faultAck_of_live hlive]
  case dome =>
    intro good s
    rw [exec_clockMonitorWindow, Fin.val_zero, clockWindow_of_dome]
  case clock =>
    intro i s hi
    simp only [exec_clockMonitorWindow]
    refine ⟨fun hfree => ?_, fun hfree hlive => ?_, fun hheld => ?_, fun hheld hnone => ?_, fun hheld hone => ?_⟩
    · rw [clockWindow_of_good hi hfree]
    · rw [clockWindow_of_bad hi hfree hlive]
    · rw [clockWindow_of_held_bad hi hheld]
    · rw [clockWindow_of_held_good hi hheld, if_pos hnone]
    · rw [clockWindow_of_held_good hi hheld, if_neg hone]
  case beat =>
    intro p s i hi hlive
    rw [exec_badParityBeat, badParity_of_live hi hlive]
  case fifo =>
    intro i s u hlive hu
    exact ⟨by rw [exec_fifoParityError, fifoParity_of_no_wait hlive hu],
      fun w t hfail => by rw [exec_fifoParityError, fifoParity_of_wait hlive hu hfail]⟩
end

section
/-!
SUPPORT and PROOF. Hang reports and the waits they end, capture records, the resets that wait for them, and notices (R286, R416, R617
to R619, R624 to R627, R630 to R632); from these O33.
-/

namespace Sys2Proof.HangsAndCaptures

open Sys2Proof Sys2Proof.Machine

variable {s t : State} {i : Nat}

/-! ### The commands -/

section
variable (i : Fin 46) (n : Fin 4096) (w : Waiting) (x : CmdWait) (dt : Nat)

theorem exec_memoryHang : exec (.memoryHang i w) s = .next (s.memoryHang i.val w) := rfl

theorem exec_islandHang_of_owes (howes : s.owesSpire i.val = true) : exec (.islandHang i) s = .next (s.hangReport 0 11 i.val) :=
  congrArg Host.Outcome.next (if_pos howes)

theorem exec_towerServiceHang : exec (.towerServiceHang i n) s = .next (s.serviceHang i.val n.val) := rfl

theorem exec_commandHang : exec (.commandHang x) s = .next (s.commandHang x) := rfl

theorem exec_captureRecordWrite : exec (.captureRecordWrite dt) s = .next (s.advance dt).captureWrite := rfl

theorem exec_captureSealed : exec .captureSealed s = .next (s.atStep stepArrive).captureSealed := rfl

theorem exec_captureWaitExpiry : exec (.captureWaitExpiry dt) s = .next ((s.advance dt).atStep stepCompare).captureExpiry := rfl

theorem exec_domainStatusNotice : exec .domainStatusNotice s = .next s.noticeIssue := rfl

end

/-! ### Hang reports and the waits of an island (R617 to R619) -/

section Report

variable {timer : Nat} {cls : Fin 24} {x : Nat × Nat × Nat} (hx : x = (timer, i, s.now / hangTick timer))
include hx

theorem hangReport_of_sent (hsent : x ∈ s.spr.esc.hung) : s.hangReport timer cls i = s := by
  subst hx
  exact if_pos (List.contains_iff_mem.2 hsent)

theorem hangReport_of_new (hnew : x ∉ s.spr.esc.hung) :
    s.hangReport timer cls i = (s.report cls i 0).onEsc (fun e =>
      { e with hung := e.hung.filter (fun x => !(x.1 == timer && x.2.1 == i)) ++ [x] }) := by
  subst hx
  exact if_neg (by simpa using hnew)

end Report

theorem memoryHang_of_wait {w : Waiting} (hfail : s.waitFail i w = some t) :
    s.memoryHang i w = (t.waitOver i).hangReport 2 11 i := by
  simp only [State.memoryHang, hfail]

theorem serviceHang_of_fill {n : Nat} (hcluster : isCluster i = true) (hfail : s.fillHang i n = some t) :
    s.serviceHang i n = (t.waitOver i).hangReport 1 13 i := by
  simp only [State.serviceHang, if_pos hcluster, hfail]

/-- With no fill awaited, an invalidation that is owed or a load that is awaited is reported. -/
theorem serviceHang_of_no_fill {n : Nat} (hno : isCluster i = false ∨ s.fillHang i n = none)
    (howed : (i, n) ∈ s.invals ∨ (s.live i = true ∧ s.loading i = true ∧ i ≠ 0)) : s.serviceHang i n = s.hangReport 1 13 i := by
  have hfill : (if isCluster i = true then s.fillHang i n else none) = none := by
    obtain hother | hnone := hno
    · simp [hother]
    · rw [hnone, ite_self]
  simp only [State.serviceHang, hfill, List.contains_iff_mem, if_pos howed]

/-! ### Commands, the control-plane engine and Dome (R619) -/

theorem commandHang_of_waiting {b : Fin 160} {id : BitVec 16} (hwaits : ∃ c ∈ s.cmds, c.started = false ∧ c.mbx = b.val ∧ c.cmdId = id) :
    s.commandHang (.command b id) =
      (s.completeWhere (fun c => !c.started && c.mbx == b.val && c.cmdId == id) 0x0B [] (some 0x16)).hangReport 3 13 1 :=
  if_pos (by simpa [and_assoc] using hwaits)

theorem commandHang_of_cpe (hbusy : s.cpe.busy = true) :
    s.commandHang .cpe = (State.retireRoots (State.retireWaiting
      { s with cpe := { s.cpe with busy := false, out := none, slots := [] } })).hangReport 3 13 1 :=
  if_pos hbusy

theorem commandHang_of_dome {k : DeriveKind} {rest : List DeriveKind} (hqueue : s.dom.queue = k :: rest) :
    s.commandHang .dome = (s.domeAbandon k).settle.hangReport 3 13 1 := by
  simp only [State.commandHang, hqueue]

/-! ### Capture records and the resets that wait for them (R416, R624, R626, R627) -/

/-- The record goes to its slot whole, with STATE 0; then STATE 1 is written. -/
theorem captureWrite_of_queue {a : FaultAct} {rest : List FaultAct} {v : State} {room addr : Nat} (hqueue : s.cap.queue = a :: rest)
    (hup : s.fwUp = true) (hring : s.captureOn = true) (hroom : room = 4096 * s.cap.slotPages.toNat)
    (haddr : addr = s.cap.base.toNat + s.cap.next.toNat * room)
    (hv : v = (s.dmaWrite 0 addr (s.captureRecord a room)).dmaWrite 0 (addr + 6) [1]) :
    s.captureWrite = { v with cap := { v.cap with queue := rest, count := satInc v.cap.count, next := v.cap.next + 1 } } := by
  subst hv haddr hroom
  simp only [State.captureWrite, hqueue, if_pos (And.intro hup hring)]

theorem captureSealed_of_sealed {a : FaultAct} (ha : s.spr.esc.waiting.find? (fun a => !s.cap.queue.contains a) = some a) :
    s.captureSealed = s.faultReset a := by
  simp only [State.captureSealed, ha]

theorem captureExpiry_of_over {a : FaultAct}
    (ha : s.spr.esc.waiting.find? (fun a => decide (a.clock + 1000 * a.waitUs ≤ s.now)) = some a) :
    s.captureExpiry = s.faultReset a := by
  simp only [State.captureExpiry, ha]

/-! ### Notices (R630 to R632) -/

theorem noticeIssue_of_queue {n : NoticeReq} {rest : List NoticeReq} {v : State} (hqueue : s.cap.notices = n :: rest)
    (hup : s.fwUp = true)
    (hv : v = if s.cap.noticeBase = 0 then s
      else s.dmaWrite 0 (s.cap.noticeBase.toNat + s.cap.noticeNo.toNat % 16 * 8192) (s.noticeBytes n)) :
    s.noticeIssue = State.noticeWords { v with cap := { v.cap with notices := rest, noticeNo := v.cap.noticeNo + 1 } }
      (BitVec.ofNat 32 (0x03000000 + s.cap.noticeNo.toNat)) 0xDD0 := by
  subst hv
  simp only [State.noticeIssue, hqueue, hup, Bool.not_true, Bool.false_eq_true, if_false]

end Sys2Proof.HangsAndCaptures

open Sys2Proof Sys2Proof.Machine Sys2Proof.HangsAndCaptures

/-- Settles O33: a clause for each command; a hang of Tower's service is split by the fill it ends, one of a command by what waits. -/
theorem hangsCapturesAndNotices : Obligations.HangsCapturesAndNotices := by
  unfold Obligations.HangsCapturesAndNotices
  refine ⟨?memory, fun i s => exec_islandHang_of_owes i, ?service, fun timer cls i s x hx => ⟨hangReport_of_sent hx, hangReport_of_new hx⟩,
    ?command, ?cpe, ?dome, ?write, ?sealed, ?expiry, ?notice⟩
  case memory =>
    intro i w s t hfail
    rw [exec_memoryHang, memoryHang_of_wait hfail]
  case service =>
    intro i n s
    rw [exec_towerServiceHang]
    exact ⟨fun t hcluster hfail => by rw [serviceHang_of_fill hcluster hfail],
      fun hno howed => by rw [serviceHang_of_no_fill hno howed]⟩
  case command =>
    intro b id s hwaits
    rw [exec_commandHang, commandHang_of_waiting hwaits]
  case cpe =>
    intro s hbusy
    rw [exec_commandHang, commandHang_of_cpe hbusy]
  case dome =>
    intro s k rest hqueue
    rw [exec_commandHang, commandHang_of_dome hqueue]
  case write =>
    intro dt s u a rest hu hqueue hup hring
    rw [exec_captureRecordWrite, ← hu, captureWrite_of_queue hqueue hup hring rfl rfl rfl]
  case sealed =>
    intro s u a hu ha
    rw [exec_captureSealed, ← hu, captureSealed_of_sealed ha]
  case expiry =>
    intro dt s u a hu ha
    rw [exec_captureWaitExpiry, ← hu, captureExpiry_of_over ha]
  case notice =>
    intro s n rest hqueue hup
    rw [exec_domainStatusNotice, noticeIssue_of_queue hqueue hup rfl]
end

section
/-!
SUPPORT and PROOF. Sending at an FCC: what FABRIC_SEND does with each kind of request (R301, R313), what PAIR_KEY_ARRIVAL,
SEND_EPOCH_CHANGE, RETRY_TIMEOUT and RETRY_SPAN_EXPIRY do with an entry (R302 to R305, R308, R314, R318, R319); from these O25.
-/

namespace Sys2Proof.FabricSending

open Sys2Proof Sys2Proof.Machine

variable {s t u : State}

/-- A request to an island that admits work does not wait in its FIFO (R80). -/
theorem atIngress_of_run {i : Nat} (hrun : (s.isl.get i).swap = .run) (c : Instr) (go : State → State) : s.atIngress i c go = go s :=
  if_pos hrun

/-! ### The commands -/

section
variable (f : Fin 16) (e : Fin 2048)

theorem exec_fabricSend (q : MemReq) (hrun : (s.isl.get (fccIx f.val)).swap = .run) :
    exec (.fabricSend f q) s = .next (s.fabricSend f.val q) :=
  congrArg Host.Outcome.next (atIngress_of_run hrun _ _)

theorem exec_pairKeyArrival : exec (.pairKeyArrival f e) s = .next (s.pairKeyArrival f.val e.val) := rfl

theorem exec_sendEpochChange : exec (.sendEpochChange f e) s = .next (s.sendEpochChange f.val e.val) := rfl

theorem exec_retryTimeout : exec (.retryTimeout f e) s = .next (s.retryTimeout f.val e.val) := rfl

/-- The retry span of an entry that keeps packets loses its stream (R319). -/
theorem exec_retrySpanExpiry_of_kept (hkept : (s.entry f.val e.val).kept ≠ []) (hstate : (s.entry f.val e.val).state ≠ 3) :
    exec (.retrySpanExpiry f e) s = .next (s.streamLost f.val e.val).removals :=
  congrArg Host.Outcome.next (if_neg (not_or_intro (by simpa using hkept) hstate))

end

/-! ### FABRIC_SEND (R301, R304, R313, R314) -/

/-- A store or an atomic is no load. -/
theorem not_load_of_store {q : MemReq} (hstore : q.atop ≠ 0 ∨ q.be ≠ []) : ¬ (q.atop = 0 ∧ q.be.isEmpty = true) := by
  rintro ⟨hatop, hbe⟩
  exact hstore.elim (fun h => h hatop) (fun h => h (List.isEmpty_iff.1 hbe))

section Send

variable {f : Nat} {q : MemReq} (hlive : s.live (fccIx f) = true)
include hlive

theorem fabricSend_of_other_form (hform : q.form ≠ 3) :
    s.fabricSend f q = (s.report 20 (fccIx f) 0 (some q.tdid)).refuseSend f q := by
  unfold State.fabricSend
  rw [if_neg (by simp [hlive]), if_pos hform]

variable (hform : q.form = 3)
include hform

theorem fabricSend_of_load (hatop : q.atop = 0) (hbe : q.be = []) : s.fabricSend f q = s.refuseSend f q := by
  unfold State.fabricSend
  rw [if_neg (by simp [hlive]), if_neg (not_not_intro hform), if_pos ⟨hatop, List.isEmpty_iff.2 hbe⟩]

theorem fabricSend_of_no_entry (hstore : q.atop ≠ 0 ∨ q.be ≠ []) (hnone : s.sendEntry f q.node.toNat q.tdid.toNat = none) :
    s.fabricSend f q = s.refuseSend f q := by
  unfold State.fabricSend
  rw [if_neg (by simp [hlive]), if_neg (not_not_intro hform), if_neg (not_load_of_store hstore)]
  simp only [hnone]

/-- A store or an atomic that has an entry is refused, or waits there and what can go is sent. -/
theorem fabricSend_of_entry {e : Nat} (hstore : q.atop ≠ 0 ∨ q.be ≠ []) (he : s.sendEntry f q.node.toNat q.tdid.toNat = some e)
    (hu : u = s.onEntry f e (fun x => { x with waiting := x.waiting ++ [q] })) :
    s.fabricSend f q =
      if (s.entry f e).closing = true ∨ 4096 < q.addr.toNat % 4096 + (if q.atop = 0 then q.len else if q.wide then 8 else 4) ∨
        (q.atop ≠ 0 ∧ (q.addr.toNat % (if q.wide then 8 else 4) ≠ 0 ∨ 6 < q.atop.toNat)) ∨ (s.fccNode f).isNone = true
      then s.refuseSend f q
      else State.sendWaiting (if (u.entry f e).keyValid then u else u.askKey f e) f e := by
  subst hu
  unfold State.fabricSend
  rw [if_neg (by simp [hlive]), if_neg (not_not_intro hform), if_neg (not_load_of_store hstore)]
  simp only [he]
  refine if_congr ?_ rfl rfl
  simp only [Bool.or_eq_true, Bool.and_eq_true, decide_eq_true_eq, bne_iff_ne]
  tauto

end Send

/-! ### PAIR_KEY_ARRIVAL (R303, R304) -/

/-- An entry that is in use, has asked for its key and has none takes the one that comes. -/
theorem pairKey_wanted {x : FccEntry} (hasked : x.asked = true) (hkey : x.keyValid = false) (hfree : x.state ≠ 0) (hlost : x.state ≠ 3) :
    ¬ (!x.asked ∨ x.keyValid ∨ x.state = 0 ∨ x.state = 3) := by
  rintro (h | h | h | h)
  · simp [hasked] at h
  · simp [hkey] at h
  · exact hfree h
  · exact hlost h

section PairKey

variable {f e : Nat} {x : FccEntry} (hx : x = s.entry f e) (hasked : x.asked = true) (hkey : x.keyValid = false)
  (hfree : x.state ≠ 0) (hlost : x.state ≠ 3)
include hx hasked hkey hfree hlost

theorem pairKeyArrival_of_usable {k : Bytes} (hroot : s.rootUsable x.root = true) (hidle : s.cpe.busy = false)
    (hk : k = s.pairKey x.root (s.streamNodes f x).1 (s.streamNodes f x).2 x.tdid.toNat x.epoch.toNat) :
    s.pairKeyArrival f e = State.authWaiting (State.sendWaiting ((s.stageKey x.tdid.toNat k).onEntry f e
      (fun y => { y with asked := false, keyValid := true, key := k })) f e) f e := by
  subst hx hk
  simp only [State.pairKeyArrival, if_neg (pairKey_wanted hasked hkey hfree hlost), hroot, hidle, Bool.not_true, Bool.false_eq_true, if_false]

theorem pairKeyArrival_of_unusable (hroot : s.rootUsable x.root = false) :
    s.pairKeyArrival f e = State.onEntry (x.waitAuth.foldl (fun s p => s.dropPacket f p.2 3)
      (x.waiting.foldl (fun s q => s.refuseSend f q) (s.report 7 (fccIx f) 0 (some x.tdid)))) f e
      (fun y => { y with asked := false, waiting := [], waitAuth := [] }) := by
  subst hx
  simp only [State.pairKeyArrival, if_neg (pairKey_wanted hasked hkey hfree hlost), hroot, Bool.not_false, if_true]

end PairKey

/-! ### SEND_EPOCH_CHANGE (R303, R305, R308) -/

theorem sendEpochChange_of_quiet {f e src dst : Nat} {x : FccEntry} (hx : x = s.entry f e) (hsend : x.recv = false) (hstate : x.state = 2)
    (hacked : x.unacked = 0) (hkept : x.kept = []) (hroot : s.rootUsable x.root = true) (hidle : s.cpe.busy = false)
    (hnodes : (src, dst) = s.streamNodes f x)
    (hu : u = (((s.fenceCheck f e).dropSchedule f e).stageKey x.tdid.toNat
      (s.pairKey x.root src dst x.tdid.toNat (x.epoch.toNat + 1))).onEntry f e (fun y => { y with
        epoch := y.epoch + 1, key := s.pairKey x.root src dst x.tdid.toNat (x.epoch.toNat + 1), keyValid := true, asked := false
        nextSeq := 0, ackSeq := 0, state := 1 })) :
    s.sendEpochChange f e = State.sendWaiting (((({ u with
      epochs := u.epochs ++ [(src, dst, x.tdid.toNat, x.epoch.toNat + 1)] } : State).countT (fccIx f) 0x38 x.tdid.toNat).noteStream
        f e)) f e := by
  subst hx hu
  have hquiet : !(s.entry f e).recv ∧ (s.entry f e).state = 2 ∧ (s.entry f e).unacked = 0 ∧ (s.entry f e).kept.isEmpty ∧
      s.rootUsable (s.entry f e).root ∧ !s.cpe.busy := by
    simp [hsend, hstate, hacked, hkept, hroot, hidle]
  simp only [State.sendEpochChange, if_pos hquiet, ← hnodes]

end Sys2Proof.FabricSending

open Sys2Proof Sys2Proof.Machine Sys2Proof.FabricSending

/-- Settles O25: a clause for each command; a request by its form and the entry it finds, a key by whether its root is usable. -/
theorem fabricSendingComplete : Obligations.FabricSendingComplete := by
  unfold Obligations.FabricSendingComplete
  refine ⟨?send, ?key, ?epoch, fun f e s => exec_retryTimeout f e, fun f e s => exec_retrySpanExpiry_of_kept f e⟩
  case send =>
    intro f q s hrun hlive
    rw [exec_fabricSend f q hrun]
    refine ⟨fun hform => ?_, fun hform hatop hbe => ?_, fun hform hstore => ⟨fun hnone => ?_, ?accepted, fun e he hbad => ?_⟩⟩
    · rw [fabricSend_of_other_form hlive hform]
    · rw [fabricSend_of_load hlive hform hatop hbe]
    · rw [fabricSend_of_no_entry hlive hform hstore hnone]
    case accepted =>
      intro e u he hopen hnode hpage hatomic hu
      rw [fabricSend_of_entry hlive hform hstore he hu, if_neg]
      rintro (hclosing | hover | ⟨hatop, hbad⟩ | hno)
      · simp [hopen] at hclosing
      · exact Nat.not_lt.2 hpage hover
      · obtain ⟨haligned, hop⟩ := hatomic hatop
        exact hbad.elim (fun h => h haligned) (Nat.not_lt.2 hop)
      · simp [Option.isSome_iff_ne_none.1 hnode] at hno
    · rw [fabricSend_of_entry hlive hform hstore he rfl, if_pos hbad]
  case key =>
    intro f e s x hx hasked hkey hfree hlost
    rw [exec_pairKeyArrival]
    exact ⟨fun k hroot hidle hk => by rw [pairKeyArrival_of_usable hx hasked hkey hfree hlost hroot hidle hk],
      fun hroot => by rw [pairKeyArrival_of_unusable hx hasked hkey hfree hlost hroot]⟩
  case epoch =>
    intro f e s u x src dst hx hsend hstate hacked hkept hroot hidle hnodes hu
    rw [exec_sendEpochChange, sendEpochChange_of_quiet hx hsend hstate hacked hkept hroot hidle hnodes hu]
end

section
/-!
SUPPORT and PROOF. Receiving at an FCC: the tests that a packet meets in their order (R320, R321, R325, R326), its release
(R322, R336), what ends a released packet (R327, R332, R333), the change to a stream's next epoch (R326, R334), its acknowledgements
(R328) and the ageing of the reply cache (R334); from these O26.
-/

namespace Sys2Proof.FabricReceiving

open Sys2Proof Sys2Proof.Machine Sys2Proof.FabricSending

variable {s t u : State}

/-! ### The commands -/

section
variable (f : Fin 16) (e : Fin 2048)

theorem exec_packetReceive (p : Bytes) (b : BitVec 16) (hrun : (s.isl.get (fccIx f.val)).swap = .run) :
    exec (.packetReceive f p b) s = .next (s.packetReceive f.val p b.toNat).removals :=
  congrArg Host.Outcome.next (atIngress_of_run hrun _ _)

theorem exec_packetRelease : exec (.packetRelease f e) s = .next (s.packetRelease f.val e.val) := rfl

theorem exec_packetDone (q : BitVec 48) (ok : Bool) : exec (.packetDone f e q ok) s = .next (s.packetDone f.val e.val q.toNat ok) := rfl

theorem exec_atomicResult (q : BitVec 48) (ok : Bool) (old : BitVec 64) :
    exec (.atomicResult f e q ok old) s = .next (s.atomicResult f.val e.val q.toNat ok old) := rfl

theorem exec_receiveEpochChange : exec (.receiveEpochChange f e) s = .next (s.receiveEpochChange f.val e.val) := rfl

theorem exec_ackSend_of_due (hdue : s.ackDue f.val e.val = true) : exec (.ackSend f e) s = .next (s.sendAck f.val e.val) :=
  congrArg Host.Outcome.next (if_pos hdue)

theorem exec_ackIntervalExpiry_of_waiting (hrecv : (s.entry f.val e.val).recv = true) (hstate : (s.entry f.val e.val).state ≠ 0)
    (hdone : (s.entry f.val e.val).unackedDone ≠ []) : exec (.ackIntervalExpiry f e) s =
      .next ((s.onEntry f.val e.val (fun x => { x with intervalUp := true })).ackIfDue f.val e.val) :=
  congrArg Host.Outcome.next (if_pos ⟨hrecv, hstate, hdone⟩)

theorem exec_replyHoldExpiry_of_held (n : Fin 8192) (hvalid : ((s.fcc.get f.val).reply.get n.val).valid = true)
    (hdone : ((s.fcc.get f.val).reply.get n.val).pending = false)
    (hage : fld (s.fcc.get f.val).span 31 24 ≤ ((s.fcc.get f.val).reply.get n.val).age.toNat) :
    exec (.replyHoldExpiry f n) s = .next (s.onFcc f.val (fun y => { y with reply := y.reply.set n.val default })) :=
  congrArg Host.Outcome.next (if_pos ⟨hvalid, by simp [hdone], hage⟩)

theorem exec_replyCacheAgeTick : exec (.replyCacheAgeTick f) s = .next (s.onFcc f.val (fun y =>
    { y with reply := y.reply.mapKeys (fun _ r => if r.valid && !r.pending then { r with age := satInc r.age } else r) })) := rfl

end

/-! ### PACKET_RECEIVE: the tests of R320 -/

section Receive

variable {f b me : Nat} {p : Bytes} (hlive : s.live (fccIx f) = true) (hme : s.fccNode f = some me)
include hlive hme

theorem packetReceive_of_malformed (hformed : pktWellFormed p = false) : s.packetReceive f p b = s.dropPacket f b 1 := by
  simp [State.packetReceive, hlive, hme, hformed]

variable (hformed : pktWellFormed p = true)
include hformed

theorem packetReceive_of_other_node (hdst : pktDst p ≠ me) : s.packetReceive f p b = s.dropPacket f b 2 := by
  simp [State.packetReceive, hlive, hme, hformed, hdst]

variable (hdst : pktDst p = me)
include hdst

theorem packetReceive_of_no_entry (hnone : s.packetEntry f p = none) : s.packetReceive f p b = s.dropPacket f b 3 := by
  simp [State.packetReceive, hlive, hme, hformed, hdst, hnone]

variable {e : Nat} {x : FccEntry} (he : s.packetEntry f p = some e) (hx : x = s.entry f e)
include he hx

/-- An ACK or a REPLY: tests 4 and 5. -/
theorem packetReceive_of_control (htype : 3 ≤ pktType p) :
    s.packetReceive f p b = if pktEpoch p ≠ x.epoch.toNat then s.dropPacket f b 4 else s.authNow f e p b := by
  subst hx
  simp [State.packetReceive, hlive, hme, hformed, hdst, he, htype]

variable (htype : pktType p < 3)
include htype

/-- A data packet of the entry's epoch: what it meets, in the order of the tests from 7 on. -/
theorem packetReceive_of_epoch (hepoch : pktEpoch p = x.epoch.toNat) :
    s.packetReceive f p b =
      if pktSeq p < x.expected.toNat then s.authNow f e p b
      else if x.expected.toNat + 256 ≤ pktSeq p then s.dropPacket f b 5
      else if x.held.any (fun h => h.seq == pktSeq p && pktEpoch h.pkt == x.epoch.toNat) then s.dropPacket f b 6
      else if (if pktSeq p = x.expected.toNat then 256 else 240) ≤ s.descriptors f then s.dropPacket f b 7
      else if x.keyValid then s.onEntry f e (fun x => { x with held := x.held ++ [{ seq := pktSeq p, pkt := p, buf := b }] })
      else (s.onEntry f e (fun x => { x with held := x.held ++ [{ seq := pktSeq p, pkt := p, buf := b }] })).askKey f e := by
  subst hx
  simp [State.packetReceive, hlive, hme, hformed, hdst, he, Nat.not_le.2 htype, hepoch]

/-- The first packet of the next epoch, with nothing released outstanding: test 6. -/
theorem packetReceive_of_next_epoch (hepoch : pktEpoch p = x.epoch.toNat + 1) (hseq : pktSeq p = 0) (hrel : x.rel = []) :
    s.packetReceive f p b = if x.held.any (fun h => pktEpoch h.pkt == x.epoch.toNat + 1) then s.dropPacket f b 6
      else s.holdCandidate f e p b := by
  subst hx
  simp [State.packetReceive, hlive, hme, hformed, hdst, he, Nat.not_le.2 htype, hepoch, hseq, hrel]

theorem packetReceive_of_other_epoch (hepoch : pktEpoch p ≠ x.epoch.toNat)
    (hnot : pktEpoch p ≠ x.epoch.toNat + 1 ∨ pktSeq p ≠ 0 ∨ x.rel ≠ []) : s.packetReceive f p b = s.dropPacket f b 4 := by
  subst hx
  have hfirst : ¬ (pktEpoch p = (s.entry f e).epoch.toNat + 1 ∧ pktSeq p = 0 ∧ (s.entry f e).rel.isEmpty = true) := by
    rintro ⟨hnext, hseq, hrel⟩
    exact hnot.elim (fun h => h hnext) (fun h => h.elim (fun h => h hseq) (fun h => h (List.isEmpty_iff.1 hrel)))
  simp only [State.packetReceive, hlive, hme, hformed, hdst, he, Bool.not_true, Bool.false_eq_true, if_false, ne_eq, not_true_eq_false,
    ge_iff_le, if_neg (Nat.not_le.2 htype), if_neg hfirst, if_pos hepoch]

end Receive

/-! ### The first packet of the next epoch is held (R321, R326) -/

section Candidate

variable {f e b : Nat} {p : Bytes}

theorem holdCandidate_of_full (hfull : 240 ≤ s.descriptors f) : s.holdCandidate f e p b = s.dropPacket f b 7 := if_pos hfull

theorem holdCandidate_of_room (hroom : s.descriptors f < 240)
    (hu : u = s.onEntry f e (fun x => { x with held := x.held ++ [{ seq := 0, pkt := p, buf := b }] })) :
    s.holdCandidate f e p b = if (u.fcc.get f).candidate = none then u.nextCandidate f else u := by
  subst hu
  unfold State.holdCandidate
  rw [if_neg (Nat.not_le.2 hroom)]
  exact if_congr Option.isNone_iff_eq_none rfl rfl

end Candidate

/-! ### Release and end of a packet (R322, R327, R332, R333, R336) -/

section Release

variable {f e : Nat} {x : FccEntry} (hx : x = s.entry f e)
include hx

/-- The held packet at EXPECTED, with a lane and a schedule that take it, is fetched and has its verdict. -/
theorem packetRelease_of_held {h : HeldPkt} {id : Nat}
    (hheld : x.held.find? (fun h => h.seq == x.expected.toNat && pktEpoch h.pkt == x.epoch.toNat) = some h) (hrecv : x.recv = true)
    (hready : s.fabricReady f e = (t, some id))
    (hroom : pktType h.pkt = 2 → (s.fcc.get f).reply.countWhere (fun _ r => r.valid) < 8192)
    (hu : u = (t.emit (.rxc f 0 h.buf)).onEntry f e (fun x => { x with held := dropFirst (fun z => z == h) x.held })) :
    s.packetRelease f e = match openPacket x.key h.pkt with
      | none => u.authFailed f e
      | some body => u.releasePacket f e h.pkt body id := by
  have htaken : ¬ ((!x.recv) = true ∨ pktType h.pkt = 2 ∧ s.replyFull f = true) := by
    rintro (hsend | ⟨hatomic, hfull⟩)
    · simp [hrecv] at hsend
    · exact absurd (hroom hatomic) (Nat.not_lt.2 (of_decide_eq_true hfull))
  subst hx hu
  simp only [State.packetRelease, hheld, if_neg htaken, hready] <;> rfl

variable {q : Nat} {ok : Bool}

theorem packetDone_of_entered (hrel : ∃ r ∈ x.rel, r.seq = q ∧ r.entered = true ∧ r.atomic = false) :
    s.packetDone f e q ok = s.packetFinished f e q ok := by
  subst hx
  exact if_pos (by simpa [and_assoc] using hrel)

theorem atomicResult_of_match {old : BitVec 64} {n : Nat} (hrel : ∃ r ∈ x.rel, r.seq = q ∧ r.entered = true ∧ r.atomic = true)
    (hmatch : s.replyMatch f x.peer.toNat x.tdid.toNat q = some n)
    (hu : u = s.onFcc f (fun y => { y with reply := y.reply.modify n (fun r =>
      { r with pending := false, error := !ok, result := if ok then old else 0, age := 0, owed := r.owed + 1 }) })) :
    s.atomicResult f e q ok old = (u.payReplies f e).packetFinished f e q ok := by
  subst hx hu
  have hany : ((s.entry f e).rel.any fun r => r.seq == q && r.entered && r.atomic) = true := by
    simpa [and_assoc] using hrel
  simp only [State.atomicResult, hany, if_true, hmatch]

end Release

/-! ### RECEIVE_EPOCH_CHANGE (R303, R326, R334) -/

theorem receiveEpochChange_of_candidate {f e src dst : Nat} {x : FccEntry} {h : HeldPkt} {k : Bytes} (hx : x = s.entry f e)
    (hnodes : (src, dst) = s.streamNodes f x) (hheld : x.held.find? (fun h => pktEpoch h.pkt == x.epoch.toNat + 1) = some h)
    (hcandidate : (s.fcc.get f).candidate = some e) (hroot : s.rootUsable x.root = true) (hidle : s.cpe.busy = false)
    (hlane : s.laneReady (fccIx f) = true) (hk : k = s.pairKey x.root src dst x.tdid.toNat (x.epoch.toNat + 1))
    (ht : t = s.stageKey x.tdid.toNat k)
    (hu : u = (t.emit (.rxc f 0 h.buf)).onEntry f e (fun x =>
      { x with asked := false, held := dropFirst (fun z => z == h) x.held })) :
    s.receiveEpochChange f e = match openPacket k h.pkt with
      | none => (u.authFailed f e).nextCandidate f
      | some _ => ((t.epochTaken f e k).packetRelease f e).nextCandidate f := by
  have htaken : ¬ ((s.fcc.get f).candidate ≠ some e ∨ (!s.rootUsable x.root) = true ∨ s.cpe.busy = true ∨
      (!s.laneReady (fccIx f)) = true) := by
    simp [hcandidate, hroot, hidle, hlane]
  subst hx hu ht hk
  simp only [State.receiveEpochChange, hheld, if_neg htaken, ← hnodes] <;> rfl

end Sys2Proof.FabricReceiving

open Sys2Proof Sys2Proof.Machine Sys2Proof.FabricReceiving

/-- Settles O26: a clause for each command; a packet that arrives is split by the tests of R320 that it passes. -/
theorem fabricReceivingComplete : Obligations.FabricReceivingComplete := by
  unfold Obligations.FabricReceivingComplete
  refine ⟨?receive, ?release, ?done, ?atomic, ?change, fun f e s => exec_ackSend_of_due f e,
    fun f e s => exec_ackIntervalExpiry_of_waiting f e, fun f n s => exec_replyHoldExpiry_of_held f n, fun f s => exec_replyCacheAgeTick f⟩
  case receive =>
    intro f p b s me hrun hlive hme
    rw [exec_packetReceive f p b hrun]
    refine ⟨fun hformed => ?_, fun hformed hdst => ?_, fun hformed hdst hnone => ?_, fun e x hformed hdst he hx =>
      ⟨fun htype => ?_, fun htype hepoch => ?epoch, fun htype hepoch hseq hrel => ?next, fun htype hepoch hnot => ?_⟩⟩
    · rw [packetReceive_of_malformed hlive hme hformed]
    · rw [packetReceive_of_other_node hlive hme hformed hdst]
    · rw [packetReceive_of_no_entry hlive hme hformed hdst hnone]
    · rw [packetReceive_of_control hlive hme hformed hdst he hx htype]
    case epoch =>
      rw [packetReceive_of_epoch hlive hme hformed hdst he hx htype hepoch]
      refine ⟨fun hold => ?_, fun hfar => ?_, fun hnew hnear => ?_⟩
      · rw [if_pos hold]
      · rw [if_neg (by omega), if_pos hfar]
      rw [if_neg (Nat.not_lt.2 hnew), if_neg (Nat.not_le.2 hnear)]
      refine ⟨fun hcopy => ?_, fun hno => ?_⟩
      · rw [if_pos hcopy]
      rw [if_neg (Bool.eq_false_iff.1 hno)]
      refine ⟨fun hfull => ?_, fun hroom u hu => ?_⟩
      · rw [if_pos hfull]
      · rw [if_neg (Nat.not_le.2 hroom), hu]
    case next =>
      rw [packetReceive_of_next_epoch hlive hme hformed hdst he hx htype hepoch hseq hrel]
      refine ⟨fun hcopy => ?_, fun hno => ?_⟩
      · rw [if_pos hcopy]
      rw [if_neg (Bool.eq_false_iff.1 hno)]
      exact ⟨fun hfull => by rw [holdCandidate_of_full hfull], fun hroom u hu => by rw [holdCandidate_of_room hroom hu]⟩
    · rw [packetReceive_of_other_epoch hlive hme hformed hdst he hx htype hepoch hnot]
  case release =>
    intro f e s t u x h id hx hheld hrecv hready hroom hu
    exact congrArg Host.Outcome.next (packetRelease_of_held hx hheld hrecv hready hroom hu)
  case done =>
    intro f e q ok s hrel
    rw [exec_packetDone, packetDone_of_entered rfl hrel]
  case atomic =>
    intro f e q ok old s u x n hx hrel hmatch hu
    rw [exec_atomicResult, atomicResult_of_match hx hrel hmatch hu]
  case change =>
    intro f e s t u x h k src dst hx hnodes hheld hcandidate hroot hidle hlane hk ht hu
    exact congrArg Host.Outcome.next (receiveEpochChange_of_candidate hx hnodes hheld hcandidate hroot hidle hlane hk ht hu)
end

section
/-!
SUPPORT and PROOF. The stream commands of a mailbox: STREAM_OPEN once its checks have passed (R299, R308, R604), STREAM_CLOSE and
STREAM_FENCE from their acceptance on (R331, R338, R339), STREAM_REKEY and the epoch change that it begins (R305); from these O27.
-/

namespace Sys2Proof.StreamCommands

open Sys2Proof Sys2Proof.Machine

variable {s t : State} {h : Hdr} {c : Cmd} {f e : Nat}

/-! ### STREAM_OPEN (R299, R308, R340, R604) -/

theorem exec_streamOpen {sel peer root : Word32} (ha : s.arrival h 0x27 [sel, peer, root] = some (t, c)) :
    exec (.streamOpen h sel peer root) s = .next (s.thenReap (t.streamOpen sel peer root c)) :=
  congrArg Host.Outcome.next (Laws.command_arrival s t h 0x27 _ c _ ha)

/-- An open that passes every check takes the lowest free entry. -/
theorem streamOpen_of_checked {sel peer root : Word32} {tdid p n : Nat} (hf : f = fld sel 3 0) (htdid : tdid = fld sel 14 8)
    (hp : p = t.tdidPart tdid) (hlow : fld sel 7 5 = 0) (hmid : sel.getLsbD 15 = false) (hhigh : fld sel 31 24 = 0)
    (hpeer : fld peer 31 16 = 0) (hp0 : p ≠ 0) (hpart : c.part = 0 ∨ c.part = p) (hroot : t.named c 4 root = .ok n)
    (hgate : t.gate p 0x27 = true) (hfabric : (t.slot n).fabricRoot = true) (hslot : (t.slot n).tdid = tdid)
    (hnode : (t.fccNode f).isSome = true) (hlive : t.live (fccIx f) = true)
    (hepoch : sel.getLsbD 4 = false → t.epochUsed ((t.fccNode f).getD 0) (fld peer 15 0) tdid (fld sel 23 16) = false)
    (hroom : t.objCount 5 p < t.allot p 7)
    (hfirst : firstFrom 0 2048 (fun e => (t.entry f e).state == 0 && !(t.obj (objKey 5 (streamKey f e))).used) = some e) :
    t.streamOpen sel peer root c = t.openEntry c f e (sel.getLsbD 4) tdid (fld sel 23 16) (fld peer 15 0) n := by
  subst hf htdid hp
  have hreserved : ¬ (fld sel 7 5 ≠ 0 ∨ sel.getLsbD 15 = true ∨ fld sel 31 24 ≠ 0 ∨ fld peer 31 16 ≠ 0) := by
    rintro (hl | hm | hh | hr)
    · exact hl hlow
    · exact Bool.eq_false_iff.1 hmid hm
    · exact hh hhigh
    · exact hr hpeer
  have hforeign : ¬ (t.tdidPart (fld sel 14 8) = 0 ∨ c.part ≠ 0 ∧ c.part ≠ t.tdidPart (fld sel 14 8)) := by
    rintro (hnone | ⟨hsome, hother⟩)
    · exact hp0 hnone
    · exact hpart.elim hsome hother
  have hunfit : ¬ ((!((t.slot n).fabricRoot && (t.slot n).tdid == fld sel 14 8)) = true ∨ (t.fccNode (fld sel 3 0)).isNone = true ∨
      (!t.live (fccIx (fld sel 3 0))) = true) := by
    simp [hfabric, hslot, hlive, Option.isSome_iff_ne_none.1 hnode]
  have hused : ¬ (!sel.getLsbD 4 && t.epochUsed ((t.fccNode (fld sel 3 0)).getD 0) (fld peer 15 0) (fld sel 14 8) (fld sel 23 16)) = true := by
    cases hrecv : sel.getLsbD 4 with
    | false => simp [hepoch hrecv]
    | true => simp
  simp only [State.streamOpen, if_neg hreserved, if_neg hforeign, hroot, hgate, Bool.not_true, Bool.false_eq_true, if_false, if_neg hunfit,
    if_neg hused, ge_iff_le, if_neg (Nat.not_le.2 hroom), hfirst]

/-! ### STREAM_CLOSE and STREAM_FENCE (R331, R338, R339) -/

section Fence

variable {st fe v : Word32} {x : Nat}

theorem exec_streamClose (ha : s.arrival h 0x28 [st, fe, v] = some (t, c)) (hnames : t.streamAndFence c st fe 0x28 = .ok (f, e, x)) :
    exec (.streamClose h st fe v) s = .next (s.thenReap ((t.acceptA (c.onStream f e x v) []).closeStream f e)) := by
  refine congrArg Host.Outcome.next ((Laws.command_arrival s t h 0x28 _ c _ ha).trans (congrArg s.thenReap ?_))
  rw [hnames]

/-- The fence of a send entry fails at once when the entry is CLOSED or LOST, and is queued otherwise. -/
theorem exec_streamFence_of_send (ha : s.arrival h 0x29 [st, fe, v] = some (t, c))
    (hnames : t.streamAndFence c st fe 0x29 = .ok (f, e, x)) (hsend : (t.entry f e).recv = false) :
    exec (.streamFence h st fe v) s = .next (s.thenReap (
      if (t.entry f e).state = 0 ∨ (t.entry f e).state = 3 then
        (t.acceptA (c.onStream f e x v) []).streamFenceEnd (streamKey f e) x v.toNat (some 0x12)
      else ((t.acceptA (c.onStream f e x v) []).onEntry f e (fun y => { y with fenceQ := y.fenceQ ++ [(x, v.toNat)] })).fenceCheck f e)) := by
  refine congrArg Host.Outcome.next ((Laws.command_arrival s t h 0x29 _ c _ ha).trans (congrArg s.thenReap ?_))
  simp only [hnames, hsend, Bool.false_eq_true, if_false]

end Fence

/-! ### STREAM_REKEY and the start of an epoch change (R305, R306) -/

theorem exec_streamRekey_of_open {st : Word32} (ha : s.arrival h 0x2A [st] = some (t, c)) (hname : t.namedStream c st = .ok (f, e))
    (hgate : t.gate (t.actsFor c (objKey 5 (streamKey f e))) 0x2A = true) (hsend : (t.entry f e).recv = false)
    (hopen : (t.entry f e).state = 1) :
    exec (.streamRekey h st) s = .next (s.thenReap ((t.startChange f e).answer c 0)) := by
  have htaken : ¬ ((t.entry f e).recv = true ∨ (t.entry f e).state ≠ 1) := by simp [hsend, hopen]
  refine congrArg Host.Outcome.next ((Laws.command_arrival s t h 0x2A _ c _ ha).trans (congrArg s.thenReap ?_))
  simp only [hname, hgate, Bool.not_true, Bool.false_eq_true, if_false, if_neg htaken]

theorem startChange_of_open (hopen : (s.entry f e).state = 1) (hepoch : (s.entry f e).epoch ≠ 255) :
    s.startChange f e = (s.onEntry f e (fun x => { x with state := 2, asked := true })).noteStream f e := by
  unfold State.startChange
  rw [if_neg (not_not_intro hopen), if_neg hepoch]

/-- A trace record of a stream changes the islands' records only (R659). -/
theorem noteStream_eq : ∃ r, s.noteStream f e = { s with isl := r } := Laws.note_eq ..

@[simp] theorem entry_noteStream (f' e' : Nat) : (s.noteStream f e).entry f' e' = s.entry f' e' := by
  obtain ⟨r, hr⟩ := noteStream_eq (s := s) (f := f) (e := e)
  rw [hr]
  rfl

theorem entry_onEntry_of_ne_default {g : FccEntry → FccEntry} (hne : g (s.entry f e) ≠ default) :
    (s.onEntry f e g).entry f e = g (s.entry f e) :=
  Laws.tbl_get_modify_of_ne_default s.streams (streamKey f e) g hne

/-- An epoch change that begins leaves the entry CHANGING, and everything else of it but the request for a key as it was. -/
theorem entry_startChange_of_open (hopen : (s.entry f e).state = 1) (hepoch : (s.entry f e).epoch ≠ 255) :
    (s.startChange f e).entry f e = { s.entry f e with state := 2, asked := true } := by
  rw [startChange_of_open hopen hepoch, entry_noteStream, entry_onEntry_of_ne_default]
  intro hdefault
  have hasked : true = false := congrArg FccEntry.asked hdefault
  exact Bool.noConfusion hasked

end Sys2Proof.StreamCommands

open Sys2Proof Sys2Proof.Machine Sys2Proof.StreamCommands

/-- Settles O27: a clause for each command, and the entry that an epoch change leaves. -/
theorem streamCommandsComplete : Obligations.StreamCommandsComplete := by
  unfold Obligations.StreamCommandsComplete
  refine ⟨?opens, fun h st fe v s t c f e x => exec_streamClose, fun h st fe v s t c f e x => exec_streamFence_of_send,
    fun h st s t c f e => exec_streamRekey_of_open, ?change⟩
  case opens =>
    intro h sel peer root s t c f tdid p n e ha hf htdid hp hlow hmid hhigh hpeer hp0 hpart hroot hgate hfabric hslot hnode hlive hepoch
      hroom hfirst
    rw [exec_streamOpen ha, streamOpen_of_checked hf htdid hp hlow hmid hhigh hpeer hp0 hpart hroot hgate hfabric hslot hnode hlive hepoch
      hroom hfirst]
  case change =>
    intro s f e hopen hepoch
    rw [entry_startChange_of_open hopen hepoch]
    exact ⟨rfl, rfl, rfl⟩
end

section
/-!
SUPPORT and PROOF. Key management of IDE: KEY_PROG, K_SET_GO and K_SET_STOP by the context and the slot they find (R341 to R343);
and TDISP: what each message is answered, by the partition and the interface it names (R344, R345); from these O29.
-/

namespace Sys2Proof.KeyManagement

open Sys2Proof Sys2Proof.Machine

variable {s u : State}

/-! ### IDE_KM (R341 to R343) -/

section Km

variable {m : KmMsg} (hup : s.kmUp = true)
include hup

theorem exec_ideKmQuery_of_up : exec (.ideKmQuery m) s = .next (s.kmAnswer 1 (kmEcho m)) :=
  congrArg Host.Outcome.next (if_pos hup)

/-- With no context or no slot at hand nothing is programmed. -/
theorem keyProg_of_no_place (hnone : s.ctxFor m.stream = none ∨ s.slotForFill m.part.val = none) :
    s.keyProg m = s.kmAnswer 3 (kmEcho m ++ [4]) := by
  simp only [State.keyProg, hup, Bool.not_true, Bool.false_eq_true, if_false]
  obtain hctx | hslot := hnone
  · rw [hctx]
  · rw [hslot]
    cases s.ctxFor m.stream <;> rfl

variable {n : Nat}

/-- With a context and a slot at hand KEY_PROG turns on the partition, the message and what the context holds. -/
theorem keyProg_of_place {slot ix : Nat} (hctx : s.ctxFor m.stream = some n) (hslot : s.slotForFill m.part.val = some slot)
    (hix : ix = keyIx m.sub m.rx m.kset)
    (hu : u = if (s.hcc.ctxs.get n).keys.get ix = 0 then s else s.ideDrop ((s.hcc.ctxs.get n).keys.get ix)) :
    s.keyProg m =
      if (s.part m.part.val).state = .none ∨ m.sub = 3 ∨ m.key.length ≠ 32 ∨
        ((s.hcc.ctxs.get n).valid = true ∧ (s.hcc.ctxs.get n).part ≠ m.part.val) ∨ (s.hcc.ctxs.get n).going.contains ix = true
      then s.kmAnswer 3 (kmEcho m ++ [4])
      else (((u.fillSlot slot (u.ideAttr m.part.val) m.key).slotObject slot 0 true).onCtx n (fun x => { x with
        valid := true, stream := m.stream, part := m.part.val, state := if x.state = 0 then 1 else x.state
        keys := x.keys.set ix slot, count := x.count.set ix 0 })).kmAnswer 3 (kmEcho m ++ [0]) := by
  subst hix hu
  simp only [State.keyProg, hup, hctx, hslot, Bool.not_true, Bool.false_eq_true, if_false]

theorem kSetGo_of_programmed {ix : Nat} (hctx : s.ideCtx m.stream = some n) (hix : ix = keyIx m.sub m.rx m.kset)
    (hkey : (s.hcc.ctxs.get n).keys.get ix ≠ 0) :
    s.kSetGo m = (s.onCtx n (fun x =>
      let y := { x with
        going := x.going.filter (fun g => g != keyIx m.sub m.rx !m.kset && g != ix) ++ [ix]
        ksetRx := if m.rx then m.kset else x.ksetRx, ksetTx := if m.rx then x.ksetTx else m.kset }
      if y.allGo then { y with state := 2 } else y)).kmAnswer 6 (kmEcho m) := by
  subst hix
  simp only [State.kSetGo, hup, hctx, if_neg hkey, Bool.not_true, Bool.false_eq_true, if_false]

theorem kSetStop_of_context {ix : Nat} (hctx : s.ideCtx m.stream = some n) (hix : ix = keyIx m.sub m.rx m.kset)
    (hu : u = (if (s.hcc.ctxs.get n).keys.get ix = 0 then s else s.ideDrop ((s.hcc.ctxs.get n).keys.get ix)).onCtx n (fun x => { x with
      keys := x.keys.set ix 0, count := x.count.set ix 0, going := x.going.filter (· != ix) })) :
    s.kSetStop m = (State.ctxTidy (if (s.hcc.ctxs.get n).state = 2 ∧ (s.hcc.ctxs.get n).going.contains ix
      then u.streamInsecure n else u) n).kmAnswer 6 (kmEcho m) := by
  subst hix hu
  simp only [State.kSetStop, hup, hctx, Bool.not_true, Bool.false_eq_true, if_false]

end Km

/-! ### TDISP messages (R344) -/

section Tdisp

variable {p : Nat} {b : State} (hup : s.fwUp = true)
include hup

theorem tdisp_of_no_part (hnone : (s.part p).state = .none) : s.tdisp p b = s.tdispAnswer 0x7F (toLe 4 0x101) := by
  simp only [State.tdisp, hup, hnone, Bool.not_true, Bool.false_eq_true, if_false, if_true]

theorem tdisp_of_part (hpart : (s.part p).state ≠ .none) : s.tdisp p b = b := by
  simp only [State.tdisp, hup, if_neg hpart, Bool.not_true, Bool.false_eq_true, if_false]

end Tdisp

/-! ### Lock and start of an interface (R345) -/

section Interface

variable {p n : Nat} {v : BitVec 8}

/-- A stream with a context: the lock turns on the interface, the context and the bindings. -/
theorem lockInterface_of_context (hctx : s.ideCtx v = some n) :
    s.lockInterface p v =
      if s.boundTdid p = 0 ∨ (s.tdi p).state ≠ 0 ∨ ¬ ((s.hcc.ctxs.get n).state = 2 ∧ (s.hcc.ctxs.get n).part = p) ∨
        (s.boundPart v).isSome = true
      then s.tdispAnswer 0x7F (toLe 4 4)
      else (({ s with free := s.free + 1 } : State).onTdi p (fun _ =>
        { state := 1, stream := some v, nonce := Config.freeBytes s.free 32 })).tdispAnswer 3 (Config.freeBytes s.free 32) := by
  simp only [State.lockInterface, hctx]
  refine if_congr ?_ rfl rfl
  simp only [Bool.not_eq_true', Bool.and_eq_false_iff, beq_eq_false_iff_ne, not_and_or, ne_eq]

theorem lockInterface_of_no_context (hctx : s.ideCtx v = none) : s.lockInterface p v = s.tdispAnswer 0x7F (toLe 4 4) := by
  simp [State.lockInterface, hctx]

theorem lockInterface_of_secure (htdid : s.boundTdid p ≠ 0) (hstate : (s.tdi p).state = 0) (hctx : s.ideCtx v = some n)
    (hsecure : (s.hcc.ctxs.get n).state = 2) (hpart : (s.hcc.ctxs.get n).part = p) (hfree : s.boundPart v = none) :
    s.lockInterface p v = (({ s with free := s.free + 1 } : State).onTdi p (fun _ =>
      { state := 1, stream := some v, nonce := Config.freeBytes s.free 32 })).tdispAnswer 3 (Config.freeBytes s.free 32) := by
  rw [lockInterface_of_context hctx, if_neg]
  rintro (hno | hlocked | hopen | hbound)
  · exact htdid hno
  · exact hlocked hstate
  · exact hopen ⟨hsecure, hpart⟩
  · simp [hfree] at hbound

theorem lockInterface_of_unmet (hunmet : s.boundTdid p = 0 ∨ (s.tdi p).state ≠ 0 ∨ s.ideCtx v = none ∨ (∃ q, s.boundPart v = some q) ∨
      (∃ n, s.ideCtx v = some n ∧ ((s.hcc.ctxs.get n).state ≠ 2 ∨ (s.hcc.ctxs.get n).part ≠ p))) :
    s.lockInterface p v = s.tdispAnswer 0x7F (toLe 4 4) := by
  cases hctx : s.ideCtx v with
  | none => exact lockInterface_of_no_context hctx
  | some n =>
    rw [lockInterface_of_context hctx, if_pos]
    obtain hno | hlocked | hnone | ⟨q, hbound⟩ | ⟨k, hk, hopen⟩ := hunmet
    · exact .inl hno
    · exact .inr (.inl hlocked)
    · simp [hctx] at hnone
    · exact .inr (.inr (.inr (Option.isSome_of_eq_some hbound)))
    · obtain rfl : n = k := Option.some.inj (hctx.symm.trans hk)
      exact .inr (.inr (.inl (not_and_or.2 hopen)))

theorem startInterface_of_nonce {x : Bytes} (hlocked : (s.tdi p).state = 1) (hnonce : (s.tdi p).nonce = x) :
    s.startInterface p x = (s.onTdi p (fun t => { t with state := 2, nonce := [] })).tdispAnswer 6 [] :=
  if_pos ⟨hlocked, hnonce⟩

theorem startInterface_of_unmet {x : Bytes} (hunmet : (s.tdi p).state ≠ 1 ∨ (s.tdi p).nonce ≠ x) :
    s.startInterface p x = s.tdispAnswer 0x7F (toLe 4 (if (s.tdi p).state = 1 then 0x102 else 4)) :=
  if_neg (not_and_or.2 hunmet)

end Interface

/-! ### The commands -/

section
variable (m : KmMsg) (p : Fin 128) (v : BitVec 8) (x : Bytes)

theorem exec_ideKmKeyProg : exec (.ideKmKeyProg m) s = .next (s.keyProg m) := rfl

theorem exec_ideKmKSetGo : exec (.ideKmKSetGo m) s = .next (s.kSetGo m) := rfl

theorem exec_ideKmKSetStop : exec (.ideKmKSetStop m) s = .next (s.kSetStop m) := rfl

theorem exec_getTdispVersion : exec (.getTdispVersion p) s = .next (s.tdisp p.val (s.tdispAnswer 1 [1, 0x10])) := rfl

theorem exec_getTdispCapabilities : exec (.getTdispCapabilities p) s = .next (s.tdisp p.val (s.tdispAnswer 2 [])) := rfl

theorem exec_getDeviceInterfaceReport : exec (.getDeviceInterfaceReport p) s = .next (s.tdisp p.val
    (s.tdispAnswer 4 (Config.mmioRanges p.val ++ Sha.sha384 (s.att.standing.get p.val)))) := rfl

theorem exec_getDeviceInterfaceState : exec (.getDeviceInterfaceState p) s = .next (s.tdisp p.val
    (s.tdispAnswer 5 [BitVec.ofNat 8 (s.tdi p.val).state.toNat])) := rfl

theorem exec_stopInterfaceRequest : exec (.stopInterfaceRequest p) s = .next (s.tdisp p.val
    ((s.onTdi p.val (fun _ => {})).tdispAnswer 7 [])) := rfl

theorem exec_lockInterfaceRequest : exec (.lockInterfaceRequest p v) s = .next (s.tdisp p.val (s.lockInterface p.val v)) := rfl

theorem exec_startInterfaceRequest : exec (.startInterfaceRequest p x) s = .next (s.tdisp p.val (s.startInterface p.val x)) := rfl

end

end Sys2Proof.KeyManagement

open Sys2Proof Sys2Proof.Machine Sys2Proof.KeyManagement

/-- Settles O29: a clause for each IDE_KM message, KEY_PROG with both outcomes; then the TDISP messages for a partition that does not
exist and for one that does. -/
theorem keyManagementAndTdispComplete : Obligations.KeyManagementAndTdispComplete := by
  unfold Obligations.KeyManagementAndTdispComplete
  refine ⟨fun m s => exec_ideKmQuery_of_up, ?program, ?go, ?stop, ?refused, ?absent, ?present⟩
  case program =>
    intro m s u n slot ix hup hctx hslot hpart hsub hlen hown hix hidle hu
    rw [exec_ideKmKeyProg, keyProg_of_place hup hctx hslot hix hu, if_neg]
    rintro (hnone | hsub3 | hshort | ⟨hvalid, hother⟩ | hgoing)
    · exact hpart hnone
    · exact hsub hsub3
    · exact hshort hlen
    · exact hother (hown hvalid)
    · exact Bool.eq_false_iff.1 hidle hgoing
  case go =>
    intro m s n ix hup hctx hix hkey
    rw [exec_ideKmKSetGo, kSetGo_of_programmed hup hctx hix hkey]
  case stop =>
    intro m s u n ix hup hctx hix hu
    rw [exec_ideKmKSetStop, kSetStop_of_context hup hctx hix hu]
  case refused =>
    intro m s hup hbad
    rw [exec_ideKmKeyProg]
    obtain hctx | hslot | ⟨n, hctx, hbad⟩ := hbad
    · rw [keyProg_of_no_place hup (.inl hctx)]
    · rw [keyProg_of_no_place hup (.inr hslot)]
    · cases hslot : s.slotForFill m.part.val with
      | none => rw [keyProg_of_no_place hup (.inr hslot)]
      | some slot => rw [keyProg_of_place hup hctx hslot rfl rfl, if_pos hbad]
  case absent =>
    rintro p v x s u hup hnone rfl
    rw [exec_getTdispVersion, exec_getTdispCapabilities, exec_getDeviceInterfaceReport, exec_getDeviceInterfaceState,
      exec_stopInterfaceRequest, exec_lockInterfaceRequest, exec_startInterfaceRequest]
    simp only [tdisp_of_no_part hup hnone, and_self]
  case present =>
    intro p s hup hpart
    simp only [exec_getTdispVersion, exec_getTdispCapabilities, exec_getDeviceInterfaceReport, exec_getDeviceInterfaceState,
      exec_stopInterfaceRequest, exec_lockInterfaceRequest, exec_startInterfaceRequest, tdisp_of_part hup hpart, true_and]
    refine ⟨fun v n htdid hstate hctx hsecure hown hfree => ?_, fun x hlocked hnonce => ?_, fun v hunmet => ?_, fun x hunmet => ?_⟩
    · rw [lockInterface_of_secure htdid hstate hctx hsecure hown hfree]
    · rw [startInterface_of_nonce hlocked hnonce]
    · rw [lockInterface_of_unmet hunmet]
    · rw [startInterface_of_unmet hunmet]
end

section
/-!
SUPPORT and PROOF. The signature commands once their checks have passed, the partials that gather, the merge, and the free that waits
(R355 to R357, R372 to R376); from these O30.
-/

namespace Sys2Proof.SignatureCommands

open Sys2Proof Sys2Proof.Machine

variable {s t u v : State} {h : Hdr} {c : Cmd}

/-! ### Commands whose descriptor Tower reads (R602) -/

theorem withBuffer_some (addr : BitVec 64) (len : Nat) (b : Bytes) (f : State → Bytes → State) :
    s.withBuffer c addr len (some b) f = f (s.dmaRead (s.bufferTdid c) addr.toNat len) (Bytes.fit b len) := rfl

/-! ### SIG_OPEN (R355 to R357) -/

theorem exec_sigOpen {addr : BitVec 64} {b : Bytes} (ha : s.arrival h 0x2B (addrWords addr) = some (t, c)) :
    exec (.sigOpen h addr (some b)) s =
      .next (s.thenReap ((t.dmaRead (t.bufferTdid c) addr.toNat 32).sigOpen c (Bytes.fit b 32))) :=
  congrArg Host.Outcome.next ((Laws.command_arrival s t h 0x2B _ c _ ha).trans
    (congrArg s.thenReap (withBuffer_some addr 32 b _)))

/-- A descriptor that passes every check of R356 makes its signature at the place that is free. -/
theorem sigOpen_of_checked {x : Bytes} {p i n : Nat} {f : Format}
    (hp : p = if c.part = 0 then u.tdidPart (sigOfDesc x).tdid else c.part) (hformed : sigDescFormed x = true) (hp0 : p ≠ 0)
    (howns : u.ownsTdid p (sigOfDesc x).tdid = true) (hgate : u.gate p 0x2B = true) (hformat : u.sigFormat (sigOfDesc x) = some f)
    (hlimit : u.sigLimit p (sigOfDesc x) = false) (hplace : u.sigPlace = some (i, n)) :
    u.sigOpen c x = u.sigMake c p (sigOfDesc x) f i n := by
  unfold State.sigOpen
  simp only [← hp]
  rw [if_neg (by simp [hformed]), if_neg (by simp [hp0, howns]), if_neg (by simp [hgate])]
  simp only [hformat]
  rw [if_neg (by simp [hlimit])]
  simp only [hplace]

/-! ### SIG_CLOSE and SIG_FREE (R374) -/

section Named

variable {w : Word32} {n : Nat} (hn : t.namedSig c w = .ok n)
include hn

theorem exec_sigClose (ha : s.arrival h 0x2C [w] = some (t, c)) :
    exec (.sigClose h w) s = .next (s.thenReap (t.sigClose c n)) := by
  refine congrArg Host.Outcome.next ((Laws.command_arrival s t h 0x2C [w] c _ ha).trans (congrArg s.thenReap ?_))
  rw [hn]

theorem exec_sigFree_of_gate (ha : s.arrival h 0x2D [w] = some (t, c)) (hgate : t.gate (t.bel.sigs.get n).part 0x2D = true) :
    exec (.sigFree h w) s =
      .next (s.thenReap (((t.onSig n (fun g => { g with freeWanted := true })).sigRelease n).answer c 0)) := by
  refine congrArg Host.Outcome.next ((Laws.command_arrival s t h 0x2D [w] c _ ha).trans (congrArg s.thenReap ?_))
  rw [hn]
  exact if_neg (by simp [hgate])

end Named

theorem sigClose_of_opened {n : Nat} (hgate : t.gate (t.bel.sigs.get n).part 0x2C = true)
    (hstate : (t.bel.sigs.get n).state = .opened) :
    t.sigClose c n = ((List.range 8).foldl State.sigCleared ((t.clearSign (t.bel.sigs.get n)).onSig n (fun g =>
      { g with state := .closing, ready := [], cleared := [] }))).answer c 0 := by
  unfold State.sigClose
  rw [if_neg (by simp [hgate]), if_neg (not_not_intro hstate)]

/-- A CLOSED signature whose free waits goes when nothing refers to it; its SIGN is clear already. -/
theorem sigRelease_of_closed {n : Nat} (hfree : (s.bel.sigs.get n).freeWanted = true) (hrefs : s.sigRefs n = 0)
    (hclosed : (s.bel.sigs.get n).state = .closed) : s.sigRelease n = s.dropSig n := by
  unfold State.sigRelease
  rw [if_pos ⟨hfree, hrefs, .inr hclosed⟩, if_neg (by simp [hclosed])]

theorem dropSig_eq (n : Nat) : s.dropSig n = State.scalesRest { s with
    bel := { s.bel with sigs := s.bel.sigs.set n default }
    mem := s.mem.mapKeys (fun _ m => { m with ops := m.ops.map (fun o => if o.sig == some n then { o with sig := none } else o) }) } :=
  rfl

/-! ### Partials and merges (R375, R376) -/

theorem exec_partialReady (k : Fin 8) (i : Fin 64) : exec (.partialReady k i) s = .next (s.partialReady k.val i.val) := rfl

theorem exec_mergeComplete : exec .mergeComplete s = .next s.mergeComplete := rfl

/-- A unit whose marker has passed is recorded; with the last unit in service the merge joins the combiner's order. -/
theorem partialReady_of_marked {k i n : Nat} (hmarked : s.markedSig k i = some n)
    (hu : u = s.onSig n (fun g => { g with ready := g.ready ++ [k] }))
    (hv : v = (u.onSig n (fun g => { g with state := .merging })).scalesRest) :
    s.partialReady k i = if (List.range 8).all (fun x => !u.live (mccIx x) || (u.bel.sigs.get n).ready.contains x) then
      State.combine { v with bel := { v.bel with ready := v.bel.ready ++ [.merge n] } } else u := by
  subst hu hv
  simp only [State.partialReady, hmarked]

/-- Counting an event neither reads nor changes Belfry. -/
theorem countT_with_bel (i code tdid n : Nat) (b : Belfry) :
    { s.countT i code tdid n with bel := b } = State.countT { s with bel := b } i code tdid n := by
  unfold State.countT State.count
  split <;> rfl

theorem mergeComplete_of_running {n : Nat} (hrunning : s.bel.running = some (.merge n)) :
    s.mergeComplete = State.reap ((State.combine (State.countT
      { s with bel := { s.bel with sigs := s.bel.sigs.modify n Sig.merged, running := none } } 43 0x68 128)).sigRelease n) := by
  simp only [State.mergeComplete, hrunning, countT_with_bel]
  rfl

end Sys2Proof.SignatureCommands

open Sys2Proof Sys2Proof.Machine Sys2Proof.SignatureCommands

/-- Settles O30: a clause for each command, then the release of a CLOSED signature. -/
theorem signatureCommandsComplete : Obligations.SignatureCommandsComplete := by
  unfold Obligations.SignatureCommandsComplete
  refine ⟨?opened, ?close, fun h w s t c n ha hn hgate => exec_sigFree_of_gate hn ha hgate, ?ready, ?merged, ?released⟩
  case opened =>
    intro h addr b x s t u c p i n f ha hx hu hp hformed hp0 howns hgate hformat hlimit hplace
    rw [exec_sigOpen ha, ← hx, ← hu, sigOpen_of_checked hp hformed hp0 howns hgate hformat hlimit hplace]
  case close =>
    intro h w s t c n ha hn hgate hstate
    rw [exec_sigClose hn ha, sigClose_of_opened hgate hstate]
  case ready =>
    intro k i s u v n hmarked hu hv
    rw [exec_partialReady, partialReady_of_marked hmarked hu hv]
  case merged =>
    intro s n hrunning
    rw [exec_mergeComplete, mergeComplete_of_running hrunning]
  case released =>
    intro s n hfree hrefs hclosed
    rw [sigRelease_of_closed hfree hrefs hclosed, dropSig_eq]
end

section
/-!
SUPPORT and PROOF. Checks: a submission that passes its tests, the start at an idle combiner, the delivery, and the verdict by the flags
of the three signatures (R379 to R383, R387); from these O31.
-/

namespace Sys2Proof.CheckCommands

open Sys2Proof Sys2Proof.Machine

variable {s t u : State} {h : Hdr} {c : Cmd}

/-! ### CHECK_SUBMIT (R379, R380) -/

theorem exec_checkSubmit {addr : BitVec 64} {b : Bytes} (ha : s.arrival h 0x2E (addrWords addr) = some (t, c)) :
    exec (.checkSubmit h addr (some b)) s =
      .next (s.thenReap ((t.dmaRead (t.bufferTdid c) addr.toNat 64).checkSubmit c addr (Bytes.fit b 64))) :=
  congrArg Host.Outcome.next ((Laws.command_arrival s t h 0x2E _ c _ ha).trans
    (congrArg s.thenReap (SignatureCommands.withBuffer_some addr 64 b _)))

/-- A formed descriptor that passes every test of R380 makes its check. -/
theorem checkSubmit_of_checked {addr : BitVec 64} {x : Bytes} {p n a d e fe : Nat} (hformed : checkFormed x = true)
    (ha : u.namedSig c (BitVec.ofNat 32 (Bytes.le x 4 2)) = .ok a) (hd : u.namedSig c (BitVec.ofNat 32 (Bytes.le x 6 2)) = .ok d)
    (he : u.namedSig c (BitVec.ofNat 32 (Bytes.le x 8 2)) = .ok e)
    (hfence : u.namedFence c (BitVec.ofNat 32 (Bytes.le x 12 4)) = .ok fe) (hp : p = u.checkPart c a)
    (hpa : (u.bel.sigs.get a).part = p) (hpd : (u.bel.sigs.get d).part = p) (hpe : (u.bel.sigs.get e).part = p)
    (hpf : (u.obj (objKey 6 fe)).part = p) (hgate : u.gate p 0x2E = true) (hka : (u.bel.sigs.get a).kind ≠ 0)
    (hkd : (u.bel.sigs.get d).kind ≠ 0) (hlen : (u.bel.sigs.get a).vlen = (u.bel.sigs.get d).vlen)
    (hcurve : (u.tolerance (Bytes.at x 2) 1).isSome = true) (hallot : u.objCount 7 p < u.allot p 11)
    (hfree : u.freeIndex 7 = some n) : u.checkSubmit c addr x = u.checkMake c p n fe addr x := by
  have hdefined : (u.tolerance (Bytes.at x 2) 1).isNone = false := by rw [← Option.not_isSome, hcurve]; rfl
  unfold State.checkSubmit
  rw [if_neg (by simp [hformed])]
  simp only [ha, hd, he, hfence, ← hp]
  rw [if_neg (by simp [hpa, hpd, hpe, hpf]), if_neg (by simp [hgate]), if_neg (by simp [hka, hkd, hlen, hdefined]),
    if_neg (Nat.not_le.2 hallot)]
  simp only [hfree]

/-! ### CHECK_START and CHECK_COMPLETE (R381, R387) -/

theorem exec_checkStart : exec .checkStart s = .next s.checkStart := rfl

theorem exec_checkComplete : exec .checkComplete s = .next s.checkComplete.removals := rfl

theorem checkStart_of_idle {n : Nat} {rest : List BfcWork} (hidle : s.combine.bel.running = none)
    (hhead : s.combine.bel.ready = .check n :: rest) (hrun : (s.combine.isl.get 43).swap = .run)
    (hpresent : s.combine.present 43 = true) :
    s.checkStart = { s.combine with bel := { s.combine.bel with ready := rest, running := some (.check n) } } := by
  simp only [State.checkStart, hidle, hhead]
  exact if_neg (by simp [hrun, hpresent])

theorem checkComplete_of_running {n : Nat} {r : CheckRes} (hrunning : s.bel.running = some (.check n)) (hr : r = s.checkResult n) :
    s.checkComplete = State.combine
      (State.checkDeliver { s with bel := { s.bel with running := none } } n r.verdict r.ratio r.k r.bytes) := by
  subst hr
  simp only [State.checkComplete, hrunning]

/-! ### Verdicts (R383, R387) -/

section Verdict

variable {a b c : Sig} {y floor : Word32} {fl : BitVec 4} (hfl : fl = a.flags ||| b.flags ||| c.flags)
include hfl

/-- The flags of the three signatures decide first; only then do an overflow of the check itself and the comparison. -/
theorem decideCheck_verdict_of_flags : ∃ spilt fits : Bool, (decideCheck a b c y floor).verdict =
    if fl.getLsbD 0 then 4 else if fl.getLsbD 2 then 3 else if fl.getLsbD 1 || fl.getLsbD 3 || spilt then 5
    else if fits then 1 else 2 := by
  subst hfl
  exact ⟨_, _, rfl⟩

theorem decideCheck_verdict_of_corrupt (hcorrupt : fl.getLsbD 0 = true) : (decideCheck a b c y floor).verdict = 4 := by
  obtain ⟨spilt, fits, hverdict⟩ := decideCheck_verdict_of_flags (y := y) (floor := floor) hfl
  rw [hverdict, if_pos hcorrupt]

variable (hsound : fl.getLsbD 0 = false)
include hsound

theorem decideCheck_verdict_of_nonfinite (hnonfinite : fl.getLsbD 2 = true) : (decideCheck a b c y floor).verdict = 3 := by
  obtain ⟨spilt, fits, hverdict⟩ := decideCheck_verdict_of_flags (y := y) (floor := floor) hfl
  rw [hverdict, if_neg (Bool.eq_false_iff.1 hsound), if_pos hnonfinite]

theorem decideCheck_verdict_of_unchecked (hfinite : fl.getLsbD 2 = false) (hunchecked : fl.getLsbD 1 = true ∨ fl.getLsbD 3 = true) :
    (decideCheck a b c y floor).verdict = 5 := by
  obtain ⟨spilt, fits, hverdict⟩ := decideCheck_verdict_of_flags (y := y) (floor := floor) hfl
  have hflag : (fl.getLsbD 1 || fl.getLsbD 3 || spilt) = true := by
    rw [Bool.or_eq_true, Bool.or_eq_true]
    exact .inl hunchecked
  rw [hverdict, if_neg (Bool.eq_false_iff.1 hsound), if_neg (Bool.eq_false_iff.1 hfinite), if_pos hflag]

end Verdict

theorem verdictError_of_mismatch {v : Nat} (e : Bool) (hmatch : v ≠ 1) (hchecked : v ≠ 5) : verdictError v e = some v :=
  if_neg (by simp [hmatch, hchecked])

end Sys2Proof.CheckCommands

open Sys2Proof Sys2Proof.Machine Sys2Proof.CheckCommands

/-- Settles O31: a clause for each command, the verdict by the first flag that the signatures carry, and the fence's error by the
verdict. -/
theorem checkCommandsComplete : Obligations.CheckCommandsComplete := by
  unfold Obligations.CheckCommandsComplete
  refine ⟨?submit, ?start, ?complete, ?verdict, rfl, rfl, rfl, rfl, fun v e => verdictError_of_mismatch e⟩
  case submit =>
    intro h addr b x s t u c p n a d e fe harrives hx hu hformed ha hd he hfence hp hpa hpd hpe hpf hgate hka hkd hlen hcurve hallot hfree
    rw [exec_checkSubmit harrives, ← hx, ← hu,
      checkSubmit_of_checked hformed ha hd he hfence hp hpa hpd hpe hpf hgate hka hkd hlen hcurve hallot hfree]
  case start =>
    intro s n rest hidle hhead hrun hpresent
    rw [exec_checkStart, checkStart_of_idle hidle hhead hrun hpresent]
  case complete =>
    intro s n r hrunning hr
    rw [exec_checkComplete, checkComplete_of_running hrunning hr]
  case verdict =>
    intro a b c y floor fl hfl
    exact ⟨decideCheck_verdict_of_corrupt hfl, decideCheck_verdict_of_nonfinite hfl, decideCheck_verdict_of_unchecked hfl⟩
end

section
/-!
SUPPORT and PROOF. One step of the machine: what the front command and an idle clock do (R393, R420), that every command answers, that
every step keeps Safe (R398, R578, R658), and that reset is safe; from these O48, O47 and O49.
-/

namespace Sys2Proof.MachineSteps

open Sys2Proof Sys2Proof.Machine Sys2Proof.Laws

variable {s t : State}

/-! ### The two kinds of step -/

theorem step_of_front {c : Instr} {rest : List Instr} (hqueue : s.pending = c :: rest) : step s = exec c { s with pending := rest } := by
  simp only [step, hqueue]

theorem step_of_idle (hidle : s.pending = []) : step s = .next (s.advance 1) := by
  simp only [step, hidle]

/-- Time passes for the clock count and, out of Spire's reset, for secure time; for nothing else. -/
theorem advance_eq (s : State) (n : Nat) : ∃ time, s.advance n = { s with now := s.now + n, spr := { s.spr with time := time } } := by
  unfold State.advance
  split
  · exact ⟨s.spr.time, rfl⟩
  · exact ⟨_, rfl⟩

/-! ### Every command -/

/-- Each arm of `exec` is one answer: the block stops nowhere (log entry 74). -/
theorem exec_answers (c : Instr) (s : State) : ∃ t, exec c s = .next t := by
  cases c <;> exact ⟨_, rfl⟩

/-- One arm per command, each by the law of its operation in Laws/Keeps*.lean. -/
theorem keeps_exec (s : State) : ∀ c, KeepsN s (exec c s)
  | .streamLoad .. => keeps_execStreamLoad keeps_refl _ _ _ _ _
  | .bootStreamLoad .. => keeps_execBootStreamLoad keeps_refl _ _
  | .streamRetry .. => keeps_execStreamRetry keeps_refl _
  | .commitTimeReached .. => keeps_execCommitTimeReached keeps_refl _
  | .islandPrepare .. => keeps_execIslandPrepare keeps_refl _
  | .boundaryReached .. => keeps_execBoundaryReached keeps_refl _
  | .preparedReceived .. => keeps_execPreparedReceived keeps_refl _
  | .refusedReceived .. => keeps_execRefusedReceived keeps_refl _
  | .prepareWindowExpiry => keeps_execPrepareWindowExpiry keeps_refl
  | .islandCommit .. => keeps_execIslandCommit keeps_refl _
  | .islandAbort .. => keeps_execIslandAbort keeps_refl _
  | .committedReceived .. => keeps_execCommittedReceived keeps_refl _
  | .committedTimeout .. => keeps_execCommittedTimeout keeps_refl _
  | .archiveCopy => keeps_execArchiveCopy keeps_refl
  | .islandSectionLoad .. => keeps_execIslandSectionLoad keeps_refl _ _
  | .laneKnownAnswerTest .. => keeps_execLaneKnownAnswerTest keeps_refl _ _ _
  | .laneGroupPowerOn => keeps_execLaneGroupPowerOn keeps_refl
  | .auditWindowEnd .. => keeps_execAuditWindowEnd keeps_refl _
  | .laneOutput .. => keeps_execLaneOutput keeps_refl _ _ _
  | .laneVote .. => keeps_execLaneVote keeps_refl _ _ _
  | .laneSwapOrder .. => keeps_execLaneSwapOrder keeps_refl _ _
  | .lockstepComplete .. => keeps_execLockstepComplete keeps_refl _
  | .socketSwitch .. => keeps_execSocketSwitch keeps_refl _
  | .ageingReading .. => keeps_execAgeingReading keeps_refl _ _ _
  | .wearPeriod .. => keeps_execWearPeriod keeps_refl _
  | .scheduleFill .. => keeps_execScheduleFill keeps_refl _ _
  | .scheduleFillRefused .. => keeps_execScheduleFillRefused keeps_refl _ _
  | .scheduleInvalidate .. => keeps_execScheduleInvalidate keeps_refl _ _
  | .cpeStart .. => keeps_execCpeStart keeps_refl _ _ _ _ _
  | .cpeDone => keeps_execCpeDone keeps_refl
  | .domeDerive .. => keeps_execDomeDerive keeps_refl _ _
  | .domeDeriveDone => keeps_execDomeDeriveDone keeps_refl
  | .domeSeal .. => keeps_execDomeSeal keeps_refl _ _
  | .domeUnseal .. => keeps_execDomeUnseal keeps_refl _ _
  | .mccWriteRequest .. => keeps_execMccWriteRequest keeps_refl _ _
  | .mccReadRequest .. => keeps_execMccReadRequest keeps_refl _ _
  | .mccAtomicRequest .. => keeps_execMccAtomicRequest keeps_refl _ _
  | .mpDataArrival .. => keeps_execMpDataArrival keeps_refl _ _ _ _
  | .tagLineArrival .. => keeps_execTagLineArrival keeps_refl _ _ _ _
  | .readVerdict .. => keeps_execReadVerdict keeps_refl _ _
  | .mpWriteAccept .. => keeps_execMpWriteAccept keeps_refl _ _
  | .tagFlush .. => keeps_execTagFlush keeps_refl _
  | .lineInit .. => keeps_execLineInit keeps_refl _ _
  | .pccReadRequest .. => keeps_execPccReadRequest keeps_refl _ _
  | .pccWriteRequest .. => keeps_execPccWriteRequest keeps_refl _ _
  | .metadataArrival .. => keeps_execMetadataArrival keeps_refl _ _ _ _
  | .newtCopy .. => keeps_execNewtCopy keeps_refl _ _ _
  | .newtCommit .. => keeps_execNewtCommit keeps_refl _ _ _
  | .newtHoldTimeout .. => keeps_execNewtHoldTimeout keeps_refl _ _
  | .newtGroupRetire .. => keeps_execNewtGroupRetire keeps_refl _
  | .newtMoveComplete .. => keeps_execNewtMoveComplete keeps_refl _
  | .siteRequest .. => keeps_execSiteRequest keeps_refl _ _
  | .inboundSiteRequest .. => keeps_execInboundSiteRequest keeps_refl _ _ _
  | .siteCompletion .. => keeps_execSiteCompletion keeps_refl _ _ _ _
  | .rotUpdate .. => keeps_execRotUpdate keeps_refl _
  | .inflightZero .. => keeps_execInflightZero keeps_refl _ _
  | .drainDoneReceived .. => keeps_execDrainDoneReceived keeps_refl _ _
  | .iommuDone .. => keeps_execIommuDone keeps_refl _ _ _
  | .ownershipReport .. => keeps_execOwnershipReport keeps_refl _ _
  | .ownfRecordFree .. => keeps_execOwnfRecordFree keeps_refl _
  | .geckoDecay .. => keeps_execGeckoDecay keeps_refl _
  | .geckoWindowWrite .. => keeps_execGeckoWindowWrite keeps_refl _ _ _
  | .fabricSend .. => keeps_execFabricSend keeps_refl _ _
  | .pairKeyArrival .. => keeps_execPairKeyArrival keeps_refl _ _
  | .sendEpochChange .. => keeps_execSendEpochChange keeps_refl _ _
  | .packetReceive .. => keeps_execPacketReceive keeps_refl _ _ _
  | .receiveEpochChange .. => keeps_execReceiveEpochChange keeps_refl _ _
  | .packetRelease .. => keeps_execPacketRelease keeps_refl _ _
  | .packetDone .. => keeps_execPacketDone keeps_refl _ _ _ _
  | .ackSend .. => keeps_execAckSend keeps_refl _ _
  | .ackIntervalExpiry .. => keeps_execAckIntervalExpiry keeps_refl _ _
  | .atomicResult .. => keeps_execAtomicResult keeps_refl _ _ _ _ _
  | .retryTimeout .. => keeps_execRetryTimeout keeps_refl _ _
  | .retrySpanExpiry .. => keeps_execRetrySpanExpiry keeps_refl _ _
  | .replyHoldExpiry .. => keeps_execReplyHoldExpiry keeps_refl _ _
  | .replyCacheAgeTick .. => keeps_execReplyCacheAgeTick keeps_refl _
  | .hostInboundTlp .. => keeps_execHostInboundTlp keeps_refl _ _
  | .hostOutboundRequest .. => keeps_execHostOutboundRequest keeps_refl _
  | .ideKmQuery .. => keeps_execIdeKmQuery keeps_refl _
  | .ideKmKeyProg .. => keeps_execIdeKmKeyProg keeps_refl _
  | .ideKmKSetGo .. => keeps_execIdeKmKSetGo keeps_refl _
  | .ideKmKSetStop .. => keeps_execIdeKmKSetStop keeps_refl _
  | .getTdispVersion .. => keeps_execGetTdispVersion keeps_refl _
  | .getTdispCapabilities .. => keeps_execGetTdispCapabilities keeps_refl _
  | .lockInterfaceRequest .. => keeps_execLockInterfaceRequest keeps_refl _ _
  | .getDeviceInterfaceReport .. => keeps_execGetDeviceInterfaceReport keeps_refl _
  | .getDeviceInterfaceState .. => keeps_execGetDeviceInterfaceState keeps_refl _
  | .startInterfaceRequest .. => keeps_execStartInterfaceRequest keeps_refl _ _
  | .stopInterfaceRequest .. => keeps_execStopInterfaceRequest keeps_refl _
  | .sigOpen .. => keeps_execSigOpen keeps_refl _ _ _
  | .sigClose .. => keeps_execSigClose keeps_refl _ _
  | .sigFree .. => keeps_execSigFree keeps_refl _ _
  | .partialReady .. => keeps_execPartialReady keeps_refl _ _
  | .mergeComplete => keeps_execMergeComplete keeps_refl
  | .checkSubmit .. => keeps_execCheckSubmit keeps_refl _ _ _
  | .checkStart => keeps_execCheckStart keeps_refl
  | .checkComplete => keeps_execCheckComplete keeps_refl
  | .faultReport .. => keeps_execFaultReport keeps_refl _ _
  | .captureSealed => keeps_execCaptureSealed keeps_refl
  | .captureWaitExpiry .. => keeps_execCaptureWaitExpiry keeps_refl _
  | .captureRecordWrite .. => keeps_execCaptureRecordWrite keeps_refl _
  | .domainStatusNotice => keeps_execDomainStatusNotice keeps_refl
  | .faultAck .. => keeps_execFaultAck keeps_refl _
  | .eventDispatch .. => keeps_execEventDispatch keeps_refl _
  | .eventPost .. => keeps_execEventPost keeps_refl _ _
  | .fsmTimerExpiry .. => keeps_execFsmTimerExpiry keeps_refl _ _
  | .scheduleArm .. => keeps_execScheduleArm keeps_refl _ _
  | .scheduleSlotFire .. => keeps_execScheduleSlotFire keeps_refl _ _
  | .ppsEdge .. => keeps_execPpsEdge keeps_refl _
  | .ppsMissed .. => keeps_execPpsMissed keeps_refl _
  | .timeSeed .. => keeps_execTimeSeed keeps_refl _
  | .curveSample .. => keeps_execCurveSample keeps_refl _ _
  | .governorTick .. => keeps_execGovernorTick keeps_refl _ _
  | .releaseTimerExpiry .. => keeps_execReleaseTimerExpiry keeps_refl _
  | .islandHang .. => keeps_execIslandHang keeps_refl _
  | .towerServiceHang .. => keeps_execTowerServiceHang keeps_refl _ _
  | .memoryHang .. => keeps_execMemoryHang keeps_refl _ _
  | .commandHang .. => keeps_execCommandHang keeps_refl _
  | .lateResponse .. => keeps_execLateResponse keeps_refl _
  | .clockMonitorWindow .. => keeps_execClockMonitorWindow keeps_refl _ _
  | .fifoParityError .. => keeps_execFifoParityError keeps_refl _ _
  | .badParityBeat .. => keeps_execBadParityBeat keeps_refl _
  | .railUp => keeps_execRailUp keeps_refl
  | .railDown => keeps_execRailDown keeps_refl
  | .vbatApply => keeps_execVbatApply keeps_refl
  | .hresetFall => keeps_execHresetFall keeps_refl
  | .hresetRise => keeps_execHresetRise keeps_refl
  | .romLoaderStart .. => keeps_execRomLoaderStart keeps_refl _
  | .recoveryWord .. => keeps_execRecoveryWord keeps_refl _ _
  | .tamperInput .. => keeps_execTamperInput keeps_refl _
  | .vbatLowTimeout => keeps_execVbatLowTimeout keeps_refl
  | .noiseFail => keeps_execNoiseFail keeps_refl
  | .latchedClear .. => keeps_execLatchedClear keeps_refl _
  | .slotExpiry .. => keeps_execSlotExpiry keeps_refl _
  | .slotInvalidationAcked .. => keeps_execSlotInvalidationAcked keeps_refl _
  | .blobUnwrap .. => keeps_execBlobUnwrap keeps_refl _ _ _ _
  | .slotRetire .. => keeps_execSlotRetire keeps_refl _ _
  | .lcChallenge .. => keeps_execLcChallenge keeps_refl _
  | .lcTransition .. => keeps_execLcTransition keeps_refl _ _ _
  | .debugOpen .. => keeps_execDebugOpen keeps_refl _ _ _
  | .lcStatus .. => keeps_execLcStatus keeps_refl _
  | .getVersion .. => keeps_execGetVersion keeps_refl _
  | .getCapabilities .. => keeps_execGetCapabilities keeps_refl _
  | .negotiateAlgorithms .. => keeps_execNegotiateAlgorithms keeps_refl _
  | .getDigests .. => keeps_execGetDigests keeps_refl _
  | .getCertificate .. => keeps_execGetCertificate keeps_refl _
  | .challenge .. => keeps_execChallenge keeps_refl _
  | .getMeasurements .. => keeps_execGetMeasurements keeps_refl _
  | .keyExchange .. => keeps_execKeyExchange keeps_refl _
  | .finish .. => keeps_execFinish keeps_refl _
  | .heartbeat .. => keeps_execHeartbeat keeps_refl _
  | .heartbeatTimeout .. => keeps_execHeartbeatTimeout keeps_refl _
  | .keyUpdate .. => keeps_execKeyUpdate keeps_refl _
  | .endSession .. => keeps_execEndSession keeps_refl _
  | .respondIfReady .. => keeps_execRespondIfReady keeps_refl _
  | .chunkSend .. => keeps_execChunkSend keeps_refl _
  | .chunkGet .. => keeps_execChunkGet keeps_refl _
  | .spdmUnsupportedRequest .. => keeps_execSpdmUnsupportedRequest keeps_refl _
  | .getEvidence .. => keeps_execGetEvidence keeps_refl _
  | .getMldsaChain .. => keeps_execGetMldsaChain keeps_refl _
  | .kemAugment .. => keeps_execKemAugment keeps_refl _
  | .deliverKey .. => keeps_execDeliverKey keeps_refl _
  | .signComplete => keeps_execSignComplete keeps_refl
  | .standingRecordRegen .. => keeps_execStandingRecordRegen keeps_refl _
  | .sitePolicy .. => keeps_execSitePolicy keeps_refl _ _ _ _
  | .siteAdmit .. => keeps_execSiteAdmit keeps_refl _ _
  | .admissionResponse .. => keeps_execAdmissionResponse keeps_refl _ _
  | .admissionTimeout .. => keeps_execAdmissionTimeout keeps_refl _
  | .remeasureTimer .. => keeps_execRemeasureTimer keeps_refl _
  | .siteLinkDown .. => keeps_execSiteLinkDown keeps_refl _
  | .siteLinkUp .. => keeps_execSiteLinkUp keeps_refl _
  | .siteEvict .. => keeps_execSiteEvict keeps_refl _ _
  | .siteContext .. => keeps_execSiteContext keeps_refl _ _ _ _
  | .relayBind .. => keeps_execRelayBind keeps_refl _ _ _ _
  | .spdmMsg .. => keeps_execSpdmMsg keeps_refl _ _ _
  | .partCreate .. => keeps_execPartCreate keeps_refl _ _ _
  | .quiesce .. => keeps_execQuiesce keeps_refl _ _ _ _
  | .quiescenceReached .. => keeps_execQuiescenceReached keeps_refl _
  | .resume .. => keeps_execResume keeps_refl _ _
  | .freeze .. => keeps_execFreeze keeps_refl _ _
  | .remove .. => keeps_execRemove keeps_refl _ _
  | .processExit .. => keeps_execProcessExit keeps_refl _ _ _
  | .retain .. => keeps_execRetain keeps_refl _ _
  | .release .. => keeps_execRelease keeps_refl _ _
  | .regionCreate .. => keeps_execRegionCreate keeps_refl _ _ _
  | .regionDestroy .. => keeps_execRegionDestroy keeps_refl _ _
  | .regionClear .. => keeps_execRegionClear keeps_refl _ _ _ _
  | .regionAttr .. => keeps_execRegionAttr keeps_refl _ _ _
  | .fenceCreate .. => keeps_execFenceCreate keeps_refl _ _ _ _ _
  | .fenceWriteError .. => keeps_execFenceWriteError keeps_refl _
  | .streamOpen .. => keeps_execStreamOpen keeps_refl _ _ _ _
  | .streamClose .. => keeps_execStreamClose keeps_refl _ _ _ _
  | .streamFence .. => keeps_execStreamFence keeps_refl _ _ _ _
  | .streamRekey .. => keeps_execStreamRekey keeps_refl _ _
  | .partExport .. => keeps_execPartExport keeps_refl _ _ _ _ _
  | .partImport .. => keeps_execPartImport keeps_refl _ _ _ _ _ _
  | .migrateSend .. => keeps_execMigrateSend keeps_refl _ _ _ _ _ _
  | .unknownCommand .. => keeps_execUnknownCommand keeps_refl _
  | .commandCollision .. => keeps_execCommandCollision keeps_refl _
  | .mbxTxWrite .. => keeps_execMbxTxWrite keeps_refl _ _
  | .mbxTake .. => keeps_execMbxTake keeps_refl _ _
  | .mbxRxWrite .. => keeps_execMbxRxWrite keeps_refl _
  | .mbxTowerTake .. => keeps_execMbxTowerTake keeps_refl _
  | .noticeWrite => keeps_execNoticeWrite keeps_refl
  | .towerSleep => keeps_execTowerSleep keeps_refl
  | .towerWake => keeps_execTowerWake keeps_refl
  | .lockstepMismatch => keeps_execLockstepMismatch keeps_refl
  | .fieldTestStart .. => keeps_execFieldTestStart keeps_refl _ _
  | .fieldTestBeat .. => keeps_execFieldTestBeat keeps_refl _ _
  | .fieldTestEnd .. => keeps_execFieldTestEnd keeps_refl _
  | .fieldTestAbort => keeps_execFieldTestAbort keeps_refl
  | .counterFlush .. => keeps_execCounterFlush keeps_refl _
  | .freezeTrigger => keeps_execFreezeTrigger keeps_refl
  | .periodicFreeze .. => keeps_execPeriodicFreeze keeps_refl _
  | .freezeComplete .. => keeps_execFreezeComplete keeps_refl _
  | .thaw => keeps_execThaw keeps_refl
  | .snapshotDone .. => keeps_execSnapshotDone keeps_refl _
  | .traceRecord .. => keeps_execTraceRecord keeps_refl _
  | .traceTrigger => keeps_execTraceTrigger keeps_refl
  | .traceRelease => keeps_execTraceRelease keeps_refl
  | .traceDrain => keeps_execTraceDrain keeps_refl
  | .traceDrainDone .. => keeps_execTraceDrainDone keeps_refl _
  | .trigIoEdge => keeps_execTrigIoEdge keeps_refl
  | .trigIoPulseEnd => keeps_execTrigIoPulseEnd keeps_refl
  | .wakePulseEnd => keeps_execWakePulseEnd keeps_refl
  | .rampWindow .. => keeps_execRampWindow keeps_refl _
  | .capHoldExpiry .. => keeps_execCapHoldExpiry keeps_refl _
  | .loRegisterRead .. => keeps_execLoRegisterRead keeps_refl _ _ _
  | .entryLowWordRead .. => keeps_execEntryLowWordRead keeps_refl _ _ _
  | .registerWrite .. => keeps_execRegisterWrite keeps_refl _ _ _ _
  | .fuseProgramDone => keeps_execFuseProgramDone keeps_refl
  | .islandPllLock .. => keeps_execIslandPllLock keeps_refl _
  | .vbatLowChange .. => keeps_execVbatLowChange keeps_refl _
  | .noiseHealthRestored => keeps_execNoiseHealthRestored keeps_refl
  | .ppDataArrival .. => keeps_execPpDataArrival keeps_refl _ _ _ _
  | .ppWriteAccept .. => keeps_execPpWriteAccept keeps_refl _ _
  | .pccAtomicRequest .. => keeps_execPccAtomicRequest keeps_refl _ _

/-! ### Safe states -/

/-- The three parts of Safe are among what `Keeps` names, whatever becomes of the queue. -/
theorem safe_of_keeps (hsafe : Safe s) (hkeeps : Keeps s t) : Safe t := by
  obtain ⟨hram, hevents, htrace⟩ := hsafe
  exact ⟨hkeeps.ram hram, hkeeps.events hevents, hkeeps.trace htrace⟩

/-- Taking a command from the queue touches no part of Safe. -/
theorem safe_pending (hsafe : Safe s) (rest : List Instr) : Safe { s with pending := rest } := hsafe

theorem step_keeps_safe (hsafe : Safe s) (hstep : step s = .next t) : Safe t := by
  cases hqueue : s.pending with
  | nil =>
    rw [step_of_idle hqueue] at hstep
    exact safe_of_keeps hsafe (keepsN_next (keeps_advance keeps_refl 1) t hstep)
  | cons c rest =>
    rw [step_of_front hqueue] at hstep
    exact safe_of_keeps (safe_pending hsafe rest) (keeps_exec _ c t hstep)

theorem safe_reset : Safe State.reset := ⟨rfl, Nat.zero_le _, Nat.zero_le _⟩

end Sys2Proof.MachineSteps

open Sys2Proof Sys2Proof.Machine Sys2Proof.MachineSteps

/-- Settles O48: a step is an idle clock or one command, and both keep the three bounds. -/
theorem everyStepKeepsSafe : Obligations.EveryStepKeepsSafe := by
  unfold Obligations.EveryStepKeepsSafe
  exact fun s t => step_keeps_safe

/-- Settles O47: the front command, the idle clock, and an answer for each command. -/
theorem stepRunsTheFrontCommand : Obligations.StepRunsTheFrontCommand := by
  unfold Obligations.StepRunsTheFrontCommand
  refine ⟨fun c rest s => step_of_front rfl, fun s hidle => ?idle, exec_answers⟩
  case idle =>
    obtain ⟨time, hadvance⟩ := advance_eq s 1
    exact ⟨_, step_of_idle hidle, rfl, by simp [hadvance, hidle]⟩

/-- Settles O49: Safe at reset, whose queues, trace and firmware RAM list nothing. -/
theorem resetIsSafe : Obligations.ResetIsSafe := by
  unfold Obligations.ResetIsSafe
  exact ⟨safe_reset, rfl, rfl, rfl, rfl⟩
end

section
/-!
SUPPORT and PROOF. Spire's events, timers, curve comparators, secure time and schedule (R397 to R402, R407, R412, R413, R421 to R425):
what each command does in each of its cases; from these O34 and O56.
-/

namespace Sys2Proof.SpireEvents

open Sys2Proof Sys2Proof.Machine

variable {s u v : State}

/-! ### The commands -/

section
variable (dt : Nat) (tower : Bool) (x : Word32) (n : Fin 32) (comparator : Fin 64) (slot : Fin 8) (s : State)

theorem exec_eventDispatch : exec (.eventDispatch dt) s = .next ((s.advance dt).atStep stepArrive).dispatch := rfl

theorem exec_eventPost : exec (.eventPost tower x) s = .next ((s.atStep stepArrive).postEvent tower x) := rfl

theorem exec_fsmTimerExpiry : exec (.fsmTimerExpiry n dt) s = .next (((s.advance dt).atStep stepCompare).timerExpire n.val) := rfl

theorem exec_curveSample :
    exec (.curveSample comparator dt) s = .next (((s.advance dt).atStep stepCompare).curveSample comparator.val) := rfl

theorem exec_ppsEdge : exec (.ppsEdge dt) s = .next ((s.advance dt).atStep stepArrive).ppsEdge := rfl

theorem exec_ppsMissed : exec (.ppsMissed dt) s = .next ((s.advance dt).atStep stepCompare).ppsMissed := rfl

theorem exec_timeSeed : exec (.timeSeed x) s =
    .next ((s.atStep stepArrive).onTime (fun t => { t with seed := x, seedPending := true, seedRejected := false })) := rfl

theorem exec_scheduleArm : exec (.scheduleArm slot x) s = .next ((s.atStep stepArrive).schedWriteHi slot.val x) := rfl

theorem exec_scheduleSlotFire :
    exec (.scheduleSlotFire slot dt) s = .next (((s.advance dt).atStep stepCompare).schedFire slot.val) := rfl

end

/-! ### The event queue (R397 to R399) -/

/-- Every island but DOM has accumulators (R641). -/
theorem countFixed_of_ne_zero {i : Nat} (hi : i ≠ 0) (n : Nat) :
    s.countFixed i n = s.onIsl i (fun r => { r with acc := r.acc ++ [{ code := 256 + n }] }) :=
  if_neg hi

section
variable (code arg island serial : Nat)

theorem raiseEvent_of_room (hroom : s.spr.queue.length < 256) : s.raiseEvent code arg island serial =
    s.onSpr (fun p => { p with queue := p.queue ++
      [{ code := BitVec.ofNat 8 code, arg := BitVec.ofNat 16 arg, island := asIsland island, serial := serial }] }) :=
  if_neg (Nat.not_le.2 hroom)

theorem raiseEvent_of_full (hfull : 256 ≤ s.spr.queue.length) : s.raiseEvent code arg island serial =
    (s.onSpr (fun p => { p with lost := true, dropped := satInc p.dropped })).countFixed 2 10 :=
  if_pos hfull

end

theorem dispatch_of_queue {e : SpEvent} {rest : List SpEvent} (hqueue : s.spr.queue = e :: rest)
    (hv : v = s.onSpr (fun p => { p with queue := rest })) :
    s.dispatch = if v.staleTimer e then v else (List.range 64).foldl (fun s m => s.fsmStep e.code.toNat e.arg.toNat m) v := by
  subst hv
  simp only [State.dispatch, hqueue]

theorem postEvent_of_allowed {tower : Bool} {x : Word32}
    (hallowed : if tower then 0xE0 ≤ x.toNat % 256 else 0xC0 ≤ x.toNat % 256 ∧ x.toNat % 256 ≤ 0xDF) :
    s.postEvent tower x = (s.raiseEvent (x.toNat % 256) (bits x.toNat 23 8) (if tower then 1 else 2)).note 2 0x0D none 0
      (x.toNat % 2 ^ 24) 0 0 := by
  refine if_pos ?_
  cases tower <;> exact decide_eq_true hallowed

/-! ### Timers and curve comparators (R407, R412, R413) -/

theorem timerExpire_of_due {n : Nat} (hn : 4 ≤ n) (howner : s.timerOwner n ≠ 6) (hrun : (s.spr.timers.get n).running = true)
    (hdue : (s.spr.timers.get n).due ≤ s.now) :
    s.timerExpire n = (s.onTimer n (fun t => { t with running := false })).raiseEvent (0x40 + n) 0 2 (s.spr.timers.get n).serial :=
  if_pos ⟨hn, howner, hrun, hdue⟩

section Curve

variable {n : Nat} {e : Bytes} (he : (s.entriesOf 2 8).find? (fun e => Bytes.at e 0 == n) = some e)
include he

theorem curveSample_of_early (hearly : s.now < s.spr.curveDue.get n) : s.curveSample n = s := by
  simp only [State.curveSample, he, if_pos hearly]

theorem curveSample_of_due {q y h : Int} (hdue : s.spr.curveDue.get n ≤ s.now)
    (hv : v = s.onSpr (fun p => { p with curveDue := p.curveDue.modify n (fun d => d + 1000 * Bytes.le e 12 4) }))
    (hq : q = (v.source (Bytes.at e 3) (Bytes.at e 2) (Bytes.le e 12 4) : Int) * 2 ^ 32)
    (hy : y = threshold e ((v.source (Bytes.at e 5) (Bytes.at e 4) (Bytes.le e 12 4) : Int) * 2 ^ 32))
    (hh : h = toQ32 (Bytes.at e 6 / 16) (Bytes.le e 8 4)) :
    s.curveSample n =
      if v.spr.curves.get n then
        if q < y - h then (v.onSpr (fun p => { p with curves := p.curves.set n false })).raiseEvent 0x81 (256 * n + Bytes.at e 2) 2 else v
      else if q > y then (v.onSpr (fun p => { p with curves := p.curves.set n true })).raiseEvent 0x80 (256 * n + Bytes.at e 2) 2 else v := by
  subst hq hy hh hv
  simp only [State.curveSample, he, if_neg (Nat.not_lt.2 hdue)]

end Curve

/-! ### Secure time (R421 to R423) -/

theorem ppsLocked_of_accepted (hearly : 999000000 ≤ s.now - s.spr.time.lastAccepted)
    (hlate : s.now - s.spr.time.lastAccepted ≤ 1001000000) (hphase : (phaseError s.spr.time.counter).natAbs ≤ s.spr.time.slewMax) :
    s.ppsLocked = (s.onTime (fun t => { t with slewError := phaseError s.spr.time.counter, slewPos := 0, run := 0
                                               lastError := BitVec.ofInt 20 (phaseError s.spr.time.counter), lastAccepted := s.now
                                               missAt := s.now + 1001000000 })).raiseEvent 0x68 0 2 :=
  if_pos ⟨hearly, hlate, hphase⟩

theorem ppsLocked_of_rejected (hreject : s.now - s.spr.time.lastAccepted < 999000000 ∨ 1001000000 < s.now - s.spr.time.lastAccepted ∨
    s.spr.time.slewMax < (phaseError s.spr.time.counter).natAbs) : s.ppsLocked = (s.onTime SecTime.strike).raiseEvent 0x69 0 2 :=
  if_neg (by omega)

theorem ppsEdge_of_seed (hseed : s.spr.time.seedPending = true)
    (hreach : s.spr.time.counter.toNat ≤ s.spr.time.seed.toNat * 1000000000) :
    s.ppsEdge = s.onTime (fun t => { t with
      counter := BitVec.ofNat 64 (s.spr.time.seed.toNat * 1000000000), locked := true, seedPending := false, run := 0, slewError := 0
      slewPos := 0, lastAccepted := s.now, missAt := s.now + 1001000000 }) := by
  simp only [State.ppsEdge, if_pos hseed, if_pos hreach]

/-- A seed below the counter is rejected; the edge that finds it is then judged as any other (R421). -/
theorem ppsEdge_of_seed_below (hseed : s.spr.time.seedPending = true)
    (hbelow : s.spr.time.seed.toNat * 1000000000 < s.spr.time.counter.toNat)
    (hu : u = s.onTime (fun t => { t with seedPending := false, seedRejected := true })) :
    s.ppsEdge = if s.spr.time.locked then u.ppsLocked else u := by
  subst hu
  simp only [State.ppsEdge, if_pos hseed, if_neg (Nat.not_le.2 hbelow)]

theorem ppsEdge_of_no_seed (hseed : s.spr.time.seedPending = false) : s.ppsEdge = if s.spr.time.locked then s.ppsLocked else s :=
  if_neg (Bool.eq_false_iff.1 hseed)

theorem ppsMissed_of_late (hmiss : s.spr.time.missAt ≠ 0) (hlate : s.spr.time.missAt < s.now) :
    s.ppsMissed = (s.onTime (fun t => { t.strike with missAt := t.missAt + 1000000000 })).raiseEvent 0x6A 0 2 :=
  if_pos ⟨hmiss, hlate⟩

/-! ### Schedule slots (R424, R425) -/

theorem schedWriteHi_of_owned {n : Nat} {x : Word32} (howner : s.schedOwner n = 8 ∨ s.schedOwner n = 9) :
    s.schedWriteHi n x = s.onTime (fun t => { t with sched := t.sched.modify n (fun y =>
      { y with armed := x.getLsbD 31, hi := x.setWidth 31 }) }) :=
  if_pos howner

theorem schedFire_of_due {n : Nat} (hlive : s.live 2 = true) (harmed : (s.spr.time.sched.get n).armed = true)
    (hdue : (s.spr.time.sched.get n).target ≤ s.spr.time.counter.toNat)
    (hv : v = (s.onTime (fun t => { t with sched := t.sched.modify n (fun x => { x with armed := false }) })).raiseEvent (0x60 + n) 0 2) :
    s.schedFire n = if v.schedOwner n = 8 then v.freeze 3 else v := by
  subst hv
  exact if_pos ⟨hlive, by simp [State.schedDue, harmed, hdue]⟩

end Sys2Proof.SpireEvents

open Sys2Proof Sys2Proof.Machine Sys2Proof.SpireEvents

/-- Settles O34: a clause for each command; a PPS edge is split by the seed and the lock, a sample by its time. -/
theorem eventsTimersAndSecureTime : Obligations.EventsTimersAndSecureTime := by
  unfold Obligations.EventsTimersAndSecureTime
  refine ⟨?dispatch, ?post, ?expiry, ?curve, ?edge, fun u => ppsLocked_of_accepted, fun u => ppsLocked_of_rejected, ?missed,
    exec_timeSeed, ?arm, ?fire⟩
  case dispatch =>
    intro dt s u v e rest hu hqueue hv
    rw [exec_eventDispatch, ← hu, dispatch_of_queue hqueue hv]
  case post =>
    intro tower x s hallowed
    rw [exec_eventPost, postEvent_of_allowed hallowed]
  case expiry =>
    intro n dt s u hu hn howner hrun hdue
    rw [exec_fsmTimerExpiry, ← hu, timerExpire_of_due hn howner hrun hdue]
  case curve =>
    intro n dt s u v e q y h hu he
    rw [exec_curveSample, ← hu]
    exact ⟨fun hearly => by rw [curveSample_of_early he hearly],
      fun hdue hv hq hy hh => by rw [curveSample_of_due he hdue hv hq hy hh]⟩
  case edge =>
    intro dt s u hu
    rw [exec_ppsEdge, ← hu]
    refine ⟨fun hseed hreach => ?_, fun hseed hbelow hfree => ?_, fun hseed hbelow hlocked => ?_, fun hnone hlocked => ?_,
      fun hnone hfree => ?_⟩
    · rw [ppsEdge_of_seed hseed hreach]
    · rw [ppsEdge_of_seed_below hseed hbelow rfl, if_neg (Bool.eq_false_iff.1 hfree)]
    · rw [ppsEdge_of_seed_below hseed hbelow rfl, if_pos hlocked]
    · rw [ppsEdge_of_no_seed hnone, if_pos hlocked]
    · rw [ppsEdge_of_no_seed hnone, if_neg (Bool.eq_false_iff.1 hfree)]
  case missed =>
    intro dt s u hu hmiss hlate
    rw [exec_ppsMissed, ← hu, ppsMissed_of_late hmiss hlate]
  case arm =>
    intro n x s u hu howner
    rw [exec_scheduleArm, ← hu, schedWriteHi_of_owned howner]
  case fire =>
    intro n dt s u v hu hlive harmed hdue hv
    rw [exec_scheduleSlotFire, ← hu, schedFire_of_due hlive harmed hdue hv]

/-- Settles O56: an event at a queue with room, and one at a full queue, which Spire's own counter counts. -/
theorem fullEventQueueDropsTheEvent : Obligations.FullEventQueueDropsTheEvent := by
  unfold Obligations.FullEventQueueDropsTheEvent
  intro s code arg island serial
  refine ⟨fun hroom => ?room, fun hfull => ?full⟩
  case room => exact raiseEvent_of_room code arg island serial hroom
  case full =>
    rw [raiseEvent_of_full code arg island serial hfull, countFixed_of_ne_zero (by decide)]
    rfl
end

section
/-!
SUPPORT and PROOF. The power governor (R426 to R431): what a tick accounts, what it does at the limit and away from it, and how the
release goes on; from these O43.
-/

namespace Sys2Proof.GovernorTicks

open Sys2Proof Sys2Proof.Machine

variable {s v : State}

theorem exec_governorTick_of_live {dt : Nat} {act : Activity} (hs : s = (v.advance dt).atStep stepGovern) (hlive : s.live 2 = true) :
    exec (.governorTick dt act) v = .next (s.governorTick act) := by
  subst hs
  exact congrArg Host.Outcome.next (if_pos hlive)

theorem exec_releaseTimerExpiry (dt : Nat) (s : State) :
    exec (.releaseTimerExpiry dt) s = .next ((s.advance dt).atStep stepCompare).releaseExpiry := rfl

/-! ### Ticks (R427 to R430) -/

/-- The account of R428, with the credit that it leaves written out. -/
theorem onGov_account {t : GovSettings} {p full credit : Nat} (hfull : full = 1000000000 * t.creditUj)
    (hcredit : credit = if t.alloc < p then s.spr.gov.creditFj - (p - t.alloc) else min full (s.spr.gov.creditFj + (t.alloc - p))) :
    s.onGov (fun g => g.account t p) = s.onGov (fun g => { g with
      creditFj := credit, peakUs := (if full ≤ credit then 0 else if t.alloc < p then g.peakUs + 1 else g.peakUs)
      above := decide (t.alloc < p), power := BitVec.ofNat 32 ((p + 500000) / 1000000) }) := by
  subst hfull hcredit
  rfl

section Tick

variable {act : Activity} {t : GovSettings} {p : Nat} (ht : t = s.govSettings) (hp : p = estimate act)
  (hv : v = if t.alloc < p then (s.onGov (fun g => g.account t p)).countFixed 2 13 else s.onGov (fun g => g.account t p))
include ht hp hv

theorem governorTick_of_limit {l : List Nat} {q : Nat} (hlimit : v.spr.gov.creditFj = 0 ∨ t.peakLimit ≤ v.spr.gov.peakUs)
    (habove : t.alloc < p) (hstages : stagesAdded act v.spr.gov.stages t.alloc [0, 1, 2] p = (l, q)) :
    s.governorTick act = (v.throttle l).insufficient ((v.throttle l).spr.gov.stages == 7 && decide (t.alloc < q)) := by
  subst ht hp
  have hcase : v.spr.gov.atLimit s.govSettings = true ∧ s.govSettings.alloc < estimate act := ⟨decide_eq_true hlimit, habove⟩
  simp only [State.governorTick, ← hv, if_pos hcase, hstages]

theorem governorTick_of_no_limit (hno : ¬((v.spr.gov.creditFj = 0 ∨ t.peakLimit ≤ v.spr.gov.peakUs) ∧ t.alloc < p)) {w : State}
    (hw : w = v.insufficient (v.spr.gov.insufficient && v.spr.gov.above)) :
    s.governorTick act = if w.mayRelease t then w.release else w := by
  subst ht hp hw
  have hcase : ¬(v.spr.gov.atLimit s.govSettings = true ∧ s.govSettings.alloc < estimate act) :=
    fun ⟨hlimit, habove⟩ => hno ⟨of_decide_eq_true hlimit, habove⟩
  simp only [State.governorTick, ← hv, if_neg hcase]

end Tick

/-! ### Release (R431) -/

theorem mayRelease_iff {t : GovSettings} : s.mayRelease t = true ↔ s.spr.gov.stages ≠ 0 ∧ s.spr.gov.releasing = false ∧
    s.spr.gov.above = false ∧ (t.creditUj = 0 ∨ 1000000000 * t.releaseUj ≤ s.spr.gov.creditFj) := by
  simp [State.mayRelease, and_assoc]

theorem releaseExpiry_of_due {n : Nat} (hn : n = s.govSettings.timer) (hlive : s.live 2 = true) (hrelease : s.spr.gov.releasing = true)
    (hsome : n < 32) (hrun : (s.spr.timers.get n).running = true) (hdue : (s.spr.timers.get n).due ≤ s.now) :
    s.releaseExpiry = State.releaseNext (State.releaseOne
      ((s.onTimer n (fun x => { x with running := false })).raiseEvent (0x40 + n) 0 2 (s.spr.timers.get n).serial)) := by
  subst hn
  exact if_pos ⟨hlive, hrelease, hsome, hrun, hdue⟩

theorem releaseNext_of_none (hnone : s.spr.gov.stages = 0) : s.releaseNext = s.onGov (fun g => { g with releasing := false }) :=
  if_pos hnone

theorem releaseNext_of_some (hsome : s.spr.gov.stages ≠ 0) :
    s.releaseNext = (s.onGov (fun g => { g with releasing := true })).onTimer s.govSettings.timer (fun x =>
      { running := true, due := s.now + 1000 * s.govSettings.stepUs, machine := 64, serial := x.serial + 1 }) :=
  if_neg hsome

end Sys2Proof.GovernorTicks

open Sys2Proof Sys2Proof.Machine Sys2Proof.GovernorTicks

/-- Settles O43: the estimate, a tick at the limit and one away from it, and the release timer. -/
theorem governorThrottlesAndReleases : Obligations.GovernorThrottlesAndReleases := by
  unfold Obligations.GovernorThrottlesAndReleases
  refine ⟨fun act => rfl, ?tick, ?expiry, fun s => releaseNext_of_none, fun s => releaseNext_of_some⟩
  case tick =>
    intro dt act s u v t p a full credit hu hlive ht hp ha hfull hcredit hv
    subst ha
    have haccount : v = if t.alloc < p then (u.onGov (fun g => g.account t p)).countFixed 2 13 else u.onGov (fun g => g.account t p) := by
      rw [onGov_account hfull hcredit]
      exact hv
    rw [exec_governorTick_of_live hu hlive]
    refine ⟨fun hlimit habove l q hstages => ?_, fun hno w hw => ?_⟩
    · exact congrArg Host.Outcome.next (governorTick_of_limit ht hp haccount hlimit habove hstages)
    · rw [governorTick_of_no_limit ht hp haccount hno hw]
      simp only [mayRelease_iff, State.release]
  case expiry =>
    intro dt s u n hu hn hlive hrelease hsome hrun hdue
    rw [exec_releaseTimerExpiry, ← hu, releaseExpiry_of_due hn hlive hrelease hsome hrun hdue]
end

section
/-!
SUPPORT and PROOF. Zeroisation (R465 to R470, R474): what it makes of Dome, what ERASE_ALL leaves outside Dome, and how it meets a
transition under way (R487); the tamper, noise and VBAT commands. From these O52 and O14.
-/

namespace Sys2Proof.Zeroisation

open Sys2Proof Sys2Proof.Machine

variable {s t u : State} {cause inputs : Nat}

/-! ### Dome and the life cycle (R466, R474) -/

/-- The derivations that stop leave Dome's queue empty and nothing else of Dome or of the life cycle changed. -/
theorem same_deriveStop : Laws.Same (s.onDom (fun d => { d with queue := [] })) s.deriveStop :=
  Laws.same_foldl (fun _ k h => Laws.same_deriveLost h k) s.dom.queue Laws.same_refl

/-- Dome after a zeroisation: no secret, no derivation, and the record of what happened. -/
def zeroisedDom (d : Dom) (rootless : Bool) (cause inputs : Nat) : Dom :=
  { d.empty with
    queue := [], rootState := if rootless then 0 else 3, latched := true, zeroCount := satInc d.zeroCount
    cause := BitVec.ofNat 4 cause, inputs := BitVec.ofNat 4 inputs }

/-- What follows the change of Dome, TAMPER_OUT_N and ERASE_ALL, leaves Dome and the life cycle alone. -/
theorem same_zeroise : Laws.Same (s.onDom (fun d => zeroisedDom d s.lc.rootless cause inputs)) (s.zeroise cause inputs) := by
  obtain ⟨hdom, hlc⟩ := same_deriveStop (s := s)
  unfold State.zeroise
  refine Laws.same_ite ?rest (fun h => Laws.same_eraseAll (Laws.same_domeReport h))
  refine Laws.same_ite (Laws.same_emit ?changed _) (fun _ => ?changed)
  refine Laws.same_of Laws.same_refl ?_ hlc
  simp only [State.onDom_dom, hdom, hlc, State.onDom_lc]
  rfl

theorem zeroise_dom : (s.zeroise cause inputs).dom = zeroisedDom s.dom s.lc.rootless cause inputs := same_zeroise.dom

theorem zeroise_lc : (s.zeroise cause inputs).lc = s.lc := same_zeroise.lc

/-! ### ERASE_ALL (R461, R469, R526) -/

/-- Nothing outside Dome holds a key: no slot, set, session or key schedule. -/
structure Erased (t : State) : Prop where
  slots : t.slots = {}
  sets : t.sets = {}
  sessions : t.att.sess = {}
  schedules : ∀ k, (t.clusters.get k).sched = []

/-- What holds of the reset entry and of every changed entry holds of every entry that `mapKeys` leaves. -/
theorem get_mapKeys {α : Type} [Inhabited α] [DecidableEq α] {p : α → Prop} (hreset : p default) (x : Tbl α) {f : Nat → α → α}
    (hf : ∀ k v, p (f k v)) (k : Nat) : p ((x.mapKeys f).get k) := by
  have hfind : ∀ l : List (Nat × α), (∀ c ∈ l, p c.2) → p ((Tbl.find l k).getD default) := by
    intro l hl
    induction l with
    | nil => exact hreset
    | cons c rest ih =>
      obtain ⟨hc, hrest⟩ := List.forall_mem_cons.1 hl
      unfold Tbl.find
      split
      · exact hc
      · exact ih hrest
  refine hfind _ (fun c hc => ?_)
  obtain ⟨d, -, rfl⟩ := List.mem_map.1 (List.mem_of_mem_filter hc)
  exact hf d.1 d.2

theorem erased_eraseAll : Erased s.eraseAll := by
  unfold State.eraseAll
  generalize (List.range 16).foldl (fun s f => s.fccErase f) s = u
  exact ⟨rfl, rfl, rfl, get_mapKeys (p := fun c => c.sched = []) rfl u.clusters (fun _ _ => rfl)⟩

/-- ERASE_ALL is part of a zeroisation while the rail is present. -/
theorem erased_zeroise (hrail : s.dom.railPresent = true) : Erased (s.zeroise cause inputs) := by
  obtain ⟨hdom, -⟩ := same_deriveStop (s := s)
  unfold State.zeroise
  simp only
  rw [if_pos]
  · exact erased_eraseAll
  · split <;> exact (congrArg Dom.railPresent hdom).trans hrail

/-! ### A transition under way (R487) -/

/-- Unless an intent group is being blown, a zeroisation only serves as the erasure of the transition under way. -/
theorem tamper_of_no_intent (hphase : s.lc.running = none ∨ s.lc.phase ≠ 1) :
    s.tamper cause inputs = (s.zeroise cause inputs).onLc (fun l =>
      { l with running := s.lc.running.map (fun t => { t with erased := true }) }) := by
  have hlc := zeroise_lc (s := s) (cause := cause) (inputs := inputs)
  unfold State.tamper
  simp only [hlc]
  cases hrun : s.lc.running with
  | none =>
    have hsame : (s.zeroise cause inputs).lc = { (s.zeroise cause inputs).lc with running := none } := by rw [hlc, ← hrun]
    exact congrArg (fun l => { s.zeroise cause inputs with lc := l }) hsame
  | some x => exact if_neg (hphase.resolve_left (by simp [hrun]))

/-! ### The commands (R440, R465, R470, R608) -/

theorem exec_tamperInput_of_enabled {n : Fin 4} (henabled : s.dom.enable.getLsbD n.val = true) :
    exec (.tamperInput n) s = .next (s.tamper 1 (2 ^ n.val)) := congrArg Host.Outcome.next (if_pos henabled)

theorem exec_vbatLowTimeout : exec .vbatLowTimeout s = .next s.vbatTimeout := rfl

theorem exec_vbatLowChange (low : Bool) : exec (.vbatLowChange low) s = .next (s.vbatLowChange low) := rfl

theorem exec_latchedClear (v : Word32) : exec (.latchedClear v) s = .next (s.latchedClear v) := rfl

theorem vbatTimeout_of_due (hlow : s.dom.vbatLow = true) (hrail : s.dom.railPresent = true)
    (hdue : s.dom.lowDone = false ∨ s.dom.hasRoot = true) :
    s.vbatTimeout = (s.tamper 2 0).onDom (fun d => { d with lowDone := true }) := if_pos ⟨hlow, hrail, by simpa using hdue⟩

theorem vbatLowChange_of_new {low : Bool} (hrail : s.dom.railPresent = true) (hnew : s.dom.vbatLow ≠ low)
    (hu : u = s.onDom (fun d => { d with vbatLow := low, lowDone := false })) :
    s.vbatLowChange low = if low then u.domeReport else u := by
  subst hu
  exact if_neg (by simp [hrail, hnew])

theorem latchedClear_of_ready {v : Word32} (hbit : v.getLsbD 31 = true) (hlatched : s.dom.latched = true)
    (hready : s.dom.rootState = 2) : s.latchedClear v = (s.onDom (fun d => { d with latched := false })).emit (.pad "TAMPER_OUT_N" true) :=
  if_pos ⟨hbit, hlatched, hready⟩

theorem latchedClear_of_not_ready {v : Word32} (hnot : s.dom.rootState ≠ 2) : s.latchedClear v = s :=
  if_neg fun ⟨_, _, hready⟩ => hnot hready

end Sys2Proof.Zeroisation

open Sys2Proof Sys2Proof.Machine Sys2Proof.Zeroisation

/-- Settles O52: Dome after the zeroisation is `zeroisedDom`, the life cycle changes in its running transition alone, and ERASE_ALL
has taken the rest while the rail is present. -/
theorem zeroisationLeavesNoSecret : Obligations.ZeroisationLeavesNoSecret := by
  unfold Obligations.ZeroisationLeavesNoSecret
  intro n s henabled hphase
  refine ⟨_, (exec_tamperInput_of_enabled henabled).trans (congrArg _ (tamper_of_no_intent hphase)), ?_⟩
  rw [State.onLc_dom, State.onLc_lc, zeroise_dom, zeroise_lc]
  refine ⟨⟨rfl, rfl, rfl, rfl, rfl, rfl⟩, ⟨rfl, rfl, rfl, rfl, rfl⟩, ⟨rfl, rfl, rfl, rfl, rfl, rfl, rfl, rfl, rfl, rfl⟩, fun hrail => ?_⟩
  obtain ⟨hslots, hsets, hsessions, hschedules⟩ := erased_zeroise (cause := 1) (inputs := 2 ^ n.val) hrail
  exact ⟨hslots, hsets, hsessions, hschedules⟩

/-- Settles O14: a clause for each command; a clear of LATCHED is split by the root's state. -/
theorem tamperAndNoiseCommandsComplete : Obligations.TamperAndNoiseCommandsComplete := by
  unfold Obligations.TamperAndNoiseCommandsComplete
  refine ⟨fun n s => exec_tamperInput_of_enabled, ?timeout, fun s => rfl, fun s => rfl, ?low, ?clear⟩
  case timeout =>
    intro s hlow hrail hdue
    rw [exec_vbatLowTimeout, vbatTimeout_of_due hlow hrail hdue]
  case low =>
    intro low s u hrail hnew hu
    rw [exec_vbatLowChange, vbatLowChange_of_new hrail hnew hu]
  case clear =>
    intro v s hbit hlatched
    rw [exec_latchedClear]
    exact ⟨fun hready => by rw [latchedClear_of_ready hbit hlatched hready],
      fun hnot => by rw [latchedClear_of_not_ready hnot]⟩
end

section
/-!
SUPPORT and PROOF. The rail, VBAT, HRESET_N, the ROM loader and the release of islands: what each does in the state that lets it act
(R441, R442, R490, R494, R582 to R584, R731 to R736); from these O12.
-/

namespace Sys2Proof.PowerAndResets

open Sys2Proof Sys2Proof.Machine

variable {s u : State}

/-! ### The commands -/

section
variable (b : Buf) (w : Word32) (i : Fin 46)

theorem exec_railUp : exec .railUp s = .next s.railUp := rfl

theorem exec_railDown : exec .railDown s = .next s.railDown := rfl

theorem exec_vbatApply : exec .vbatApply s = .next s.vbatApply := rfl

theorem exec_hresetFall : exec .hresetFall s = .next (State.blockReset { s with pwr := { s.pwr with hresetLow := true } }) := rfl

theorem exec_hresetRise : exec .hresetRise s = .next s.hresetRise := rfl

theorem exec_romLoaderStart : exec (.romLoaderStart b) s = .next (s.romStart b) := rfl

theorem exec_recoveryWord : exec (.recoveryWord w b) s = .next (s.recoveryWord w b) := rfl

theorem exec_islandPllLock : exec (.islandPllLock i) s = .next (s.pllLock i.val) := rfl

end

/-! ### The rail, VBAT and HRESET_N (R441, R442, R731, R733, R735, R736) -/

theorem railUp_of_absent (habsent : s.dom.railPresent = false) : s.railUp = State.domeStart (State.blockReset
    { s.onDom (fun d => { d with railPresent := true }) with pwr := { s.pwr with railFell := true } }) :=
  if_neg (by simp [habsent])

theorem railDown_eq (hu : u = if s.pads.trayReq then s.emit (.pad "TRAY_REQ_N" true) else s) :
    s.railDown = ((State.blockReset { u with
        pwr := { u.pwr with hresetLow := true, railFell := true }, pads := { u.pads with trayReq := false } }).onLc (fun l =>
      { l with debug := false, phase := 0, running := none })).onDom (fun d =>
      { d with railPresent := false, rootState := 0, vbatLow := false, lowDone := false }) := by
  subst hu
  rfl

theorem vbatApply_of_absent (habsent : s.dom.railPresent = false) :
    s.vbatApply = { s with dom := { railPresent := false }, lc := { s.lc with taint := false } } := if_neg (by simp [habsent])

theorem hresetRise_of_low (hrail : s.dom.railPresent = true) (hlow : s.pwr.hresetLow = true)
    (hu : u = { s with pwr := { s.pwr with hresetLow := false } }) :
    s.hresetRise = if s.pwr.rootStepsDone then u else u.domeStart := by
  subst hu
  exact if_neg (by simp [hrail, hlow])

/-! ### The ROM loader and recovery (R582 to R584) -/

theorem romStart_of_ready {b : Buf} (hready : s.romReady = true) (hidle : s.fw.running = false) (hno : s.fw.recovery = false) :
    s.romStart b = s.tryImage b := if_pos (by simp [hready, hidle, hno])

/-- Taking words changes the mailbox and what leaves the block, not firmware. -/
@[simp] theorem txTake_fw (n k : Nat) : (s.txTake n k).fw = s.fw := by
  unfold State.txTake State.emptyIrq
  split
  · rfl
  · simp only
    split <;> rfl

/-- The word at the head of MBX0 is taken; with the third the buffer is read and tried. -/
theorem recoveryWord_of_recovery {w : Word32} {b : Buf} {x : MbxWord} {rest : List MbxWord} (hrecovery : s.fw.recovery = true)
    (hlive : s.live 1 = true) (hu : u = if (s.mbx.get 0).tx = [] then s.mbxTxWrite 0 w else s) (hhead : (u.mbx.get 0).tx = x :: rest) :
    s.recoveryWord w b =
      if (u.fw.words ++ [x.word]).length < 3 then { u.txTake 0 1 with fw := { u.fw with words := u.fw.words ++ [x.word] } }
      else (((u.txTake 0 1).dmaRead 0 (((u.fw.words ++ [x.word])[0]?.getD 0).toNat +
        2 ^ 32 * ((u.fw.words ++ [x.word])[1]?.getD 0).toNat) x.word.toNat).tryImage b).rxPush 0 (BitVec.ofNat 32 (bufFailure b)) := by
  have hmay : ¬ ((!s.fw.recovery) = true ∨ (!s.live 1) = true) := by simp [hrecovery, hlive]
  have hword : (((u.mbx.get 0).tx.head?).getD {}).word = x.word := by rw [hhead]; rfl
  unfold State.recoveryWord
  rw [if_neg hmay]
  simp only [List.isEmpty_iff, ← hu, hword, txTake_fw]

/-! ### Islands leave reset (R735) -/

theorem pllLock_of_free {i : Nat} (hhigh : s.pwr.hresetLow = false) (hrail : s.dom.railPresent = true)
    (hreset : (s.isl.get i).inReset = true) (hclock : (s.isl.get i).clockHeld = false) (hclamp : s.clamped i = false)
    (hu : u = s.onIsl i (fun r => { r with inReset := false, loaded := r.loaded ||
      ((i == 1 || i == 2 || i == 44) && !s.pwr.committed) })) :
    s.pllLock i = if i = 2 ∧ u.spr.resetDone = false then
      (u.onSpr (fun p => { p with resetDone := true })).raiseEvent 0x02 0 2 else u := by
  have hfree : ¬ (s.pwr.hresetLow = true ∨ (!s.dom.railPresent) = true ∨ (!(s.isl.get i).inReset) = true ∨
      (s.isl.get i).clockHeld = true ∨ s.clamped i = true) := by simp [hhigh, hrail, hreset, hclock, hclamp]
  subst hu
  exact (if_neg hfree).trans (if_congr (by rw [Bool.not_eq_true', State.onIsl_spr]) rfl rfl)

end Sys2Proof.PowerAndResets

open Sys2Proof Sys2Proof.Machine Sys2Proof.PowerAndResets

/-- Settles O12: a clause for each command; RECOVERY_WORD is split by whether its word is the third. -/
theorem powerAndResetCommandsComplete : Obligations.PowerAndResetCommandsComplete := by
  unfold Obligations.PowerAndResetCommandsComplete
  refine ⟨?up, ?down, ?vbat, fun s => exec_hresetFall, ?rise, ?rom, ?recovery, ?lock⟩
  case up =>
    intro s habsent
    rw [exec_railUp, railUp_of_absent habsent]
  case down =>
    intro s u hu
    rw [exec_railDown, railDown_eq hu]
  case vbat =>
    intro s habsent
    rw [exec_vbatApply, vbatApply_of_absent habsent]
  case rise =>
    intro s u hrail hlow hu
    rw [exec_hresetRise, hresetRise_of_low hrail hlow hu]
  case rom =>
    intro b s hready hidle hno
    rw [exec_romLoaderStart, romStart_of_ready hready hidle hno]
    rfl
  case recovery =>
    intro w b s u x rest hrecovery hlive hu hhead
    rw [exec_recoveryWord, recoveryWord_of_recovery hrecovery hlive hu hhead]
    refine ⟨fun hmore => by rw [if_pos hmore], fun lo hi hwords => ?_⟩
    rw [hwords, if_neg (by simp)]
    rfl
  case lock =>
    intro i s u hhigh hrail hreset hclock hclamp hu
    rw [exec_islandPllLock, pllLock_of_free hhigh hrail hreset hclock hclamp hu]
end

section
/-!
SUPPORT and PROOF. Key slots: expiry, retirement, the last acknowledgement of an invalidation, and BLOB_UNWRAP once its checks have
passed (R450, R452, R455 to R457, R460, R461, R551, R768); from these O16.
-/

namespace Sys2Proof.KeySlots

open Sys2Proof Sys2Proof.Machine Sys2Proof.RegionCommands Sys2Proof.SignatureCommands

variable {s t u : State} {h : Hdr} {c : Cmd} {w : Word32} {n : Nat}

/-! ### Slots that end (R452, R460, R461) -/

theorem exec_slotExpiry (k : Fin 4096) : exec (.slotExpiry k) s = .next (s.slotExpiry k.val) := rfl

theorem exec_slotInvalidationAcked (k : Fin 4096) : exec (.slotInvalidationAcked k) s = .next (s.slotAcked k.val) := rfl

theorem slotExpiry_of_due (hlive : (s.slot n).state = 1) (hexpires : (s.slot n).expiry ≠ 0) (hlocked : s.spr.time.locked = true)
    (hdue : (s.slot n).expiry ≤ s.seconds) : s.slotExpiry n = (s.retireAny n).notice 4 (s.slot n).part n :=
  if_pos ⟨hlive, hexpires, hlocked, hdue⟩

theorem slotAcked_of_last (hretiring : (s.slot n).state = 2) (hlast : ∀ i ∈ s.invals, i.2 ≠ n) :
    s.slotAcked n = ((s.slotDead n).slotEmpty n).settle.tryRekey.removals := if_pos ⟨hretiring, by simpa using hlast⟩

/-- A slot that is no longer LIVE is answered all the same. -/
theorem exec_slotRetire_of_gate (ha : s.arrival h 0x26 [w] = some (t, c)) (hname : t.named c 4 w = .ok n)
    (hgate : t.gate (t.actsFor c (objKey 4 n)) 0x26 = true) :
    exec (.slotRetire h w) s = .next (s.thenReap ((if (t.slot n).state = 1 then t.retireAny n else t).answer c 0)) := by
  refine congrArg Host.Outcome.next ((Laws.command_arrival s t h 0x26 [w] c _ ha).trans (congrArg s.thenReap ?_))
  simp only [hname, hgate, Bool.not_true, Bool.false_eq_true, if_false]
  split <;> rfl

/-! ### BLOB_UNWRAP (R455 to R457, R768) -/

theorem exec_blobUnwrap_of_gate {addr : BitVec 64} {b : Bytes} (ha : s.arrival h 0x25 ([w] ++ addrWords addr) = some (t, c))
    (hname : t.named c 4 w = .ok n) (hgate : t.gate (t.actsFor c (objKey 4 n)) 0x25 = true)
    (hu : u = t.dmaRead (t.bufferTdid c) addr.toNat (104 + purposeLen (Bytes.at b 6))) :
    exec (.blobUnwrap h w addr (some b)) s =
      .next (s.thenReap (u.blobUnwrap c n (Bytes.fit b (104 + purposeLen (Bytes.at b 6))))) := by
  subst hu
  refine congrArg Host.Outcome.next ((Laws.command_arrival s t h 0x25 _ c _ ha).trans (congrArg s.thenReap ?_))
  rw [outcome_refuse hname, outcome_refuse (gated_of_gate hgate)]
  rfl

/-- The record of an unwrapped key (R449, R457), whose wrap slot is bound to a set or not. -/
def blobSpec (x : Bytes) (p : Nat) (bound : Bool) : SlotSpec :=
  { purpose := Bytes.at x 6, masters := purposeMasters (Bytes.at x 6), world := purposeWorld (Bytes.at x 6), lcMask := Bytes.at x 9
    source := 1, part := p, tdid := Bytes.at x 8, expiry := Bytes.le x 12 4, leave := bit (Bytes.at x 7) 0 && !bound }

/-- The unwrapped key in its slot, with its Key Slot object. -/
def blobFilled (u : State) (x key : Bytes) (n d p tag : Nat) : State :=
  ((u.fillSlot d (blobSpec x p (u.slot n).setBound).attr key).onSlot d (fun y =>
    { y with setId := if (u.slot n).setBound then Bytes.slice x 16 16 else [] })).newObj (objKey 4 d) p tag true

/-- A blob that passes every check fills its slot when its key unwraps at the length of its PURPOSE. -/
theorem blobUnwrap_of_checked {x : Bytes} {d p : Nat} (hp : p = u.actsFor c (objKey 4 n)) (hroot : u.lc.rootless = false)
    (hflags : Bytes.at x 7 < 2) (htdid : Bytes.at x 8 < 128) (hmask : Bytes.at x 9 < 16) (hslot : u.slotForFill p = some d)
    (hrefs : u.prt.refs.length < 32768) (hheader : u.blobHeaderOk p x = true) (hwrap : u.wrapOk n = true) (hpart : (u.slot n).part = p)
    (hset : u.blobSetOk n x = true) :
    u.blobUnwrap c n x =
      match keyUnwrap (u.blobKek n (x.take 96)) (Bytes.slice x 96 (purposeLen (Bytes.at x 6) + 8)) with
      | some key =>
        if key.length = purposeLen (Bytes.at x 6) then
          (blobFilled u x key n d p c.tag.toNat).answer c 0 [(blobFilled u x key n d p c.tag.toNat).handle (objKey 4 d)]
        else u.answer c 8 [5]
      | none => u.answer c 8 [5] := by
  unfold State.blobUnwrap
  simp only [← hp, hroot, Bool.false_eq_true, if_false]
  rw [outcome_must (decide_eq_true ⟨hflags, htdid, hmask⟩), outcome_must (by simp [hslot, hrefs]), outcome_mustReason hheader,
    outcome_mustReason (by simp [hwrap, hpart]), outcome_mustReason hset, hslot]
  cases keyUnwrap (u.blobKek n (x.take 96)) (Bytes.slice x 96 (purposeLen (Bytes.at x 6) + 8)) with
  | none => rfl
  | some key =>
    by_cases hlen : key.length = purposeLen (Bytes.at x 6)
    · exact (outcome_mustReason (decide_eq_true hlen)).trans (if_pos hlen).symm
    · exact (outcome_mustReason_of_not (decide_eq_false hlen)).trans (if_neg hlen).symm

end Sys2Proof.KeySlots

open Sys2Proof Sys2Proof.Machine Sys2Proof.KeySlots

/-- Settles O16: a clause for each command; an unwrapped key is split by its length. -/
theorem keySlotCommandsComplete : Obligations.KeySlotCommandsComplete := by
  unfold Obligations.KeySlotCommandsComplete
  refine ⟨?expiry, fun h w s t c n => exec_slotRetire_of_gate, ?acked, ?blob⟩
  case expiry =>
    intro n s hlive hexpires hlocked hdue
    rw [exec_slotExpiry, slotExpiry_of_due hlive hexpires hlocked hdue]
  case acked =>
    intro n s hretiring hlast
    rw [exec_slotInvalidationAcked, slotAcked_of_last hretiring hlast]
  case blob =>
    intro h w addr b x s t u c n d p ha hname hp hgate hx hu hroot hflags htdid hmask hslot hrefs hheader hwrap hpart hset
    have hacts : p = u.actsFor c (objKey 4 n) := by
      subst hp hu
      rfl
    rw [exec_blobUnwrap_of_gate ha hname (hp ▸ hgate) hu, ← hx,
      blobUnwrap_of_checked hacts hroot hflags htdid hmask hslot hrefs hheader hwrap hpart hset]
    rfl
end

section
/-!
SUPPORT and PROOF. EXPORT, IMPORT and MIGRATE_SEND once their checks have passed (R454, R570 to R574, R604); from these O41.
-/

namespace Sys2Proof.Migration

open Sys2Proof Sys2Proof.Machine Sys2Proof.RegionCommands

variable {s t u v : State} {h : Hdr} {c : Cmd} {wrap : Word32} {n p : Nat}

/-! ### EXPORT (R570, R571, R604) -/

theorem exec_partExport {len : Word32} {addr : BitVec 64} {b : Bytes}
    (ha : s.arrival h 0x32 ([wrap] ++ addrWords addr ++ [len]) = some (t, c)) (hname : t.named c 4 wrap = .ok n)
    (hu : u = t.dmaRead (t.bufferTdid c) addr.toNat 80) :
    exec (.partExport h wrap addr len (some b)) s = .next (s.thenReap (u.exportPart c n addr len.toNat (Bytes.fit b 80))) := by
  subst hu
  refine congrArg Host.Outcome.next ((Laws.command_arrival s t h 0x32 _ c _ ha).trans (congrArg s.thenReap ?_))
  rw [outcome_refuse hname]
  rfl

/-- A partition that may be exported leaves as header, sealed records and tag, and keeps the MIGRATION_ID of its buffer. -/
theorem exportPart_of_checked {addr : BitVec 64} {len total : Nat} {b body mid hdr iv : Bytes} (hp : p = u.actsFor c (objKey 4 n))
    (hfrozen : (u.part p).state = .frozen) (hmay : u.noExport p = false) (hwrap : u.wrapOk n = true)
    (hbody : body = Config.migrateEncode (u.migrateRecords p)) (htotal : total = 128 + body.length) (hroom : total ≤ len)
    (hmid : mid = Bytes.slice b 64 16) (hdraw : (iv, v) = u.draw 12)
    (hhdr : hdr = v.packageHeader (u.migrateRecords p).length total mid iv) :
    u.exportPart c n addr len b =
      let sealed_ := gcmEncrypt (v.blobKek n hdr) (Bytes.fit iv 12) hdr body
      (State.onPart (v.dmaWrite (v.bufferTdid c) addr.toNat (hdr ++ sealed_.1 ++ sealed_.2)) p
        (fun x => { x with migrationId := mid })).answer c 0 [BitVec.ofNat 32 total] := by
  have hsize : 112 + body.length + 16 = total := by omega
  unfold State.exportPart
  simp only [← hp, ← hbody, hsize, hfrozen, hmay, hwrap, ← hdraw, ← hmid, ← hhdr, ne_eq, not_true_eq_false, if_false, Bool.not_true,
    Bool.false_eq_true, or_self, Nat.not_lt.2 hroom]

/-! ### IMPORT (R572, R604) -/

/-- The trust domains that the records of a package name. -/
def recordTdids (rs : List (List Nat)) : BitVec 128 :=
  (rs.filterMap (fun r => match r with | [0, t] => some t | _ => none)).foldl (fun m t => m ||| BitVec.ofNat 128 (2 ^ t)) 0

theorem exec_partImport_of_opened {addr place : BitVec 64} {b pl : Bytes} {rs : List (List Nat)}
    (ha : s.arrival h 0x33 ([wrap] ++ addrWords addr ++ addrWords place) = some (t, c)) (hname : t.named c 4 wrap = .ok n)
    (hfrozen : (t.part (t.actsFor c (objKey 4 n))).state = .frozen) (himport : (t.part (t.actsFor c (objKey 4 n))).importing = true)
    (hu : u = (t.dmaRead (t.bufferTdid c) addr.toNat (Bytes.le b 8 8)).dmaRead (t.bufferTdid c) place.toNat pl.length)
    (hformed : packageFormed b = true) (hwrap : u.wrapOk n = true) (hopen : u.openPackage n b = some rs) :
    exec (.partImport h wrap addr place (some b) (some pl)) s = .next (s.thenReap (u.importPart c n rs pl)) := by
  refine congrArg Host.Outcome.next ((Laws.command_arrival s t h 0x33 _ c _ ha).trans (congrArg s.thenReap ?_))
  rw [outcome_refuse hname, outcome_must (decide_eq_true ⟨hfrozen, himport⟩)]
  subst hu
  simp only [hformed, hwrap, hopen, Bool.not_true, Bool.false_eq_true, if_false]
  rfl

/-- Once every record is made the command ends, or waits for its regions; those that were lost at once are done with. -/
theorem importPart_of_made {rs : List (List Nat)} {pl : Bytes} {made : List Nat} {i : Nat} (hp : p = u.actsFor c (objKey 4 n))
    (htdids : recordTdids rs = (u.part p).tdids) (hmade : rs.foldlM (State.importRecord c p pl) (u, [], 0) = .ok (v, made, i)) :
    u.importPart c n rs pl =
      if made.isEmpty then v.answer c 0
      else
        let w := v.hold { c with names := objKey 4 n :: made }
        State.settle ((made.filter (fun k => (w.region (k % 2 ^ 20)).dead)).foldl (fun t k => t.importStep (k % 2 ^ 20) true) w) := by
  unfold State.importPart
  simp only [← hp]
  refine (if_neg (not_not.2 htdids)).trans ((outcome_bind hmade).trans ?_)
  cases made with
  | nil => rfl
  | cons k ks => rfl

/-! ### MIGRATE_SEND (R573, R574) -/

/-- Accepting a command touches mailboxes, islands and the list of commands, and no key slot. -/
@[simp] theorem acceptA_slot (ws : List Word32) (k : Nat) : (s.acceptA c ws).slot k = s.slot k := by
  unfold State.acceptA State.countCommand State.countS State.noteCommand
  obtain ⟨i, hcount⟩ := Laws.count_eq s 1 { code := 0x50, tdid := 128, sub := c.code.toNat }
  rw [hcount]
  obtain ⟨j, hnote⟩ := Laws.note_eq (State.respond { s with isl := i } c.mbx 0 c.cmdId.toNat ws) 1 9 none 0
    (256 * c.code.toNat + 0) (2 ^ 16 * c.part + c.cmdId.toNat) c.tag.toNat
  rw [hnote]
  rfl

/-- A region that may leave on its stream is answered at acceptance, and its lines are read from then on. -/
theorem exec_migrateSend_of_checked {region stream fence value : Word32} {dest : BitVec 64} {r f e fe : Nat}
    (ha : s.arrival h 0x34 ([region, stream] ++ addrWords dest ++ [fence, value]) = some (t, c)) (hrange : dest.toNat < 2 ^ 48)
    (halign : dest.toNat % 4096 = 0) (hregion : t.namedRegion c region = .ok r) (hstream : t.namedStream c stream = .ok (f, e))
    (hfence : t.namedFence c fence = .ok fe) (hgate : t.gate (t.actsFor c (objKey 3 r)) 0x34 = true) (hclass : (t.region r).cls ≠ 2)
    (hopen : (t.region r).cls = 0 → (t.region r).tdid ≠ 0) (hlive : (t.region r).phase = .live) (hsend : (t.entry f e).recv = false)
    (hstate : (t.entry f e).state = 1) (htdid : (t.entry f e).tdid.toNat = (t.region r).tdid)
    (hkey : ∀ n, (t.region r).slot = some n → (t.slot n).state = 1) :
    exec (.migrateSend h region stream dest fence value) s = .next (s.thenReap (State.settle (t.acceptA
      { c with what := streamKey f e, fence := some (fe, value.toNat), names := [objKey 3 r, objKey 5 (streamKey f e), objKey 6 fe] } []))) := by
  refine congrArg Host.Outcome.next ((Laws.command_arrival s t h 0x34 _ c _ ha).trans (congrArg s.thenReap ?_))
  rw [outcome_must (decide_eq_true ⟨hrange, halign⟩), outcome_refuse hregion, outcome_refuse hstream, outcome_refuse hfence,
    outcome_refuse (gated_of_gate hgate)]
  have hmay : ¬ ((t.region r).cls = 2 ∨ ((t.region r).cls = 0 ∧ (t.region r).tdid = 0) ∨ (t.region r).phase ≠ .live ∨
      (t.entry f e).recv = true ∨ (t.entry f e).state ≠ 1 ∨ (t.entry f e).tdid.toNat ≠ (t.region r).tdid) := by
    simpa [hclass, hlive, hsend, hstate, htdid] using hopen
  have hkept : ¬ ((t.region r).slot.any fun k => (t.slot k).state != 1) = true := by simpa [Option.any_eq_true] using hkey
  simp only [acceptA_slot]
  rw [if_neg hmay, if_neg hkept]
  rfl

end Sys2Proof.Migration

open Sys2Proof Sys2Proof.Machine Sys2Proof.Migration

/-- Settles O41: a clause for each command. -/
theorem migrationCommandsComplete : Obligations.MigrationCommandsComplete := by
  unfold Obligations.MigrationCommandsComplete
  refine ⟨?exported, ?imported, fun h region stream fence value dest s t c r f e fe => exec_migrateSend_of_checked⟩
  case exported =>
    intro h wrap len addr b body mid hdr iv s t u v c n p total ha hname hu hp hfrozen hmay hwrap hbody htotal hroom hmid hdraw hhdr
    rw [exec_partExport ha hname hu, exportPart_of_checked hp hfrozen hmay hwrap hbody htotal hroom hmid hdraw hhdr]
  case imported =>
    intro h wrap addr place b pl rs s t u v c n p i made ha hname hfrozen himport hu hformed hwrap hopen hp htdids hmade
    rw [exec_partImport_of_opened ha hname hfrozen himport hu hformed hwrap hopen, importPart_of_made hp htdids hmade]
end

section
/-!
SUPPORT and PROOF. The fuse row: a group read fuse by fuse (R478), the decoded STATE as fuses are blown (R477, R479), and what every
step of the machine keeps (R420, R480); from these O55 and O50.
-/

namespace Sys2Proof.FuseRow

open Sys2Proof Sys2Proof.Machine Sys2Proof.Laws Sys2Proof.MachineSteps

variable {s t : State}

/-! ### Reading the row (R478, R479) -/

theorem bits_ne_zero_iff (v hi lo : Nat) : bits v hi lo ≠ 0 ↔ ∃ i, i < hi + 1 - lo ∧ v.testBit (lo + i) = true := by
  have hbit (i : Nat) : (bits v hi lo).testBit i = (decide (i < hi + 1 - lo) && v.testBit (lo + i)) := by
    rw [bits, Nat.testBit_mod_two_pow, Nat.testBit_div_two_pow, Nat.add_comm i lo]
  constructor
  · intro hne
    obtain ⟨i, hi⟩ := Nat.exists_testBit_of_ne_zero hne
    exact ⟨i, by simpa [hbit] using hi⟩
  · rintro ⟨i, hlt, hset⟩ hzero
    have := hbit i
    simp [hzero, hlt, hset] at this

/-- The sense of a group: four fuses, of which one is enough. -/
theorem groupBlown_iff (otp : Word32) (g : Nat) : groupBlown otp g = true ↔ ∃ i, i < 4 ∧ otp.getLsbD (4 * g + i) = true := by
  have hwidth : 4 * g + 3 + 1 - 4 * g = 4 := by omega
  rw [groupBlown, bne_iff_ne, fld, bits_ne_zero_iff, hwidth]
  rfl

theorem getLsbD_of_kept {w i : Nat} {a b : BitVec w} (hkept : a &&& b = a) (hset : a.getLsbD i = true) : b.getLsbD i = true := by
  rw [← hkept, BitVec.getLsbD_and, Bool.and_eq_true] at hset
  exact hset.2

theorem groupBlown_of_kept {otp otp' : Word32} (hkept : otp &&& otp' = otp) {g : Nat} (hblown : groupBlown otp g = true) :
    groupBlown otp' g = true := by
  obtain ⟨i, hi, hset⟩ := (groupBlown_iff otp g).1 hblown
  exact (groupBlown_iff otp' g).2 ⟨i, hi, getLsbD_of_kept hkept hset⟩

/-- STATE is the highest of 8, 4, 2 and 1 whose COMMIT group is blown, so it does not fall while fuses stay blown. -/
theorem decodeState_le_of_kept {otp otp' : Word32} (hkept : otp &&& otp' = otp) : decodeState otp ≤ decodeState otp' := by
  have hgroup (g : Nat) : groupBlown otp g = true → groupBlown otp' g = true := groupBlown_of_kept hkept
  unfold decodeState
  by_cases h3 : groupBlown otp 5 = true
  · rw [if_pos h3, if_pos (hgroup 5 h3)]
  rw [if_neg h3]
  by_cases h2 : groupBlown otp 3 = true
  · rw [if_pos h2, if_pos (hgroup 3 h2)]
    split <;> omega
  rw [if_neg h2]
  by_cases h1 : groupBlown otp 1 = true
  · rw [if_pos h1, if_pos (hgroup 1 h1)]
    split_ifs <;> omega
  · rw [if_neg h1]
    split_ifs <;> omega

/-! ### What a step keeps -/

/-- A step keeps all that `Keeps` names, from the state whose queue has lost its front: an idle queue has none to lose. -/
theorem keeps_of_step (hstep : step s = .next t) : Keeps { s with pending := s.pending.tail } t := by
  cases hqueue : s.pending with
  | nil =>
    rw [step_of_idle hqueue] at hstep
    have hsame : { s with pending := [] } = s := by rw [← hqueue]
    rw [List.tail_nil, hsame]
    exact keepsN_next (keeps_advance keeps_refl 1) t hstep
  | cons c rest =>
    rw [step_of_front hqueue] at hstep
    exact keeps_exec _ c t hstep

end Sys2Proof.FuseRow

open Sys2Proof Sys2Proof.Machine Sys2Proof.FuseRow

/-- Settles O55: the field of a group is not zero exactly when one of its four bits is set. -/
theorem fuseGroupsReadBlown : Obligations.FuseGroupsReadBlown := by
  unfold Obligations.FuseGroupsReadBlown
  exact fun otp g _ => groupBlown_iff otp g

/-- Settles O50: what a step keeps, and the decoded STATE by the fuses kept. -/
theorem noStepUnblowsAFuseOrTakesBackAnOutput : Obligations.NoStepUnblowsAFuseOrTakesBackAnOutput := by
  unfold Obligations.NoStepUnblowsAFuseOrTakesBackAnOutput
  intro s t hstep
  obtain ⟨hpending, hnow, ⟨more, hout⟩, hrow, hdigest, hinverse, -, -, -⟩ := keeps_of_step hstep
  exact ⟨⟨hrow, hdigest, hinverse⟩, decodeState_le_of_kept hrow, hnow, ⟨more, hout.symm⟩, hpending⟩
end

section
/-!
SUPPORT and PROOF. Life-cycle commands: LC_CHALLENGE, LC_STATUS, LC_REQUEST past its checks of form and readiness, and a blown fuse
of a transition (R481 to R490, R493, R603); from these O15.
-/

namespace Sys2Proof.LifeCycleCommands

open Sys2Proof Sys2Proof.Machine

variable {s t u : State} {h : Hdr} {c : Cmd} {addr : BitVec 64} {b : Bytes}

/-! ### Challenge and status (R485, R488) -/

theorem exec_lcChallenge (ha : s.arrival h 3 [] = some (t, c)) :
    exec (.lcChallenge h) s = .next (s.thenReap ((({ t with free := t.free + 1 } : State).onLc (fun l =>
      { l with challenge := some (Config.freeBytes t.free 32) })).answer c 0)) :=
  congrArg Host.Outcome.next (Laws.command_arrival s t h 3 [] c _ ha)

theorem exec_lcStatus (ha : s.arrival h 5 [] = some (t, c)) :
    exec (.lcStatus h) s = .next (s.thenReap (t.answer c 0 [t.lc.statusWord])) :=
  congrArg Host.Outcome.next (Laws.command_arrival s t h 5 [] c _ ha)

/-! ### LC_REQUEST (R483 to R487, R493) -/

/-- LC_TRANSITION and DEBUG_OPEN are one command to Tower, LC_REQUEST. -/
theorem exec_lcRequest {i : Instr} {token : Buf} (hi : i = .lcTransition h addr token ∨ i = .debugOpen h addr token)
    (ha : s.arrival h 4 (addrWords addr) = some (t, c)) :
    exec i s = .next (s.thenReap ((t.readToken addr).lcRequest c token)) := by
  obtain rfl | rfl := hi
  · exact congrArg Host.Outcome.next (Laws.command_arrival s t h 4 _ c _ ha)
  · exact congrArg Host.Outcome.next (Laws.command_arrival s t h 4 _ c _ ha)

@[simp] theorem readToken_lc : (s.readToken addr).lc = s.lc := rfl

@[simp] theorem readToken_lcBusy : (s.readToken addr).lcBusy = s.lcBusy := rfl

/-- A formed token that answers the challenge, with nothing in its way, uses the challenge up before it is judged. -/
theorem lcRequest_of_challenged (hformed : tokenFormed b = true) (hfree : s.lcBusy = none)
    (hchallenge : s.lc.challenge = some (Bytes.slice b 8 32)) (hu : u = s.onLc (fun l => { l with challenge := none })) :
    s.lcRequest c (some b) =
      if Bytes.at b 6 = 2 ∧ u.lc.debug = true then u.answer c 1
      else if u.tokenSigned b = false ∨ u.tokenRefused b = true then u.freeReason c
      else if Bytes.at b 6 = 2 then u.debugStart c
      else u.transitionStart c b := by
  subst hu
  simp only [State.lcRequest, hformed, hfree, hchallenge, Bool.not_true, Bool.false_eq_true, if_false, ne_eq, not_true_eq_false,
    Bool.not_eq_true']

/-! ### FUSE_PROGRAM_DONE (R487, R490) -/

theorem exec_fuseProgramDone_of_outstanding {r : Transition} {f : Fuse} {rest : List Fuse} (hrail : s.dom.railPresent = true)
    (hrunning : s.lc.running = some r) (hfuses : r.fuses = f :: rest) :
    exec .fuseProgramDone s =
      .next (State.transitionGo 4 (s.onLc (fun l => { l.blow f with running := some { r with fuses := rest } }))) := by
  have hdone : s.fuseDone = State.transitionGo 4 (s.onLc (fun l => { l.blow f with running := some { r with fuses := rest } })) := by
    simp only [State.fuseDone, hrunning, hfuses]
  exact congrArg Host.Outcome.next ((if_pos hrail).trans hdone)

end Sys2Proof.LifeCycleCommands

open Sys2Proof Sys2Proof.Machine Sys2Proof.LifeCycleCommands

/-- Settles O15: a clause for each command; LC_REQUEST goes on with the state whose challenge is used up. -/
theorem lifeCycleCommandsComplete : Obligations.LifeCycleCommandsComplete := by
  unfold Obligations.LifeCycleCommandsComplete
  refine ⟨fun h s t c => exec_lcChallenge, fun h s t c => exec_lcStatus, ?request,
    fun s r f rest => exec_fuseProgramDone_of_outstanding⟩
  case request =>
    intro h addr b s t u c ha hformed hfree hchallenge hu i hi
    rw [exec_lcRequest hi ha, lcRequest_of_challenged hformed (by simpa using hfree) (by simpa using hchallenge) hu]
end

section
/-!
SUPPORT and PROOF. Tower's firmware RAM (R578, R582): what a string reads back as, and that a canonical RAM is determined by its
bytes; from these O51.
-/

namespace Sys2Proof.FirmwareRam

open Sys2Proof Sys2Proof.Machine

variable {m n : List Host.Cell} {a x i : Nat} {v : Byte} {b : Option Nat}

/-! ### Strings -/

/-- A string that was written reads back, and the bytes beside it read as before. -/
theorem read_writeBytes (l : Bytes) (hm : Memory.wf m = true) :
    Ram.read (Ram.writeBytes m x l) i = if x ≤ i ∧ i < x + l.length then l.getD (i - x) 0 else Ram.read m i := by
  induction l generalizing m x with
  | nil => exact (if_neg (by simp only [List.length_nil]; omega)).symm
  | cons v l ih =>
    have hrest : Ram.read (Ram.writeBytes m x (v :: l)) i =
        if x + 1 ≤ i ∧ i < x + 1 + l.length then l.getD (i - (x + 1)) 0 else Ram.read (Ram.write m x v) i :=
      ih (Laws.ram_wf_write m x v hm)
    rw [hrest, List.length_cons]
    obtain hlt | rfl | hgt := Nat.lt_trichotomy i x
    · rw [if_neg (by omega), if_neg (by omega), Laws.ram_read_write_other m x i v (by omega)]
    · rw [if_neg (by omega), if_pos (by omega), Laws.ram_read_write_same m i v hm, Nat.sub_self, List.getD_cons_zero]
    · by_cases hin : i < x + 1 + l.length
      · obtain ⟨k, rfl⟩ : ∃ k, i = x + 1 + k := ⟨i - (x + 1), by omega⟩
        rw [if_pos (by omega), if_pos (by omega), Nat.add_sub_cancel_left, show x + 1 + k - x = k + 1 by omega, List.getD_cons_succ]
      · rw [if_neg (by omega), if_neg (by omega), Laws.ram_read_write_other m x i v (by omega)]

/-! ### Extensionality -/

theorem wfFrom_cons (h : Ram.wfFrom b ((a, v) :: m) = true) : v ≠ 0 ∧ Ram.wfFrom (some a) m = true := by
  simp only [Ram.wfFrom, Bool.and_eq_true, Bool.not_eq_true', decide_eq_false_iff_not] at h
  exact ⟨h.1.2, h.2⟩

theorem read_cons_self : Ram.read ((a, v) :: m) a = v := if_pos rfl

theorem read_cons_of_ne (h : x ≠ a) : Ram.read ((a, v) :: m) x = Ram.read m x := if_neg h.symm

/-- Below its first cell a canonical RAM reads zero. -/
theorem read_below_first (h : Ram.wfFrom b ((a, v) :: m) = true) (hx : x < a) : Ram.read ((a, v) :: m) x = 0 := by
  rw [read_cons_of_ne (by omega)]
  exact Laws.ram_read_of_wfFrom m a (wfFrom_cons h).2 x (by omega)

/-- Canonical RAMs that read alike have no first cell below the other's. -/
theorem first_le_first {a' : Nat} {v' : Byte} {b' : Option Nat} (hm : Ram.wfFrom b ((a, v) :: m) = true)
    (hn : Ram.wfFrom b' ((a', v') :: n) = true) (h : ∀ x, Ram.read ((a, v) :: m) x = Ram.read ((a', v') :: n) x) : a' ≤ a := by
  by_contra hlt
  have hzero := h a
  rw [read_cons_self, read_below_first hn (by omega)] at hzero
  exact (wfFrom_cons hm).1 hzero

theorem eq_of_read_eq : ∀ {m n : List Host.Cell} {b c : Option Nat}, Ram.wfFrom b m = true → Ram.wfFrom c n = true →
    (∀ x, Ram.read m x = Ram.read n x) → m = n
  | [], [], _, _, _, _, _ => rfl
  | [], (a, v) :: n, _, _, _, hn, h => absurd ((h a).trans read_cons_self).symm (wfFrom_cons hn).1
  | (a, v) :: m, [], _, _, hm, _, h => absurd (read_cons_self.symm.trans (h a)) (wfFrom_cons hm).1
  | (a, v) :: m, (a', v') :: n, b, c, hm, hn, h => by
    obtain rfl : a = a' := Nat.le_antisymm (first_le_first hn hm fun x => (h x).symm) (first_le_first hm hn h)
    have hv : v = v' := by simpa only [read_cons_self] using h a
    have hrest : m = n := by
      refine eq_of_read_eq (wfFrom_cons hm).2 (wfFrom_cons hn).2 fun x => ?_
      by_cases hx : x = a
      · subst hx
        rw [Laws.ram_read_of_wfFrom m x (wfFrom_cons hm).2 x (Nat.le_refl x),
          Laws.ram_read_of_wfFrom n x (wfFrom_cons hn).2 x (Nat.le_refl x)]
      · simpa only [read_cons_of_ne hx] using h x
    rw [hv, hrest]

end Sys2Proof.FirmwareRam

open Sys2Proof Sys2Proof.Machine Sys2Proof.FirmwareRam

/-- Settles O51: a byte, the other bytes, the canonical form, a string, and that equal reads are equal data. -/
theorem firmwareRamReadsBackWhatWasWritten : Obligations.FirmwareRamReadsBackWhatWasWritten := by
  unfold Obligations.FirmwareRamReadsBackWhatWasWritten
  exact ⟨fun m x v hm => Laws.ram_read_write_same m x v hm, fun m x y v hy => Laws.ram_read_write_other m x y v hy,
    fun m x l hm => Laws.ram_wf_writeBytes l m x hm, fun m x i l hm => read_writeBytes l hm, fun m n hm hn h => eq_of_read_eq hm hn h⟩
end

section
/-!
SUPPORT and PROOF. Mailboxes and Tower's cores: what a write and a take do to a direction (R588 to R590), what Tower takes, answers
and writes (R591 to R601, R607), and when its cores sleep, wake and halt (R577, R579); from these O1, O2, O3 and O4.
-/

namespace Sys2Proof.Mailboxes

open Sys2Proof Sys2Proof.Machine

variable {s : State} {n k st : Nat} {v w : Word32}

/-! ### The commands -/

section
variable (b : Fin 160)

theorem exec_mbxTake : exec (.mbxTake b v) s = .next (s.mbxTake b.val v) := rfl

theorem exec_mbxTxWrite : exec (.mbxTxWrite b w) s = .next (s.mbxTxWrite b.val w) := rfl

theorem exec_mbxRxWrite : exec (.mbxRxWrite b) s = .next (s.mbxRxWrite b.val) := rfl

theorem exec_mbxTowerTake : exec (.mbxTowerTake b) s = .next (s.mbxTowerTake b.val) := rfl

theorem exec_commandCollision : exec (.commandCollision b) s = .next (s.commandCollision b.val) := rfl

theorem exec_unknownCommand : exec (.unknownCommand b) s = .next (s.unknownCommand b.val) := rfl

theorem exec_noticeWrite : exec .noticeWrite s = .next s.noticeWrite := rfl

theorem exec_towerSleep : exec .towerSleep s = .next s.towerSleep := rfl

theorem exec_towerWake : exec .towerWake s = .next s.towerWake := rfl

theorem exec_lockstepMismatch : exec .lockstepMismatch s = .next s.lockstepMismatch := rfl

end

/-! ### Takes by the other side (R590) -/

theorem mbxTake_of_due {x : MbxWord} {rest : List MbxWord} (hlive : s.live 1 = true) (hrx : (s.mbx.get n).rx = x :: rest)
    (hseq : x.seq.toNat = fld v 7 0) (hone : 1 ≤ fld v 11 8) (hcount : fld v 11 8 ≤ (x :: rest).length) :
    s.mbxTake n v = s.onMbx n (fun m => { m with rx := m.rx.drop (fld v 11 8) }) := by
  unfold State.mbxTake
  simp only [hrx, List.head?_cons]
  exact if_pos ⟨hlive, hseq, hone, hcount⟩

theorem mbxTake_of_wrong {x : MbxWord} {rest : List MbxWord} (hrx : (s.mbx.get n).rx = x :: rest)
    (hwrong : x.seq.toNat ≠ fld v 7 0 ∨ (x :: rest).length < fld v 11 8 ∨ fld v 11 8 = 0) : s.mbxTake n v = s := by
  unfold State.mbxTake
  simp only [hrx, List.head?_cons]
  exact if_neg fun ⟨_, hseq, hone, hcount⟩ => by omega

theorem mbxTake_of_empty (hrx : (s.mbx.get n).rx = []) : s.mbxTake n v = s := by
  unfold State.mbxTake
  simp only [hrx, List.head?_nil]

/-! ### Writes into a direction (R588, R589) -/

theorem pushWord_of_room {room : Nat} {l : List MbxWord} (seq : BitVec 8) (hroom : l.length < room) :
    pushWord room l seq w = (l ++ [{ word := w, seq := seq + 1 }], seq + 1, false) := if_pos hroom

theorem pushWord_of_full {room : Nat} {l : List MbxWord} (seq : BitVec 8) (hfull : room ≤ l.length) :
    pushWord room l seq w = (l.dropLast ++ [{ word := w, seq := seq + 1 }], seq + 1, true) := if_neg (by omega)

/-- A change of a mailbox is what it makes of that mailbox's contents. -/
theorem onMbx_congr {f g : Mbx → Mbx} (h : f (s.mbx.get n) = g (s.mbx.get n)) : s.onMbx n f = s.onMbx n g := by
  unfold State.onMbx Tbl.modify
  rw [h]

theorem mbxTxWrite_of_room (hlive : s.live 1 = true) (hroom : (s.mbx.get n).tx.length < (s.mbx.get n).room) :
    s.mbxTxWrite n w =
      s.onMbx n (fun m => { m with tx := m.tx ++ [{ word := w, seq := m.txSeq + 1 }], txSeq := m.txSeq + 1 }) := by
  unfold State.mbxTxWrite
  simp only [hlive, Bool.not_true, Bool.false_eq_true, if_false, pushWord_of_room _ hroom, Bool.or_false]
  exact onMbx_congr rfl

theorem mbxTxWrite_of_full (hlive : s.live 1 = true) (hfull : (s.mbx.get n).room ≤ (s.mbx.get n).tx.length) :
    s.mbxTxWrite n w = s.onMbx n (fun m =>
      { m with tx := m.tx.dropLast ++ [{ word := w, seq := m.txSeq + 1 }], txSeq := m.txSeq + 1, collTx := true }) := by
  unfold State.mbxTxWrite
  simp only [hlive, Bool.not_true, Bool.false_eq_true, if_false, pushWord_of_full _ hfull, Bool.or_true]
  exact onMbx_congr rfl

@[simp] theorem hostWake_mbx : s.hostWake.mbx = s.mbx := by
  unfold State.hostWake
  split <;> rfl

/-- Tower's write into a full RX, whatever interrupt and wake event follow it. -/
theorem rxPush_mbx_of_full (hfull : (s.mbx.get n).room ≤ (s.mbx.get n).rx.length) :
    (s.rxPush n w).mbx.get n = { s.mbx.get n with
      rx := (s.mbx.get n).rx.dropLast ++ [{ word := w, seq := (s.mbx.get n).rxSeq + 1 }], rxSeq := (s.mbx.get n).rxSeq + 1
      collRx := true } := by
  have hmbx : (s.rxPush n w).mbx = s.mbx.modify n (fun m => { m with
      rx := (s.mbx.get n).rx.dropLast ++ [{ word := w, seq := (s.mbx.get n).rxSeq + 1 }], rxSeq := (s.mbx.get n).rxSeq + 1
      collRx := m.collRx || true }) := by
    unfold State.rxPush
    simp only [pushWord_of_full _ hfull, hostWake_mbx]
    split <;> rfl
  rw [hmbx, Laws.tbl_get_modify_of_ne_default]
  · simp only [Bool.or_true]
  · exact fun h => List.append_ne_nil_of_right_ne_nil _ (List.cons_ne_nil _ _) (congrArg Mbx.rx h)

/-! ### Takes and answers by Tower (R592, R596 to R601) -/

theorem commandCollision_of_set (hfw : s.fwUp = true) (hcoll : (s.mbx.get n).collTx = true) (h0 : n ≠ 0) (h2 : n ≠ 2) :
    s.commandCollision n = (((s.onMbx n (fun m => { m with collTx := false, tx := [] })).onMbx n (fun m =>
      { m with resp := m.resp ++ [[BitVec.ofNat 32 (0x0A * 2 ^ 24 + 0xFFFF)]] }))).emptyIrq n := by
  unfold State.commandCollision
  rw [if_pos ⟨hfw, hcoll, h0, h2⟩]
  rfl

theorem mbxRxWrite_of_room {ws : List Word32} {rest : List (List Word32)} (hresp : (s.mbx.get n).resp = (w :: ws) :: rest)
    (hfw : s.fwUp = true) (hroom : (s.mbx.get n).rx.length + ws.length < (s.mbx.get n).room) :
    s.mbxRxWrite n = (s.rxPush n w).onMbx n (fun m => { m with resp := if ws.isEmpty then rest else ws :: rest }) := by
  unfold State.mbxRxWrite
  simp only [hresp]
  exact if_pos (by simp [hfw, hroom])

section Take

variable (hfw : s.fwUp = true) (hawake : s.fw.sleep = false) (hrun : (s.isl.get 1).swap = .run)
include hfw hawake hrun

theorem mbxTowerTake_of_message (h0 : n ≠ 0) (h2 : n ≠ 2) (hcoll : (s.mbx.get n).collTx = false)
    (hhead : (s.mbx.get n).head = some (k, none)) : s.mbxTowerTake n = s.takeMessage n k := by
  unfold State.mbxTowerTake
  simp [hfw, hawake, hrun, h0, h2, hcoll, hhead]

theorem mbxTowerTake_two : s.mbxTowerTake 2 = s.txTake 2 8 := by
  unfold State.mbxTowerTake
  simp [hfw, hawake, hrun]

end Take

/-- A message that no rule refuses is queued with what it names, and counted when its answer is of kind C. -/
theorem takeMessage_of_accepted {ws : List Word32} (hws : ws = ((s.mbx.get n).tx.take k).map (·.word))
    (hfree : (s.txTake n k).refusal n (fld (ws[0]?.getD 0) 31 24) (fld (ws[1]?.getD 0) 23 0) = none) :
    s.takeMessage n k =
      State.acceptC { s.txTake n k with cmds := (s.txTake n k).cmds ++
        [{ mbx := n, code := BitVec.ofNat 8 (fld (ws[0]?.getD 0) 31 24), cmdId := BitVec.ofNat 16 (fld (ws[0]?.getD 0) 15 0)
           tag := BitVec.ofNat 24 (fld (ws[1]?.getD 0) 23 0), args := ws.drop 2, part := (s.txTake n k).mbxPart n
           names := (s.txTake n k).namedKeys (fld (ws[0]?.getD 0) 31 24) (ws.drop 2) }] } (fld (ws[0]?.getD 0) 31 24) := by
  unfold State.takeMessage
  simp only [← hws, hfree]

theorem unknownCommand_of_malformed {x : MbxWord} {rest : List MbxWord} (hfw : s.fwUp = true) (h0 : n ≠ 0) (h2 : n ≠ 2)
    (hcoll : (s.mbx.get n).collTx = false) (hhead : (s.mbx.get n).head = some (k, some st)) (htx : (s.mbx.get n).tx = x :: rest) :
    s.unknownCommand n = (s.txTake n k).respond n st (fld x.word 15 0) [] := by
  unfold State.unknownCommand
  simp only [hhead, htx, List.head?_cons, Option.getD_some]
  exact if_pos ⟨hfw, h0, h2, by simp [hcoll]⟩

/-! ### Notices, cores and fences (R561, R577, R579, R607) -/

theorem noticeWrite_of_waiting {a b : Word32} {rest : List (Word32 × Word32)} (hwords : s.cap.words = (a, b) :: rest)
    (hfw : s.fwUp = true) :
    s.noticeWrite = (State.rxPush { s with cap := { s.cap with words := rest } } 2 a).rxPush 2 b := by
  unfold State.noticeWrite
  rw [hwords]
  exact if_pos hfw

theorem towerSleep_of_quiet (hfw : s.fwUp = true) (hquiet : ∀ c ∈ s.mbx.cells, c.2.tx = []) :
    s.towerSleep = { s with fw := { s.fw with sleep := true } } :=
  if_pos ⟨hfw, List.all_eq_true.2 fun c hc => List.isEmpty_iff.2 (hquiet c hc)⟩

theorem towerWake_of_word {c : Nat × Mbx} (hc : c ∈ s.mbx.cells) (hword : c.2.tx ≠ []) :
    s.towerWake = { s with fw := { s.fw with sleep := false } } :=
  if_pos (List.any_eq_true.2 ⟨c, hc, by simpa using hword⟩)

theorem lockstepMismatch_of_running (hfw : s.fwUp = true) :
    s.lockstepMismatch = State.report { s with fw := { s.fw with halted := true } } 12 1 0 := if_pos hfw

theorem exec_fenceWriteError_of_used {f : Fin 16384} (hused : (s.obj (objKey 6 f.val)).used = true) :
    exec (.fenceWriteError f) s =
      .next (((s.onFence f.val (fun x => { x with lost := true })).onPrt (fun q => { q with fenceLost := true })).countFixed 1 8) :=
  congrArg Host.Outcome.next (if_pos hused)

end Sys2Proof.Mailboxes

open Sys2Proof Sys2Proof.Machine Sys2Proof.Mailboxes

/-- Settles O1: a take that is due, one that is not, and one from an empty direction. -/
theorem mailboxTakeFollowsSequence : Obligations.MailboxTakeFollowsSequence := by
  unfold Obligations.MailboxTakeFollowsSequence
  intro n v s hlive
  rw [exec_mbxTake]
  exact ⟨fun x rest hrx hseq hone hcount => congrArg _ (mbxTake_of_due hlive hrx hseq hone hcount),
    fun x rest hrx hwrong => congrArg _ (mbxTake_of_wrong hrx hwrong), fun hrx => congrArg _ (mbxTake_of_empty hrx)⟩

/-- Settles O2: a write with room and one without, and Tower's write into a full RX. -/
theorem fullMailboxWriteReplacesNewest : Obligations.FullMailboxWriteReplacesNewest := by
  unfold Obligations.FullMailboxWriteReplacesNewest
  intro n w s hlive
  rw [exec_mbxTxWrite]
  exact ⟨fun hroom => congrArg _ (mbxTxWrite_of_room hlive hroom), fun hfull => congrArg _ (mbxTxWrite_of_full hlive hfull),
    fun hfull => by rw [rxPush_mbx_of_full hfull]; exact ⟨rfl, rfl⟩⟩

/-- Settles O3: the flag goes with the words, then the answer waits and the interrupt goes out. -/
theorem collisionIsAnswered : Obligations.CollisionIsAnswered := by
  unfold Obligations.CollisionIsAnswered
  intro n s hfw hcoll h0 h2
  rw [exec_commandCollision, commandCollision_of_set hfw hcoll h0 h2]

/-- Settles O4: a clause for each command of the mailboxes, the notices, the cores and the fence writes. -/
theorem towerMailboxCommandsComplete : Obligations.TowerMailboxCommandsComplete := by
  unfold Obligations.TowerMailboxCommandsComplete
  refine ⟨?rxWrite, ?take, ?discard, ?unknown, ?notice, ?sleep, ?wake, ?halt, fun f s hused => exec_fenceWriteError_of_used hused⟩
  case rxWrite =>
    intro n s w ws rest hresp hfw hroom
    rw [exec_mbxRxWrite, mbxRxWrite_of_room hresp hfw hroom]
  case take =>
    intro n s k hfw hawake hrun h0 h2 hcoll hhead ws hws hfree
    rw [exec_mbxTowerTake, mbxTowerTake_of_message hfw hawake hrun h0 h2 hcoll hhead, takeMessage_of_accepted hws hfree]
  case discard => exact fun s hfw hawake hrun => congrArg Host.Outcome.next (mbxTowerTake_two hfw hawake hrun)
  case unknown =>
    intro n s k st x rest hfw h0 h2 hcoll hhead htx
    rw [exec_unknownCommand, unknownCommand_of_malformed hfw h0 h2 hcoll hhead htx]
  case notice =>
    intro s a b rest hwords hfw
    rw [exec_noticeWrite, noticeWrite_of_waiting hwords hfw]
  case sleep =>
    intro s hfw hquiet
    rw [exec_towerSleep, towerSleep_of_quiet hfw hquiet]
  case wake =>
    intro s c hc hword
    rw [exec_towerWake, towerWake_of_word hc hword]
  case halt =>
    intro s hfw
    rw [exec_lockstepMismatch, lockstepMismatch_of_running hfw]
end

section
/-!
SUPPORT and PROOF. RAMP_WINDOW and CAP_HOLD_EXPIRY: the step that a window takes, by what waits for one (R737 to R744), and a cap that
falls (R741); from these O13.
-/

namespace Sys2Proof.Ramp

open Sys2Proof Sys2Proof.Machine

variable {s u : State} {ds : List (Nat × Nat)}

theorem exec_capHoldExpiry (c : Cl) : exec (.capHoldExpiry c) s =
    .next (s.onCluster (c.val + 3) (fun x => { x with cap := if x.demand < x.cap then x.demand else x.cap })) := rfl

/-- A window begins with the demands it is given, and takes one step (R738, R744). -/
theorem exec_rampWindow_of_live (hlive : s.live 2 = true)
    (hu : u = ({ s with pwr := { s.pwr with stepTaken := false, exempt := 0 } } : State).setDemands ds) :
    exec (.rampWindow ds) s = .next (match u.windowSwap with
      | some t => t
      | none =>
        if 0 < u.pwr.belfryWait then { u with pwr := { u.pwr with belfryWait := u.pwr.belfryWait - 1, stepTaken := true } }
        else if 0 < u.pwr.testWait then { u with pwr := { u.pwr with testWait := u.pwr.testWait - 1, stepTaken := true } }
        else u.windowGrant) := by
  subst hu
  exact congrArg Host.Outcome.next (if_pos hlive)

theorem windowGrant_of_waiting {c : Nat} (hwaits : (grantOrder s.pwr.lastGrant).find? s.waitsGrant = some c) :
    s.windowGrant = { s.onCluster c (fun x => { x with cap := BitVec.ofNat 8 (min (x.cap.toNat + 8) (s.capLimit c)) }) with
      pwr := { s.pwr with lastGrant := c, stepTaken := true } } := by
  unfold State.windowGrant
  rw [hwaits]
  rfl

end Sys2Proof.Ramp

open Sys2Proof Sys2Proof.Machine Sys2Proof.Ramp

/-- Settles O13: a window by the first thing that waits for its step, and the cap. -/
theorem rampCommandsComplete : Obligations.RampCommandsComplete := by
  unfold Obligations.RampCommandsComplete
  refine ⟨?window, fun c s => exec_capHoldExpiry c⟩
  case window =>
    intro ds s u hlive hu
    rw [exec_rampWindow_of_live hlive hu]
    refine ⟨fun t hswap => ?swap, fun hswap hbelfry => ?belfry, fun hswap hbelfry htest => ?test,
      fun c hswap hbelfry htest hwaits => ?grant⟩
    case swap => rw [hswap]
    case belfry => rw [hswap]; exact congrArg _ (if_pos hbelfry)
    case test => simp only [hswap, hbelfry, Nat.lt_irrefl, if_false, if_pos htest]
    case grant => simp only [hswap, hbelfry, htest, Nat.lt_irrefl, if_false, windowGrant_of_waiting hwaits]
end

section
/-!
SUPPORT and PROOF. The SPDM responder's negotiation, certificates, challenge, measurements and chunks: the state a request reaches it
in, and each request's response there (R506, R513 to R519); from these O35.
-/

namespace Sys2Proof.SpdmRequests

open Sys2Proof Sys2Proof.Machine

variable {s t u : State} {m : SpdmMsg} {code stage : Nat}

/-- A request that reaches the responder is worked on in the state of its arrival (R516 to R519). -/
theorem spdm_of_arrival (ha : s.spdmArrival m code stage = some t) (body : State → State) : s.spdm m code stage body = body t := by
  unfold State.spdmArrival at ha
  simp only [Option.ite_none_right_eq_some, Bool.and_eq_true, Option.some.injEq] at ha
  obtain ⟨⟨⟨hfw, hserved⟩, hmet⟩, rfl⟩ := ha
  have hin : ¬ ((!s.fwUp) = true ∨ (!s.connServed m.conn.val) = true) := by simp [hfw, hserved]
  unfold State.spdm
  simp only [if_neg hin]
  cases hsess : m.sess with
  | some k =>
    simp only [hsess, Bool.and_eq_true, beq_iff_eq] at hmet ⊢
    exact if_neg (by simp [hmet])
  | none =>
    simp only [hsess, decide_eq_true_eq] at hmet ⊢
    exact if_neg (by omega)

/-! ### Negotiation (R516 to R518) -/

theorem exec_getVersion (ha : s.spdmArrival m 0x84 0 = some t) :
    exec (.getVersion m) s = .next ((t.onConn m.conn.val (fun c => { c with
      version := 0, stage := 1, transcript := reqBytes 0x84 m, chunkIn := [], chunkOut := [], ready := none, awaited := false })).spdmAnswer
        m 0x04 [0x12, 0x13]) := congrArg Host.Outcome.next (spdm_of_arrival ha _)

theorem exec_getCapabilities_of_version (ha : s.spdmArrival m 0xE1 1 = some t) (hversion : m.version = 0x12 ∨ m.version = 0x13) :
    exec (.getCapabilities m) s = .next ((t.onConn m.conn.val (fun c => { c with version := m.version.toNat, stage := 2 })).spdmAnswer
      m 0x61 (12 :: toLe 4 capFlags)) := congrArg Host.Outcome.next ((spdm_of_arrival ha _).trans (if_pos hversion))

theorem exec_negotiateAlgorithms_of_usable (ha : s.spdmArrival m 0xE3 2 = some t) (husable : algsUsable m = true) :
    exec (.negotiateAlgorithms m) s = .next ((t.onConn m.conn.val (fun c => { c with stage := 3 })).spdmAnswer m 0x63
        ([1, 0x02] ++ toLe 4 4 ++ toLe 4 0x80 ++ toLe 4 2 ++ [2, 0x20] ++ toLe 2 0x10 ++ [3, 0x20] ++ toLe 2 2 ++
          [4, 0x20] ++ toLe 2 0x80 ++ [5, 0x20] ++ toLe 2 1)) :=
  congrArg Host.Outcome.next ((spdm_of_arrival ha _).trans (if_pos husable))

/-! ### Certificates, challenge, measurements (R506, R519) -/

theorem exec_getDigests (ha : s.spdmArrival m 0x81 3 = some t) :
    exec (.getDigests m) s = .next (t.spdmAnswer m 0x01 (1 :: Sha.sha384 (t.certChain true))) :=
  congrArg Host.Outcome.next (spdm_of_arrival ha _)

theorem exec_getCertificate_of_slot_zero {part : Bytes} (ha : s.spdmArrival m 0x82 3 = some t) (hslot : m.p1 = 0)
    (hoff : Bytes.le m.body 0 2 ≤ (t.certChain true).length)
    (hpart : part = Bytes.slice (t.certChain true) (Bytes.le m.body 0 2) (Bytes.le m.body 2 2)) :
    exec (.getCertificate m) s = .next (t.spdmAnswer m 0x02
      (toLe 2 part.length ++ toLe 2 ((t.certChain true).length - Bytes.le m.body 0 2 - part.length) ++ part)) := by
  subst hpart
  have hok : ¬ (m.p1 ≠ 0 ∨ (t.certChain true).length < Bytes.le m.body 0 2) := fun h => h.elim (· hslot) (by omega)
  exact congrArg Host.Outcome.next ((spdm_of_arrival ha _).trans (if_neg hok))

theorem exec_challenge_of_slot_zero (ha : s.spdmArrival m 0x83 3 = some t) (hslot : m.p1 = 0) (hlen : 32 ≤ m.body.length)
    (hu : u = { t with free := t.free + 1 }) :
    exec (.challenge m) s = .next (u.signedReply m 0x03 (Sha.sha384 (u.certChain true) ++ Config.freeBytes t.free 32 ++
      (if m.p2 = 0 then [] else Sha.sha384 (([1, 2, 3, 4, 5, 6, 7].map u.measurement).flatten)))) := by
  subst hu
  have hok : ¬ (m.p1 ≠ 0 ∨ m.body.length < 32) := fun h => h.elim (· hslot) (by omega)
  exact congrArg Host.Outcome.next ((spdm_of_arrival ha _).trans (if_neg hok))

theorem exec_getMeasurements_of_index {reply : Bytes} (ha : s.spdmArrival m 0xE0 3 = some t)
    (hindex : m.p2.toNat ≤ 7 ∨ m.p2.toNat = 0xFF) (hu : u = { t with free := t.free + 1 })
    (hreply : reply = (if m.p2.toNat = 0 then [7] else [0]) ++ u.measBlocks m.p2.toNat ++ Config.freeBytes t.free 32) :
    exec (.getMeasurements m) s = .next (if m.p1.getLsbD 0 then u.signedReply m 0x60 reply else u.spdmAnswer m 0x60 reply) := by
  subst hreply hu
  have hok : ¬ (7 < m.p2.toNat ∧ m.p2.toNat ≠ 0xFF) := by omega
  exact congrArg Host.Outcome.next ((spdm_of_arrival ha _).trans (if_neg hok))

/-! ### Chunks, late answers, anything else (R514, R519) -/

theorem exec_chunkSend {all : Bytes} (ha : s.spdmArrival m 0x85 0 = some t)
    (hall : all = (if Bytes.le m.body 0 2 == 0 then [] else (t.conn m.conn.val).chunkIn) ++
      Bytes.slice m.body (if Bytes.le m.body 0 2 == 0 then 12 else 8) (Bytes.le m.body 4 4)) :
    exec (.chunkSend m) s = .next ((t.onConn m.conn.val (fun c => { c with chunkIn := if m.p1.getLsbD 0 then [] else all })).spdmAnswer m 0x05
      ([0, m.p2] ++ Bytes.slice m.body 0 2)) := by
  subst hall
  exact congrArg Host.Outcome.next (spdm_of_arrival ha _)

theorem exec_chunkGet_of_left {all : Bytes} (ha : s.spdmArrival m 0x86 0 = some t) (hall : all = (t.conn m.conn.val).chunkOut)
    (hleft : all ≠ []) :
    exec (.chunkGet m) s = .next ((t.onConn m.conn.val (fun c => { c with chunkOut := all.drop 4064 })).spdmOut m.conn.val (sessOf m)
      (Config.spdmEncode 0x06 (BitVec.ofNat 8 (b2n (decide (all.length ≤ 4064))) :: m.p2 :: Bytes.slice m.body 0 2 ++ all.take 4064))) := by
  subst hall
  exact congrArg Host.Outcome.next ((spdm_of_arrival ha _).trans (if_neg (by simpa using hleft)))

theorem exec_respondIfReady_of_ready {b : Bytes} (ha : s.spdmArrival m 0xFF 0 = some t) (hready : (t.conn m.conn.val).ready = some b) :
    exec (.respondIfReady m) s = .next ((t.onConn m.conn.val (fun c => { c with ready := none })).spdmOut m.conn.val (sessOf m) b) := by
  refine congrArg Host.Outcome.next ((spdm_of_arrival ha _).trans ?_)
  simp only [hready]

theorem exec_spdmUnsupportedRequest (ha : s.spdmArrival m 0 0 = some t) :
    exec (.spdmUnsupportedRequest m) s = .next (t.spdmError m.conn.val (sessOf m) 7) := congrArg Host.Outcome.next (spdm_of_arrival ha _)

end Sys2Proof.SpdmRequests

open Sys2Proof Sys2Proof.Machine Sys2Proof.SpdmRequests

/-- Settles O35: a clause for each request, in the state of its arrival. -/
theorem spdmNegotiationComplete : Obligations.SpdmNegotiationComplete := by
  unfold Obligations.SpdmNegotiationComplete
  exact ⟨fun m s t => exec_getVersion, fun m s t => exec_getCapabilities_of_version, fun m s t => exec_negotiateAlgorithms_of_usable,
    fun m s t => exec_getDigests, fun m s t part => exec_getCertificate_of_slot_zero, fun m s t u => exec_challenge_of_slot_zero,
    fun m s t u reply => exec_getMeasurements_of_index, fun m s t all => exec_chunkSend, fun m s t all => exec_chunkGet_of_left,
    fun m s t b => exec_respondIfReady_of_ready, fun m s t => exec_spdmUnsupportedRequest⟩
end

section
/-!
SUPPORT and PROOF. Secure sessions and the signing queue: KEY_EXCHANGE and FINISH once their checks have passed, the requests that need
a finished session, the oldest signing request by its kind, and the end of a session (R513, R515, R516, R519, R526); from these O36.
-/

namespace Sys2Proof.SpdmSessions

open Sys2Proof Sys2Proof.Machine Sys2Proof.SpdmRequests

variable {s t u : State} {m : SpdmMsg} {k : Fin 128}

/-! ### KEY_EXCHANGE and FINISH (R515, R516, R519) -/

theorem keyExchange_of_checked {j : Nat} {reply : Bytes} (h13 : t.spdm13 m = true) (hslot : m.p2 = 0) (hlen : 132 ≤ m.body.length)
    (hroom : t.att.queue.length < 512) (hfree : t.freeSess = some j) (hu : u = { t with free := t.free + 1 })
    (hreply : reply = toLe 2 j ++ [1] ++ (Config.freeBytes t.free 64).drop 32 ++
      (Config.ecdhShare (Bytes.slice m.body 36 96) ((Config.freeBytes t.free 64).take 32)).2) :
    t.keyExchange m = (u.onSess j (fun _ => {
      open_ := true, conn := m.conn.val
      secret := Config.masterSecret (Config.ecdhShare (Bytes.slice m.body 36 96) ((Config.freeBytes t.free 64).take 32)).1
        (Sha.sha384 ((u.conn m.conn.val).transcript ++ reply)) })).signedReply m 0x64 reply := by
  subst hreply hu
  have hok : ¬ (m.p2 ≠ 0 ∨ m.body.length < 132) := fun h => h.elim (· hslot) (by omega)
  unfold State.keyExchange
  rw [if_neg (by simp [h13]), if_neg hok, if_neg (by omega), hfree]
  rfl

theorem exec_keyExchange (ha : s.spdmArrival m 0xE4 3 = some t) : exec (.keyExchange m) s = .next (t.keyExchange m) :=
  congrArg Host.Outcome.next (spdm_of_arrival ha _)

theorem exec_finish (ha : s.spdmArrival m 0xE5 3 = some t) (hsess : m.sess = some k) :
    exec (.finish m) s = .next (t.finish m k.val) := by
  refine congrArg Host.Outcome.next ((spdm_of_arrival ha _).trans ?_)
  simp only [hsess]

/-- The requester's chain is accepted: the signature decides (R519). -/
theorem finish_of_chain {pk : Bytes} (hfin : (t.sess k.val).finished = false)
    (hchain : Config.requesterChain (m.body.drop 144) = some pk) :
    t.finish m k.val =
      if Config.ecdsaVerify pk ((t.conn m.conn.val).transcript.take ((t.conn m.conn.val).transcript.length - m.body.length))
          (m.body.take 96) then
        (t.onSess k.val (fun x => { x with
          finished := true, th2 := Sha.sha384 (t.conn m.conn.val).transcript, reqKey := pk })).spdmAnswer m 0x65 []
      else (t.spdmRefuse m 6).sessEnd k.val := by
  unfold State.finish
  simp only [hchain, hfin, Bool.false_eq_true, if_false]

theorem finish_of_no_chain (hchain : Config.requesterChain (m.body.drop 144) = none) :
    t.finish m k.val = (t.spdmRefuse m 6).sessEnd k.val := by
  unfold State.finish
  simp only [hchain]

/-! ### Requests of a finished session (R519, R526) -/

section Finished

variable (hsess : m.sess = some k) (hfin : (t.sess k.val).finished = true)
include hsess hfin

theorem inSession_of_finished (body : State → Nat → State) : t.inSession m body = body t k.val := by
  unfold State.inSession
  simp only [hsess, hfin, if_true]

theorem exec_heartbeat (ha : s.spdmArrival m 0xE8 3 = some t) : exec (.heartbeat m) s = .next (t.spdmAnswer m 0x68 []) :=
  congrArg Host.Outcome.next ((spdm_of_arrival ha _).trans (inSession_of_finished hsess hfin _))

theorem exec_keyUpdate_of_new_keys (ha : s.spdmArrival m 0xE9 3 = some t) (hop : m.p1 = 1 ∨ m.p1 = 2) :
    exec (.keyUpdate m) s =
      .next ((t.spdmAnswer m 0x69 [m.p1, m.p2]).onSess k.val (fun x => { x with updates := x.updates + 1, sent := 0 })) :=
  congrArg Host.Outcome.next ((spdm_of_arrival ha _).trans ((inSession_of_finished hsess hfin _).trans (if_pos hop)))

theorem exec_endSession (ha : s.spdmArrival m 0xEC 3 = some t) :
    exec (.endSession m) s = .next ((t.spdmAnswer m 0x6C []).sessEnd k.val) :=
  congrArg Host.Outcome.next ((spdm_of_arrival ha _).trans (inSession_of_finished hsess hfin _))

end Finished

theorem exec_heartbeatTimeout_of_finished (hfin : (s.sess k.val).finished = true) :
    exec (.heartbeatTimeout k) s = .next (s.sessEnd k.val) := congrArg Host.Outcome.next (if_pos hfin)

/-- What an ended session still had queued goes with it. -/
theorem sessEnd_queue (j : Nat) {r : SignReq} (hr : r ∈ (s.sessEnd j).att.queue) : r.sess ≠ some j := by
  simpa using (List.mem_filter.1 hr).2

/-! ### The signing queue (R513, R521) -/

section Sign

variable {r : SignReq} {rest : List SignReq} (hqueue : s.att.queue = r :: rest) (hfw : s.fwUp = true)
  (hu : u = s.onAtt (fun a => { a with queue := rest }))
include hqueue hfw hu

theorem signComplete_of_standing (hstanding : r.standing ≠ 0) :
    s.signComplete = ((u.onAtt (fun a => { a with
      standing := a.standing.set (r.standing - 1) (u.record r.payload) })).onAtt (fun a => { a with
        signed := satInc a.signed })).countT 1 0x51 128 := by
  subst hu
  unfold State.signComplete
  simp only [hqueue, hfw, Bool.not_true, Bool.false_eq_true, if_false, if_pos hstanding]

section NotStanding

variable (hstanding : r.standing = 0)
include hstanding

theorem signComplete_of_record (hrecord : r.record = true) :
    s.signComplete = ((u.signDeliver r (u.record r.payload)).onAtt (fun a => { a with signed := satInc a.signed })).countT 1 0x51 128 := by
  subst hu
  unfold State.signComplete
  simp only [hqueue, hfw, hstanding, hrecord, Bool.not_true, Bool.false_eq_true, if_false, ne_eq, not_true_eq_false, if_true]

theorem signComplete_of_message (hrecord : r.record = false) (hsecret : r.secret = []) :
    s.signComplete = u.signDeliver r (r.reply ++ u.aliasEcdsa r.payload) := by
  subst hu
  unfold State.signComplete
  simp only [hqueue, hfw, hstanding, hrecord, hsecret, Bool.not_true, Bool.false_eq_true, if_false, ne_eq, not_true_eq_false,
    List.isEmpty_nil, if_true]

/-- An augmentation's response is signed with ML-DSA, and the session starts again under its new secret (R521). -/
theorem signComplete_of_augmentation {j : Nat} (hrecord : r.record = false) (hsecret : r.secret ≠ []) (hsess : r.sess = some j) :
    s.signComplete = (u.signDeliver r (r.reply ++ u.aliasMldsa r.context r.payload)).onSess j (fun x => { x with
      secret := r.secret, augmented := true, keyDigest := r.keyDigest, updates := 0, sent := 0 }) := by
  subst hu
  unfold State.signComplete
  simp only [hqueue, hfw, hstanding, hrecord, hsess, Bool.not_true, Bool.false_eq_true, if_false, ne_eq, not_true_eq_false,
    List.isEmpty_iff, if_neg hsecret]

end NotStanding

end Sign

theorem exec_signComplete : exec .signComplete s = .next s.signComplete := rfl

end Sys2Proof.SpdmSessions

open Sys2Proof Sys2Proof.Machine Sys2Proof.SpdmSessions

/-- Settles O36: a clause for each command; FINISH is split by the requester's chain, SIGN_COMPLETE by the kind of the request. -/
theorem spdmSessionsComplete : Obligations.SpdmSessionsComplete := by
  unfold Obligations.SpdmSessionsComplete
  refine ⟨?exchange, ?finish, fun m s t k ha hsess hfin => exec_heartbeat hsess hfin ha, fun k s => exec_heartbeatTimeout_of_finished,
    fun m s t k ha hsess hfin => exec_keyUpdate_of_new_keys hsess hfin ha, fun m s t k ha hsess hfin => exec_endSession hsess hfin ha,
    ?sign, fun s k => ⟨rfl, fun r => sessEnd_queue k⟩⟩
  case exchange =>
    intro m s t u j reply ha h13 hslot hlen hroom hfree hu hreply
    rw [exec_keyExchange ha, keyExchange_of_checked h13 hslot hlen hroom hfree hu hreply]
  case finish =>
    intro m s t k ha hsess hfin
    rw [exec_finish ha hsess]
    cases hchain : Config.requesterChain (m.body.drop 144) with
    | some pk => rw [finish_of_chain hfin hchain]
    | none => rw [finish_of_no_chain hchain]
  case sign =>
    intro s u r rest hqueue hfw hu
    rw [exec_signComplete]
    exact ⟨fun hstanding => congrArg _ (signComplete_of_standing hqueue hfw hu hstanding),
      fun hstanding hrecord => congrArg _ (signComplete_of_record hqueue hfw hu hstanding hrecord),
      fun hstanding hrecord hsecret => congrArg _ (signComplete_of_message hqueue hfw hu hstanding hrecord hsecret),
      fun j hstanding hrecord hsecret hsess =>
        congrArg _ (signComplete_of_augmentation hqueue hfw hu hstanding hrecord hsecret hsess)⟩
end

section
/-!
SUPPORT and PROOF. The vendor-defined messages (evidence, the ML-DSA chain, augmentation, delivered keys), the standing records and the
relays: what each does once its checks have passed (R504 to R526, R603); from these O37.
-/

namespace Sys2Proof.EvidenceAndKeys

open Sys2Proof Sys2Proof.Machine Sys2Proof.SpdmRequests Sys2Proof.SpdmSessions

variable {s t u : State} {m : SpdmMsg} {k : Fin 128}

/-! ### Vendor-defined requests (R22, R516, R520) -/

theorem vendor_of_accepted (h13 : t.spdm13 m = true) (hrsvd : m.rsvd = 0) (ha : s.spdmArrival m 0xFE 3 = some t)
    (body : State → State) : s.vendor m body = body t :=
  (spdm_of_arrival ha _).trans ((if_neg (by simp [h13])).trans (if_neg (not_not_intro hrsvd)))

theorem vendor_of_refused (ha : s.spdmArrival m 0xFE 3 = some t)
    (hu : t.spdm13 m = false ∧ u = t.spdmRefuse m 7 ∨ t.spdm13 m = true ∧ m.rsvd ≠ 0 ∧ u = t.spdmRefuse m 1) (body : State → State) :
    s.vendor m body = u := by
  refine (spdm_of_arrival ha _).trans ?_
  obtain ⟨hversion, rfl⟩ | ⟨h13, hrsvd, rfl⟩ := hu
  · exact if_pos (by simp [hversion])
  · exact (if_neg (by simp [h13])).trans (if_pos hrsvd)

theorem exec_getEvidence : exec (.getEvidence m) s = .next (s.vendor m (fun s => s.getEvidence m)) := rfl

theorem exec_getMldsaChain : exec (.getMldsaChain m) s = .next (s.vendor m (fun s =>
    if m.body.length ≠ 8 ∨ 4096 < Bytes.be m.body 4 4 then s.spdmRefuse m 1
    else s.spdmAnswer m 0x7E (Bytes.slice (s.certChain false) (Bytes.be m.body 0 4) (Bytes.be m.body 4 4)))) := rfl

theorem exec_kemAugment : exec (.kemAugment m) s = .next (s.vendor m (fun s => s.inSession m (fun s k => s.kemAugment m k))) := rfl

theorem exec_deliverKey : exec (.deliverKey m) s = .next (s.vendor m (fun s => s.inSession m (fun s k => s.deliverKey m k))) := rfl

/-! ### GET_EVIDENCE and GET_MLDSA_CHAIN (R504, R507, R511, R520) -/

section Evidence

variable {p : Nat} (hp : p = Bytes.at m.body 0) (hlen : m.body.length = 34) (hp128 : p < 128) (hblank : t.lc.state ≠ 1)
  (hdevice : t.lc.state = 8 → p = 0) (hpart : p ≠ 0 → (t.part p).state ≠ .none)
include hp hlen hp128 hblank hdevice hpart

/-- A formed request, outside the states that refuse, is answered by its flag. -/
theorem getEvidence_of_formed (hflag : Bytes.at m.body 1 ≤ 1) :
    t.getEvidence m =
      if Bytes.at m.body 1 == 1 then
        if p = 0 then t.spdmRefuse m 1
        else if (t.att.standing.get p).isEmpty then t.spdmRefuse m 0x42
        else t.spdmAnswer m 0x7E (t.att.standing.get p)
      else t.signQueue m { code := 0x7E, record := true, payload := t.evidence p (Bytes.slice m.body 2 32) } := by
  subst hp
  have hformed : ¬ (m.body.length ≠ 34 ∨ 1 < Bytes.at m.body 1 ∨ 128 ≤ Bytes.at m.body 0) := by omega
  have hstate : ¬ (t.lc.state = 1 ∨ (t.lc.state = 8 ∧ Bytes.at m.body 0 ≠ 0)) := fun h =>
    h.elim hblank fun ⟨h8, h0⟩ => h0 (hdevice h8)
  have hthere : ¬ (Bytes.at m.body 0 ≠ 0 ∧ (t.part (Bytes.at m.body 0)).state = .none) := fun ⟨h0, hnone⟩ => hpart h0 hnone
  exact (if_neg hformed).trans ((if_neg hstate).trans (if_neg hthere))

theorem getEvidence_fresh (hflag : Bytes.at m.body 1 = 0) :
    t.getEvidence m = t.signQueue m { code := 0x7E, record := true, payload := t.evidence p (Bytes.slice m.body 2 32) } := by
  rw [getEvidence_of_formed hp hlen hp128 hblank hdevice hpart (by omega), if_neg (by simp [hflag])]

theorem getEvidence_standing (hflag : Bytes.at m.body 1 = 1) (hp0 : p ≠ 0) :
    t.getEvidence m = if (t.att.standing.get p).isEmpty then t.spdmRefuse m 0x42 else t.spdmAnswer m 0x7E (t.att.standing.get p) := by
  rw [getEvidence_of_formed hp hlen hp128 hblank hdevice hpart (by omega), if_pos (by simp [hflag]), if_neg hp0]

end Evidence

/-! ### KEM_AUGMENT (R521) -/

section Augment

variable {j : Nat} {ek pk base : Bytes} (hlen : m.body.length = 6829) (hfirst : (t.sess j).augmented = false)
  (hnone : ∀ r ∈ t.att.queue, r.sess = some j → r.secret = []) (hek : ek = Bytes.slice m.body 0 1568)
  (hpk : pk = Bytes.slice m.body 1568 1952) (hbase : base = (t.sess j).th2 ++ ek ++ pk)
include hlen hfirst hnone hek hpk hbase

/-- In a session that has no augmentation, done or queued, the signature decides (R521). -/
theorem kemAugment_of_room (hroom : t.att.queue.length < 512) :
    t.kemAugment m j =
      if Config.mldsaVerify pk (ascii "ONRUS-KEM-REQ") base (Bytes.slice m.body 3520 3309) then
        State.signQueue { t with free := t.free + 1 } m {
          code := 0x7E, reply := (Config.kemEncaps ek (Config.freeBytes t.free 32)).1,
          payload := base ++ (Config.kemEncaps ek (Config.freeBytes t.free 32)).1, context := "ONRUS-KEM-RSP",
          secret := hmac384 (Config.kemEncaps ek (Config.freeBytes t.free 32)).2 (t.sess j).secret,
          keyDigest := Sha.sha384 (pk ++ (t.sess j).reqKey) }
      else (t.spdmRefuse m 6).sessEnd j := by
  have hopen : ¬ ((t.sess j).augmented = true ∨ t.att.queue.any (fun r => r.sess == some j && !r.secret.isEmpty) = true) := by
    simpa [hfirst] using hnone
  by_cases hsig : Config.mldsaVerify pk (ascii "ONRUS-KEM-REQ") base (Bytes.slice m.body 3520 3309) = true
  · rw [if_pos hsig]
    subst hbase hek hpk
    exact (if_neg (not_not_intro hlen)).trans ((if_neg hopen).trans ((if_neg (by rw [hsig]; decide)).trans (if_neg (by omega))))
  · rw [if_neg hsig]
    subst hbase hek hpk
    exact (if_neg (not_not_intro hlen)).trans ((if_neg hopen).trans (if_pos (by simpa using hsig)))

end Augment

/-! ### DELIVER_KEY (R523 to R525, R340) -/

theorem deliverKey_of_failed {j e : Nat} (hcheck : t.deliverCheck j m.body = some e) :
    t.deliverKey m j = t.spdmAnswer m 0x7E [0, 0, BitVec.ofNat 8 e] := by
  unfold State.deliverKey
  simp only [hcheck]

section Deliver

variable {j n : Nat} (hcheck : t.deliverCheck j m.body = none) (hslot : t.slotForFill (Bytes.at m.body 1) = some n)
include hcheck hslot

/-- A delivered key that is no SET_KEY and no fabric root fills its slot alone. -/
theorem deliverKey_of_plain (hkind : Bytes.at m.body 0 = 2) :
    t.deliverKey m j = ((t.fillSlot n (deliveredAttr m.body 0) (Bytes.slice m.body 72 32)).slotObject n 0 true).spdmAnswer m 0x7E
      (toBe 2 n ++ [0]) := by
  unfold State.deliverKey
  simp only [hcheck, hslot, Option.getD_some, if_neg (show ¬ Bytes.at m.body 0 = 1 by omega),
    if_neg (show ¬ Bytes.at m.body 0 = 3 by omega)]

/-- A SET_KEY also takes the lowest free Set Table entry. -/
theorem deliverKey_of_set {i : Nat} (hkind : Bytes.at m.body 0 = 1) (hset : firstFrom 0 64 (fun i => !(t.sets.get i).inUse) = some i)
    (hu : u = (t.fillSlot n (deliveredAttr m.body i) (Bytes.slice m.body 72 32)).slotObject n 0 true) :
    t.deliverKey m j = State.spdmAnswer { u with
      sets := u.sets.set i { setId := Bytes.slice m.body 8 16, digest := Bytes.slice m.body 24 48, slot := BitVec.ofNat 16 n,
                             part := BitVec.ofNat 8 (Bytes.at m.body 1), inUse := true } } m 0x7E (toBe 2 n ++ [0]) := by
  subst hu
  unfold State.deliverKey
  simp only [hcheck, hslot, hset, Option.getD_some, if_pos hkind, if_neg (show ¬ Bytes.at m.body 0 = 3 by omega)]

/-- A fabric root comes after its predecessors have retired (R340). -/
theorem deliverKey_of_root (hkind : Bytes.at m.body 0 = 3)
    (hu : u = (t.slots.keysWhere (fun _ x => x.fabricRoot && x.tdid == Bytes.at m.body 2 && x.part == Bytes.at m.body 1)).foldl
      (fun s n => s.retireAny n) t) :
    t.deliverKey m j = ((u.fillSlot n (deliveredAttr m.body 0) (Bytes.slice m.body 72 32)).slotObject n 0 true).spdmAnswer m 0x7E
      (toBe 2 n ++ [0]) := by
  subst hu
  unfold State.deliverKey
  simp only [hcheck, hslot, Option.getD_some, if_neg (show ¬ Bytes.at m.body 0 = 1 by omega), if_pos hkind]

end Deliver

/-! ### Standing records and relays (R511, R512, R515, R603) -/

theorem standingRegen_of_changed {p : Nat} (hfw : s.fwUp = true) (hpart : (s.part p).state ≠ .none) (hblank : s.lc.state ≠ 1)
    (hdevice : s.lc.state ≠ 8) (hchanged : s.att.shown.get p ≠ s.shownNow p) (hroom : s.att.queue.length < 512) :
    s.standingRegen p = s.onAtt (fun a => { a with
      shown := a.shown.set p (s.shownNow p), queue := a.queue ++ [{ standing := p + 1, payload := s.evidence p [] }] }) :=
  if_pos ⟨hfw, hpart, hblank, hdevice, hchanged, hroom⟩

section Relay

variable {conn mbx addr : Nat} (hlow : 1 ≤ conn) (hhigh : conn ≤ 31)
include hlow hhigh

theorem relayBind_of_unbind (hmbx : mbx = 0xFF) :
    t.relayBind conn mbx addr = .ok (t.onConn conn (fun c => { c with mbx := none, buf := 0 })) := by
  subst hmbx
  unfold State.relayBind
  rw [SiteAdmission.must_bind_of_true (by simp [hlow, hhigh]), SiteAdmission.must_bind_of_true (by simp)]
  rfl

theorem relayBind_of_free (hmin : 3 ≤ mbx) (hmax : mbx ≤ 159) (hfree : t.relayOf mbx = none ∨ t.relayOf mbx = some conn) :
    t.relayBind conn mbx addr = .ok (t.onConn conn (fun c => { c with mbx := some mbx, buf := addr })) := by
  have hself : (t.relayOf mbx).all (fun c => c == conn) = true := by
    obtain h | h := hfree
    · rw [h]; rfl
    · rw [h]; exact beq_self_eq_true conn
  have hne : mbx ≠ 0xFF := by omega
  unfold State.relayBind
  rw [SiteAdmission.must_bind_of_true (by simp [hlow, hhigh, hmin, hmax]), SiteAdmission.must_bind_of_true (by simp [hself])]
  simp only [if_neg hne]
  rfl

end Relay

theorem exec_relayBind_of_bound {h : Hdr} {conn mbx : Word32} {addr : BitVec 64} {c : Cmd}
    (ha : s.arrival h 0x11 ([conn, mbx] ++ addrWords addr) = some (t, c)) (hu : t.relayBind conn.toNat mbx.toNat addr.toNat = .ok u) :
    exec (.relayBind h conn mbx addr) s = .next (s.thenReap (u.answer c 0)) := by
  refine congrArg Host.Outcome.next ((Laws.command_arrival s t h 0x11 _ c _ ha).trans (congrArg s.thenReap ?_))
  simp only [hu]

/-- A relayed message is read from its buffer and waits for the responder (R603). -/
theorem spdmMsg_of_relayed {c : Cmd} {n len : Nat} {b : Bytes} (hrelay : t.relayOf c.mbx = some n)
    (hgate : c.part ≠ 0 → t.gate c.part 0x18 = true) (hmin : 1 ≤ len) (hmax : len ≤ 4096) :
    t.spdmMsg c len (some b) = ((t.dmaRead (if c.part = 0 then 0 else t.lowestTdid c.part) (t.conn n).buf len).hold c).emit
      (.twr "SPDM" (BitVec.ofNat 8 n :: Bytes.fit b len)) := by
  have hopen : ¬ (c.part ≠ 0 ∧ (!t.gate c.part 0x18) = true) := fun ⟨h0, hshut⟩ => by simp [hgate h0] at hshut
  have hlen : ¬ (len = 0 ∨ 4096 < len) := by omega
  unfold State.spdmMsg
  simp only [hrelay]
  exact (if_neg hopen).trans (if_neg hlen)

theorem exec_spdmMsg {h : Hdr} {len : Word32} {b : Buf} {c : Cmd} (ha : s.arrival h 0x18 [len] = some (t, c)) :
    exec (.spdmMsg h len b) s = .next (s.thenReap (t.spdmMsg c len.toNat b)) :=
  congrArg Host.Outcome.next (Laws.command_arrival s t h 0x18 _ c _ ha)

end Sys2Proof.EvidenceAndKeys

open Sys2Proof Sys2Proof.Machine Sys2Proof.SpdmSessions Sys2Proof.EvidenceAndKeys

/-- Settles O37: the refusals that the vendor-defined requests share, then a clause for each command; a delivered key by its kind. -/
theorem evidenceAndKeyDeliveryComplete : Obligations.EvidenceAndKeyDeliveryComplete := by
  unfold Obligations.EvidenceAndKeyDeliveryComplete
  refine ⟨?refused, ?evidence, ?chain, ?augment, ?deliver, ?standing, ?relay, ?message⟩
  case refused =>
    intro m s t u ha hu
    rw [exec_getEvidence, exec_getMldsaChain, exec_kemAugment, exec_deliverKey]
    simp only [vendor_of_refused ha hu, and_self]
  case evidence =>
    intro m s t p ha h13 hrsvd hp hlen hp128 hblank hdevice hpart
    rw [exec_getEvidence, vendor_of_accepted h13 hrsvd ha]
    exact ⟨fun hflag => congrArg _ (getEvidence_fresh hp hlen hp128 hblank hdevice hpart hflag),
      fun hflag hp0 => congrArg _ (getEvidence_standing hp hlen hp128 hblank hdevice hpart hflag hp0)⟩
  case chain =>
    intro m s t ha h13 hrsvd hlen hmax
    rw [exec_getMldsaChain, vendor_of_accepted h13 hrsvd ha, if_neg (by omega)]
  case augment =>
    intro m s t k ek pk base ha h13 hrsvd hsess hfin hlen hfirst hnone hroom hek hpk hbase
    rw [exec_kemAugment, vendor_of_accepted h13 hrsvd ha, inSession_of_finished hsess hfin,
      kemAugment_of_room hlen hfirst hnone hek hpk hbase hroom]
  case deliver =>
    intro m s t k ha h13 hrsvd hsess hfin
    rw [exec_deliverKey, vendor_of_accepted h13 hrsvd ha, inSession_of_finished hsess hfin]
    exact ⟨fun e hcheck => congrArg _ (deliverKey_of_failed hcheck),
      fun n hcheck hslot hkind => congrArg _ (deliverKey_of_plain hcheck hslot hkind),
      fun n i u hcheck hslot hkind hset hu => congrArg _ (deliverKey_of_set hcheck hslot hkind hset hu),
      fun n u hcheck hslot hkind hu => congrArg _ (deliverKey_of_root hcheck hslot hkind hu)⟩
  case standing =>
    exact fun p s hfw hpart hblank hdevice hchanged hroom =>
      congrArg Host.Outcome.next (standingRegen_of_changed hfw hpart hblank hdevice hchanged hroom)
  case relay =>
    intro h conn mbx addr s t c ha hlow hhigh
    exact ⟨fun hmbx => exec_relayBind_of_bound ha (relayBind_of_unbind hlow hhigh hmbx),
      fun hmin hmax hfree => exec_relayBind_of_bound ha (relayBind_of_free hlow hhigh hmin hmax hfree)⟩
  case message =>
    intro h len b s t c n ha hrelay hgate hmin hmax
    rw [exec_spdmMsg ha, spdmMsg_of_relayed hrelay hgate hmin hmax]
end

section
/-!
SUPPORT and PROOF. The commands of the manager on partitions once their checks have passed: creation, the moves between the states, the
end of a process, and the references of processes (R540 to R546, R551 to R556, R568); from these O38.
-/

namespace Sys2Proof.PartitionCommands

open Sys2Proof Sys2Proof.Machine Sys2Proof.RegionCommands Sys2Proof.SignatureCommands

variable {s t u : State} {h : Hdr} {c : Cmd}

/-! ### PART_CREATE (R540, R541, R543) -/

theorem partCreate_of_checked {x : Bytes} {p k e m g : Nat} (hchecks : u.partChecks x = .ok (p, k, e, m, g)) :
    u.partCreate c x = (u.partMake x p k e m g).answer c 0 [BitVec.ofNat 32 p] := by
  unfold State.partCreate
  rw [outcome_bind hchecks]
  rfl

theorem exec_partCreate {addr : BitVec 64} {b : Bytes} (ha : s.arrival h 0x06 (addrWords addr) = some (t, c)) :
    exec (.partCreate h addr (some b)) s =
      .next (s.thenReap ((t.dmaRead (t.bufferTdid c) addr.toNat 896).partCreate c (Bytes.fit b 896))) :=
  congrArg Host.Outcome.next ((Laws.command_arrival s t h 0x06 _ c _ ha).trans
    (congrArg s.thenReap (withBuffer_some addr 896 b _)))

/-! ### The states of a partition (R543 to R546, R568) -/

theorem quiesced_of_quiescent {p : Nat} (hstate : (s.part p).state = .quiescing) (hquiet : s.quiescent p = true) :
    s.quiesced p = (s.onPart p (fun x => { x with state := .quiesced, quiesce := none })).completeWhere
      (fun c => c.started && c.code == 0x07 && c.what == p) 0 [] none := if_pos ⟨hstate, hquiet⟩

section Named

variable {part : Word32} {p : Nat} (hp : p = part.toNat) (hmin : 1 ≤ p) (hmax : p < 128)
include hp hmin hmax

theorem partArg_of_number : partArg part = .ok p := by
  subst hp
  exact if_pos ⟨hmin, hmax⟩

theorem exec_quiesce_of_active {fence value : Word32} {fe : Nat} (ha : s.arrival h 0x07 [part, fence, value] = some (t, c))
    (hfence : t.namedFence c fence = .ok fe) (hown : (t.obj (objKey 6 fe)).part = p) (hstate : (t.part p).state = .active) :
    exec (.quiesce h part fence value) s =
      .next (s.thenReap (((t.quiesceStart p).onPart p (fun x => { x with quiesce := some (fe, value.toNat) })).acceptA
        { c with what := p, fence := some (fe, value.toNat), names := [objKey 6 fe] } [])) := by
  refine congrArg Host.Outcome.next ((Laws.command_arrival s t h 0x07 _ c _ ha).trans (congrArg s.thenReap ?_))
  rw [outcome_bind (partArg_of_number hp hmin hmax), outcome_refuse hfence, outcome_must (decide_eq_true hown),
    outcome_must (decide_eq_true hstate)]
  rfl

theorem exec_resume_of_stopped (ha : s.arrival h 0x08 [part] = some (t, c))
    (hstate : (t.part p).state = .quiescing ∨ (t.part p).state = .quiesced ∨ (t.part p).state = .frozen) :
    exec (.resume h part) s = .next (s.thenReap (t.resume c p)) := by
  refine congrArg Host.Outcome.next ((Laws.command_arrival s t h 0x08 _ c _ ha).trans (congrArg s.thenReap ?_))
  rw [outcome_bind (partArg_of_number hp hmin hmax), outcome_must (decide_eq_true hstate)]
  rfl

theorem exec_freeze_of_quiesced (ha : s.arrival h 0x09 [part] = some (t, c)) (hstate : (t.part p).state = .quiesced)
    (hok : t.freezeOk p = true) :
    exec (.freeze h part) s = .next (s.thenReap ((t.onPart p (fun x => { x with state := .frozen })).answer c 0)) := by
  refine congrArg Host.Outcome.next ((Laws.command_arrival s t h 0x09 _ c _ ha).trans (congrArg s.thenReap ?_))
  rw [outcome_bind (partArg_of_number hp hmin hmax), outcome_must (decide_eq_true hstate), if_pos hok]
  rfl

theorem exec_remove_of_quiet (ha : s.arrival h 0x0A [part] = some (t, c))
    (hstate : (t.part p).state = .quiesced ∨ (t.part p).state = .frozen) :
    exec (.remove h part) s = .next (s.thenReap (t.removeStart c p)) := by
  refine congrArg Host.Outcome.next ((Laws.command_arrival s t h 0x0A _ c _ ha).trans (congrArg s.thenReap ?_))
  rw [outcome_bind (partArg_of_number hp hmin hmax), outcome_must (decide_eq_true hstate)]
  rfl

theorem exec_processExit_of_gate {tag : Word32} (ha : s.arrival h 0x0B [part, tag] = some (t, c)) (htag : tag.toNat < 2 ^ 24)
    (hgate : t.gate p 0x0B = true) :
    exec (.processExit h part tag) s = .next (s.thenReap ((t.processExit p tag.toNat).answer c 0)) := by
  refine congrArg Host.Outcome.next ((Laws.command_arrival s t h 0x0B _ c _ ha).trans (congrArg s.thenReap ?_))
  rw [outcome_bind (partArg_of_number hp hmin hmax), outcome_must (decide_eq_true htag), outcome_refuse (gated_of_gate hgate)]
  rfl

end Named

/-! ### References (R551, R552, R554) -/

section References

variable {w : Word32} {ty i k : Nat} (hty : ty = fld w 31 28) (hk : k = objKey ty i)
include hty hk

/-- A countable object below its limits takes a further reference. -/
theorem exec_retain_of_countable (ha : s.arrival h 0x30 [w] = some (t, c)) (hcountable : 3 ≤ ty ∧ ty ≤ 6)
    (hname : (if ty = 3 then t.namedRegion c w else t.named c ty w) = .ok i) (hgate : t.gate (t.actsFor c k) 0x30 = true)
    (hhref : t.href k < 0xFFFF) (hrefs : t.prt.refs.length < 32768) :
    exec (.retain h w) s = .next (s.thenReap ((t.addRef k (t.obj k).part c.tag.toNat).answer c 0)) := by
  subst hk hty
  refine congrArg Host.Outcome.next ((Laws.command_arrival s t h 0x30 _ c _ ha).trans (congrArg s.thenReap ?_))
  rw [outcome_must (decide_eq_true (by omega)), outcome_refuse hname, outcome_refuse (gated_of_gate hgate), if_neg (by omega),
    outcome_must (decide_eq_true ⟨hhref, .inl hrefs⟩)]
  rfl

/-- A reference that the TAG holds is dropped, and what that lets go is freed. -/
theorem exec_release_of_held (ha : s.arrival h 0x31 [w] = some (t, c)) (hnamed : 2 ≤ ty ∧ ty ≤ 7) (hname : t.named c ty w = .ok i)
    (hgate : t.gate (t.actsFor c k) 0x31 = true) (hheld : ∃ r ∈ t.prt.refs, r.key = k ∧ r.tag = c.tag.toNat) :
    exec (.release h w) s = .next (s.thenReap ((t.dropRef k c.tag.toNat).reap.answer c 0).settle) := by
  subst hk hty
  refine congrArg Host.Outcome.next ((Laws.command_arrival s t h 0x31 _ c _ ha).trans (congrArg s.thenReap ?_))
  rw [outcome_must (decide_eq_true hnamed), outcome_refuse hname, outcome_refuse (gated_of_gate hgate),
    if_pos (List.any_eq_true.2 (by simpa using hheld))]
  rfl

end References

end Sys2Proof.PartitionCommands

open Sys2Proof Sys2Proof.Machine Sys2Proof.PartitionCommands

/-- Settles O38: a clause for each command, its checks passed. -/
theorem partitionCommandsComplete : Obligations.PartitionCommandsComplete := by
  unfold Obligations.PartitionCommandsComplete
  refine ⟨?create, ?quiesce, fun p s hstate hquiet => congrArg Host.Outcome.next (quiesced_of_quiescent hstate hquiet), ?resume,
    fun h part s t c p ha hp hmin hmax => exec_freeze_of_quiesced hp hmin hmax ha,
    fun h part s t c p ha hp hmin hmax => exec_remove_of_quiet hp hmin hmax ha,
    fun h part tag s t c p ha hp hmin hmax => exec_processExit_of_gate hp hmin hmax ha,
    fun h w s t c ty i k ha hty hcountable hname hk => exec_retain_of_countable hty hk ha hcountable hname,
    fun h w s t c ty i k ha hty hnamed hname hk => exec_release_of_held hty hk ha hnamed hname⟩
  case create =>
    intro h addr b x s t u c p k e m g ha hx hu hchecks
    rw [exec_partCreate ha, ← hx, ← hu, partCreate_of_checked hchecks]
  case quiesce =>
    intro h part fence value s t c p fe ha hp hmin hmax hfence hown hstate
    rw [exec_quiesce_of_active hp hmin hmax ha hfence hown hstate]
  case resume =>
    intro h part s t c p ha hp hmin hmax hstate
    rw [exec_resume_of_stopped hp hmin hmax ha hstate]
    rfl
end

section
/-!
SUPPORT and PROOF. The field test: its start, refused or begun, a beat, and the ways it ends (R634 to R638); from these O42.
-/

namespace Sys2Proof.FieldTests

open Sys2Proof Sys2Proof.Machine

variable {s u w : State} {v : Word32} {header : Buf} {kind island unit : Nat}

theorem exec_fieldTestStart : exec (.fieldTestStart v header) s = .next (s.testStart v header) := rfl

theorem exec_fieldTestBeat (beat response : Bytes) : exec (.fieldTestBeat beat response) s = .next (s.testBeat beat response) := rfl

theorem exec_fieldTestEnd (flashOk : Bool) : exec (.fieldTestEnd flashOk) s = .next (s.testFinish flashOk) := rfl

/-! ### The start (R635, R636) -/

section Start

variable (hup : s.regUp 45 = true) (hstart : v.getLsbD 31 = true) (hu : u = s.regPut 45 0x5000 v) (hkind : kind = fld v 1 0)
  (hisland : island = fld v 7 2) (hunit : unit = fld v 15 8)
include hup hstart hu hkind hisland hunit

theorem testStart_of_refused {r : Nat} (hrefused : u.testRefused kind island unit (v.getLsbD 29) header = some r) :
    s.testStart v header = { u with ftu := { u.ftu with result := 7, reason := BitVec.ofNat 8 r } } := by
  subst hu hkind hisland hunit
  unfold State.testStart
  rw [if_neg (by simp [ftuIx, hup])]
  simp only [ftuIx, hstart, Bool.not_true, Bool.false_eq_true, if_false, hrefused]
  rfl

theorem testStart_of_accepted (hfree : u.testRefused kind island unit (v.getLsbD 29) header = none) :
    s.testStart v header = u.testBegin kind island unit (header.getD []) := by
  subst hu hkind hisland hunit
  unfold State.testStart
  rw [if_neg (by simp [ftuIx, hup])]
  simp only [ftuIx, hstart, Bool.not_true, Bool.false_eq_true, if_false, hfree]

end Start

/-- A test that begins powers FTU, empties and lends the trace SRAM, and names a lane by its number. -/
theorem testBegin_eq (b : Bytes) (hw : w = u.powerOn 45) :
    u.testBegin kind island unit b = State.testTake
      { w with
        obs := { w.obs with trace := .lent, records := [], postLeft := 0, droppedCount := 0, releaseWait := false }
        ftu := { w.ftu with
          result := (if w.spr.gov.stages.getLsbD 1 then 2 else 1), reason := 0, beatsDone := 0, firstFail := 0xFFFFFFFF, failCount := 0
          target := some (if kind = 1 then (kind, island, (u.socket island unit).lane.toNat) else (kind, island, unit))
          wasFaulted := decide (kind = 1 ∧ (u.socket island unit).role = 2), header := b, beats := [] } } kind island unit := by
  have hpowered : u.powerOn ftuIx = w := hw.symm
  unfold State.testBegin
  simp only [hpowered]
  rfl

/-! ### Beats (R636, R637) -/

theorem testBeat_of_running {beat response : Bytes} (hready : s.testReady = true) (hrate : s.spr.gov.stages.getLsbD 1 = false)
    (hpresent : s.present 45 = true) (hlen : beat.length = Bytes.le s.ftu.header 8 4)
    (hleft : s.ftu.beatsDone.toNat < Bytes.le s.ftu.header 12 4) :
    s.testBeat beat response = State.countT { s with ftu := { s.ftu with
      beats := s.ftu.beats ++ beat, beatsDone := s.ftu.beatsDone + 1
      failCount := (if beatMatches beat response then s.ftu.failCount else satInc s.ftu.failCount)
      firstFail := (if !beatMatches beat response ∧ s.ftu.failCount = 0 then s.ftu.beatsDone else s.ftu.firstFail) } } 45 0x70 128 := by
  have hruns : ¬ ((!s.testReady) = true ∨ s.testThrottled = true ∨ (!s.present ftuIx) = true ∨
      beat.length ≠ patternBeat s.ftu.header ∨ patternBeats s.ftu.header ≤ s.ftu.beatsDone.toNat) := by
    simp [hready, show s.testThrottled = false from hrate, ftuIx, hpresent, patternBeat, hlen, patternBeats, hleft]
  refine (if_neg hruns).trans ?_
  cases hmatch : beatMatches beat response <;> rfl

/-! ### The end (R636, R638) -/

theorem testEnd_eq (r : BitVec 4) : s.testEnd r = (let v := s.testReturn (r == 4)
    { v with obs := { v.obs with trace := .recording, records := [], postLeft := 0, droppedCount := 0, releaseWait := false }
             ftu := { v.ftu with result := r, reason := 0, target := none, wasFaulted := false, header := [], beats := [] } }) := rfl

section End

variable (htarget : s.ftu.target.isSome = true)
include htarget

theorem target_not_none : ¬ s.ftu.target.isNone = true := fun hnone => by
  rw [Option.isNone_iff_eq_none.1 hnone] at htarget
  exact Bool.noConfusion htarget

theorem testFinish_of_failed_read : s.testFinish false = s.testEnd 5 := (if_neg (target_not_none htarget)).trans (if_pos rfl)

theorem testFinish_of_last_beat (hlast : s.ftu.beatsDone.toNat = Bytes.le s.ftu.header 12 4) :
    s.testFinish true = s.testEnd s.ftu.verdict :=
  (if_neg (target_not_none htarget)).trans ((if_neg (by simp)).trans (if_pos hlast))

theorem exec_fieldTestAbort_of_target (hup : s.regUp 45 = true) : exec .fieldTestAbort s = .next (s.testEnd 5) :=
  congrArg Host.Outcome.next (if_pos ⟨hup, htarget⟩)

end End

end Sys2Proof.FieldTests

open Sys2Proof Sys2Proof.Machine Sys2Proof.FieldTests

/-- Settles O42: a start by what refuses it, a beat, and the ends of a test. -/
theorem fieldTestCommandsComplete : Obligations.FieldTestCommandsComplete := by
  unfold Obligations.FieldTestCommandsComplete
  refine ⟨?start, ?beat, ?finish⟩
  case start =>
    intro v header s u kind island unit hup hstart hu hkind hisland hunit
    rw [exec_fieldTestStart]
    refine ⟨fun r hrefused => ?_, fun hfree w hw => ?_⟩
    · rw [testStart_of_refused hup hstart hu hkind hisland hunit hrefused]
    · rw [testStart_of_accepted hup hstart hu hkind hisland hunit hfree, testBegin_eq _ hw]
  case beat =>
    intro beat response s hready hrate hpresent hlen hleft
    rw [exec_fieldTestBeat, testBeat_of_running hready hrate hpresent hlen hleft]
  case finish =>
    intro s go htarget hgo
    have hend (r : BitVec 4) : s.testEnd r = go r := (testEnd_eq r).trans (hgo r).symm
    refine ⟨?_, fun hup => ?_, fun hlast => ?_⟩
    · rw [exec_fieldTestEnd, testFinish_of_failed_read htarget, hend]
    · rw [exec_fieldTestAbort_of_target htarget hup, hend]
    · rw [exec_fieldTestEnd, testFinish_of_last_beat htarget hlast, hend, Ftu.verdict]
end

section
/-!
SUPPORT and PROOF. Counter flushes, freezes, snapshots and the pads of OBS: a freeze while the frozen bank is free and while it is held,
the edges that order one, and how freezes and snapshots end (R641 to R656, R686, R710, R711); from these O44.
-/

namespace Sys2Proof.CountersAndFreezes

open Sys2Proof Sys2Proof.Machine

variable {s u v : State} {i k : Nat}

/-! ### The commands -/

theorem exec_counterFlush (i : Fin 46) : exec (.counterFlush i) s = .next (s.flush i.val) := rfl

theorem exec_freezeTrigger_of_up (hup : s.regUp 44 = true) : exec .freezeTrigger s = .next (s.freeze 2) :=
  congrArg Host.Outcome.next (if_pos hup)

theorem exec_periodicFreeze (dt : Nat) : exec (.periodicFreeze dt) s = .next (s.advance dt).periodicFreeze := rfl

theorem exec_freezeComplete (i : Fin 46) : exec (.freezeComplete i) s = .next (s.markerBack i.val) := rfl

theorem exec_thaw : exec .thaw s = .next s.thaw := rfl

theorem exec_snapshotDone (ok : Bool) : exec (.snapshotDone ok) s = .next (s.snapshotDone ok) := rfl

theorem exec_trigIoEdge : exec .trigIoEdge s = .next (s.atStep stepArrive).trigEdge := rfl

theorem exec_trigIoPulseEnd_of_out (hout : s.pads.trigOut = true) : exec .trigIoPulseEnd s = .next (let t := s.emit (.pad "TRIG_IO" false)
    { t with pads := { t.pads with trigOut := false } }) := congrArg Host.Outcome.next (if_pos hout)

theorem exec_wakePulseEnd_of_wake (hwake : s.pads.wake = true) : exec .wakePulseEnd s = .next (let t := s.emit (.wake false)
    { t with pads := { t.pads with wake := false } }) := congrArg Host.Outcome.next (if_pos hwake)

/-! ### Flushes and freezes (R641, R643, R647 to R649) -/

section Running

variable (hlive : s.live 44 = true)
include hlive

theorem obs_not_down : ¬ (!s.live obsIx) = true := by simp [obsIx, hlive]

theorem flush_of_live : s.flush i = (
    let acc := (s.isl.get i).acc
    let live := acc.foldl (bumpEvent (s.selections i) i) (s.obs.live, s.obs.liveHist)
    let froz := if s.obs.markers.contains i then acc.foldl (bumpEvent (s.selections i) i) (s.obs.froz, s.obs.frozHist)
                else (s.obs.froz, s.obs.frozHist)
    { s with isl := s.isl.modify i (fun r => { r with acc := [] })
             obs := { s.obs with live := live.1, liveHist := live.2, froz := froz.1, frozHist := froz.2 } }) :=
  if_neg (obs_not_down hlive)

/-- While a bank is held a freeze only counts. -/
theorem freeze_of_held (hheld : s.obs.frozen = true ∨ s.obs.markers ≠ []) : s.freeze k = s.countFixed 44 1 :=
  (if_neg (obs_not_down hlive)).trans (if_pos (by simpa using hheld))

/-- The live bank is copied, the markers are awaited, and the trace is triggered when freezes trigger it. -/
theorem freeze_of_free (hfrozen : s.obs.frozen = false) (hmarkers : s.obs.markers = [])
    (hu : u = (State.countFixed { s with obs := { s.obs with
      froz := s.obs.live, frozHist := s.obs.liveHist
      markers := (List.range 46).filter (fun i => i != 0 && s.live i && s.powered i), source := BitVec.ofNat 3 k
      time := s.spr.time.counter, timeLocked := s.spr.time.locked, generation := (s.isl.get 44).generation } } 44 0))
    (hv : v = if bit u.traceSetup.mask 0 then u.traceFire 1 else u) : s.freeze k = v := by
  subst hv hu
  exact (if_neg (obs_not_down hlive)).trans (if_neg (by simp [hfrozen, hmarkers]))

theorem trigEdge_of_freeze (howner : s.owner 44 1 0 0 = 1) : s.trigEdge = s.freeze 1 := if_pos ⟨hlive, howner⟩

/-- Secure time has passed a multiple of the period (R647). -/
theorem periodicFreeze_of_passed {p : Nat} (hp : p = fld s.obs.snapCtrl 19 0 * 1000000) (hp0 : p ≠ 0)
    (hlocked : s.spr.time.locked = true) (hpassed : s.obs.lastPeriod / p < s.spr.time.counter.toNat / p)
    (hv : v = { s with obs := { s.obs with lastPeriod := s.spr.time.counter.toNat } }) :
    s.periodicFreeze = if s.obs.frozen ∨ !s.obs.markers.isEmpty then v.countFixed 44 3 else v.freeze 4 := by
  subst hv hp
  refine if_neg (c := _ ∨ _ ∨ _ ∨ _) ?_
  rintro (hdown | hzero | hunlocked | hearly)
  · exact obs_not_down hlive hdown
  · exact hp0 hzero
  · simp [hlocked] at hunlocked
  · omega

end Running

theorem trigEdge_of_event (howner : s.owner 44 1 0 0 ≠ 1) (hlive : s.live 2 = true) (hevent : s.owner 2 1 0 0 = 3) :
    s.trigEdge = s.raiseEvent 0x6B 0 2 := (if_neg fun h => howner h.2).trans (if_pos ⟨hlive, hevent⟩)

theorem markerBack_of_awaited (hmarker : s.obs.markers.contains i = true)
    (hu : u = (s.flush i).onObs (fun o => { o with markers := o.markers.erase i })) :
    s.markerBack i = if u.obs.markers.isEmpty then (u.onObs (fun o => { o with frozen := true })).snapshotStart else u := by
  subst hu
  exact if_pos hmarker

/-! ### Thaws and snapshots (R651, R653, R656) -/

theorem thaw_of_frozen (hup : s.regUp 44 = true) (hfrozen : s.obs.frozen = true) :
    s.thaw = { s with obs :=
      if s.obs.snapBusy then { s.obs with thawWait := true } else { s.obs with frozen := false, thawWait := false } } := by
  refine (if_neg (by simp [obsIx, hup, hfrozen])).trans ?_
  split <;> rfl

/-- A snapshot that ends counts as taken or as skipped and abandoned, and then the bank thaws when it has been told to. -/
theorem snapshotDone_of_busy {ok : Bool} (hbusy : s.obs.snapBusy = true)
    (hu : u = (let v := { s with obs := { s.obs with snapBusy := false, seq := (if ok then s.obs.seq + 1 else s.obs.seq) } }
               if ok then v.countFixed 44 2 else State.countFixed (v.countFixed 44 3) 44 11)) :
    s.snapshotDone ok = if s.obs.snapCtrl.getLsbD 30 = true ∨ s.obs.thawWait = true then
      u.onObs (fun o => { o with frozen := false, thawWait := false }) else u := by
  subst hu
  refine (if_neg (by simp [hbusy])).trans ?_
  cases ok <;> rfl

end Sys2Proof.CountersAndFreezes

open Sys2Proof Sys2Proof.Machine Sys2Proof.CountersAndFreezes

/-- Settles O44: a clause for each command; a freeze is split by the frozen bank, an edge of TRIG_IO by the pad's owner. -/
theorem countersFreezesAndSnapshots : Obligations.CountersFreezesAndSnapshots := by
  unfold Obligations.CountersFreezesAndSnapshots
  refine ⟨?flush, ?freeze, ?event, ?period, ?marker, ?thaw, ?snapshot, fun s => exec_trigIoPulseEnd_of_out,
    fun s => exec_wakePulseEnd_of_wake⟩
  case flush =>
    intro i s hlive
    rw [exec_counterFlush, flush_of_live hlive]
  case freeze =>
    intro s u v k hlive hu hv
    refine ⟨fun hfrozen hmarkers => ?free, fun hheld => ?held⟩
    case free =>
      have hfreeze := freeze_of_free hlive hfrozen hmarkers hu hv
      refine ⟨fun hk hup => ?_, fun r hr hk howner => ?_⟩
      · rw [exec_freezeTrigger_of_up hup, ← hk, hfreeze]
      · rw [exec_trigIoEdge, ← hr, trigEdge_of_freeze hlive howner, ← hk, hfreeze]
    case held =>
      refine ⟨fun hup => ?_, fun r hr howner => ?_⟩
      · rw [exec_freezeTrigger_of_up hup, freeze_of_held hlive hheld]
      · rw [exec_trigIoEdge, ← hr, trigEdge_of_freeze hlive howner, freeze_of_held hlive hheld]
  case event =>
    intro s u hu howner hlive hevent
    rw [exec_trigIoEdge, ← hu, trigEdge_of_event howner hlive hevent]
  case period =>
    intro dt s u v p hu hlive hp hp0 hlocked hpassed hv
    rw [exec_periodicFreeze, ← hu, periodicFreeze_of_passed hlive hp hp0 hlocked hpassed hv]
  case marker =>
    intro i s u hmarker hu
    rw [exec_freezeComplete, markerBack_of_awaited hmarker hu]
  case thaw =>
    intro s hup hfrozen
    rw [exec_thaw, thaw_of_frozen hup hfrozen]
  case snapshot =>
    intro ok s u hbusy hu
    rw [exec_snapshotDone, snapshotDone_of_busy hbusy hu]
end
